-- ==== Sys2Proof/Word.lean ====
section
/-!
DEFINITION. The word types of the device's interfaces and the sparse map the state is built from.
-/

namespace Sys2Proof

/-- One byte of a buffer, an entry or a store. -/
abbrev Byte := BitVec 8

/-- A 32-bit register or dword. -/
abbrev Word := BitVec 32

/-- A 64-bit value: an IOVA, a timebase value, a TIME64. -/
abbrev DWord := BitVec 64

/-- A byte string. -/
abbrev Bytes := List Byte

/-- Sparse data by key, keys strictly rising. -/
abbrev Map (α : Type) := List (Nat × α)

end Sys2Proof
end

