-- ==== Sys2Proof/Syntax.lean ====
section
/-!
DEFINITION. The commands of the block: one constructor of `Instr` for each row of spec/opcode_table.json, with the
operands of the row, and the operand types. `fails` is the number of NVM words that fail their write
verification in the step (R241, R262), `uv` a rail's level in microvolts. An operand carries what reaches the device from outside in that step
(a value read over DMA, a register write, a pin, a measured level); everything else a step uses is in the state.
-/

namespace Sys2Proof

/-- Format A of Table 74: vector and predicate instructions. -/
structure FmtA where
  w   : Bool
  pg  : Fin 8
  pz  : Bool
  qm  : Fin 4
  vd  : Fin 32
  va  : Fin 32
  vb  : Fin 32
  imm : Word
  deriving DecidableEq, Repr

/-- Format M of Table 74: memory instructions. `vi` also holds dd − 1 for the packed forms. -/
structure FmtM where
  w    : Bool
  pg   : Fin 8
  pz   : Bool
  pl   : Fin 4
  vd   : Fin 32
  vi   : Fin 32
  nf   : Fin 4
  sp   : Bool
  sb   : Fin 16
  disp : BitVec 23
  deriving DecidableEq, Repr

/-- Format S of Table 74: scalar instructions. -/
structure FmtS where
  sd  : Fin 16
  sa  : Fin 16
  sb  : Fin 16
  fn  : Fin 16
  i   : Bool
  imm : Word
  deriving DecidableEq, Repr

/-- A key as the key register holds it: the attribute block of Table 84, its length, the two Boolean shares of the key bytes that lie in
the register (of the whole key, or of its first 32 bytes while its tail is spilled, R264, R267, R280), and where its tail lies. `markId`
is the first command that no longer knows a key marked for destruction: those accepted before it still do (R166, R274, R283). -/
structure Key where
  typ            : Nat
  origin         : Nat
  priv           : Bool
  destroyPending : Bool
  markId         : Nat
  len            : Nat
  shareA         : Bytes
  shareB         : Bytes
  attrMask       : Bytes
  owner          : Nat
  ownerPos       : Nat
  share          : List Nat
  wholePort      : Bool
  attr           : BitVec 8
  uses           : BitVec 16
  lcMask         : BitVec 8
  tail           : List Nat
  spilled        : Bool
  version        : Nat
  used           : Nat
  deriving DecidableEq, Repr

/-- A berth: the public view of Table 88 and its working state (R286, R304, R421). -/
structure Berth where
  owner     : Nat
  ownerPos  : Nat
  roleEpoch : BitVec 8
  bflags    : BitVec 8
  lock0     : Bool
  lock1     : Bool
  slot0     : Option Nat
  slot1     : Option Nat
  chainHead : Bytes
  nextSeq   : DWord
  lastEpoch : DWord
  resume    : Bool
  done      : Nat
  failed    : Nat
  inBytes   : Nat
  opAllow   : DWord
  pflags    : BitVec 8
  label     : Bytes
  spilled   : Bool
  version   : Nat
  used      : Nat
  freeing   : Bool
  incoming  : Option Nat
  moving    : Option Nat
  deriving DecidableEq, Repr

/-- What a HELLO carries (R409). -/
structure HelloMsg where
  nonce       : Bytes
  epoch       : DWord
  deviceId    : Bytes
  ownerDigest : Bytes
  idKey       : Bytes
  agreeKey    : Bytes
  deriving DecidableEq, Repr

/-- Which SRAM word failed, in the regions of Table 9 and Table 10, with what the region's response needs. -/
inductive SramRegion where
  | keyRegister (granule : Nat)
  | berthTable (index : Nat)
  | scratch (kind index : Nat)
  | planMemory (planId : Nat)
  | controlStore
  | wharf (cid : Nat)
  | receiveBuffer
  | keccakState (index : Nat)
  | dmaDescriptor (cid : Nat)
  | spillVersionKey (granule : Nat)
  | spillVersionBerth (index : Nat)
  deriving DecidableEq, Repr

/-- Region of a graphics-memory block that fails its MAC check (R30, Table 12). -/
inductive GmRegion where
  | cache (cid entry : Nat)
  | planStore (planId : Nat) (cid : Nat)
  | keySpill (granule : Nat) (cid : Nat)
  | berthSpill (index : Nat) (cid : Nat)
  | working (cid : Nat)
  deriving DecidableEq, Repr

/-- A write that a loss of main power or a device reset cuts off (R44, R57, R242, R243, R259, R383): a copy of a record, whole or
with only its VALUE word written; the recorder write in flight; the blocks of an NVM_WRITE committed so far; a tree record that
KEY_DESTROY overwrites or HBS_KEYGEN writes; the identity (1), owner root (2) or SWK (3) record; a fuse burn of the OTP minimum;
a life-cycle slot of an OTP copy, with the bits it holds; a burn of MON_FUSE, with the fuses of either row that were burned (R370). -/
inductive Torn where
  | copy (region index : Nat) (value : DWord) (gen : BitVec 24) (margin : Bool)
  | half (region index : Nat) (value : DWord) (gen : BitVec 24)
  | record (bytes : Bytes)
  | blocks (cid n : Nat)
  | treeErase (tree : Nat)
  | treeRecord (tree : Nat)
  | persist (which : Nat)
  | fuse (level : Nat)
  | slot (copy : Nat) (bits : BitVec 16)
  | monFuse (value : Word) (fuseA fuseB : BitVec 16)
  deriving DecidableEq, Repr

/-- What a segment does that the model is told: it ends, with the flag byte the engine delivers (R189) and, of an engine that is no vector
engine in a group of a standard plan, what it has written to the command's LVE frame since it was last told (R235); it has written that
much and goes on; or it ends with a failed output check (R198). -/
inductive SegEnd where
  | wrote (writes : List (Nat × Bytes))
  | done (flags : Byte) (writes : List (Nat × Bytes))
  | checkFailed
  deriving DecidableEq, Repr

/-- What the receiver's checks of a link packet found (R412). -/
inductive PktCheck where
  | good | badCrc | badTag
  deriving DecidableEq, Repr

/-- The head of a link packet as the receiver sees it (Table 150): its link, its SEQ and what its checks found. -/
structure PktHead where
  link  : Fin 8
  seq   : DWord
  check : PktCheck
  deriving DecidableEq, Repr

/-- The same for a row that names the outcome of the checks on its own. -/
structure PktFrom where
  link : Fin 8
  seq  : DWord
  deriving DecidableEq, Repr

/-- The data of a write request to a BAR: good, poisoned, or failing its ECRC (R430). -/
inductive BarData where
  | good (bytes : Bytes)
  | poisoned
  | badEcrc
  deriving DecidableEq, Repr

/-- A read request to BAR 0: its first byte and its length (R454). -/
structure BarRead where
  fn  : Nat
  off : Nat
  len : Nat
  deriving DecidableEq, Repr

/-- What a write of a function's PCIe control registers other than Command leaves in them (Table 156; log 11), and the AER status bits it
clears. -/
structure PcieWrite where
  devCtl  : BitVec 16
  devCtl2 : BitVec 16
  aerCtl  : Word
  acsCtl  : BitVec 16
  bar0    : DWord
  bar2    : DWord
  uncClear : Word
  corClear : Word
  deriving DecidableEq, Repr

/-- NumVFs and the VF BARs of an SR-IOV capability (R311, R428). -/
structure Sriov where
  numVfs : BitVec 16
  bar0   : DWord
  bar2   : DWord
  deriving DecidableEq, Repr

/-- A host port's link has trained: at a speed (1 to 5 for 2.5 to 32.0 GT/s) and a width (Table 156). -/
structure PortLink where
  port  : Fin 8
  speed : Nat
  width : Nat
  deriving DecidableEq, Repr

/-- What happens on a host port's link: a Hot Reset, a transition to DL_Down, or its training after one (R432). -/
inductive PortEvent where
  | hotReset (port : Fin 8)
  | dlDown (port : Fin 8)
  | trained (l : PortLink)
  deriving DecidableEq, Repr

/-- A write to the MSI-X capability or to a field of one MSI-X table entry (R333). -/
inductive MsixWrite where
  | control (enable mask : Bool)
  | entryAddrLo (vec : Nat) (v : Word)
  | entryAddrHi (vec : Nat) (v : Word)
  | entryData (vec : Nat) (v : Word)
  | entryMask (vec : Nat) (masked : Bool)
  deriving DecidableEq, Repr

/-- The commands of the block, one constructor for each row of the table. -/
inductive Instr where
  -- lattice vector instructions
  | nop (e : Fin 32) (f : FmtA)
  | vadd (e : Fin 32) (f : FmtA)
  | vsub (e : Fin 32) (f : FmtA)
  | vmadd (e : Fin 32) (f : FmtA)
  | vmsub (e : Fin 32) (f : FmtA)
  | vmmul (e : Fin 32) (f : FmtA)
  | vmmulm (e : Fin 32) (f : FmtA)
  | vmmult (e : Fin 32) (f : FmtA)
  | vbfly (e : Fin 32) (f : FmtA)
  | vibfly (e : Fin 32) (f : FmtA)
  | vsadd (e : Fin 32) (f : FmtA)
  | vssub (e : Fin 32) (f : FmtA)
  | vrshr (e : Fin 32) (f : FmtA)
  | vcmpr (e : Fin 32) (f : FmtA)
  | vdcmpr (e : Fin 32) (f : FmtA)
  | vp2r (e : Fin 32) (f : FmtA)
  | vdec (e : Fin 32) (f : FmtA)
  | vcacc (e : Fin 32) (f : FmtA)
  | vsel (e : Fin 32) (f : FmtA)
  | vand (e : Fin 32) (f : FmtA)
  | vor (e : Fin 32) (f : FmtA)
  | vxor (e : Fin 32) (f : FmtA)
  | vshl (e : Fin 32) (f : FmtA)
  | vshr (e : Fin 32) (f : FmtA)
  | vb2a (e : Fin 32) (f : FmtA)
  | va2b (e : Fin 32) (f : FmtA)
  | vref (e : Fin 32) (f : FmtA)
  | vunmask (e : Fin 32) (f : FmtA)
  | vmov (e : Fin 32) (f : FmtA)
  | vli (e : Fin 32) (f : FmtA)
  | viota (e : Fin 32) (f : FmtA)
  | vbcast (e : Fin 32) (f : FmtA)
  | vext (e : Fin 32) (f : FmtA)
  | vcmp (e : Fin 32) (f : FmtA)
  | vcmpi (e : Fin 32) (f : FmtA)
  | vnorm (e : Fin 32) (f : FmtA)
  | plog (e : Fin 32) (f : FmtA)
  | pfirst (e : Fin 32) (f : FmtA)
  | pcnt (e : Fin 32) (f : FmtA)
  | vld (e : Fin 32) (f : FmtM)
  | vst (e : Fin 32) (f : FmtM)
  | vgth (e : Fin 32) (f : FmtM)
  | vsct (e : Fin 32) (f : FmtM)
  | vldp (e : Fin 32) (f : FmtM)
  | vstp (e : Fin 32) (f : FmtM)
  | qset (e : Fin 32) (f : FmtA)
  | sli (e : Fin 32) (f : FmtS)
  | salu (e : Fin 32) (f : FmtS)
  | sld (e : Fin 32) (f : FmtS)
  | sst (e : Fin 32) (f : FmtS)
  -- supplies, pins and resets
  | mainPowerGood (keeperSel : BitVec 3)
  | mainPowerLost (torn : List Torn)
  | devResetNAssert (torn : List Torn)
  | devResetNRelease (keeperSel : BitVec 3)
  | devSoftReset (fn : Nat) (value : Word) (torn : List Torn)
  | perstN (port : Fin 8)
  | hotReset (ev : PortEvent)
  | d3hotToD0 (fn : Nat)
  | trstN
  | flr (fn : Nat)
  | flrTakeEffect (fn : Nat)
  | flrCleanupDone (fn : Nat)
  | busMasterEnableWrite (fn : Nat) (command : BitVec 16) (control : PcieWrite)
  | sriovConfigWrite (port : Fin 8) (vfEnable : Bool) (sriov : Sriov)
  -- boot
  | rom (integrity : Bool)
  | otpLc (failedSlots : List (Nat × Nat))
  | ucode (slotA slotB : Bytes)
  | bootImageLoad (fn : Nat) (value : Word)
  | hostImageLoaded (image : Option Bytes)
  | selftest (memoryOk katOk : Bool)
  | rngFill (condOk expOk : Bool)
  | install (fails : List Nat)
  -- rings
  | pollPass (fn : Nat)
  | sqDoorbellRead (fn qid : Nat) (line : Bytes)
  | cqDoorbellRead (fn qid : Nat) (line : Bytes)
  | doorbellFail (fn qid : Nat) (cq : Bool)
  | pushWrite (fn offset : Nat) (data : BarData)
  | fetch (fn qid : Nat)
  | entryReadDone (fn qid : Nat) (data : Option Bytes)
  | accept (fn qid : Nat) (sequencer : Fin 16)
  | inputReadDone (cid : Nat) (data : Bytes) (failed : Option Nat)
  | completionWrite (cid : Nat)
  -- keeper commands
  | createSq (cid : Nat)
  | createCq (cid : Nat)
  | destroySq (cid : Nat)
  | destroyCq (cid : Nat)
  | disableSq (cid : Nat)
  | enableSq (cid : Nat)
  | funcEnable (cid : Nat)
  | funcDisable (cid : Nat)
  | funcDisableEffect (cid : Nat)
  | funcQuench (cid : Nat)
  | quenchDone (cid : Nat)
  | funcDrained (fn : Nat)
  | funcSetLimits (cid : Nat)
  | classGrantsChange (fn : Nat)
  | funcSetWorld (cid : Nat)
  | loadTimetable (cid : Nat)
  | timetableReplace
  | setTargets (cid : Nat)
  | setTargetState (cid : Nat)
  | setModeration (cid : Nat)
  | setTopology (cid : Nat)
  | setCalendar (cid : Nat)
  | setEnvironment (cid : Nat)
  | berthAlloc (cid : Nat)
  | berthFree (cid : Nat)
  | berthFreeDone (cid : Nat)
  | berthMove (cid : Nat)
  | berthQuery (cid : Nat)
  | loadPlan (cid : Nat)
  | unloadPlan (cid : Nat)
  | planCopyIn (planId : Nat)
  | planRewrite (planId : Nat)
  | lcTransition (cidFails : Nat × Nat)
  | debugChallenge (cid : Nat)
  | debugResponse (cid : Nat)
  | recorderMark (cid : Nat)
  | modeHold (cid : Nat)
  | modeResume (cid : Nat)
  -- operation commands
  | kemEncaps (cid : Nat)
  | kemDecaps (cid : Nat)
  | dhAgree (cid : Nat)
  | rsaOaepEncap (cid : Nat)
  | rsaOaepDecap (cid : Nat)
  | hybridKex (cid : Nat)
  | sign (cid : Nat)
  | verify (cid : Nat)
  | aeadEncrypt (cid : Nat)
  | aeadDecrypt (cid : Nat)
  | cipherEncrypt (cid : Nat)
  | cipherDecrypt (cid : Nat)
  | hash (cid : Nat)
  | macGenerate (cid : Nat)
  | macVerify (cid : Nat)
  | kdf (cid : Nat)
  | keyWrite (cid : Nat)
  | keyWritePublic (cid : Nat)
  | keyGenerate (cid : Nat)
  | keyPublic (cid : Nat)
  | keyDestroy (cid : Nat)
  | keyDestroyZeroise (granule : Nat)
  | keyQuery (cid : Nat)
  | keyShare (cid : Nat)
  | keyBind (cid : Nat)
  | wrapOut (cid : Nat)
  | wrapIn (cid : Nat)
  | kwWrap (cid : Nat)
  | kwUnwrap (cid : Nat)
  | random (cid : Nat)
  | ctrRead (cid fails : Nat)
  | ctrIncrement (cid fails : Nat)
  | hbsKeygen (cid : Nat) (fails : List Nat)
  | hbsSign (cid : Nat)
  | leafReserve (cid fails : Nat)
  | hbsQuery (cid fails : Nat)
  | nvmRead (cid : Nat)
  | nvmWrite (cid : Nat) (fails : List Nat)
  | timeRead (cid : Nat)
  | timestamp (cid : Nat)
  | seal (cid : Nat)
  | sealLink (cid : Nat)
  | planRun (cid : Nat)
  -- engines, memories and monitors
  | arbiterVisit
  | segmentEnd (cid kind : Nat) (how : SegEnd)
  | dispatchBoundary (sequencer : Fin 16)
  | engineStall (kind index : Nat)
  | dualRailFault (kind index : Nat)
  | trapMicroword (sequencer : Fin 16)
  | sramCorrected (region word : Nat)
  | sramUncorrectable (region : SramRegion) (word : Nat)
  | gmMacFail (region : GmRegion)
  | edcRetry (recovered : Nat) (write : Bool) (region : GmRegion)
  | gmRefresh
  | gmRetrain
  | tailSpill (granule : Nat)
  | tailRecall (granule : Nat) (record : Bytes)
  | berthSpill (index : Nat)
  | berthRecall (index : Nat) (record : Bytes)
  | keyReshare
  | ucodeCheck (changed : List (Nat × BitVec 256))
  | paceWindow (counts : Vector Nat 4)
  | wearWindow
  | recordCommit (fails : Nat)
  | glitchEvent (rail : Fin 6) (uv : Nat)
  | slowExcursion (rail : Fin 6) (uv : Nat)
  | stateCodeEvent (checker : Fin 4) (unit : Nat)
  | alarmSetResponse
  | clearAllErase
  | vcoreBandSettle
  | timebaseCheck (vbakUv : Nat)
  | vbakRetentionLoss
  | backupPowerOn
  | crystalStop
  | timeLost
  -- random numbers
  | noiseSample (raw : BitVec 28)
  | testWindowEnd
  | refillComplete (condOk expOk : Bool)
  | rngWaitTimeout (cid : Nat)
  | rngDrawTimeout (cid : Nat)
  | rngKatCtrlRun (fn : Nat) (value : Word)
  -- interrupts and registers
  | moderationTimer (fn qid : Nat)
  | wakeHoldExpire (fn vec : Nat)
  | keeperStall (fn : Nat)
  | intSoftPend (fn : Nat) (value : Word)
  | maskClear (fn : Nat) (n : Fin 8) (value : Word)
  | clearCount (fn : Nat) (n : Fin 8) (value : Word)
  | msixUnmask (fn : Nat) (w : MsixWrite)
  | maintenanceEnter (fn : Nat) (value : Word)
  | maintenanceLeave (fn : Nat) (value : Word)
  | kqEnable (fn : Nat) (value : Word)
  | kqDisable (fn : Nat) (value : Word)
  | resetIdx (fn : Nat) (value : Word)
  | monWindowWrite (fn : Nat) (n : Fin 16) (value : Word)
  | monThreshWrite (fn : Nat) (n : Fin 16) (value : Word)
  | alarmCfgLock (fn : Nat) (value : Word)
  | monFuse (fn : Nat) (value : Word)
  | dbgCtrlClose (fn : Nat) (value : Word)
  | tbNowLoRead (req : BarRead)
  | calNowLoRead (req : BarRead)
  | registerWrite (fn offset : Nat) (data : BarData)
  -- test access port and debug
  | extest
  | idcode
  | samplePreload
  | clamp
  | highz
  | bypass
  | dbgAccess
  | debugSpaceAccess (dr : DWord)
  -- towpath links
  | linkTrained (link : Fin 8) (lanes : BitVec 8) (peerPosition peerDevices : Nat)
  | linkKeyed (link : Fin 8)
  | hello (head : PktHead) (msg : HelloMsg)
  | kemSig (head : PktHead) (ct sig : Bytes)
  | rekey (head : PktHead) (msg : HelloMsg) (ct sig : Bytes)
  | rekeyStart (link : Fin 8)
  | credit (head : PktHead) (channel : Fin 4) (count : Nat)
  | ack (link : Fin 8) (seq : DWord)
  | nak (link : Fin 8)
  | replayTimeout (link : Fin 8)
  | laneFailure (link : Fin 8) (lane : Fin 8)
  | retrainDone (link : Fin 8) (lanes : BitVec 8)
  | failedRetry (link : Fin 8)
  | peerTimeout (position : Fin 8)
  | cmd (head : PktFrom) (number fn : Nat) (worldS : Bool) (cls : BitVec 6) (entry : Bytes) (chk : PktCheck)
  | inPull (head : PktFrom) (number offset len : Nat) (chk : PktCheck)
  | inData (head : PktFrom) (number offset : Nat) (data : Bytes) (chk : PktCheck)
  | outData (head : PktFrom) (number offset : Nat) (data : Bytes) (chk : PktCheck)
  | done (head : PktFrom) (number status outLen detail : Nat) (chk : PktCheck)
  | berthXfer (head : PktHead) (move : Nat) (berth : Berth) (keys : List (Nat × Key))
  | xferAck (head : PktHead) (move : Nat) (handle : Word)
  | xferCommit (head : PktHead) (move : Nat)
  | xferAbort (head : PktHead) (move : Nat)
  | endFunc (head : PktHead) (fn kind : Nat)
  -- further events
  | vio18Good
  | vio18Lost
  | tbclkStart
  | crystalEdge
  | gmTrainingDone (trained density32 : BitVec 8)
  | rngFillTimeout
  | rngKatDone (condOk expOk : Bool)
  | d0ToD3hot (fn : Nat)
  | perstNRelease (l : PortLink)
  | tprefLoss
  | peerLost (link : Fin 8)
  deriving DecidableEq, Repr

end Sys2Proof
end

