-- ==== Sys2Proof/Decode.lean ====
section
/-!
DEFINITION. The block takes commands, not words: no row of the opcode table gives bits, so `decodeTableWord` answers
none. The one encoding the spec gives is that of the lattice vector instructions (Tables 74, 75), which an owner plan's
body holds: their decoder and, after it, their encoder. Words and fields are natural numbers.
-/

namespace Sys2Proof

/-- The table gives no row bits: no word spells a command. -/
def decodeTableWord (_nbits _w : Nat) : Option Instr := none

/-! ### Fields of a word (Table 74) -/

/-- Bits `[lo + n − 1 : lo]` of a word. -/
def wfield (w lo n : Nat) : Nat := w / 2 ^ lo % 2 ^ n

/-- A field as a bounded number. -/
def finField (n : Nat) [NeZero n] (x : Nat) : Fin n := Fin.ofNat n x

/-- Format A of a word. -/
def fmtAOf (w : Nat) : FmtA :=
  { w := wfield w 55 1 == 1, pg := finField 8 (wfield w 52 3), pz := wfield w 51 1 == 1, qm := finField 4 (wfield w 49 2),
    vd := finField 32 (wfield w 44 5), va := finField 32 (wfield w 39 5), vb := finField 32 (wfield w 34 5),
    imm := BitVec.ofNat 32 (wfield w 0 32) }

/-- Format M of a word. -/
def fmtMOf (w : Nat) : FmtM :=
  { w := wfield w 55 1 == 1, pg := finField 8 (wfield w 52 3), pz := wfield w 51 1 == 1, pl := finField 4 (wfield w 49 2),
    vd := finField 32 (wfield w 44 5), vi := finField 32 (wfield w 39 5), nf := finField 4 (wfield w 37 2),
    sp := wfield w 36 1 == 1, sb := finField 16 (wfield w 32 4), disp := BitVec.ofNat 23 (wfield w 0 23) }

/-- Format S of a word. -/
def fmtSOf (w : Nat) : FmtS :=
  { sd := finField 16 (wfield w 52 4), sa := finField 16 (wfield w 48 4), sb := finField 16 (wfield w 44 4),
    fn := finField 16 (wfield w 40 4), i := wfield w 39 1 == 1, imm := BitVec.ofNat 32 (wfield w 0 32) }

/-- Format A with its reserved bits zero. -/
def decA (w : Nat) (k : FmtA → Instr) : Option Instr := if wfield w 32 2 = 0 then some (k (fmtAOf w)) else none

/-- Format M with its reserved bits zero. -/
def decM (w : Nat) (k : FmtM → Instr) : Option Instr := if wfield w 23 9 = 0 then some (k (fmtMOf w)) else none

/-- Format S with its reserved bits zero. -/
def decS (w : Nat) (k : FmtS → Instr) : Option Instr := if wfield w 32 7 = 0 then some (k (fmtSOf w)) else none

/-- The instruction of a word for engine `e` (Table 75); none for an opcode that is not in the table or reserved bits of
the format that are not zero. -/
def lveDecode (e : Fin 32) (w : Nat) : Option Instr :=
  match w / 2 ^ 56 with
  | 0x00 => decA w (.nop e)
  | 0x10 => decA w (.vadd e)
  | 0x11 => decA w (.vsub e)
  | 0x12 => decA w (.vmadd e)
  | 0x13 => decA w (.vmsub e)
  | 0x14 => decA w (.vmmul e)
  | 0x15 => decA w (.vmmulm e)
  | 0x16 => decA w (.vmmult e)
  | 0x17 => decA w (.vbfly e)
  | 0x18 => decA w (.vibfly e)
  | 0x19 => decA w (.vsadd e)
  | 0x1A => decA w (.vssub e)
  | 0x1B => decA w (.vrshr e)
  | 0x1C => decA w (.vcmpr e)
  | 0x1D => decA w (.vdcmpr e)
  | 0x1E => decA w (.vp2r e)
  | 0x1F => decA w (.vdec e)
  | 0x20 => decA w (.vcacc e)
  | 0x21 => decA w (.vsel e)
  | 0x22 => decA w (.vand e)
  | 0x23 => decA w (.vor e)
  | 0x24 => decA w (.vxor e)
  | 0x25 => decA w (.vshl e)
  | 0x26 => decA w (.vshr e)
  | 0x28 => decA w (.vb2a e)
  | 0x29 => decA w (.va2b e)
  | 0x2A => decA w (.vref e)
  | 0x2B => decA w (.vunmask e)
  | 0x2C => decA w (.vmov e)
  | 0x30 => decA w (.vli e)
  | 0x31 => decA w (.viota e)
  | 0x32 => decA w (.vbcast e)
  | 0x33 => decA w (.vext e)
  | 0x38 => decA w (.vcmp e)
  | 0x39 => decA w (.vcmpi e)
  | 0x3A => decA w (.vnorm e)
  | 0x40 => decA w (.plog e)
  | 0x41 => decA w (.pfirst e)
  | 0x42 => decA w (.pcnt e)
  | 0x50 => decM w (.vld e)
  | 0x51 => decM w (.vst e)
  | 0x52 => decM w (.vgth e)
  | 0x53 => decM w (.vsct e)
  | 0x54 => decM w (.vldp e)
  | 0x55 => decM w (.vstp e)
  | 0x58 => decA w (.qset e)
  | 0x60 => decS w (.sli e)
  | 0x61 => decS w (.salu e)
  | 0x62 => decS w (.sld e)
  | 0x63 => decS w (.sst e)
  | _ => none

/-! ### The encoder -/

/-- A vector instruction by opcode and format. -/
inductive LveForm where
  | a (code : Nat) (f : FmtA)
  | m (code : Nat) (f : FmtM)
  | s (code : Nat) (f : FmtS)
  deriving DecidableEq, Repr

/-- Opcode and format of a vector instruction (Table 75). -/
def lveForm (i : Instr) : Option LveForm :=
  match i with
  | .nop _ f => some (.a 0x00 f)
  | .vadd _ f => some (.a 0x10 f)
  | .vsub _ f => some (.a 0x11 f)
  | .vmadd _ f => some (.a 0x12 f)
  | .vmsub _ f => some (.a 0x13 f)
  | .vmmul _ f => some (.a 0x14 f)
  | .vmmulm _ f => some (.a 0x15 f)
  | .vmmult _ f => some (.a 0x16 f)
  | .vbfly _ f => some (.a 0x17 f)
  | .vibfly _ f => some (.a 0x18 f)
  | .vsadd _ f => some (.a 0x19 f)
  | .vssub _ f => some (.a 0x1A f)
  | .vrshr _ f => some (.a 0x1B f)
  | .vcmpr _ f => some (.a 0x1C f)
  | .vdcmpr _ f => some (.a 0x1D f)
  | .vp2r _ f => some (.a 0x1E f)
  | .vdec _ f => some (.a 0x1F f)
  | .vcacc _ f => some (.a 0x20 f)
  | .vsel _ f => some (.a 0x21 f)
  | .vand _ f => some (.a 0x22 f)
  | .vor _ f => some (.a 0x23 f)
  | .vxor _ f => some (.a 0x24 f)
  | .vshl _ f => some (.a 0x25 f)
  | .vshr _ f => some (.a 0x26 f)
  | .vb2a _ f => some (.a 0x28 f)
  | .va2b _ f => some (.a 0x29 f)
  | .vref _ f => some (.a 0x2A f)
  | .vunmask _ f => some (.a 0x2B f)
  | .vmov _ f => some (.a 0x2C f)
  | .vli _ f => some (.a 0x30 f)
  | .viota _ f => some (.a 0x31 f)
  | .vbcast _ f => some (.a 0x32 f)
  | .vext _ f => some (.a 0x33 f)
  | .vcmp _ f => some (.a 0x38 f)
  | .vcmpi _ f => some (.a 0x39 f)
  | .vnorm _ f => some (.a 0x3A f)
  | .plog _ f => some (.a 0x40 f)
  | .pfirst _ f => some (.a 0x41 f)
  | .pcnt _ f => some (.a 0x42 f)
  | .vld _ f => some (.m 0x50 f)
  | .vst _ f => some (.m 0x51 f)
  | .vgth _ f => some (.m 0x52 f)
  | .vsct _ f => some (.m 0x53 f)
  | .vldp _ f => some (.m 0x54 f)
  | .vstp _ f => some (.m 0x55 f)
  | .qset _ f => some (.a 0x58 f)
  | .sli _ f => some (.s 0x60 f)
  | .salu _ f => some (.s 0x61 f)
  | .sld _ f => some (.s 0x62 f)
  | .sst _ f => some (.s 0x63 f)
  | _ => none

/-- One as a number. -/
def boolNat (b : Bool) : Nat := if b then 1 else 0

/-- The word of a Format A instruction (Table 74). -/
def wordA (code : Nat) (f : FmtA) : Nat :=
  code * 2 ^ 56 + boolNat f.w * 2 ^ 55 + f.pg.val * 2 ^ 52 + boolNat f.pz * 2 ^ 51 + f.qm.val * 2 ^ 49 + f.vd.val * 2 ^ 44
    + f.va.val * 2 ^ 39 + f.vb.val * 2 ^ 34 + f.imm.toNat

/-- The word of a Format M instruction. -/
def wordM (code : Nat) (f : FmtM) : Nat :=
  code * 2 ^ 56 + boolNat f.w * 2 ^ 55 + f.pg.val * 2 ^ 52 + boolNat f.pz * 2 ^ 51 + f.pl.val * 2 ^ 49 + f.vd.val * 2 ^ 44
    + f.vi.val * 2 ^ 39 + f.nf.val * 2 ^ 37 + boolNat f.sp * 2 ^ 36 + f.sb.val * 2 ^ 32 + f.disp.toNat

/-- The word of a Format S instruction. -/
def wordS (code : Nat) (f : FmtS) : Nat :=
  code * 2 ^ 56 + f.sd.val * 2 ^ 52 + f.sa.val * 2 ^ 48 + f.sb.val * 2 ^ 44 + f.fn.val * 2 ^ 40 + boolNat f.i * 2 ^ 39
    + f.imm.toNat

/-- The word of a form. -/
def formWord (x : LveForm) : Nat :=
  match x with
  | .a code f => wordA code f
  | .m code f => wordM code f
  | .s code f => wordS code f

/-- The word of a vector instruction; none for the other commands. -/
def lveEncode (i : Instr) : Option Nat := (lveForm i).map formWord

end Sys2Proof
end

