-- ==== Sys2Proof/Machine/Bytes.lean ====
section
/-!
DEFINITION. Byte strings: little-endian values (R3), slices, and the CRC-32C of Tables 76, 119 and 150.
-/

namespace Sys2Proof

/-- The little-endian value of a byte string (R3). -/
def leVal (b : Bytes) : Nat := b.foldr (fun x a => x.toNat + 256 * a) 0

/-- `n` bytes from `off`. -/
def slice (b : Bytes) (off n : Nat) : Bytes := (b.drop off).take n

/-- The little-endian value of `n` bytes at `off`; bytes past the end count as zero (R3). -/
def le (b : Bytes) (off n : Nat) : Nat := leVal (slice b off n)

/-- A value as `n` little-endian bytes (R3). -/
def leBytes : Nat → Nat → Bytes
  | 0, _ => []
  | n + 1, v => BitVec.ofNat 8 v :: leBytes n (v / 256)

/-- The big-endian value of a byte string. -/
def beVal (b : Bytes) : Nat := b.foldl (fun a x => 256 * a + x.toNat) 0

/-- `n` zero bytes. -/
def zeros (n : Nat) : Bytes := List.replicate n 0

/-- A byte string cut or zero-padded to `n` bytes. -/
def padTo (n : Nat) (b : Bytes) : Bytes := (b ++ zeros (n - b.length)).take n

/-- Every byte is zero. -/
def allZero (b : Bytes) : Bool := b.all (· == 0)

/-- A byte string with the bytes from `off` replaced. -/
def overwrite (b : Bytes) (off : Nat) (d : Bytes) : Bytes := b.take off ++ d ++ b.drop (off + d.length)

/-- The first index of `lo`..`lo + n − 1` that holds a non-zero byte. -/
def firstNonZero (b : Bytes) (lo n : Nat) : Option Nat :=
  (List.range n).findSome? fun i => if (b.getD (lo + i) 0) = 0 then none else some (lo + i)

/-- One bit of CRC-32C, reflected polynomial 0x82F63B78 (PRESUMED, log 6). -/
def crcBit (c : Nat) : Nat := if c % 2 = 1 then Nat.xor (c / 2) 0x82F63B78 else c / 2

/-- One byte of CRC-32C. -/
def crcByte (c : Nat) (x : Byte) : Nat :=
  crcBit (crcBit (crcBit (crcBit (crcBit (crcBit (crcBit (crcBit (Nat.xor c x.toNat))))))))

/-- CRC-32C of a byte string (log 6). -/
def crc32c (b : Bytes) : Nat := Nat.xor (b.foldl crcByte 0xFFFFFFFF) 0xFFFFFFFF

/-- Bit `i` of a natural number. -/
def bit (v i : Nat) : Bool := v / 2 ^ i % 2 == 1

/-- Bits `[lo + n − 1 : lo]` of a natural number. -/
def bits (v lo n : Nat) : Nat := v / 2 ^ lo % 2 ^ n

/-- ASCII bytes of the strings the spec quotes. -/
def ascii (t : String) : Bytes := t.toList.map fun ch => BitVec.ofNat 8 ch.toNat

/-- One as a bit. -/
def b2n (b : Bool) : Nat := if b then 1 else 0

/-- A sum of values placed at bit positions: the fields of a register. -/
def packFields (fs : List (Nat × Nat)) : Word := BitVec.ofNat 32 (fs.foldl (fun a f => a + f.2 * 2 ^ f.1) 0)

/-- A number inserted into a list of distinct numbers in rising order. -/
def insertNat (x : Nat) : List Nat → List Nat
  | [] => [x]
  | y :: r => if x < y then x :: y :: r else if x = y then y :: r else y :: insertNat x r

/-- A sum that saturates. -/
def satAdd (a b m : Nat) : Nat := min (a + b) m

end Sys2Proof
end

