-- ==== Sys2Proof/Config.lean ====
section
/-!
DEFINITION. What the spec fixes as a number of this part, and the functions it names but does not state:
the algorithms of the standards it cites, the unpublished segment listings, and the values it leaves open.
Every `opaque` here has no body: nothing in Lean can evaluate it or prove a value of it.
-/

namespace Sys2Proof.Config

/-! ### Fixed figures of the part -/

/-- Accepted positions of one dispatch sequencer (R10). -/
def positions : Nat := 64
/-- Completion slots of the wharf for created CQs (R91). -/
def wharfSlots : Nat := 262144
/-- Created SQs, and created CQs, of the device (R60). -/
def queueTotal : Nat := 4096
/-- Berths of a device (R284). -/
def berthTotal : Nat := 65536
/-- First granule of the stateful tree range (R263). -/
def treeBase : Nat := 0x1F800
/-- Granules of the general range (R263). -/
def generalGranules : Nat := 0x1F800
/-- Bytes of user NVM (R26, R174). -/
def userNvm : Nat := 1048576
/-- Slots of the event recorder (R378). -/
def recorderSlots : Nat := 65536
/-- Most pinned records (R378). -/
def pinLimit : Nat := 2048
/-- Entries of the recorder's on-chip queue (R383). -/
def recorderQueue : Nat := 256
/-- Queue entries kept for ALARM records (R383). -/
def recorderKept : Nat := 16
/-- Owner plans the plan store holds (R205). -/
def ownerPlans : Nat := 256
/-- Bytes of plan memory (R23). -/
def planMemory : Nat := 8388608
/-- Slots of the lock timetable (R324). -/
def timetableSlots : Nat := 4096
/-- Forwarding entries of a device (R422). -/
def forwardTotal : Nat := 4096
/-- Credits of one channel of a towpath link (R414). -/
def channelCredits : Nat := 768
/-- Staging pieces of the wharf that form the shared pool (R92). -/
def stagingPool : Nat := 512
/-- Writes the Boot queue holds for one function (R49). -/
def bootWrites : Nat := 64
/-- Bytes of wrapped key spill on the 16 GiB variant; twice that on the other (Table 12). -/
def keySpill16 : Nat := 4294967296
/-- Bytes of berth spill on the 16 GiB variant; twice that on the other (Table 12). -/
def berthSpill16 : Nat := 8589934592

/-! ### Primitives of the cited standards (R2, R181): functions of their inputs, uninterpreted. What the spec says of their use
stands in Machine/Standards.lean. -/

/-- A hash of fixed length by the low byte of its code (FIPS 180-4, FIPS 202). -/
opaque hash : (alg : Nat) → Bytes → Bytes
/-- Byte `i` of the output of SHAKE128 (0x21) or SHAKE256 (0x22) on a message (FIPS 202). -/
opaque xof : (alg : Nat) → Bytes → (i : Nat) → Byte
/-- HMAC with a hash, by key and message (FIPS 198-1). -/
opaque hmac : (hash : Nat) → (key msg : Bytes) → Bytes
/-- KMAC128 with K, X and S, giving `len` bytes (SP 800-185). -/
opaque kmac128 : (len : Nat) → (k x s : Bytes) → Bytes
/-- KMAC256 with K, X and S, giving `len` bytes (SP 800-185). -/
opaque kmac256 : (len : Nat) → (k x s : Bytes) → Bytes
/-- AES encryption of one block by key (FIPS 197). -/
opaque aesBlock : (key block : Bytes) → Bytes
/-- AES-XTS of one data unit by direction, key, 128-bit tweak and data. -/
opaque xts : (enc : Bool) → (key : Bytes) → (tweak : Nat) → (data : Bytes) → Bytes
/-- Keystream of an AEAD by ALG, key, nonce and length (SP 800-38D, RFC 8439: both encrypt by a keystream). -/
opaque aeadStream : (alg : Nat) → (key nonce : Bytes) → (len : Nat) → Bytes
/-- Full tag of an AEAD by ALG, key, nonce, AAD and ciphertext. -/
opaque aeadTag : (alg : Nat) → (key nonce aad ct : Bytes) → Bytes
/-- The 64-bit MAC of a 256-byte block of graphics memory at an address (R28, whose algorithm the spec does not state). -/
opaque gmMac : (key : Bytes) → (addr : Nat) → (ct : Bytes) → Bytes
/-- AES-KW wrap (SP 800-38F). -/
opaque kwWrap : (kek key : Bytes) → Bytes
/-- AES-KW unwrap, none when the integrity check fails. -/
opaque kwUnwrap : (kek blob : Bytes) → Option Bytes
/-- Encapsulation by PSET, public key and randomness: ciphertext and shared secret. -/
opaque kemEncaps : (pset : Nat) → (pk rnd : Bytes) → Bytes × Bytes
/-- Decapsulation with implicit rejection by PSET, private key and ciphertext. -/
opaque kemDecaps : (pset : Nat) → (sk ct : Bytes) → Bytes
/-- Key agreement by PSET, private key and peer public key. -/
opaque agree : (pset : Nat) → (sk pk : Bytes) → Bytes
/-- The private key of Table 57 that a seed expands to, for every pair but RSA (R162, R164). -/
opaque expandSeed : (typ : Nat) → (seed : Bytes) → Bytes
/-- The two primes of an RSA key of a modulus length, from the randomness of its generation. -/
opaque rsaPrimes : (k : Nat) → (seed : Bytes) → Nat × Nat
/-- The public key of a private key whose encoding does not hold it. -/
opaque publicOf : (typ : Nat) → (sk : Bytes) → Bytes
/-- The root of an SLH-DSA key by its secret seed and public seed (FIPS 205). -/
opaque slhRoot : (typ : Nat) → (skSeed pkSeed : Bytes) → Bytes
/-- The checks a public key from the input must pass (R147, R149, R155). -/
opaque publicOk : (typ : Nat) → (pk : Bytes) → Bool
/-- Coefficients of the matrix an ML-KEM or ML-DSA public key expands to (FIPS 203, FIPS 204), in the order of the cache (R199). -/
opaque matrix : (pset : Nat) → (pk : Bytes) → List Nat
/-- Signature by PSET, VARIANT and HASH, key, context, message and the randomness that enters it, if any; `kappa` is the mask counter of the
ML-DSA candidate (R192) and zero elsewhere. -/
opaque sign : (mode : Nat × Nat × Nat) → (sk ctx msg : Bytes) → (rnd : Option Bytes) → (kappa : Nat) → Bytes
/-- Verdict of a signature by PSET, VARIANT, HASH, public key, context, message and signature. -/
opaque verify : (mode : Nat × Nat × Nat) → (pk ctx msg sig : Bytes) → Bool
/-- RSA-OAEP encryption by hash, public key, message and randomness. -/
opaque oaepEncrypt : (hash : Nat) → (pk msg rnd : Bytes) → Bytes
/-- RSA-OAEP decryption by hash, private key and ciphertext. -/
opaque oaepDecrypt : (hash : Nat) → (sk ct : Bytes) → Option Bytes
/-- Public key of a stateful scheme from its parameters and master seed (R253). -/
opaque hbsPublic : (pset : Nat) → (params seed : Bytes) → Bytes
/-- Stateful signature by parameters, master seed, the leaf of each level from the top (R254) and message. -/
opaque hbsSign : (pset : Nat) → (params seed : Bytes) → (leaves : List Nat) → (msg : Bytes) → Bytes
/-- The nodes of a level's tree, from the root down, `n` bytes each (R199). -/
opaque hbsNodes : (pset : Nat) → (params seed : Bytes) → (level tree : Nat) → Bytes
/-- CTR_DRBG instantiate from entropy, nonce and personalisation string (SP 800-90A). -/
opaque drbgInstantiate : (entropy nonce pers : Bytes) → Bytes
/-- CTR_DRBG reseed. -/
opaque drbgReseed : (state entropy : Bytes) → Bytes
/-- CTR_DRBG generate: output and next state. -/
opaque drbgGenerate : (state : Bytes) → (len : Nat) → Bytes × Bytes
/-- The row of a bank that a granule lies in: a permutation keyed by the scramble key (R267). -/
opaque scramble : (key : Bytes) → (bank granule : Nat) → Nat

/-! ### Values held in the boot ROM and in fuses -/

/-- Waimar ML-DSA-87 boot key. -/
opaque bootKeyMlDsa : Bytes
/-- Waimar ECDSA-P384 boot key. -/
opaque bootKeyEcdsa : Bytes
/-- Waimar life-cycle key (R391). -/
opaque waimarLcKey : Bytes
/-- Family key of the microcode images. -/
opaque familyKey : Bytes
/-- Key the boot ROM derives from a fuse secret for the persistent region (R276). -/
opaque persistKey : Bytes

/-! ### Listings the spec says are fixed and unpublished (R474) -/

/-- The body of a standard plan, in the format of Tables 67 to 69 (R474): held in the boot ROM and not published. -/
opaque stdBody : (planId : Nat) → Bytes
/-- Bytes of input randomness a segment of a standard plan draws at its dispatch, as the plan declares (R197, R354). -/
opaque segDraw : (planId seg : Nat) → Nat

/-! ### Free values: what the spec leaves open -/

/-- A value the spec does not state, drawn by a plain counter. -/
opaque freeNat : Nat → Nat
/-- A free byte. -/
opaque freeByte : Nat → Byte
/-- Debug-space words whose layout the spec does not give (R399), as they show what lies behind them: commands a sequencer has accepted, the
arbiter's slot and what engines run. -/
opaque freeDebugWord : (address : Nat) → (shown : List Nat) → (count : Nat) → Word
/-- What a word written to the halt and step controls of a sequencer or an engine asks for (R399, whose encoding the spec does not give):
none to let it run, else to halt it after that many steps more. -/
opaque debugCommand : (address : Nat) → (word : Word) → Option Nat
/-- The engine, by kind and index, whose controls a word of the engine part of the debug space holds (R399). -/
opaque debugEngine : (address : Nat) → Nat × Nat
/-- The pins that SAMPLE and EXTEST capture into the boundary-scan register (R398). -/
opaque capturedPins : Nat → Bytes
/-- The position of the keeper device as another device's commands name it (R419): which function of a peer is its keeper function. -/
opaque peerKeeper : (position : Nat) → Nat
/-- Result of an operation whose result for these operands the spec does not state. -/
opaque freeResult : (op a b c : Nat) → Nat
/-- Length in bytes of a private key that the spec says is only generated in the device (Table 57). -/
opaque generatedLen : (typ : Nat) → Nat

end Sys2Proof.Config
end

