-- ==== Sys2Proof/Machine/Standards.lean ====
section
/-!
DEFINITION. What the spec says of the standards it names, over the primitives of Config: digests (R146, R159), AES-CTR (R158), AEAD
(R156, R157), MACs (R160), key derivation (R161), and the parameter sets of the stateful signature schemes (R172, R181, R252, R254).
-/

namespace Sys2Proof.Machine

/-- A value as `n` big-endian bytes. -/
def beBytes (n v : Nat) : Bytes := (leBytes n v).reverse

/-- Data under a keystream. -/
def underStream (d stream : Bytes) : Bytes := d.mapIdx fun i x => x ^^^ stream.getD i 0

/-! ### Hashes -/

/-- Digest length by the low byte of a hash code; SHAKE128 and SHAKE256 as the signatures use them (Table 60). -/
def hashLen (h : Nat) : Nat :=
  match h with
  | 0x01 => 28
  | 0x02 => 32
  | 0x03 => 48
  | 0x04 => 64
  | 0x05 => 28
  | 0x06 => 32
  | 0x11 => 28
  | 0x12 => 32
  | 0x13 => 48
  | 0x14 => 64
  | 0x21 => 32
  | 0x22 => 64
  | _ => 0

/-- The first `n` bytes SHAKE128 or SHAKE256 gives for a message. -/
def shake (alg n : Nat) (msg : Bytes) : Bytes := (List.range n).map (Config.xof alg msg)

/-- Digest by the low byte of a hash code; `n` bytes of the two SHAKEs (R159). -/
def digest (alg n : Nat) (msg : Bytes) : Bytes :=
  if alg = 0x21 ∨ alg = 0x22 then shake alg n msg else padTo (hashLen alg) (Config.hash alg msg)

/-! ### AES-CTR (R158) -/

/-- Counter block `j`: the low 32 bits, big-endian, advance by one per block. -/
def ctrBlock (block : Bytes) (j : Nat) : Bytes := block.take 12 ++ beBytes 4 (beVal (slice block 12 4) + j)

/-- AES-CTR keystream from an initial counter block. -/
def ctrStream (key block : Bytes) (n : Nat) : Bytes :=
  (List.range ((n + 15) / 16)).flatMap fun j => padTo 16 (Config.aesBlock key (ctrBlock block j))

/-- AES-CTR of data. -/
def ctr (key block d : Bytes) : Bytes := underStream d (ctrStream key block d.length)

/-! ### AEAD -/

/-- AEAD encryption by ALG, tag length, key, nonce, AAD and plaintext: ciphertext and tag. -/
def aeadSeal (alg tagLen : Nat) (key nonce aad pt : Bytes) : Bytes × Bytes :=
  let ct := underStream pt (Config.aeadStream alg key nonce pt.length)
  (ct, padTo tagLen (Config.aeadTag alg key nonce aad ct))

/-- AEAD decryption: the plaintext and the verdict of the tag. -/
def aeadOpen (alg : Nat) (key nonce aad ct tag : Bytes) : Bytes × Bool :=
  (underStream ct (Config.aeadStream alg key nonce ct.length), padTo tag.length (Config.aeadTag alg key nonce aad ct) == tag)

/-! ### MACs (R160) -/

/-- A whole HMAC. -/
def hmac (h : Nat) (key msg : Bytes) : Bytes := padTo (hashLen h) (Config.hmac h key msg)

/-- KMAC by the low byte of its code (Table 58). -/
def kmac (code n : Nat) (k x s : Bytes) : Bytes := padTo n (if code = 0x41 then Config.kmac128 n k x s else Config.kmac256 n k x s)

/-- The MAC of `n` bytes by ALG, key, S and message: the leftmost bytes of an HMAC, or a KMAC of that length. -/
def macBytes (alg n : Nat) (key s msg : Bytes) : Bytes :=
  if alg = 0x3241 ∨ alg = 0x3242 then kmac (alg % 256) n key msg s else (hmac (alg % 256) key msg).take n

/-! ### Key derivation (R161) -/

/-- Blocks of an iterated derivation, each from its number, counted from one, and the block before it. -/
def blocks (f : (i : Nat) → (prev : Bytes) → Bytes) : (n i : Nat) → (prev : Bytes) → Bytes
  | 0, _, _ => []
  | n + 1, i, prev => f i prev ++ blocks f n (i + 1) (f i prev)

/-- Blocks of a hash's length that `len` bytes take. -/
def blockCount (h len : Nat) : Nat := (len + hashLen h - 1) / max 1 (hashLen h)

/-- HKDF (RFC 5869): extract with the salt, then expand with the info. -/
def hkdf (h len : Nat) (salt ikm info : Bytes) : Bytes :=
  let prk := hmac h salt ikm
  (blocks (fun i prev => hmac h prk (prev ++ info ++ [BitVec.ofNat 8 i])) (blockCount h len) 1 []).take len

/-- SP 800-108 counter mode: the 32-bit counter before the fixed input data. -/
def kdfCounter (h len : Nat) (key fixed : Bytes) : Bytes :=
  (blocks (fun i _ => hmac h key (beBytes 4 i ++ fixed)) (blockCount h len) 1 []).take len

/-- SP 800-108 feedback mode: the previous block, then the 32-bit counter. -/
def kdfFeedback (h len : Nat) (key iv fixed : Bytes) : Bytes :=
  (blocks (fun i prev => hmac h key (prev ++ beBytes 4 i ++ fixed)) (blockCount h len) 1 iv).take len

/-- The first pipeline of the double-pipeline mode: A(i) from A(0), the fixed input data. -/
def pipeline (h : Nat) (key fixed : Bytes) : Nat → Bytes
  | 0 => fixed
  | n + 1 => hmac h key (pipeline h key fixed n)

/-- SP 800-108 double-pipeline mode: A(i), the 32-bit counter, the fixed input data (the counter's place: log 87). -/
def kdfPipeline (h len : Nat) (key fixed : Bytes) : Bytes :=
  (blocks (fun i _ => hmac h key (pipeline h key fixed i ++ beBytes 4 i ++ fixed)) (blockCount h len) 1 []).take len

/-- The derived key by ALG, PRF, length, key, and the input's first PRE_LEN bytes and the rest. -/
def kdfBytes (alg prf len : Nat) (key pre rest : Bytes) : Bytes :=
  match alg with
  | 0x3301 => hkdf prf len pre key rest
  | 0x3302 => kdfCounter prf len key rest
  | 0x3303 => kdfFeedback prf len key pre rest
  | 0x3304 => kdfPipeline prf len key rest
  | _ => kmac prf len key rest pre

/-! ### Stateful hash-based signatures (R172, R181, R252, R254) -/

/-- One level of a stateful scheme: its hash (low byte of its code), the hash's bytes, the height of its tree, and the hash chains of
a one-time key. -/
structure HbsLevel where
  hash   : Nat
  n      : Nat
  height : Nat
  chains : Nat
  deriving DecidableEq, Repr

/-- Hash and bytes by the place of a group of type codes: SHA-256, SHA-256/192, SHAKE256/256, SHAKE256/192. -/
def hbsHash (g : Nat) : Nat × Nat := (if g < 2 then 0x02 else 0x22, if g % 2 = 0 then 32 else 24)

/-- An LMS type code: its hash group and height (log 88). -/
def lmsType (t : Nat) : Option (Nat × Nat) :=
  if 0x05 ≤ t ∧ t ≤ 0x18 then some ((t - 5) / 5, 5 * ((t - 5) % 5 + 1)) else none

/-- An LM-OTS type code: its hash group and chains, for W 1, 2, 4 and 8 (log 88). -/
def otsType (t : Nat) : Option (Nat × Nat) :=
  if 0x01 ≤ t ∧ t ≤ 0x10 then
    let g := (t - 1) / 4
    some (g, (if g % 2 = 0 then [265, 133, 67, 34] else [200, 101, 51, 26]).getD ((t - 1) % 4) 0)
  else none

/-- A level of HSS from its LMS and LM-OTS type codes, of one hash. -/
def lmsLevel (t o : Nat) : Option HbsLevel :=
  match lmsType t, otsType o with
  | some (g, h), some (g', p) =>
    if g = g' then some { hash := (hbsHash g).1, n := (hbsHash g).2, height := h, chains := p } else none
  | _, _ => none

/-- The hash group of an OID: the first code of each group and the codes in one (log 88). -/
def oidGroup (o : Nat) : List (Nat × Nat) → (size : Nat) → Option (Nat × Nat)
  | [], _ => none
  | (b, g) :: r, n => if b ≤ o ∧ o < b + n then some (g, o - b) else oidGroup o r n

/-- An XMSS or XMSS^MT level: chains for a Winternitz parameter of 16. -/
def xmssLevel (g h : Nat) : HbsLevel :=
  { hash := (hbsHash g).1, n := (hbsHash g).2, height := h, chains := if g % 2 = 0 then 67 else 51 }

/-- The level of an XMSS OID. -/
def xmssSet (o : Nat) : Option (List HbsLevel) :=
  (oidGroup o [(0x01, 0), (0x0D, 1), (0x10, 2), (0x13, 3)] 3).map fun x => [xmssLevel x.1 ([10, 16, 20].getD x.2 0)]

/-- Total height and levels of the XMSS^MT sets of a hash, in the order of their OIDs. -/
def xmssMtShapes : List (Nat × Nat) := [(20, 2), (20, 4), (40, 2), (40, 4), (40, 8), (60, 3), (60, 6), (60, 12)]

/-- The levels of an XMSS^MT OID. -/
def xmssMtSet (o : Nat) : Option (List HbsLevel) :=
  (oidGroup o [(0x01, 0), (0x21, 1), (0x29, 2), (0x31, 3)] 8).map fun x =>
    let d := xmssMtShapes.getD x.2 (0, 1)
    List.replicate d.2 (xmssLevel x.1 (d.1 / d.2))

/-- Total height: the sum over the levels (R254). -/
def hbsHeight (l : List HbsLevel) : Nat := (l.map (·.height)).sum

/-- All levels of a list, if each is one. -/
def allSome {α : Type} : List (Option α) → Option (List α)
  | [] => some []
  | none :: _ => none
  | some x :: r => (allSome r).map (x :: ·)

/-- Every level uses the hash of the first. -/
def oneHash (l : List HbsLevel) : Bool :=
  match l with
  | [] => false
  | x :: r => r.all fun y => y.hash == x.hash && y.n == x.n

/-- The levels of an HSS parameter block, top first: one hash throughout, and heights that add up to at most 60 (R252, log 88). -/
def hssSet (params : Bytes) : Option (List HbsLevel) :=
  let n := beVal (params.take 4)
  if 1 ≤ n ∧ n ≤ 8 then
    (allSome ((List.range n).map fun i => lmsLevel (beVal (slice params (4 + 8 * i) 4)) (beVal (slice params (8 + 8 * i) 4)))).filter
      fun l => oneHash l && decide (hbsHeight l ≤ 60)
  else none

/-- The levels of a parameter block, top first; none outside the supported list (R172, R181). -/
def hbsLevels (pset : Nat) (params : Bytes) : Option (List HbsLevel) :=
  match pset with
  | 0x1201 => hssSet params
  | 0x1202 => xmssSet (beVal (params.take 4))
  | _ => xmssMtSet (beVal (params.take 4))

/-- Bytes of an LMS signature: leaf, LM-OTS signature, type and path. -/
def lmsSigLen (x : HbsLevel) : Nat := 4 + (4 + x.n + x.chains * x.n) + 4 + x.height * x.n

/-- Bytes of an LMS public key. -/
def lmsPubLen (x : HbsLevel) : Nat := 24 + x.n

/-- Bytes of an HSS signature: the count, each upper level's signature with the public key it signs, the lowest signature. -/
def hssSigLen (l : List HbsLevel) : Nat := 4 + (l.map lmsSigLen).sum + (l.tail.map lmsPubLen).sum

/-- Bytes of a leaf number: 4 in XMSS, as many as the height takes in XMSS^MT. -/
def xmssIndexLen (pset : Nat) (l : List HbsLevel) : Nat := if pset = 0x1202 then 4 else (hbsHeight l + 7) / 8

/-- Public key length of a scheme's levels. -/
def hbsPubLen (pset : Nat) (l : List HbsLevel) : Nat :=
  match l with
  | [] => 0
  | x :: _ => if pset = 0x1201 then 4 + lmsPubLen x else 4 + 2 * x.n

/-- Signature length of a scheme's levels. -/
def hbsSigLen (pset : Nat) (l : List HbsLevel) : Nat :=
  if pset = 0x1201 then hssSigLen l
  else xmssIndexLen pset l + ((l.head?.map (·.n)).getD 0) + (l.map fun x => x.chains * x.n + x.height * x.n).sum

/-- Public key length, signature length and total height of a parameter block. -/
def hbsParams (pset : Nat) (params : Bytes) : Option (Nat × Nat × Nat) :=
  (hbsLevels pset params).map fun l => (hbsPubLen pset l, hbsSigLen pset l, hbsHeight l)

/-- The leaf of each level, top first, that a global leaf number selects: the highest bits the top level's (R254). -/
def leafSplit : List HbsLevel → Nat → List Nat
  | [], _ => []
  | x :: r, leaf => leaf / 2 ^ hbsHeight r % 2 ^ x.height :: leafSplit r leaf

/-- The tree of each level, top first, that a global leaf lies in, by its number within the level. -/
def treeSplit : List HbsLevel → Nat → List Nat
  | [], _ => []
  | x :: r, leaf => leaf / 2 ^ (hbsHeight r + x.height) :: treeSplit r leaf

/-- Bytes of the cached nodes of a level's tree: the top ten levels, or the whole tree if it is lower (Table 66). -/
def hbsNodeBytes (x : HbsLevel) : Nat := (2 ^ min 10 (x.height + 1) - 1) * x.n

/-- The levels below the top of a signed HSS chain, read from the public keys inside a signature that starts at `off`; a level that
cannot be read is taken to be like the one above it (R155; log 89). -/
def hssBelow (d : Bytes) : (n : Nat) → (off : Nat) → HbsLevel → List HbsLevel
  | 0, _, _ => []
  | n + 1, off, x =>
    let o := off + lmsSigLen x
    let y := (lmsLevel (beVal (slice d o 4)) (beVal (slice d (o + 4) 4))).getD x
    y :: hssBelow d n (o + lmsPubLen y) y

/-- The levels a public key at the start of an input announces (R155). The limit of 60 on the sum of the heights and the one hash of all
levels, which R252 and log 88 put on HBS_KEYGEN, are not asked of a key given to VERIFY (DESIGN CHOICE, log 89). -/
def hbsKeyLevels (pset : Nat) (d : Bytes) : Option (List HbsLevel) :=
  match pset with
  | 0x1201 =>
    let n := beVal (d.take 4)
    if 1 ≤ n ∧ n ≤ 8 then
      (lmsLevel (beVal (slice d 4 4)) (beVal (slice d 8 4))).map fun x => x :: hssBelow d (n - 1) (4 + lmsPubLen x + 4) x
    else none
  | _ => hbsLevels pset d

/-- Lengths a hash-based public key in an input fixes: of the public key and of the signature (R155). -/
def hbsVerifyLen (pset : Nat) (d : Bytes) : Option (Nat × Nat) :=
  (hbsKeyLevels pset d).map fun l => (hbsPubLen pset l, hbsSigLen pset l)

end Sys2Proof.Machine
end

