-- ==== Sys2Proof/Machine/Map.lean ====
section
/-!
DEFINITION. Operations on sparse maps: a list of key and value pairs with strictly rising keys.
-/

namespace Sys2Proof

/-- The value at a key. -/
def Map.get? {α : Type} : Map α → Nat → Option α
  | [], _ => none
  | (k, v) :: r, x => if k = x then some v else Map.get? r x

/-- Insert or replace the value at a key, keeping the keys rising. -/
def Map.put {α : Type} : Map α → Nat → α → Map α
  | [], x, v => [(x, v)]
  | (k, w) :: r, x, v =>
    if x < k then (x, v) :: (k, w) :: r
    else if x = k then (x, v) :: r
    else (k, w) :: Map.put r x v

/-- Remove a key. -/
def Map.del {α : Type} (m : Map α) (x : Nat) : Map α := m.filter (fun e => e.1 != x)

/-- The value at a key, or a default. -/
def Map.getD {α : Type} (m : Map α) (x : Nat) (d : α) : α := (Map.get? m x).getD d

/-- Change the value at a key, if there is one. -/
def Map.modify {α : Type} (m : Map α) (x : Nat) (f : α → α) : Map α :=
  m.map (fun e => if e.1 = x then (e.1, f e.2) else e)

/-- Change every value. -/
def Map.update {α : Type} (m : Map α) (f : Nat → α → α) : Map α :=
  m.map (fun e => (e.1, f e.1 e.2))

/-- Keep the entries that satisfy a test. -/
def Map.keep {α : Type} (m : Map α) (p : Nat → α → Bool) : Map α := m.filter (fun e => p e.1 e.2)

/-- The keys rise strictly. -/
def Map.wf {α : Type} : Map α → Bool
  | [] => true
  | [_] => true
  | a :: b :: r => decide (a.1 < b.1) && Map.wf (b :: r)

/-- The lowest number at or above `lo`, below `hi`, that is no key of the map. -/
def Map.lowestFree {α : Type} (m : Map α) (lo hi : Nat) : Option Nat :=
  (List.range (min (hi - lo) (m.length + 1))).findSome? fun i =>
    if (Map.get? m (lo + i)).isNone then some (lo + i) else none

end Sys2Proof
end

