-- ==== Sys2Proof/Machine/State.lean ====
section
/-!
DEFINITION. The state of the block as plain data: every register, FIFO, store, mode and pin the spec names, the
queue of waiting commands, and the state right after reset. Fields marked MODEL'S OWN in their comment are the
model's, not the spec's. Names of registers follow the spec's tables.
-/

namespace Sys2Proof.Machine

/-! ### Modes, life cycle and status codes -/

/-- Operating modes (Table 14). -/
inductive Mode where
  | dormant | boot | service | held | lockdown | maintenance
  deriving DecidableEq, Repr

/-- DEV_STATUS.MODE codes of Table 14; Dormant is not readable and takes the 0b000 of MODE_STATUS.PREV_MODE. -/
def Mode.code : Mode → BitVec 3
  | .dormant => 0
  | .boot => 1
  | .service => 2
  | .held => 3
  | .lockdown => 4
  | .maintenance => 5

/-- Life-cycle states (Table 137). -/
inductive Lc where
  | blank | factory | owned | field | ret | scrap
  deriving DecidableEq, Repr

/-- Index of Table 137. -/
def Lc.index : Lc → Nat
  | .blank => 0
  | .factory => 1
  | .owned => 2
  | .field => 3
  | .ret => 4
  | .scrap => 5

/-- Code of Table 137. -/
def Lc.code : Lc → BitVec 16
  | .blank => 0x0000
  | .factory => 0x00FF
  | .owned => 0xFF00
  | .field => 0x0F0F
  | .ret => 0xF0F0
  | .scrap => 0x3333

/-- Status codes by name (Table 179). -/
inductive Status where
  | ok | sigInvalid | badOpcode | badParam | badLength | dmaError | keyDenied | keyEmpty | berthMoved
  | berthUnknown | rngNotReady | rngFault | aborted | held | engineFault | busy | counterExhausted
  | timeUntrusted | deniedLc | planMissing
  deriving DecidableEq, Repr

/-- Status codes (Table 179). -/
def Status.code : Status → Nat
  | .ok => 0x0000
  | .sigInvalid => 0x0001
  | .badOpcode => 0x0010
  | .badParam => 0x0011
  | .badLength => 0x0012
  | .dmaError => 0x0013
  | .keyDenied => 0x0020
  | .keyEmpty => 0x0021
  | .berthMoved => 0x0022
  | .berthUnknown => 0x0023
  | .rngNotReady => 0x0030
  | .rngFault => 0x0031
  | .aborted => 0x0040
  | .held => 0x0041
  | .engineFault => 0x0042
  | .busy => 0x0043
  | .counterExhausted => 0x0050
  | .timeUntrusted => 0x0051
  | .deniedLc => 0x0060
  | .planMissing => 0x0061

/-- Every status, in the order of Table 179. -/
def Status.all : List Status :=
  [.ok, .sigInvalid, .badOpcode, .badParam, .badLength, .dmaError, .keyDenied, .keyEmpty, .berthMoved,
   .berthUnknown, .rngNotReady, .rngFault, .aborted, .held, .engineFault, .busy, .counterExhausted,
   .timeUntrusted, .deniedLc, .planMissing]

/-- What a command completes with: STATUS, DETAIL and the bytes for OUT_IOVA. -/
structure Result where
  status : Status
  detail : Nat
  out    : Bytes
  deriving DecidableEq, Repr

/-! ### Queues -/

/-- SQ states (Table 37). -/
inductive SqState where
  | disabled | enabled | draining | doorbellError | fetchError | destroyed
  deriving DecidableEq, Repr

/-- STATE codes of Table 37. -/
def SqState.code : SqState → Nat
  | .disabled => 0
  | .enabled => 1
  | .draining => 2
  | .doorbellError => 3
  | .fetchError => 4
  | .destroyed => 5

/-- A submission queue (R60 to R102). `ready` holds fetched and delivered entries in index order, `reads` the
outstanding ring reads (first index, count), `slots` the push slots as assembled dwords, `chainLen` how many entries
of the running chain are accepted, `chainId` the last of them, `chainOk` its written outcome, `lineDue` whether a
status line write waits for Bus Master Enable, `seen` the value a valid read of the doorbell line last gave (R81). -/
structure Sq where
  base     : DWord
  n        : Nat
  cq       : Nat
  st       : SqState
  head     : Nat
  fetch    : Nat
  tail     : Nat
  opened   : Nat
  errInfo  : Word
  reads    : List (Nat × Nat)
  ready    : List (Nat × Bytes)
  slots    : Vector (Map Word) 4
  chainLen : Nat
  chainId  : Nat
  chainOk  : Option Bool
  dbFail   : Bool
  lineDue  : Bool
  seen     : Nat
  deriving DecidableEq, Repr

/-- A completion queue with its wharf allowance, its waiting completions (command ids in finish order) and its
moderation (R72, R91 to R95, R335). -/
structure Cq where
  base     : DWord
  n        : Nat
  allow    : Nat
  vector   : Nat
  tail     : Nat
  head     : Nat
  reserved : Nat
  waiting  : List Nat
  modCount : Nat
  modTime  : Nat
  count    : Nat
  start    : DWord
  episode  : Bool
  badHead  : Bool
  dbFail   : Bool
  deriving DecidableEq, Repr

/-! ### Accepted commands -/

/-- Decision entry (Table 69). -/
structure Dec where
  rule   : Nat
  mask   : Nat
  target : Nat
  limit  : Nat
  fail   : Nat
  deriving DecidableEq, Repr

/-- Segment (Table 68). -/
structure Seg where
  kind    : Nat
  grouped : Bool
  masked  : Bool
  steps   : Nat
  off     : Nat
  len     : Nat
  dec     : Option Dec
  deriving DecidableEq, Repr

/-- Where an accepted command stands. -/
inductive Phase where
  /-- starts after its chain predecessor's completion is written (R98) -/
  | chainWait
  /-- waits at step 3 of R138 for a link or a move (R405, R421) -/
  | berthWait
  /-- waits at step 9 of R138 (R360) -/
  | rngWait (since : DWord)
  /-- its checks are passed; it runs -/
  | run
  /-- waits for a draw after step 9 (R361) -/
  | drawWait (since : DWord)
  /-- a keeper command, KEY_DESTROY or BERTH_MOVE whose immediate effect is done and whose completion is due later -/
  | effected
  /-- forwarded over a link; DONE is awaited (R418) -/
  | forwarded (link : Nat)
  /-- finished; its result is in its wharf slot -/
  | fin (r : Result)
  deriving DecidableEq, Repr

/-- An accepted command. `origin` is the link and number of a command that a peer forwarded here, `keyA` and `keyB`
the keys resolved at step 5 (KEY_REF or slot 0; TARGET or slot 1), `pos` the next segment, `running` the engines of
the running group with their segments in `runSegs`, `hold` its frames and slots (kind, index, bytes), `avoid` the engines it faulted on, `frame` its
LVE frame (unlisted bytes read zero), `jump` and `verdict` what a decision
of the running group decided (R189), `value` a counter value it committed, `header` the seal header it linked,
`again` whether it was
sent to the new handle of a forwarding entry (R423), `asked` whether its input read was issued, `refused` what step 3 of R65
answered when it was accepted, `tooLong` whether it is the 65th entry of its chain (R98), `pulls` the (offset, length) of input
a peer asked for, `buf` the input or output that has come over a link, `sent` how much of that output has been written to
OUT_IOVA, `zeroDue` how many bytes there are overwritten with zeros before its completion (R69), `finAt` its place in the order
in which commands finished and `waitFrom` when its completion began to wait for room (R94, R330), `staged` the staging pieces it
holds from the shared pool (R92), `orderB` the masking order of a slot-1 key (R194), `rnd` the input randomness and blinding values
its dispatched segments have drawn (R197, R198; log 90), `picks` the candidates its FIRST_SET decisions chose, as 4 × batch + candidate (R192),
`xbar` what other engines have written to its LVE frame that the vector engine does not see yet: the step of its segment from which it does, an
address and the bytes (R235), `dispatched` whether a group of it has been dispatched since it last started, so that it runs on the working
copy of its plan (R30), `shares` the shares a segment has loaded its key into (R195), `issued` whether the writes of its output have
been issued (R92), `pulled` how many of the pulls have had their read issued (R418). -/
structure Cmd where
  id        : Nat
  fn        : Nat
  sq        : Nat
  seqr      : Nat
  entry     : Bytes
  worldS    : Bool
  cls       : BitVec 6
  grants    : BitVec 8
  origin    : Option (Nat × Nat)
  originPos : Nat
  after     : Option Nat
  phase     : Phase
  input     : Option Bytes
  berth     : Option Nat
  keyA      : Option Nat
  keyB      : Option Nat
  planId    : Nat
  order     : Nat
  body      : Bytes
  segs      : List Seg
  pos       : Nat
  running   : List (Nat × Nat)
  runSegs   : List Nat
  hold      : List (Nat × Nat × Nat)
  avoid     : List (Nat × Nat)
  reran     : Bool
  cand      : Nat
  rep       : Nat
  reps      : Map Nat
  jump      : Option Nat
  verdict   : Option Status
  frame     : List Host.Cell
  leaf      : Option Nat
  value     : Option Nat
  header    : Option Bytes
  again     : Bool
  asked     : Bool
  refused   : Option (Status × Nat)
  tooLong   : Bool
  pulls     : List (Nat × Nat)
  buf       : Bytes
  sent      : Nat
  zeroDue   : Nat
  finAt     : Nat
  waitFrom  : DWord
  staged    : Nat
  orderB    : Nat
  rnd       : Option Bytes
  picks     : List Nat
  xbar      : List (Nat × Nat × Bytes)
  dispatched : Bool
  shares    : List Bytes
  issued    : Bool
  pulled    : Nat
  deriving DecidableEq, Repr

/-! ### Functions, ports and interrupts -/

/-- OFF, ON or DRAINING (Table 50). -/
inductive FnPower where
  | off | on | draining
  deriving DecidableEq, Repr

/-- Keeper queue registers (Tables 38 to 45). -/
structure Kq where
  sqBase    : DWord
  cqBase    : DWord
  dbBase    : DWord
  active    : BitVec 9
  noBackoff : Bool
  enable    : Bool
  irqEn     : Bool
  deriving DecidableEq, Repr

/-- One fast vector's registers (Tables 103 to 106). -/
structure FastVec where
  addr    : DWord
  data    : Word
  enable  : Bool
  mask    : Bool
  pending : Bool
  count   : Nat
  info    : BitVec 16
  deriving DecidableEq, Repr

/-- One MSI-X table entry (R333). -/
structure MsixEntry where
  addr   : DWord
  data   : Word
  masked : Bool
  deriving DecidableEq, Repr

/-- How far an FLR has come (R316, R317). -/
inductive Flr where
  | none | requested | cleanup
  deriving DecidableEq, Repr

/-- A berth of a function of this device that lies on another device, as its charge knows it (R419): whether it survives a
reset, and the granules of the board of the keys bound in it. -/
structure RemoteBerth where
  persistent : Bool
  slot0      : Option Nat
  slot1      : Option Nat
  deriving DecidableEq, Repr

/-- A function's own PCIe control and status registers beside Command, MSI-X and power state, as the PCIe Base Specification lays them out
(R426, R428 to R430, R433; log 11): Device Control and Device Control 2, the AER uncorrectable and correctable error status and the AER
control word, ACS Control, and the two BARs. -/
structure PcieRegs where
  devCtl  : BitVec 16
  devCtl2 : BitVec 16
  aerUnc  : Word
  aerCor  : Word
  aerCtl  : Word
  acsCtl  : BitVec 16
  bar0    : DWord
  bar2    : DWord
  deriving DecidableEq, Repr

/-- One function (Table 97 and the per-function window of Table 169). `activity` is whether its polling is active rather than in idle
back-off (R81); `dbTodo` and `dbReads` are the doorbell reads of the pass under way that are not yet issued, and that are
outstanding: a queue and whether the line is its CQ's (R80); `lines` are status lines of destroyed SQs that wait for Bus Master
Enable (R77, R431), `lastSq` the SQ the fetch unit served last (R89). `remoteKeys` and `remoteBerths` are the charges of its keys
and berths on other devices, by granule of the board and by position and index (R419). `late` holds the reads still outstanding whose
answer is no longer wanted, each with what it read (0 an SQ's line, 1 a CQ's line, 2 ring entries, 3 a command's input; 4 more once a
reset has come between) and its queue or command: they keep their tags (R99, R433). -/
structure Fn where
  power      : FnPower
  quenched   : Bool
  waiters    : List Nat
  heldEnable : Option Nat
  cls        : BitVec 6
  grants     : BitVec 8
  nextCls    : Option (BitVec 6 × BitVec 8)
  sqLim      : Nat
  cqLim      : Nat
  berthLim   : Nat
  granLim    : Nat
  worldS     : Bool
  bme        : Bool
  mse        : Bool
  d3hot      : Bool
  msixEnable : Bool
  msixMask   : Bool
  flr        : Flr
  heldWrites : List (Nat × Word)
  kq         : Kq
  fast       : Vector FastVec 8
  msix       : Map MsixEntry
  normPend   : List Nat
  holds      : Map DWord
  interval   : Nat
  unchanged  : Nat
  activity   : Bool
  nextPass   : DWord
  dbTodo     : List (Nat × Bool)
  dbReads    : List (Nat × Bool)
  lines      : List (Nat × Sq)
  lastSq     : Option Nat
  stalled    : Bool
  kcqSince   : Option DWord
  tbLatch    : Word
  calLatch   : Word
  recIndex   : BitVec 16
  recPinned  : Bool
  remoteKeys : Map Nat
  remoteBerths : Map RemoteBerth
  late       : List (Nat × Nat)
  pcie       : PcieRegs
  deriving DecidableEq, Repr

/-- A registered delivery target (R337). -/
structure Target where
  addr   : DWord
  data   : Word
  asleep : Bool
  deriving DecidableEq, Repr

/-- A vector set (R123, R338). -/
structure VecSet where
  members : List Nat
  wake    : Nat
  hold    : Nat
  last    : Nat
  deriving DecidableEq, Repr

/-- One host port (R311, R321, R426). `sets` is keyed by function × 2,048 + vector; `tag10` is 10-Bit Tag Requester Enable (R433),
`lastFetch` the function the fetch unit served last (R89), `speed` (1 to 5 for 2.5 to 32.0 GT/s) and `width` what its link trained at,
`vfBar0` and `vfBar2` the BARs of the SR-IOV capability (R428). -/
structure Port where
  vfEnable : Bool
  numVfs   : BitVec 16
  perst    : Bool
  linkUp   : Bool
  targets  : Map Target
  sets     : Map VecSet
  tag10    : Bool
  lastFetch : Option Nat
  speed    : Nat
  width    : Nat
  vfBar0   : DWord
  vfBar2   : DWord
  deriving DecidableEq, Repr

/-! ### Engines and plans -/

/-- One vector register: three share planes of 64 lanes of 12 bits, lane 0 lowest (Table 72, R219). -/
structure VReg where
  p0 : BitVec 768
  p1 : BitVec 768
  p2 : BitVec 768
  deriving DecidableEq, Repr

/-- A modulus register: q and the constants QSET derives from it (R221): ⌊2^24 / q⌋ and ⌊2^48 / q⌋, −q^−1 modulo 2^12 and 2^24,
2^24 and 2^48 modulo q. -/
structure Modulus where
  q     : BitVec 24
  quo24 : Nat
  quo48 : Nat
  inv12 : Nat
  inv24 : Nat
  rem24 : Nat
  rem48 : Nat
  deriving DecidableEq, Repr

/-- A lattice vector engine while it runs segment `seg` of a command (R217 to R222, R228, R238); `pc` counts the words
done, `limit` is the segment's STEPS, `halted` is set by a precise fault, `seeds` are the seeds of the segment's mask generator in the
order it takes them and `maskPos` the mask values drawn from the present one (R196). -/
structure Lve where
  cid    : Nat
  seg    : Nat
  v      : Vector VReg 32
  p      : Vector DWord 8
  s      : Vector Word 16
  q      : Vector (Option Modulus) 4
  d      : Nat
  masked : Bool
  limit  : Nat
  steps  : Nat
  pc     : Nat
  halted : Bool
  seeds  : List Bytes
  maskPos : Nat
  deriving DecidableEq, Repr

/-- An expanded-key cache entry (R199, R201): `pset`, `tag` and `tr` stand in its header block, `content` after it; `bad` is set where a
write of it failed every try (R440). -/
structure CacheEnt where
  pset   : Nat
  tag    : Bytes
  tr     : Bytes
  content : Bytes
  size   : Nat
  used   : Nat
  pinned : List Nat
  bad     : Bool
  deriving DecidableEq, Repr

/-- Engines, arbiter, plans and cache. `retired` holds (kind, index), `copies` the working copies in plan memory
(size, last use), `missing` the standard plans marked missing, `table` the timetable in force (none: R325),
`fresh` whether it was installed at the slot 0 that the walk still stands at (R125).
`changes` lists the control changes due at a boundary (kind 0 a command, 1 an FLR, 2 a class change; its number; the
sequencers that have passed a boundary since it reached them, R188). `lastStep` is the tick of an engine's last step the
model sees, by kind × 256 + index (R17), `stale` the plans marked missing whose copy goes with its last user (R30), `maskGen` the
seeds handed to an engine's mask generator at a dispatch, by kind × 256 + index (R196, R197), `faulted` the engines (kind, index and
cause) whose fault fired a HOLD, so that their commands wait for the entry to Held (R215). -/
structure Eng where
  inService : Bool
  retired   : List (Nat × Nat)
  lves      : Map Lve
  seedQ     : Map (List Bytes)
  slot      : Nat
  walking   : Bool
  table     : Option (List (BitVec 16))
  nextTable : Option (Nat × List (BitVec 16))
  fresh     : Bool
  lastFn    : Map Nat
  changes   : List (Nat × Nat × BitVec 16)
  plans     : Map Bytes
  copies    : Map (Nat × Nat)
  missing   : List Nat
  cache     : List CacheEnt
  steps     : Nat
  lastStep  : Map DWord
  stale     : List Nat
  maskGen   : Map (List Bytes)
  faulted   : List (Nat × Nat × Nat)
  deriving DecidableEq, Repr

/-! ### Non-volatile stores -/

/-- One copy of a record (Table 76); `margin` is whether every cell passes a margin read. -/
structure Copy where
  value  : DWord
  gen    : BitVec 24
  resv   : Byte
  check  : Word
  margin : Bool
  deriving DecidableEq, Repr

/-- A record of the persistent keys region: blank, written with its AES-256-GCM IV, ciphertext and tag, or cut off in the middle
of its write, so that it fails authentication (R276, R278). -/
inductive Persist where
  | blank
  | sealed (iv ct tag : Bytes)
  | bad
  deriving DecidableEq, Repr

/-- A tree record (R250). `iv`, `ct` and `tag` hold the master seed under the tree seed key; `box` is what NVM holds of the whole record,
sealed like every record of the region (R276); `authentic` is cleared where a write of the record was cut off, or INSTALL found it failing
authentication. -/
structure TreeRec where
  gen       : BitVec 24
  pset      : Nat
  params    : Bytes
  owner     : Nat
  uses      : BitVec 16
  attr      : BitVec 8
  lcMask    : BitVec 8
  pub       : Bytes
  iv        : Bytes
  ct        : Bytes
  tag       : Bytes
  box       : Persist
  authentic : Bool
  deriving DecidableEq, Repr

/-- Wear of one region (R260 to R262). -/
structure Wear where
  used   : Nat
  window : Nat
  spare  : Nat
  worn   : Bool
  life   : BitVec 24
  deriving DecidableEq, Repr

/-- A recorder queue item: a record to write, or the repeat word of the newest record (R381, R383). -/
inductive RecItem where
  | record (bytes : Bytes) (alarm pin : Bool)
  | repeatWord (word : Bytes)
  deriving DecidableEq, Repr

/-- The NVM (R26, R239, R250, R276, R378). `recs` is keyed by region × 65,536 + record, then by copy slot 0 to 31.
`user` lists (address, byte) with unlisted bytes reading 0xFF. `pins` lists pinned slots in the order written. -/
structure Nvm where
  recs      : Map (Map Copy)
  trees     : Map TreeRec
  identity  : Persist
  ownerRoot : Persist
  swk       : Persist
  user      : List Host.Cell
  slots     : Map Bytes
  newest    : Option Nat
  pins      : List Nat
  wear      : Vector Wear 7
  deriving DecidableEq, Repr

/-- OTP (R57, R370, R387, R434, R438). -/
structure Otp where
  lcA       : List (BitVec 16)
  lcB       : List (BitVec 16)
  lcC       : List (BitVec 16)
  trims     : Bool
  minVer    : Nat
  fuseA     : BitVec 16
  fuseB     : BitVec 16
  variant32 : Bool
  deriving DecidableEq, Repr

/-- The backup domain (Table 90) and what its detectors see (R297). -/
structure Backup where
  sec       : BitVec 40
  frac      : BitVec 15
  timeLost  : Bool
  timeUnset : Bool
  cause     : BitVec 3
  stopped   : Bool
  deriving DecidableEq, Repr

/-! ### Blocks -/

/-- Supplies, pins, mode (Tables 14, 15, 21, 22). `heldSince` is the tick of the entry to Held (the stall timers stop there, R38),
`moved` the tick and the row of Table 15 of the last transition (R37). -/
structure Sys where
  mode        : Mode
  prev        : Mode
  cause       : BitVec 4
  reqRejected : Bool
  byAlarm     : Bool
  heldReturn  : Mode
  mainGood    : Bool
  vio18Good   : Bool
  tbclk       : Bool
  resetLow    : Bool
  isolated    : Bool
  keeperSel   : BitVec 3
  qspiActive  : Bool
  tick        : DWord
  heldSince   : DWord
  moved       : Option (DWord × Nat)
  deriving DecidableEq, Repr

/-- Boot registers and progress (Tables 25 to 30, R47); `asked` is whether the read of a load under way has been issued, `header` the host
image's header once it has returned (R54), `digest` the control store's at the end of INSTALL and `checkFrom` the tick its last comparison
was due at (R368), `gmBad` the graphics-memory regions, by item, whose last write failed every try (R440). -/
structure BootSt where
  phase     : Nat
  romDone   : Bool
  error     : BitVec 8
  gmFail    : BitVec 8
  rolled    : Bool
  lcDone    : Bool
  committed : Bool
  used      : BitVec 2
  errA      : BitVec 8
  errB      : BitVec 8
  errHost   : BitVec 8
  addrLo    : Word
  addrHi    : Word
  loading   : Bool
  asked     : Bool
  header    : Option Bytes
  secVer    : Nat
  commit    : Bool
  build     : BitVec 16
  patches   : Nat
  level     : BitVec 16
  store     : Map (BitVec 256)
  gmDone    : Bool
  gmTrained : Bool
  density   : BitVec 2
  retries   : Nat
  retrains  : Nat
  digest    : Bytes
  checkFrom : DWord
  gmBad     : List GmRegion
  deriving DecidableEq, Repr

/-- Time as the core keeps it (R294 to R303). `second` is the tick at which the latest crystal second began, `measure` the advance of the
timebase over the latest whole one, until it is compared (R295), `wearFrom` the tick at which the wear window under way began (R261),
`vbakLow` VBAK as last measured (Table 96). -/
structure TimeSt where
  anchorSec  : BitVec 40
  anchorFrac : BitVec 15
  anchorTick : DWord
  anchored   : Bool
  tbFault    : Bool
  calSets    : Nat
  epoch      : DWord
  lastToken  : Option DWord
  noticed    : Bool
  lastEdge   : DWord
  second     : Option DWord
  measure    : Option DWord
  wearFrom   : DWord
  vbakLow    : Bool
  deriving DecidableEq, Repr

/-- One alarm source (Tables 117, 122 to 126). -/
structure Mon where
  recEvents : Bool
  w         : Nat
  n         : Nat
  level     : Nat
  hist      : List Nat
  inWin     : Nat
  total     : Nat
  deriving DecidableEq, Repr

/-- Monitors, alarms and pace (R46, R366 to R377). `set` lists the alarms that have fired and whose response has not been carried out,
`setUs` the microsecond of the latest, each with its source, its configured level and its record; `reports` holds (low, high, until) for
each report whose 10 ms run, `paceFrom` is the tick at which the pace window under way began (R15). -/
structure AlarmSt where
  mons     : Vector Mon 16
  fired    : BitVec 16
  maxLevel : Nat
  maxValid : Bool
  clearing : Bool
  lock     : Bool
  set      : List (Nat × Nat × Bytes)
  setUs    : Nat
  erased   : Bool
  below    : BitVec 6
  above    : BitVec 6
  glitched : BitVec 6
  vcoreSet : Nat
  reported : Bool
  reports  : List (Nat × Nat × DWord)
  rate     : Nat
  quadrant : BitVec 2
  paceFrom : DWord
  snapSel  : Vector Word 4
  deriving DecidableEq, Repr

/-- Recorder control (Tables 130 to 135, R383); `skip`: torn slots behind the newest record, which outlive
a loss of power with the slots. -/
structure RecSt where
  mounted : Bool
  queue   : List RecItem
  dropped : Nat
  seq     : Word
  skip    : Nat
  deriving DecidableEq, Repr

/-- States of the generator (Table 112). -/
inductive RngState where
  | fill | ready | fault | refill
  deriving DecidableEq, Repr

/-- STATE codes of Table 112. -/
def RngState.code : RngState → Nat
  | .fill => 0
  | .ready => 1
  | .fault => 2
  | .refill => 3

/-- Health tests of one noise source (R349): last bit and its run, first bit of the run of 1,024 and its count. -/
structure Health where
  last  : Bool
  run   : Nat
  first : Bool
  count : Nat
  deriving DecidableEq, Repr

/-- The RNG (R347 to R364). -/
structure RngSt where
  state     : RngState
  sampling  : Bool
  katRun    : Bool
  failSrc   : Nat
  failTest  : Bool
  faults    : Nat
  passRun   : Nat
  prAll     : Bool
  reseed    : Nat
  katDone   : Bool
  condPass  : Bool
  expPass   : Bool
  katRuns   : Nat
  cond      : BitVec 256
  absorbed  : Nat
  samples   : Nat
  sampledAt : Option DWord
  bad       : Bool
  health    : Vector Health 28
  held      : List (BitVec 256)
  pool      : List (BitVec 256)
  inst      : List (Bytes × Nat)
  next      : Nat
  start     : DWord
  deriving DecidableEq, Repr

/-- Life cycle and debug (Tables 144 to 148); `nonce` is bytes 0 to 3 of the nonce that opened the scope (Table 143), `dbgSram` the words
of the SRAM that CONTROL scope has written (Table 142), by word address, `units` the halted sequencers (by number) and engines (16 + 256 ×
kind + index) with the steps each may still take (R399; log 105), `boundary` and `bypass` the registers of the test access port (R398). -/
structure LcSt where
  state     : Lc
  noMajor   : Bool
  challenge : Option Bytes
  scope     : Nat
  tainted   : Bool
  byOwner   : Bool
  nonce     : Bytes
  boardId   : Option Bytes
  tapIr     : Nat
  tapData   : DWord
  tapDrive  : Bool
  dbgSram   : Map Word
  units     : Map Nat
  boundary  : Bytes
  bypass    : Bool
  deriving DecidableEq, Repr

/-- Keys drawn at each boot: the memory protection unit's AES-256-XTS key and MAC key (R28), the two mask keys and the
scramble key of the key register (R267), the storage key and its nonce (R277). -/
structure BootKeys where
  xts      : Bytes
  mac      : Bytes
  maskA    : Bytes
  maskB    : Bytes
  scramble : Bytes
  storage  : Bytes
  nonce    : Bytes
  deriving DecidableEq, Repr

/-! ### Towpath links -/

/-- Link states (Table 149). -/
inductive LinkState where
  | unused | training | keying | up | degraded | retraining | failed
  deriving DecidableEq, Repr

/-- STATE codes of Table 149. -/
def LinkState.code : LinkState → Nat
  | .unused => 0
  | .training => 1
  | .keying => 2
  | .up => 3
  | .degraded => 4
  | .retraining => 5
  | .failed => 6

/-- Messages sent over a link (Table 151), with the link-layer ACK and NAK (R412) and what each side sends in TRAINING (R408). -/
inductive LinkMsg where
  | training (position devices : Nat)
  | cmd (position number fn : Nat) (worldS : Bool) (cls : BitVec 6) (entry : Bytes)
  | inData (number offset : Nat) (data : Bytes)
  | inPull (number offset len : Nat)
  | outData (number offset : Nat) (data : Bytes)
  | done (number status outLen detail : Nat)
  | berthXfer (move handle : Nat) (berth : Berth) (keys : List (Nat × Key))
  | xferAck (move : Nat) (handle : Word)
  | xferCommit (move : Nat)
  | xferAbort (move : Nat)
  | hello (m : HelloMsg)
  | kemSig (ct sig : Bytes)
  | rekey (m : HelloMsg) (ct sig : Bytes)
  | credit (channel count : Nat)
  | endFunc (position fn kind : Nat)
  | ack (seq : DWord)
  | nak
  deriving DecidableEq, Repr

/-- A message sent and not yet acknowledged: the SEQ of its last packet, and its packets as they were sent (R412, Table 150). -/
structure Sent where
  seq     : DWord
  msg     : LinkMsg
  packets : List Bytes
  deriving DecidableEq, Repr

/-- One towpath link (R404 to R416). `resend` holds what is not yet acknowledged, `inbox` the messages of the keying exchange that wait
until links may key again (R407); `signed` is whether
this side's signature has been sent in the exchange under way, `newTx` and `newRx` the keys that take over at the next
multiple of 2^16 packets (R410), `owed` the maintenance credits not yet returned (log 26). -/
structure Link where
  st        : LinkState
  peer      : Option Nat
  retired   : BitVec 8
  cause     : Nat
  failedAt  : DWord
  crcErr    : Nat
  retrains  : Nat
  tagErr    : Nat
  helloTx   : Option HelloMsg
  helloRx   : Option HelloMsg
  secretTx  : Bytes
  ctTx      : Bytes
  secretRx  : Bytes
  kemDone   : Bool
  keyTx     : Bytes
  keyRx     : Bytes
  seqTx     : DWord
  seqRx     : DWord
  resend    : List Sent
  inbox     : List LinkMsg
  replays   : Nat
  episode   : Option DWord
  credits   : Vector Nat 4
  rekeying  : Bool
  signed    : Bool
  newTx     : Bytes
  newRx     : Bytes
  owed      : Nat
  back      : List LinkMsg
  deriving DecidableEq, Repr

/-- A forwarding entry (R421 to R423). -/
structure Forward where
  index    : Nat
  owner    : Nat
  ownerPos : Nat
  epoch    : BitVec 8
  handle   : Word
  deriving DecidableEq, Repr

/-- A move the source has sent: target position and link, berth index, whether it committed, and whether it ended
before that with its XFER_ABORT still to send. Its identifier is the source's position plus 8 times a count. -/
structure Move where
  id        : Nat
  cid       : Nat
  index     : Nat
  target    : Nat
  link      : Nat
  committed : Bool
  aborted   : Bool
  handle    : Word
  deriving DecidableEq, Repr

/-- Topology and links (Tables 153 to 155). `peerEpoch` is the epoch last held for a position (R413), `arrivals` the
granules at the source of the keys of an INCOMING berth, by move, `ended` the positions treated as restarted after their
last link failed, `downSince` the tick at which a position's last link became FAILED (R425). -/
structure Topo where
  set       : Bool
  position  : Nat
  devices   : Nat
  links     : Vector Link 8
  peerEpoch : Map DWord
  forwards  : List Forward
  moves     : List Move
  nextMove  : Nat
  arrivals  : Map (List Nat)
  ended     : List Nat
  downSince : Map DWord
  deriving DecidableEq, Repr

/-- Keys, berths and what names them. `reshare` is the granule the background pass re-shares next (R268), `tails` the
records of wrapped key spill by head granule, each with the attribute block it was sealed under, and `views` those of berth spill by
berth index (R281, R285). -/
structure KeySt where
  keys      : Map Key
  berths    : Map Berth
  lastBerth : Nat
  deadEntry : List Nat
  held      : Map DWord
  trees     : Map (Nat × Nat)
  corrupt   : List Nat
  reshare   : Nat
  tails     : Map (Bytes × Bytes)
  views     : Map Bytes
  deriving DecidableEq, Repr

/-- What the device issued on a host port, a link or the flash interface, oldest first: a memory write or read, a link message with its
packets, the answer to a read of BAR 0 (none: Unsupported Request; R431, R454), a PCIe error message of a function (R430), a command to
the flash with its address and the bytes it reads, and a level of QSPI_RESET_N (R441). -/
inductive Bus where
  | write (fn : Nat) (addr : DWord) (data : Bytes)
  | read (fn : Nat) (addr : DWord) (len : Nat)
  | link (k : Nat) (m : LinkMsg) (packets : List Bytes)
  | reply (fn off : Nat) (data : Option Bytes)
  | errorMsg (fn : Nat)
  | flash (cmd : Byte) (addr len : Nat)
  | flashReset (level : Bool)
  deriving DecidableEq, Repr

/-- The machine. `pending`, `bus`, `stamp`, `nextId` and `free` are the MODEL'S OWN fields: the queue of waiting
commands, the requests issued, the use counter behind every "least recently used", the acceptance counter, and the
counter the free values are drawn by. -/
structure State where
  pending : List Instr
  sys     : Sys
  boot    : BootSt
  otp     : Otp
  nvm     : Nvm
  backup  : Backup
  time    : TimeSt
  fns     : Map Fn
  ports   : Vector Port 8
  sqs     : Map Sq
  cqs     : Map Cq
  cmds    : List Cmd
  eng     : Eng
  keys    : KeySt
  rng     : RngSt
  alarm   : AlarmSt
  recorder : RecSt
  lc      : LcSt
  bkeys   : BootKeys
  topo    : Topo
  bus     : List Bus
  stamp   : Nat
  nextId  : Nat
  free    : Nat
  deriving DecidableEq, Repr

/-- Why a step stops with a fault. No meaning of this model raises one: the spec describes what the device does at
every error it names, and an access to an offset that holds no register is answered, not faulted (R428, R455). -/
inductive Fault where
  /-- Raised by nobody; kept because the interface asks for a fault type. Safe: the machine would stop. -/
  | unreachable
  deriving DecidableEq, Repr

/-- Why a step gives no meaning. -/
inductive Refusal where
  /-- Raised only by an arm of Dispatch for a command that has no meaning yet. Safe: the machine stops. -/
  | notModelled (mnemonic : String)
  deriving DecidableEq, Repr

/-- What a meaning answers. -/
abbrev Out := Host.Outcome State Fault Refusal

/-! ### Reset -/

/-- Keeper queue registers at reset (Tables 38 to 45). -/
def Kq.reset : Kq :=
  { sqBase := 0, cqBase := 0, dbBase := 0, active := 4, noBackoff := false, enable := false, irqEn := false }

/-- A fast vector at reset (Tables 103 to 106). -/
def FastVec.reset : FastVec :=
  { addr := 0, data := 0, enable := false, mask := false, pending := false, count := 0, info := 0 }

/-- An MSI-X entry at reset: masked (R344). -/
def MsixEntry.reset : MsixEntry := { addr := 0, data := 0, masked := true }

/-- A function's PCIe registers after reset: Max Read Request Size 512 and Max Payload Size 128 (Device Control 0x2810), the BARs at
address zero with their hardwired type bits (R428; log 11). -/
def PcieRegs.reset : PcieRegs :=
  { devCtl := 0x2810, devCtl2 := 0, aerUnc := 0, aerCor := 0, aerCtl := 0, acsCtl := 0, bar0 := 0x4, bar2 := 0xC }

/-- A function as entry to Boot leaves it: the defaults of Table 52, worlds of R104 and R118, states of R111. -/
def Fn.reset (vf keeper : Bool) : Fn :=
  { power := if vf then .off else .on, quenched := false, waiters := [], heldEnable := none, cls := 0,
    grants := if keeper then 1 else 0, nextCls := none,
    sqLim := if keeper then 4095 else if vf then 0 else 512,
    cqLim := if keeper then 4095 else if vf then 0 else 512,
    berthLim := if keeper then 65536 else if vf then 0 else 8192,
    granLim := if keeper then 131072 else if vf then 0 else 16384,
    worldS := keeper, bme := false, mse := false, d3hot := false, msixEnable := false, msixMask := false,
    flr := .none, heldWrites := [], kq := Kq.reset, fast := Vector.replicate 8 FastVec.reset, msix := [],
    normPend := [], holds := [], interval := 4, unchanged := 0, activity := true, nextPass := 0, dbTodo := [],
    dbReads := [], lines := [], lastSq := none, stalled := false,
    kcqSince := none, tbLatch := 0, calLatch := 0, recIndex := 0, recPinned := false, remoteKeys := [],
    remoteBerths := [], late := [], pcie := PcieRegs.reset }

/-- A port whose SR-IOV configuration holds its reset values (R472). -/
def Port.reset : Port :=
  { vfEnable := false, numVfs := 0, perst := false, linkUp := false, targets := [], sets := [], tag10 := false,
    lastFetch := none, speed := 0, width := 0, vfBar0 := 0x4, vfBar2 := 0xC }

/-- A submission queue just made, or a keeper SQ at reset. -/
def Sq.fresh (base : DWord) (n cq : Nat) (st : SqState) : Sq :=
  { base, n, cq, st, head := 0, fetch := 0, tail := 0, opened := 0, errInfo := 0, reads := [], ready := [],
    slots := Vector.replicate 4 [], chainLen := 0, chainId := 0, chainOk := none, dbFail := false,
    lineDue := false, seen := 0 }

/-- A completion queue just made, or a keeper CQ at reset: moderation COUNT 1 and TIME 0 (R119, R334). -/
def Cq.fresh (base : DWord) (n allow vector : Nat) : Cq :=
  { base, n, allow, vector, tail := 0, head := 0, reserved := 0, waiting := [], modCount := 1, modTime := 0,
    count := 0, start := 0, episode := false, badHead := false, dbFail := false }

/-- An alarm source at its defaults (Table 117). -/
def Mon.reset (src : Nat) : Mon :=
  { recEvents := true,
    w := if src < 6 then 1000 else if src = 12 || src = 13 then 1 else 1000000,
    n := if src < 6 then 4 else if src < 12 then 100 else if src = 14 then 3 else if src = 15 then 16 else 1,
    level := if src = 12 || src = 13 then 3 else 1, hist := [], inWin := 0, total := 0 }

/-- Alarm block at a cold start (Tables 117, 127, 128, 135, 163, 175, 176). -/
def AlarmSt.reset : AlarmSt :=
  { mons := Vector.ofFn (fun i => Mon.reset i.val), fired := 0, maxLevel := 0, maxValid := false, clearing := false,
    lock := false, set := [], setUs := 0, erased := false, below := 0, above := 0, glitched := 0, vcoreSet := 750,
    reported := false, reports := [], rate := 0, quadrant := 0, paceFrom := 0,
    snapSel := #v[0x00000106, 0x00000001, 0x00000902, 0x00000000] }

/-- Boot registers at entry to Boot (Tables 25 to 30, 164). -/
def BootSt.reset : BootSt :=
  { phase := 1, romDone := false, error := 0, gmFail := 0, rolled := false, lcDone := false, committed := false,
    used := 0, errA := 0, errB := 0, errHost := 0, addrLo := 0, addrHi := 0, loading := false, asked := false, header := none, secVer := 0,
    commit := false, build := 0, patches := 0, level := 0, store := [], gmDone := false, gmTrained := false,
    density := 0, retries := 0, retrains := 0, digest := [], checkFrom := 0, gmBad := [] }

/-- Engines, arbiter and plans at entry to Boot (R183, R202, R204, R325). -/
def Eng.reset : Eng :=
  { inService := false, retired := [], lves := [], seedQ := [], slot := 0, walking := false, table := none,
    nextTable := none, fresh := false, lastFn := [], changes := [], plans := [], copies := [], missing := [], cache := [], steps := 0,
    lastStep := [], stale := [], maskGen := [], faulted := [] }

/-- Time at entry to Boot (R294, R302, Table 96). -/
def TimeSt.reset : TimeSt :=
  { anchorSec := 0, anchorFrac := 0, anchorTick := 0, anchored := false, tbFault := false, calSets := 0, epoch := 0,
    lastToken := none, noticed := false, lastEdge := 0, second := none, measure := none, wearFrom := 0, vbakLow := false }

/-- A noise source's tests before its first bit. -/
def Health.reset : Health := { last := false, run := 0, first := false, count := 0 }

/-- The RNG at entry to Boot (Tables 113, 114, 116; R351). -/
def RngSt.reset : RngSt :=
  { state := .fill, sampling := false, katRun := false, failSrc := 0, failTest := false, faults := 0, passRun := 0,
    prAll := false, reseed := 16, katDone := false, condPass := false, expPass := false, katRuns := 0, cond := 0,
    absorbed := 0, samples := 0, sampledAt := none, bad := false, health := Vector.replicate 28 Health.reset, held := [], pool := [],
    inst := [], next := 0, start := 0 }

/-- Recorder control at entry to Boot. -/
def RecSt.reset : RecSt := { mounted := false, queue := [], dropped := 0, seq := 0, skip := 0 }

/-- Life cycle and debug at entry to Boot; the state is decoded from OTP in OTP_LC (Tables 144 to 148). -/
def LcSt.reset (st : Lc) (noMajor : Bool) : LcSt :=
  { state := st, noMajor, challenge := none, scope := 0, tainted := false, byOwner := false, nonce := [0, 0, 0, 0], boardId := none,
    tapIr := 1, tapData := 0x181280B7, tapDrive := false, dbgSram := [], units := [], boundary := [], bypass := false }

/-- Per-boot keys before INSTALL. -/
def BootKeys.reset : BootKeys := { xts := [], mac := [], maskA := [], maskB := [], scramble := [], storage := [], nonce := [] }

/-- A towpath link at entry to Boot (Tables 154, 155). -/
def Link.reset : Link :=
  { st := .unused, peer := none, retired := 0, cause := 0, failedAt := 0, crcErr := 0, retrains := 0, tagErr := 0,
    helloTx := none, helloRx := none, secretTx := [], ctTx := [], secretRx := [], kemDone := false, keyTx := [],
    keyRx := [], seqTx := 0, seqRx := 0, resend := [], inbox := [], replays := 0, episode := none,
    credits := Vector.replicate 4 Config.channelCredits, rekeying := false, signed := false,
    newTx := [], newRx := [], owed := 0, back := [] }

/-- Topology at entry to Boot (R126, Table 153). -/
def Topo.reset : Topo :=
  { set := false, position := 0, devices := 0, links := Vector.replicate 8 Link.reset, peerEpoch := [],
    forwards := [], moves := [], nextMove := 0, arrivals := [], ended := [], downSince := [] }

/-- Keys and berths at entry to Boot: none (R276). -/
def KeySt.reset : KeySt :=
  { keys := [], berths := [], lastBerth := 65535, deadEntry := [], held := [], trees := [], corrupt := [], reshare := 0,
    tails := [], views := [] }

/-- A part as made: every OTP slot free, no fuse burned (R387, R388). -/
def Otp.fresh : Otp :=
  { lcA := List.replicate 8 0, lcB := List.replicate 8 0, lcC := List.replicate 8 0, trims := true, minVer := 0,
    fuseA := 0, fuseB := 0, variant32 := false }

/-- NVM with every record and byte blank (R240, R378). -/
def Nvm.fresh : Nvm :=
  { recs := [], trees := [], identity := .blank, ownerRoot := .blank, swk := .blank, user := [], slots := [],
    newest := none, pins := [],
    wear := Vector.replicate 7 { used := 0, window := 0, spare := 0, worn := false, life := 0xFFFFFF } }

/-- The backup domain after its power-on (Table 90). -/
def Backup.powerOn : Backup :=
  { sec := 0, frac := 0, timeLost := true, timeUnset := true, cause := 0b100, stopped := false }

/-- Supplies, pins and mode at entry to Boot by a cold start with DEV_RESET_N high (R37, R43, Tables 21, 22). -/
def Sys.reset : Sys :=
  { mode := .boot, prev := .dormant, cause := 0, reqRejected := false, byAlarm := false, heldReturn := .dormant,
    mainGood := true, vio18Good := true, tbclk := false, resetLow := false, isolated := true, keeperSel := 0,
    qspiActive := false, tick := 0, heldSince := 0, moved := none }

/-- The machine right after reset: entry to Boot by a cold start of a part as made (R37, R43, R460). -/
def State.reset : State :=
  { pending := [], sys := Sys.reset, boot := BootSt.reset, otp := Otp.fresh, nvm := Nvm.fresh,
    backup := Backup.powerOn, time := TimeSt.reset, fns := [], ports := Vector.replicate 8 Port.reset, sqs := [],
    cqs := [], cmds := [], eng := Eng.reset, keys := KeySt.reset, rng := RngSt.reset, alarm := AlarmSt.reset,
    recorder := RecSt.reset, lc := LcSt.reset .blank false, bkeys := BootKeys.reset, topo := Topo.reset, bus := [],
    stamp := 0, nextId := 0, free := 0 }

end Sys2Proof.Machine
end

