-- ==== Sys2Proof/Machine/Lookup.lean ====
section
/-!
DEFINITION. Reading the state: functions and ports (R103, R311), queues (R61), accepted commands, NVM records (R239,
R240), the life cycle decoded from OTP (R388), keys and berths and their charges, and the clocks (R299).
-/

namespace Sys2Proof

/-- The key bytes that the two shares in the register stand for (R267). -/
def Key.bytes (k : Key) : Bytes := Machine.underStream k.shareA k.shareB

/-- A key held under a mask: the shares v ⊕ m and m (R267). -/
def Key.masked (k : Key) (m : Bytes) : Key :=
  { k with shareA := Machine.underStream k.bytes m, shareB := padTo k.shareA.length m }

/-- A key under fresh masks, one of 64 bytes for each granule; the head's first 32 bytes mask the attribute block (R267). -/
def Key.granuled (k : Key) (masks : Bytes) : Key := { k.masked (masks.drop 32) with attrMask := padTo 32 (masks.take 32) }

end Sys2Proof

namespace Sys2Proof.Machine

/-! ### Functions and ports -/

/-- Host port of a function number (R103). -/
def portOf (fn : Nat) : Nat := fn / 128 % 8

/-- VF index of a function number, 0 for the PF (R103). -/
def vfOf (fn : Nat) : Nat := fn % 128

/-- The PF of a function's port. -/
def pfOf (fn : Nat) : Nat := fn / 128 * 128

/-- A function number that names a physical function. -/
def isPf (fn : Nat) : Bool := fn % 128 == 0 && decide (fn < 1024)

/-- The keeper function (Table 5, R434). -/
def keeperFn (s : State) : Nat := 128 * s.sys.keeperSel.toNat

/-- A port by number. -/
def getPort (s : State) (p : Nat) : Port := s.ports.toArray.getD p Port.reset

/-- A function exists: a PF of a port, or a VF under R311. -/
def fnExists (s : State) (fn : Nat) : Bool :=
  decide (fn < 1024) &&
    (vfOf fn == 0 ||
      ((getPort s (portOf fn)).vfEnable && decide ((getPort s (portOf fn)).numVfs.toNat ≤ 127) &&
        decide (vfOf fn ≤ (getPort s (portOf fn)).numVfs.toNat)))

/-- A function's state; one never changed holds its defaults (Table 52, R104, R111). -/
def getFn (s : State) (fn : Nat) : Fn := Map.getD s.fns fn (Fn.reset (vfOf fn != 0) (fn == keeperFn s))

/-- Change a function's state. -/
def modFn (s : State) (fn : Nat) (f : Fn → Fn) : State := { s with fns := Map.put s.fns fn (f (getFn s fn)) }

/-- Change a port. -/
def modPort (s : State) (p : Nat) (f : Port → Port) : State :=
  { s with ports := s.ports.mapIdx (fun i x => if i = p then f x else x) }

/-- A function's port has its link: PERST_N is high and the link has trained (R321, R432, R435, R446). -/
def portUp (s : State) (fn : Nat) : Bool := !(getPort s (portOf fn)).perst && (getPort s (portOf fn)).linkUp

/-- The device may issue requests for a function now (R431, R432, R316; R40, R346 for the modes). -/
def canReq (s : State) (fn : Nat) : Bool :=
  (getFn s fn).bme && !(getFn s fn).d3hot && (getFn s fn).flr != .requested && portUp s fn &&
    (s.sys.mode == .service || s.sys.mode == .held || s.sys.mode == .maintenance)

/-! ### Requests (R429; log 11) -/

/-- IN_IOVA. -/
def inIova (e : Bytes) : DWord := BitVec.ofNat 64 (le e 16 8)

/-- OUT_IOVA. -/
def outIova (e : Bytes) : DWord := BitVec.ofNat 64 (le e 32 8)

/-- Max Payload Size of a function's requests: its PF's Device Control (R426, R429). -/
def maxPayload (s : State) (fn : Nat) : Nat := 128 * 2 ^ min 2 (bits (getFn s (pfOf fn)).pcie.devCtl.toNat 5 3)

/-- Max Read Request Size of a function's requests. -/
def maxRead (s : State) (fn : Nat) : Nat := 128 * 2 ^ min 5 (bits (getFn s (pfOf fn)).pcie.devCtl.toNat 12 3)

/-- `n` bytes from an address on, cut where a multiple of `size` is reached: each cut's address and length; `fuel` bounds the cuts. -/
def spans (size : Nat) : Nat → Nat → Nat → List (Nat × Nat)
  | 0, _, _ => []
  | fuel + 1, a, n =>
    let k := min n (size - a % size)
    if n = 0 then [] else (a, k) :: spans size fuel (a + k) (n - k)

/-! ### Read tags (R108, R433) -/

/-- Read requests a port keeps outstanding (R433). -/
def readTags (p : Port) : Nat := if p.tag10 then 512 else 256

/-- Tags of a port that only keeper traffic takes: one in eight (R108, R433). -/
def keeperTags (p : Port) : Nat := readTags p / 8

/-- A command's input reads that are outstanding (R101, R418). -/
def inputReads (c : Cmd) : Nat :=
  if c.origin.isSome then 0
  else match c.phase with
    | .forwarded _ => c.pulled
    | .fin _ => 0
    | _ => if c.asked && c.input.isNone then 1 else 0

/-- A read whose answer is no longer wanted was keeper traffic: of the keeper SQ's line or ring (R108). -/
def lateKeeper (e : Nat × Nat) : Bool := e.2 == 0 && (e.1 % 4 == 0 || e.1 % 4 == 2)

/-- Outstanding reads of a port that are keeper traffic: keeper SQ doorbell polls and keeper ring fetches (R108). -/
def keeperReads (s : State) (p : Nat) : Nat :=
  ((s.fns.filter fun e => portOf e.1 == p).map fun e => e.2.dbReads.count (0, false)).sum
    + ((s.sqs.filter fun e => e.1 % 4096 == 0 && portOf (e.1 / 4096) == p).map fun e => e.2.reads.length).sum
    + ((s.fns.filter fun e => portOf e.1 == p).map fun e => (e.2.late.filter lateKeeper).length).sum

/-- The other outstanding reads of a port. -/
def otherReads (s : State) (p : Nat) : Nat :=
  ((s.fns.filter fun e => portOf e.1 == p).map fun e => (e.2.dbReads.filter (· != (0, false))).length).sum
    + ((s.sqs.filter fun e => e.1 % 4096 != 0 && portOf (e.1 / 4096) == p).map fun e => e.2.reads.length).sum
    + ((s.cmds.filter fun c => portOf c.fn == p).map inputReads).sum
    + ((s.fns.filter fun e => portOf e.1 == p).map fun e => (e.2.late.filter (!lateKeeper ·)).length).sum

/-- `n` more reads have tags: any for keeper traffic, the unreserved for the rest (R108, R433; log 77). -/
def tagsFree (s : State) (fn : Nat) (keeper : Bool) (n : Nat) : Bool :=
  let p := portOf fn
  let k := keeperReads s p
  let r := keeperTags (getPort s p)
  if keeper then decide (k + otherReads s p + n ≤ readTags (getPort s p))
  else decide (otherReads s p + (k - r) + n ≤ readTags (getPort s p) - r)

/-- The device may issue a read for a function now (R431, R433). -/
def canRead (s : State) (fn : Nat) (keeper : Bool) : Bool := canReq s fn && tagsFree s fn keeper 1

/-- The first of a list of numbers after the last served, else the least of them: round robin (R89, R324). -/
def nextAfter (ks : List Nat) (last : Option Nat) : Option Nat :=
  let up := match last with
    | some l => ks.filter fun k => decide (l < k)
    | none => ks
  match up.min? with
  | some k => some k
  | none => ks.min?

/-- The modes in which queues are served. -/
def serving (s : State) : Bool := s.sys.mode == .service || s.sys.mode == .held || s.sys.mode == .maintenance

/-- Engines run: Service and Maintenance (Table 14). -/
def running (s : State) : Bool := s.sys.mode == .service || s.sys.mode == .maintenance

/-! ### Queues and commands -/

/-- Key of a queue in the state. -/
def qKey (fn qid : Nat) : Nat := fn * 4096 + qid

/-- A submission queue; identifier 0 is the keeper SQ (R60, R61). -/
def getSq (s : State) (fn qid : Nat) : Option Sq :=
  match Map.get? s.sqs (qKey fn qid) with
  | some q => some q
  | none => if qid = 0 && fnExists s fn then some (Sq.fresh 0 64 0 .disabled) else none

/-- A completion queue; identifier 0 is the keeper CQ (R60, R334). -/
def getCq (s : State) (fn qid : Nat) : Option Cq :=
  match Map.get? s.cqs (qKey fn qid) with
  | some q => some q
  | none => if qid = 0 && fnExists s fn then some (Cq.fresh 0 64 64 0) else none

/-- Replace a submission queue. -/
def putSq (s : State) (fn qid : Nat) (q : Sq) : State := { s with sqs := Map.put s.sqs (qKey fn qid) q }

/-- Replace a completion queue. -/
def putCq (s : State) (fn qid : Nat) (q : Cq) : State := { s with cqs := Map.put s.cqs (qKey fn qid) q }

/-- Base of an SQ's ring; the keeper SQ's is in its registers (R60). -/
def sqBase (s : State) (fn qid : Nat) (q : Sq) : DWord := if qid = 0 then (getFn s fn).kq.sqBase else q.base

/-- Base of a CQ's ring. -/
def cqBase (s : State) (fn qid : Nat) (q : Cq) : DWord := if qid = 0 then (getFn s fn).kq.cqBase else q.base

/-- Block of a queue identifier in the doorbell area (R73). -/
def dbBlock (s : State) (fn qid : Nat) : DWord := (getFn s fn).kq.dbBase + BitVec.ofNat 64 (256 * qid)

/-- Identifiers of a function's queues in a map, rising. -/
def qidsOf {α : Type} (m : Map α) (fn : Nat) : List Nat :=
  m.filterMap fun e => if e.1 / 4096 = fn then some (e.1 % 4096) else none

/-- Entries present in a ring (R70). -/
def ringCount (tail head n : Nat) : Nat := (tail + 2 * n - head) % (2 * n)

/-- A tail is valid against a head (R70). -/
def ringValid (tail head n : Nat) : Bool := decide (tail < 2 * n) && decide (ringCount tail head n ≤ n)

/-- The next index (R70). -/
def ringNext (i n : Nat) : Nat := (i + 1) % (2 * n)

/-- Phase bit of a CQ entry (R70). -/
def ringPhase (i n : Nat) : Nat := 1 - i / n % 2

/-- An accepted command by its number. -/
def getCmd (s : State) (cid : Nat) : Option Cmd := s.cmds.find? (fun c => c.id == cid)

/-- Change an accepted command. -/
def modCmd (s : State) (cid : Nat) (f : Cmd → Cmd) : State :=
  { s with cmds := s.cmds.map (fun c => if c.id = cid then f c else c) }

/-- Remove an accepted command. -/
def dropCmd (s : State) (cid : Nat) : State := { s with cmds := s.cmds.filter (fun c => c.id != cid) }

/-- Issue a request on a port or a link. -/
def emit (s : State) (b : Bus) : State := { s with bus := s.bus ++ [b] }

/-- Issue a write, in requests of at most Max Payload Size (R429). -/
def emitWrite (s : State) (fn : Nat) (addr : DWord) (d : Bytes) : State :=
  (spans (maxPayload s fn) d.length addr.toNat d.length).foldl
    (fun t p => emit t (.write fn (BitVec.ofNat 64 p.1) (slice d (p.1 - addr.toNat) p.2))) s

/-- Issue a read, in requests of at most Max Read Request Size (R429); they follow one another under one tag (log 77). -/
def emitRead (s : State) (fn : Nat) (addr : DWord) (n : Nat) : State :=
  (spans (maxRead s fn) n addr.toNat n).foldl (fun t p => emit t (.read fn (BitVec.ofNat 64 p.1) p.2)) s

/-! ### Clocks -/

/-- The timebase (R294). -/
def tickNat (s : State) : Nat := s.sys.tick.toNat

/-- TIME64 from an anchor at a tick (R299). -/
def time64At (sec : BitVec 40) (frac : BitVec 15) (anchor tick : Nat) : DWord :=
  BitVec.ofNat 64 (sec.toNat * 2 ^ 24 + frac.toNat * 512 + min 511 ((tick - anchor) * 2 ^ 24 / 100000000))

/-- TIME64 now (R299). -/
def time64Now (s : State) : DWord :=
  time64At s.time.anchorSec s.time.anchorFrac s.time.anchorTick.toNat (tickNat s)

/-- The time is untrusted (R298). -/
def untrusted (s : State) : Bool := s.backup.timeLost || s.backup.timeUnset

/-! ### NVM records -/

/-- CHECK of a copy (Table 76). -/
def copyCheck (region record : Nat) (value : DWord) (gen : BitVec 24) (resv : Byte) : Word :=
  BitVec.ofNat 32 (crc32c (leBytes 1 region ++ leBytes 2 record ++ leBytes 8 value.toNat ++ leBytes 3 gen.toNat ++ [resv]))

/-- A copy is blank: all 16 bytes read 0xFF (R240). -/
def copyBlank (c : Copy) : Bool :=
  c.value == BitVec.allOnes 64 && c.gen == BitVec.allOnes 24 && c.resv == 0xFF && c.check == BitVec.allOnes 32

/-- A copy is valid (R240). -/
def copyValid (region record : Nat) (c : Copy) : Bool :=
  !copyBlank c && c.resv == 0 && c.check == copyCheck region record c.value c.gen c.resv && c.margin

/-- Order of copies: by GEN, then by VALUE (R240). -/
def copyRank (c : Copy) : Nat := c.gen.toNat * 2 ^ 64 + c.value.toNat

/-- The written copies of a record, by slot. -/
def copiesOf (n : Nvm) (region record : Nat) : Map Copy := Map.getD n.recs (region * 65536 + record) []

/-- The highest valid copy with its slot; the lowest slot among equals. -/
def bestCopy (region record : Nat) : Map Copy → Option (Nat × Copy)
  | [] => none
  | (i, c) :: r =>
    match bestCopy region record r with
    | none => if copyValid region record c then some (i, c) else none
    | some (j, d) =>
      if copyValid region record c && decide (copyRank d ≤ copyRank c) then some (i, c) else some (j, d)

/-- What a record reads as. -/
inductive RecVal where
  | value (gen : BitVec 24) (v : DWord)
  | corrupt
  deriving DecidableEq, Repr

/-- Value of a record (R240). -/
def recVal (n : Nvm) (region record : Nat) : RecVal :=
  match bestCopy region record (copiesOf n region record) with
  | some (_, c) => .value c.gen c.value
  | none => if (copiesOf n region record).all (fun e => copyBlank e.2) then .value 0 0 else .corrupt

/-- Value of a mark; a corrupt mark reads as cleared (log 13). -/
def markVal (n : Nvm) (record : Nat) : Nat :=
  match recVal n 5 record with
  | .value _ v => v.toNat
  | .corrupt => 0

/-- Life-cycle state by index. -/
def lcOfIndex (i : Nat) : Lc :=
  match i with
  | 0 => .blank
  | 1 => .factory
  | 2 => .owned
  | 3 => .field
  | 4 => .ret
  | _ => .scrap

/-- Value of the pending mark for a move (log 13). -/
def moveMark (frm dst : Lc) : Nat := 0x10000 + frm.index * 256 + dst.index

/-- The pending move (R393): mark record 1 of region 5. -/
def pendingMove (n : Nvm) : Option (Lc × Lc) :=
  if markVal n 1 = 0 then none else some (lcOfIndex (markVal n 1 / 256 % 256), lcOfIndex (markVal n 1 % 256))

/-- The wipe-done mark (R393): record 2. -/
def wipeDone (n : Nvm) : Bool := markVal n 2 != 0

/-- The clear-pending mark (R376): record 3 (log 13). -/
def clearMark (n : Nvm) : Bool := markVal n 3 != 0

/-! ### Life cycle from OTP -/

/-- State of a code of Table 137. -/
def lcOfCode (c : BitVec 16) : Option Lc :=
  [Lc.blank, .factory, .owned, .field, .ret, .scrap].find? (fun l => l.code == c)

/-- The highest non-free slot of a copy. -/
def lastSlot (c : List (BitVec 16)) : Option (Nat × BitVec 16) :=
  (List.range c.length).reverse.findSome? fun i => if c.getD i 0 = 0 then none else some (i, c.getD i 0)

/-- What an OTP copy decodes to; none for an invalid copy (R388). -/
def lcCopy (c : List (BitVec 16)) : Option Lc :=
  match lastSlot c with
  | none => some .blank
  | some (_, code) => match lcOfCode code with
    | some .blank => none
    | x => x

/-- State and NO_MAJORITY decoded from OTP (R388). -/
def lcDecode (o : Otp) : Lc × Bool :=
  match lcCopy o.lcA, lcCopy o.lcB, lcCopy o.lcC with
  | some a, some b, c => if a = b then (a, false) else if c = some a then (a, false)
      else if c = some b then (b, false) else (.scrap, true)
  | some a, none, some c => if a = c then (a, false) else (.scrap, true)
  | none, some b, some c => if b = c then (b, false) else (.scrap, true)
  | _, _, _ => (.scrap, true)

/-! ### Wear -/

/-- Words of each NVM region (Table 80). -/
def regionWords (r : Nat) : Nat :=
  match r with
  | 0 => 524288
  | 1 => 131072
  | 2 => 32768
  | 3 => 16384
  | 4 => 65536
  | 5 => 1024
  | _ => 16384

/-- Spare words of each region (Table 80). -/
def spareWords (r : Nat) : Nat :=
  match r with
  | 0 => 65536
  | 1 => 32768
  | 2 => 8192
  | 3 => 32768
  | 4 => 114688
  | 5 => 1024
  | _ => 6144

/-- Words of a tree record, of the owner root's, of the storage wrapping key's and of the identity's, in the persistent keys region
(log 38). -/
def treeWords : Nat := 64
/-- Words of the owner root record. -/
def rootWords : Nat := 324
/-- Words of the storage wrapping key's record. -/
def swkWords : Nat := 4
/-- Words of the identity record. -/
def identityWords : Nat := 1528

/-- Write budget of a region (R260). -/
def wearBudget (r : Nat) : Nat := (regionWords r + spareWords r) * 1000000

/-- Projected days (R261). -/
def projDays (budget used window : Nat) : Nat :=
  if window = 0 then 0xFFFFFF
  else if budget ≤ used then 0
  else min ((budget - used) * 687194767 / (window * 86400000000)) 0xFFFFFF

/-- Wear of a region. -/
def getWear (n : Nvm) (r : Nat) : Wear := n.wear.toArray.getD r { used := 0, window := 0, spare := 0, worn := false, life := 0 }

/-! ### Engines -/

/-- Engines of each kind (Table 63). -/
def engCount (kind : Nat) : Nat :=
  match kind with
  | 1 => 32
  | 2 => 96
  | 3 => 24
  | 4 => 4
  | 5 => 8
  | 6 => 16
  | _ => 0

/-- Scratch bytes of the kinds with frames; 16 for the kinds with state slots (Table 9, R182). -/
def engRoom (kind : Nat) : Nat :=
  match kind with
  | 1 => 524288
  | 4 => 2097152
  | 5 => 262144
  | _ => 16

/-- The kind holds frames (R182). -/
def hasFrames (kind : Nat) : Bool := kind == 1 || kind == 4 || kind == 5

/-- An engine is in service (R183). -/
def inService (s : State) (kind i : Nat) : Bool :=
  s.eng.inService && decide (i < engCount kind) && !s.eng.retired.contains (kind, i)

/-- An engine among the units that CONTROL scope halts (R399). -/
def engUnit (kind i : Nat) : Nat := 16 + 256 * kind + i

/-- Graphics-memory item whose blocks an access reads or writes, whatever command makes it. -/
def gmItem (r : GmRegion) : GmRegion :=
  match r with
  | .cache _ e => .cache 0 e
  | .planStore id _ => .planStore id 0
  | .keySpill g _ => .keySpill g 0
  | .berthSpill i _ => .berthSpill i 0
  | .working cid => .working cid

/-- The last write of an item failed every try, so that its next read fails its MAC check (R440). -/
def gmIsBad (s : State) (r : GmRegion) : Bool := s.boot.gmBad.contains (gmItem r)

/-- An item is written anew. -/
def gmFresh (s : State) (r : GmRegion) : State :=
  { s with boot := { s.boot with gmBad := s.boot.gmBad.filter (· != gmItem r) } }

/-- A sequencer or an engine is not halted, or has a step left (R399; log 105). -/
def unitRuns (s : State) (u : Nat) : Bool := Map.get? s.lc.units u != some 0

/-- A halted unit has taken one of the steps it was given. -/
def unitStep (s : State) (u : Nat) : State := { s with lc := { s.lc with units := Map.modify s.lc.units u (· - 1) } }

/-- Engines of a kind in service (Table 174). -/
def engLeft (s : State) (kind : Nat) : Nat :=
  if s.eng.inService then engCount kind - (s.eng.retired.filter (fun e => e.1 == kind)).length else 0

/-! ### Keys and berths -/

/-- Granules of a key of L bytes (R264): 1 + T. -/
def keyGranules (l : Nat) : Nat := 1 + (l - 32 + 63) / 64

/-- Granule charge of a function on this device and others (R266, R419). -/
def granCharge (s : State) (fn : Nat) : Nat :=
  (s.keys.keys.filter (fun e => e.2.owner == fn && e.2.ownerPos == s.topo.position)).foldl
    (fun a e => a + keyGranules e.2.len) ((getFn s fn).remoteKeys.map (·.2)).sum

/-- Berths of a function. -/
def berthCharge (s : State) (fn : Nat) : Nat :=
  (s.keys.berths.filter (fun e => e.2.owner == fn && e.2.ownerPos == s.topo.position)).length + (getFn s fn).remoteBerths.length

/-- Granules of the general range in use by heads and resident tails. -/
def usedGranules (s : State) : List Nat :=
  s.keys.keys.foldl (fun a e => a ++ e.1 :: (if e.2.spilled then [] else e.2.tail)) []

/-- A berth's handle (Table 31). -/
def mkHandle (pos epoch idx : Nat) : Nat := pos % 8 * 2 ^ 29 + epoch % 256 * 65536 + idx % 65536

/-- A link by number. -/
def getLink (s : State) (k : Nat) : Link := s.topo.links.toArray.getD k Link.reset

/-- Change a link. -/
def modLink (s : State) (k : Nat) (f : Link → Link) : State :=
  { s with topo := { s.topo with links := s.topo.links.mapIdx (fun i x => if i = k then f x else x) } }

/-- Links UP or DEGRADED. -/
def carrying (l : Link) : Bool := l.st == .up || l.st == .degraded

/-- Links to a peer position, rising. -/
def linksTo (s : State) (pos : Nat) : List Nat :=
  (List.range 8).filter fun k => (getLink s k).peer == some pos

/-- A persistent record sealed with AES-256-GCM under the key of the boot ROM (R276; AAD: log 71). -/
def sealPersist (iv b : Bytes) : Persist :=
  let r := aeadSeal 0x3001 16 Config.persistKey iv [] b
  .sealed iv r.1 r.2

/-- What a persistent record decrypts to, if it authenticates (R276, R278). -/
def openPersist (p : Persist) : Option Bytes :=
  match p with
  | .sealed iv ct tag =>
    let r := aeadOpen 0x3001 Config.persistKey iv [] ct tag
    if r.2 then some r.1 else none
  | _ => none

/-- The control store's 65,536 microwords as bytes (Table 9). -/
def microBytes (m : Map (BitVec 256)) : Bytes := (List.range 65536).flatMap fun i => leBytes 32 (Map.getD m i 0).toNat

/-- SHA3-256 digest of the control store (R368). -/
def storeDigest (m : Map (BitVec 256)) : Bytes := padTo 32 (digest 0x12 32 (microBytes m))

/-- `n` free bytes, an IV the spec does not state. -/
def freeBytes (n k : Nat) : Bytes := (List.range n).map fun i => Config.freeByte (k + i)

/-- The identity record: the identity public key (2,592 bytes), the agreement public key (1,568 bytes), the private keys. -/
def identityRec (s : State) : Option Bytes := openPersist s.nvm.identity

/-- DEVICE_ID: SHA3-256 of the device identity public key; zeros while there is none (Table 91). -/
def deviceId (s : State) : Bytes :=
  match identityRec s with
  | some b => padTo 32 (digest 0x12 32 (slice b 0 2592))
  | none => zeros 32

/-- The owner root public key, if its record is authentic. -/
def ownerRoot (s : State) : Option Bytes := openPersist s.nvm.ownerRoot

/-- Authentic storage wrapping key (R276, R278). -/
def swk (s : State) : Option Bytes := openPersist s.nvm.swk

end Sys2Proof.Machine
end

