-- ==== Sys2Proof/Machine/Flags.lean ====
section
/-!
DEFINITION. Status words and the registers of BAR 0 as reads return them: the field tables of the register chapters,
the per-function window (Table 169), the keeper block (Table 170), and what Boot and Lockdown let through (R49, R40).
-/

namespace Sys2Proof.Machine

/-! ### Field tables -/

/-- The move that awaits reset as software sees it: none from entry to Boot until OTP_LC has ended (Tables 21 and 146, R393). -/
def shownMove (s : State) : Option (Lc × Lc) :=
  if s.sys.mode = .boot && decide (s.boot.phase ≤ 2) then none else pendingMove s.nvm

/-- DEV_STATUS (Table 21). -/
def devStatus (s : State) : Word :=
  packFields [(0, s.sys.mode.code.toNat),
    (4, if s.sys.mode = .boot then s.boot.phase else 0),
    (8, b2n (s.boot.error != 0)),
    (9, b2n (s.rng.state == .ready)),
    (10, b2n (s.sys.mode == .held && s.sys.byAlarm)),
    (11, b2n (shownMove s).isSome),
    (12, if s.sys.mode = .held then s.sys.heldReturn.code.toNat else 0)]

/-- MODE_STATUS (Table 22). -/
def modeStatus (s : State) : Word :=
  packFields [(0, s.sys.mode.code.toNat), (4, s.sys.prev.code.toNat), (8, s.sys.cause.toNat), (12, b2n s.sys.reqRejected)]

/-- BOOT_SOURCE (Table 25). -/
def bootSource (s : State) : Word :=
  packFields [(0, s.boot.used.toNat), (4, s.boot.errA.toNat), (12, s.boot.errB.toNat), (20, s.boot.errHost.toNat)]

/-- BOOT_STATUS (Table 26). -/
def bootStatus (s : State) : Word :=
  packFields [(0, s.boot.phase), (8, s.boot.error.toNat), (16, s.boot.gmFail.toNat), (24, b2n s.boot.rolled),
    (25, b2n s.boot.lcDone), (26, b2n s.boot.committed)]

/-- UCODE_VERSION (Table 29). -/
def ucodeVersion (s : State) : Word :=
  packFields [(0, s.boot.secVer), (8, if s.sys.mode = .boot then 0 else s.otp.minVer), (16, s.boot.build.toNat)]

/-- PATCH_STATUS (Table 30). -/
def patchStatus (s : State) : Word := packFields [(0, s.boot.patches), (16, s.boot.level.toNat)]

/-- DEV_CAPS (Table 173). -/
def devCaps (s : State) : Word :=
  packFields [(0, if s.otp.variant32 then 2 else 1), (4, 8), (8, 8), (12, 127), (20, 2)]

/-- DEV_ENGINES (Table 174). -/
def devEngines (s : State) : Word :=
  packFields [(0, engLeft s 1), (6, engLeft s 2), (13, engLeft s 3), (18, engLeft s 4), (21, engLeft s 5), (25, engLeft s 6)]

/-- FN_IDENT (Table 98). -/
def fnIdent (s : State) (fn : Nat) : Word :=
  packFields [(0, fn), (16, b2n (vfOf fn != 0)), (17, b2n (fn == keeperFn s))]

/-- STATE code of a function (Table 99). -/
def fnPowerCode (p : FnPower) : Nat :=
  match p with
  | .off => 0
  | .on => 1
  | .draining => 2

/-- FN_STATUS (Table 99). -/
def fnStatus (s : State) (fn : Nat) : Word :=
  packFields [(0, fnPowerCode (getFn s fn).power), (2, b2n (getFn s fn).quenched),
    (3, b2n (getFn s fn).heldEnable.isSome), (4, (getFn s fn).grants.toNat % 2), (8, (getFn s fn).cls.toNat)]

/-- KQ_POLL (Table 44). -/
def kqPoll (k : Kq) : Word := packFields [(0, k.active.toNat), (9, b2n k.noBackoff)]

/-- KQ_CTRL (Table 45). -/
def kqCtrl (k : Kq) : Word := packFields [(0, b2n k.enable), (1, b2n k.irqEn)]

/-- KQ_STATUS (Table 46). -/
def kqStatus (s : State) (fn : Nat) : Word :=
  match getSq s fn 0, getCq s fn 0 with
  | some q, some c => packFields [(0, q.st.code), (3, b2n (c.waiting != [])), (16, q.head % 128), (24, c.tail % 128)]
  | _, _ => 0

/-- INT_FAST_CTRL (Table 106). -/
def fastCtrl (v : FastVec) : Word :=
  packFields [(0, b2n v.enable), (1, b2n v.mask), (2, b2n v.pending), (4, v.count), (16, v.info.toNat)]

/-- A fast vector of a function. -/
def getFast (s : State) (fn n : Nat) : FastVec := (getFn s fn).fast.toArray.getD n FastVec.reset

/-- INT_PEND_STATUS (Table 108). -/
def pendStatus (s : State) (fn : Nat) : Word :=
  packFields ((List.range 8).map (fun n => (n, b2n (getFast s fn n).pending))
    ++ [(8, (getFn s fn).normPend.length), (20, b2n ((getFn s fn).holds != []))])

/-- TOPO_STATUS (Table 153). -/
def topoStatus (s : State) : Word :=
  packFields ([(0, s.topo.position), (4, s.topo.devices - 1), (7, b2n s.topo.set)]
    ++ (List.range 8).map (fun k => (8 + k, b2n (carrying (getLink s k))))
    ++ (List.range 8).map (fun k => (16 + k, b2n ((getLink s k).st == .degraded)))
    ++ (List.range 8).map (fun k => (24 + k, b2n ((getLink s k).st == .failed))))

/-- A link is one of a doubled pair (R404). -/
def doubled (s : State) (k : Nat) : Bool :=
  match (getLink s k).peer with
  | some p => decide ((linksTo s p).length = 2)
  | none => false

/-- TP_LINK_STATUS (Table 154). -/
def linkStatus (s : State) (k : Nat) : Word :=
  packFields [(0, (getLink s k).st.code), (3, b2n (doubled s k)),
    (4, if (getLink s k).st = .unused then 0 else ((getLink s k).peer.getD 0)),
    (8, (getLink s k).retired.toNat), (16, (getLink s k).cause)]

/-- TP_LINK_ERR (Table 155). -/
def linkErr (s : State) (k : Nat) : Word :=
  packFields [(0, (getLink s k).crcErr), (16, (getLink s k).retrains), (24, (getLink s k).tagErr)]

/-- A crystal edge has arrived within the last 2 ms (Table 96). -/
def xtalRunning (s : State) : Bool :=
  !s.backup.stopped && s.time.lastEdge != 0 && decide (tickNat s - s.time.lastEdge.toNat < 200000)

/-- CAL_STATUS (Table 96). -/
def calStatus (s : State) : Word :=
  packFields [(0, b2n s.backup.timeLost), (1, b2n s.backup.timeUnset), (2, b2n (xtalRunning s)), (3, b2n s.time.tbFault),
    (4, b2n s.time.vbakLow), (5, s.backup.cause.toNat), (8, s.time.calSets)]

/-- A source has fuses (Table 117). -/
def fusable (n : Nat) : Bool := n != 12 && n != 13

/-- A source is disabled (R370). -/
def fused (s : State) (n : Nat) : Bool := fusable n && (s.otp.fuseA.getLsbD n || s.otp.fuseB.getLsbD n)

/-- An alarm source. -/
def getMon (s : State) (n : Nat) : Mon := s.alarm.mons.toArray.getD n (Mon.reset n)

/-- MON_CFG (Table 122). -/
def monCfg (s : State) (n : Nat) : Word :=
  packFields [(0, b2n (getMon s n).recEvents), (1, b2n (fused s n)), (2, b2n (fusable n))]

/-- MON_COUNT (Table 125). -/
def monCount (s : State) (n : Nat) : Word := packFields [(0, (getMon s n).inWin % 256), (8, (getMon s n).total)]

/-- ALARM_STATUS (Table 127). -/
def alarmStatus (s : State) : Word :=
  packFields [(0, s.alarm.fired.toNat), (16, s.alarm.maxLevel), (19, b2n s.alarm.maxValid), (20, b2n s.alarm.clearing)]

/-- RNG_STATUS (Table 113). -/
def rngStatus (s : State) : Word :=
  packFields [(0, s.rng.state.code), (2, b2n s.rng.katRun), (8, s.rng.failSrc), (13, b2n s.rng.failTest),
    (16, s.rng.faults), (24, s.rng.passRun)]

/-- RNG_CFG (Table 114). -/
def rngCfg (s : State) : Word := packFields [(0, b2n s.rng.prAll), (8, s.rng.reseed)]

/-- RNG_KAT_RESULT (Table 116). -/
def rngKatResult (s : State) : Word :=
  packFields [(0, b2n s.rng.katDone), (1, b2n s.rng.condPass), (2, b2n s.rng.expPass), (8, s.rng.katRuns)]

/-- LC_STATE (Table 144). -/
def lcState (s : State) : Word :=
  packFields [(0, s.lc.state.index), (3, b2n s.lc.noMajor), (16, if s.lc.noMajor then 0 else s.lc.state.code.toNat)]

/-- Decoded index, validity and slots of one OTP copy (Table 145). -/
def lcCopyFields (at1 at2 : Nat) (c : List (BitVec 16)) : List (Nat × Nat) :=
  [(at1, match lcCopy c with | some l => l.index | none => 0), (at1 + 3, b2n (lcCopy c).isSome),
    (at2, (c.filter (· != 0)).length)]

/-- LC_COPIES (Table 145). -/
def lcCopies (s : State) : Word :=
  packFields (lcCopyFields 0 16 s.otp.lcA ++ lcCopyFields 4 20 s.otp.lcB ++ lcCopyFields 8 24 s.otp.lcC)

/-- LC_PENDING (Table 146). -/
def lcPending (s : State) : Word :=
  match shownMove s with
  | some (_, dst) => packFields [(0, 1), (1, dst.index)]
  | none => 0

/-- DBG_CTRL (Table 147). -/
def dbgCtrl (s : State) : Word := packFields [(0, s.lc.scope), (3, b2n s.lc.tainted), (4, b2n s.lc.byOwner)]

/-- DBG_CHALLENGE (Table 148): SCOPE is byte 4 and the nonce bytes 48 on of the challenge (R400). -/
def dbgChallenge (s : State) : Word :=
  match s.lc.challenge with
  | some c => packFields [(0, 1), (8, le c 4 1), (16, le c 48 2)]
  | none => 0

/-- REC_NEWEST (Table 134). -/
def recNewest (s : State) : Word :=
  packFields [(0, s.nvm.newest.getD 0), (16, b2n s.nvm.newest.isNone), (17, b2n (getWear s.nvm 0).worn),
    (20, s.recorder.dropped)]

/-- The record that REC_READ_INDEX and REC_WINDOW of a function name (Tables 131, 132). -/
def recShown (s : State) (fn : Nat) : Bytes :=
  match if (getFn s fn).recPinned then s.nvm.pins[(getFn s fn).recIndex.toNat]? else some (getFn s fn).recIndex.toNat with
  | some slot => Map.getD s.nvm.slots slot []
  | none => []

/-- The VCORE comparators use a wide band: before the first report or within 10 ms of one (R46, Table 163). -/
def vcoreWide (s : State) : Bool :=
  !s.alarm.reported || s.alarm.reports.any (fun r => decide (tickNat s < r.2.2.toNat))

/-- POWER_STATUS (Table 163). -/
def powerStatus (s : State) : Word :=
  packFields [(0, s.alarm.below.toNat), (8, s.alarm.above.toNat), (16, s.alarm.glitched.toNat), (24, b2n (vcoreWide s))]

/-- GM_STATUS (Table 164). -/
def gmStatus (s : State) : Word :=
  packFields [(0, s.boot.density.toNat), (2, b2n s.boot.gmTrained), (8, s.boot.retries), (24, s.boot.retrains)]

/-- STRAP_STATUS (Table 165). -/
def strapStatus (s : State) : Word := packFields [(0, s.sys.keeperSel.toNat), (3, b2n s.otp.variant32)]

/-- PACE_RATE (Table 175). -/
def paceRate (s : State) : Word := packFields [(0, s.alarm.rate), (16, s.alarm.quadrant.toNat)]

/-- NVM_WEAR_USE (Table 81). -/
def wearUse (s : State) (r : Nat) : Word :=
  packFields [(0, min ((getWear s.nvm r).used * 10000 / wearBudget r) 16383), (14, b2n (getWear s.nvm r).worn),
    (16, (getWear s.nvm r).spare / 16 % 65536)]

/-- NVM_WEAR_LIFE (Table 82). -/
def wearLife (s : State) (r : Nat) : Word := packFields [(0, (getWear s.nvm r).life.toNat)]

/-! ### MSI-X (R333) -/

/-- An MSI-X table entry of a function. -/
def getMsix (s : State) (fn v : Nat) : MsixEntry := Map.getD (getFn s fn).msix v MsixEntry.reset

/-- A dword of the MSI-X table, as the PCIe Base Specification lays it out (log 9). -/
def msixWord (s : State) (fn off : Nat) : Word :=
  match off / 4 % 4 with
  | 0 => (getMsix s fn (off / 16)).addr.setWidth 32
  | 1 => ((getMsix s fn (off / 16)).addr >>> 32).setWidth 32
  | 2 => (getMsix s fn (off / 16)).data
  | _ => packFields [(0, b2n (getMsix s fn (off / 16)).masked)]

/-- A dword of the Pending Bit Array: bit i of dword k is vector 32k + i. -/
def pbaWord (s : State) (fn k : Nat) : Word :=
  packFields ((getFn s fn).normPend.filterMap fun v => if v / 32 = k then some (v % 32, 1) else none)

/-! ### Reads -/

/-- Half of a 64-bit value. -/
def half (v : DWord) (hi : Bool) : Word := if hi then (v >>> 32).setWidth 32 else v.setWidth 32

/-- Per-function window (Table 169): a register's value. -/
def windowValue (s : State) (fn off : Nat) : Word :=
  match off with
  | 0x0000 => 0x81281F9C
  | 0x0004 => 0x00A13141
  | 0x0008 => devCaps s
  | 0x000C => devEngines s
  | 0x0010 => devStatus s
  | 0x0020 => fnIdent s fn
  | 0x0024 => fnStatus s fn
  | 0x0028 => packFields [(0, b2n (getFn s fn).worldS)]
  | 0x0800 => half (getFn s fn).kq.sqBase false
  | 0x0804 => half (getFn s fn).kq.sqBase true
  | 0x0808 => half (getFn s fn).kq.cqBase false
  | 0x080C => half (getFn s fn).kq.cqBase true
  | 0x0810 => half (getFn s fn).kq.dbBase false
  | 0x0814 => half (getFn s fn).kq.dbBase true
  | 0x0818 => kqPoll (getFn s fn).kq
  | 0x081C => kqCtrl (getFn s fn).kq
  | 0x0820 => kqStatus s fn
  | 0x0D04 => pendStatus s fn
  | 0x0D08 => 0x00010000
  | _ =>
    if 0x0C00 ≤ off && off < 0x0C80 then
      (match off / 4 % 4 with
        | 0 => half (getFast s fn (off / 16 % 8)).addr false
        | 1 => half (getFast s fn (off / 16 % 8)).addr true
        | 2 => (getFast s fn (off / 16 % 8)).data
        | _ => fastCtrl (getFast s fn (off / 16 % 8)))
    else 0

/-- Keeper block (Table 170): a register's value as function `fn` reads it. -/
def keeperValue (s : State) (fn off : Nat) : Word :=
  match off with
  | 0x1000 => modeStatus s
  | 0x1100 => bootSource s
  | 0x1104 => bootStatus s
  | 0x1108 => s.boot.addrLo
  | 0x110C => s.boot.addrHi
  | 0x1110 => ucodeVersion s
  | 0x1114 => patchStatus s
  | 0x1400 => topoStatus s
  | 0x1800 => half s.sys.tick false
  | 0x1804 => (getFn s fn).tbLatch
  | 0x1808 => half (time64Now s) false
  | 0x180C => (getFn s fn).calLatch
  | 0x1810 => calStatus s
  | 0x2200 => alarmStatus s
  | 0x2204 => packFields [(0, b2n s.alarm.lock)]
  | 0x2400 => rngStatus s
  | 0x2404 => rngCfg s
  | 0x240C => rngKatResult s
  | 0x2800 => lcState s
  | 0x2804 => lcCopies s
  | 0x2808 => lcPending s
  | 0x2810 => dbgCtrl s
  | 0x2814 => dbgChallenge s
  | 0x3000 => s.recorder.seq
  | 0x3004 => (getFn s fn).recIndex.setWidth 32
  | 0x3008 => packFields [(0, b2n (getFn s fn).recPinned)]
  | 0x300C => packFields [(0, s.nvm.pins.length)]
  | 0x3010 => recNewest s
  | 0x4000 => paceRate s
  | 0x4004 => packFields [(0, s.alarm.vcoreSet)]
  | 0x4008 => powerStatus s
  | 0x400C => gmStatus s
  | 0x4010 => strapStatus s
  | _ =>
    if 0x1410 ≤ off && off < 0x1450 then
      (if off / 4 % 2 = 0 then linkStatus s ((off - 0x1410) / 8) else linkErr s ((off - 0x1410) / 8))
    else if 0x2000 ≤ off && off < 0x2100 then
      (match off / 4 % 4 with
        | 0 => monCfg s (off / 16 % 16)
        | 1 => packFields [(0, (getMon s (off / 16 % 16)).w)]
        | 2 => packFields [(0, (getMon s (off / 16 % 16)).n)]
        | _ => monCount s (off / 16 % 16))
    else if 0x2100 ≤ off && off < 0x2140 then packFields [(0, (getMon s (off / 4 % 16)).level)]
    else if 0x3020 ≤ off && off < 0x3030 then s.alarm.snapSel.toArray.getD (off / 4 % 4) 0
    else if 0x3040 ≤ off && off < 0x3080 then BitVec.ofNat 32 (le (recShown s fn) (4 * (off / 4 % 16)) 4)
    else if 0x4100 ≤ off && off < 0x4138 then
      (if off / 4 % 2 = 0 then wearUse s ((off - 0x4100) / 8) else wearLife s ((off - 0x4100) / 8))
    else 0

/-- Every register of BAR 0 (Table 166): value before the limits of mode and function. -/
def regValue (s : State) (fn off : Nat) : Word :=
  if off < 0x1000 then windowValue s fn off
  else if off < 0x8000 then keeperValue s fn off
  else if 0x10000 ≤ off && off < 0x18000 then msixWord s fn (off - 0x10000)
  else if 0x18000 ≤ off && off < 0x18100 then pbaWord s fn ((off - 0x18000) / 4)
  else 0

/-- Offsets of the keeper block that a PF other than the keeper function reads (Table 170). -/
def pfReads (off : Nat) : Bool :=
  off == 0x1400 || (0x1410 ≤ off && off < 0x1450) || (0x1800 ≤ off && off ≤ 0x1810) ||
    (0x2000 ≤ off && off < 0x2100 && off / 4 % 4 == 3) || off == 0x2200 || off == 0x2400 || off == 0x2800 ||
    (0x3000 ≤ off && off < 0x3080) || (0x4000 ≤ off && off < 0x4138)

/-- Offsets that read their value in Boot (R49, Tables 169, 170). -/
def bootReads (keeper : Bool) (off : Nat) : Bool :=
  off == 0x0 || off == 0x4 || off == 0x8 || off == 0x10 || off == 0x20 || off == 0x24 || 0x10000 ≤ off ||
    (keeper && (off == 0x1000 || (0x1100 ≤ off && off ≤ 0x1114)))

/-- Offsets that read their value in Lockdown (R40, Tables 169, 170). -/
def lockdownReads (off : Nat) : Bool :=
  off == 0x0 || off == 0x4 || off == 0x8 || off == 0x10 || off == 0x20 || off == 0x1000 || off == 0x1104 ||
    off == 0x2200 || off == 0x2800 || (0x3000 ≤ off && off < 0x3080)

/-- What a 32-bit read of BAR 0 by a function returns, apart from its side effects (R452, R455, R462, R463, R49, R40). -/
def regRead (s : State) (fn off : Nat) : Word :=
  if s.sys.mode = .dormant || s.sys.resetLow then 0
  else if 0x1000 ≤ off && off < 0x8000 && vfOf fn != 0 then 0
  else if 0x1000 ≤ off && off < 0x8000 && fn != keeperFn s && !pfReads off then 0
  else if s.sys.mode = .boot && !bootReads (fn == keeperFn s) off then 0
  else if s.sys.mode = .lockdown && !lockdownReads off then 0
  else regValue s fn off

/-- ALARM_N is driven low (R377, R445). -/
def alarmLow (s : State) : Bool :=
  s.sys.vio18Good &&
    (s.sys.mode == .lockdown || (s.sys.mode == .held && s.sys.byAlarm) || s.sys.isolated)

/-! ### Output pins (R42) -/

/-- The outputs of the chip that R42 names. -/
inductive OutPin where
  | serdesTx | gmResetN | gmCkeN | qspiCsN | alarmN | other
  deriving DecidableEq, Repr

/-- What an output does. -/
inductive PinLevel where
  | low | high | idle | highZ
  deriving DecidableEq, Repr

/-- The level an output is held at while the blocks are isolated; none where its own block drives it (R42, R377). -/
def heldLevel (s : State) (p : OutPin) : Option PinLevel :=
  if !s.sys.isolated then none
  else match p with
    | .serdesTx => some .idle
    | .gmResetN => some .low
    | .gmCkeN => some .high
    | .qspiCsN => some .high
    | .alarmN => some (if alarmLow s then .low else .highZ)
    | .other => some .highZ

/-! ### Snapshots of the recorder (R382) -/

/-- Value of a snapshot code (Table 121). -/
def snapshotValue (s : State) (code cls subj : Nat) : Word :=
  match code with
  | 0x01 => devStatus s
  | 0x02 => modeStatus s
  | 0x03 => alarmStatus s
  | 0x04 => paceRate s
  | 0x05 => packFields [(0, s.alarm.vcoreSet)]
  | 0x06 => powerStatus s
  | 0x07 => calStatus s
  | 0x08 => rngStatus s
  | 0x09 => bootStatus s
  | 0x0A => lcState s
  | 0x0B => if cls = 0 then monCount s subj else 0
  | 0x0C => wearUse s 0
  | _ => 0

/-- The 16 SNAPSHOT bytes of a record of a trigger class (R382). -/
def snapshotBytes (s : State) (cls subj : Nat) : Bytes :=
  (List.range 4).flatMap fun k =>
    leBytes 4 (snapshotValue s (bits (s.alarm.snapSel.toArray.getD cls 0).toNat (8 * k) 8) cls subj).toNat

end Sys2Proof.Machine
end

