-- ==== Sys2Proof/Machine/Ops.lean ====
section
/-!
DEFINITION. The named operations the meanings share: byte stores, recorder records, NVM writes and their commit, alarm
events, interrupt signals and messages, status lines, command ends, draws from the RNG, and engine faults.
-/

namespace Sys2Proof.Machine

/-! ### Byte stores: lists of cells in one canonical form -/

/-- The byte at an address; an unlisted address reads as `dflt`. -/
def memGet (dflt : Byte) (m : List Host.Cell) (a : Nat) : Byte := (Map.get? m a).getD dflt

/-- Write one byte; writing `dflt` removes the entry. -/
def memPut (dflt : Byte) (m : List Host.Cell) (a : Nat) (b : Byte) : List Host.Cell :=
  if b = dflt then Map.del m a else Map.put m a b

/-- `n` bytes from an address. -/
def memRead (dflt : Byte) (m : List Host.Cell) (a n : Nat) : Bytes := (List.range n).map fun i => memGet dflt m (a + i)

/-- Write bytes from an address on. -/
def memWrite (dflt : Byte) : List Host.Cell → Nat → Bytes → List Host.Cell
  | m, _, [] => m
  | m, a, b :: r => memWrite dflt (memPut dflt m a b) (a + 1) r

/-- The canonical form: addresses strictly rising, no entry equal to the unlisted byte. -/
def memWf (dflt : Byte) (m : List Host.Cell) : Bool := Map.wf m && m.all (fun c => c.2 != dflt)

/-- What an unlisted byte of user NVM reads as: blank, 0xFF (log 12). -/
def userBlank : Byte := 0xFF

/-! ### Recorder (R378 to R384) -/

/-- A record's bytes with REPEAT 0 and LAST equal to TICK [47:16] (Table 119). -/
def recordBytes (s : State) (trig subj : Nat) (payload : Bytes) (level : Nat) (pinned : Bool) : Bytes :=
  let head := leBytes 2 trig
    ++ [BitVec.ofNat 8 (s.sys.mode.code.toNat + 8 * b2n pinned + 16 * level)]
    ++ [BitVec.ofNat 8 (b2n s.backup.timeLost + 2 * b2n s.backup.timeUnset)]
    ++ leBytes 2 subj
  let body := leBytes 8 (tickNat s) ++ leBytes 8 (time64Now s).toNat ++ padTo 16 payload
    ++ snapshotBytes s (trig / 4096) subj
  let tail := leBytes 4 (tickNat s / 65536)
  head ++ leBytes 2 (crc32c (head ++ body)) ++ body ++ leBytes 2 0 ++ leBytes 2 (crc32c (leBytes 2 0 ++ tail)) ++ tail

/-- The newest record, counting one still queued (R381). -/
def newestRecord (s : State) : Option Bytes :=
  match s.recorder.queue.reverse.findSome? (fun i => match i with
      | .record b _ _ => some b
      | .repeatWord _ => none) with
  | some b => some b
  | none => s.nvm.newest.bind fun k => Map.get? s.nvm.slots k

/-- The repeat word of the newest record as it will stand (R381). -/
def newestWord (s : State) : Bytes :=
  match s.recorder.queue.getLast? with
  | some (.repeatWord w) => w
  | some (.record b _ _) => slice b 56 8
  | none => match s.nvm.newest.bind fun k => Map.get? s.nvm.slots k with
    | some b => slice b 56 8
    | none => zeros 8

/-- A repeat word raised by one at a tick (R381). -/
def raisedWord (w : Bytes) (tick : Nat) : Bytes :=
  let rep := leBytes 2 (satAdd (le w 0 2) 1 65535)
  let last := leBytes 4 (tick / 65536)
  rep ++ leBytes 2 (crc32c (rep ++ last)) ++ last

/-- Two records are identical in bytes 0–5 and 24–55 (R381). -/
def sameRecord (a b : Bytes) : Bool := slice a 0 6 == slice b 0 6 && slice a 24 32 == slice b 24 32

/-- Count a dropped record (Table 134). -/
def dropRecord (s : State) : State :=
  { s with recorder := { s.recorder with dropped := satAdd s.recorder.dropped 1 4095 } }

/-- Put a formed record, or the repeat word it collapses into, into the recorder's queue (R381, R383, R384). -/
def queueRecord (s : State) (b : Bytes) (alarm pin : Bool) : State :=
  if !s.recorder.mounted then s
  else if (getWear s.nvm 0).worn then dropRecord s
  else if s.recorder.queue.length ≥ Config.recorderQueue then dropRecord s
  else if !alarm && s.recorder.queue.length ≥ Config.recorderQueue - Config.recorderKept then dropRecord s
  else if (newestRecord s).any (sameRecord b) then
    { s with recorder := { s.recorder with
        queue := s.recorder.queue ++ [.repeatWord (raisedWord (newestWord s) (le b 8 8))] } }
  else { s with recorder := { s.recorder with queue := s.recorder.queue ++ [.record b alarm pin] } }

/-- The slot the next record takes: after the newest and after the torn ones behind it, past every pinned one (R378, R383). -/
def recorderSlot (s : State) : Nat :=
  let start := match s.nvm.newest with
    | some k => k + 1
    | none => 0
  let free := ((List.range (s.nvm.pins.length + s.recorder.skip + 1)).map fun i => (start + i) % Config.recorderSlots).filter
    fun k => !s.nvm.pins.contains k
  free.getD s.recorder.skip (start % Config.recorderSlots)

/-- Write a record other than ALARM (R380). -/
def record (s : State) (trig subj : Nat) (payload : Bytes) : State :=
  queueRecord s (recordBytes s trig subj payload 0 false) false false

/-- Pinned records, counting those still queued (R378). -/
def pinsPending (s : State) : Nat :=
  s.nvm.pins.length + (s.recorder.queue.filter (fun i => match i with
    | .record _ _ p => p
    | .repeatWord _ => false)).length

/-- The MODE record of a transition, written after it (R380, log 24). -/
def recordMode (s : State) : State :=
  record s 0x2002 s.sys.cause.toNat [s.sys.prev.code.setWidth 8, s.sys.mode.code.setWidth 8]

/-! ### Alarm events (R366 to R371) -/

/-- Count one event on a source, and enter its alarm into the set of this microsecond if it fires (R371, R373). -/
def alarmEvent (s : State) (src : Nat) (detail : Bytes) : State :=
  if fused s src then s
  else
    let m := getMon s src
    let u := tickNat s / 100
    let h := (m.hist ++ [u]).filter (fun t => decide (u - t < m.w))
    let fires := decide (m.n ≤ h.length)
    let m' : Mon := { m with hist := if fires then [] else h, inWin := if fires then 0 else h.length,
                             total := satAdd m.total 1 0xFFFFFF }
    let s1 : State := { s with alarm := { s.alarm with
      mons := s.alarm.mons.mapIdx (fun i x => if i = src then m' else x) } }
    let s2 := if m.recEvents then record s1 0x0001 src detail else s1
    if fires then
      let pin := decide (2 ≤ m.level) && decide
        (pinsPending s2 + (s2.alarm.set.filter (fun e => decide (2 ≤ e.2.1))).length < Config.pinLimit)
      let s3 : State := { s2 with alarm := { s2.alarm with
        fired := s2.alarm.fired ||| BitVec.ofNat 16 (2 ^ src), maxValid := true, setUs := u } }
      { s3 with alarm := { s3.alarm with set := s3.alarm.set ++
        [(src, m.level, recordBytes s3 0x0002 src ([BitVec.ofNat 8 m.level, 0, BitVec.ofNat 8 m.n, 0] ++ leBytes 4 m.w)
          m.level pin)] } }
    else s2

/-! ### NVM writes (R241, R260 to R262) -/

/-- Count the word writes of a commit of `words` words of which `fails` fail verification; false in a worn region, where
nothing is written, and when the region's spares run out, which makes it worn (R262). -/
def wearWrite (s : State) (region words fails : Nat) : State × Bool :=
  let w := getWear s.nvm region
  let left := spareWords region - w.spare
  let used := min fails left
  let w' : Wear := { w with window := w.window + words + 2 * used, spare := w.spare + used,
                            worn := decide (left < fails) }
  if w.worn then (s, false)
  else ({ s with nvm := { s.nvm with wear := s.nvm.wear.mapIdx (fun i x => if i = region then w' else x) } },
    decide (fails ≤ left))

/-- Rank of a slot for overwriting: blank, absent and invalid copies lowest (R241). -/
def slotRank (region record : Nat) (m : Map Copy) (i : Nat) : Nat :=
  match Map.get? m i with
  | some c => if copyValid region record c then 1 + copyRank c else 0
  | none => 0

/-- The slot of lowest rank of a set, lowest number on a tie (R241). -/
def lowestSlot (region record : Nat) (m : Map Copy) (base : Nat) : Nat :=
  (List.range 16).foldl (fun a i => if slotRank region record m (base + i) < slotRank region record m a then base + i else a) base

/-- The slot a commit writes: in the set that does not hold the highest copy (R241). -/
def commitSlot (region record : Nat) (m : Map Copy) : Nat :=
  match bestCopy region record m with
  | some (i, _) => lowestSlot region record m (if i < 16 then 16 else 0)
  | none => lowestSlot region record m 0

/-- Put a copy into a slot of a record. -/
def putCopy (s : State) (region record slot : Nat) (c : Copy) : State :=
  { s with nvm := { s.nvm with
      recs := Map.put s.nvm.recs (region * 65536 + record) (Map.put (copiesOf s.nvm region record) slot c) } }

/-- Write a record under R241; false, and the record as it was, when the region is worn. -/
def commitRec (s : State) (region record : Nat) (gen : BitVec 24) (v : DWord) (fails : Nat) : State × Bool :=
  match wearWrite s region 2 fails with
  | (s1, true) => (putCopy s1 region record (commitSlot region record (copiesOf s1.nvm region record))
      { value := v, gen := gen, resv := 0, check := copyCheck region record v gen 0, margin := true }, true)
  | (s1, false) => (s1, false)

/-- GEN of a record now. -/
def genOf (s : State) (region record : Nat) : BitVec 24 :=
  match recVal s.nvm region record with
  | .value g _ => g
  | .corrupt => 0

/-- Write a mark: VALUE with GEN raised by one (R393). -/
def writeMark (s : State) (record v : Nat) : State :=
  (commitRec s 5 record (genOf s 5 record + 1) (BitVec.ofNat 64 v) 0).1

/-- Report a corrupt record once in a boot (R245). -/
def reportCorrupt (s : State) (region record : Nat) : State :=
  if s.keys.corrupt.contains (region * 65536 + record) then s
  else record' (alarmEvent { s with keys := { s.keys with corrupt := insertNat (region * 65536 + record) s.keys.corrupt } }
    15 [2])
where
  record' (t : State) : State := Machine.record t 0x1004 region (leBytes 2 record)

/-- Key of a value held on-chip after resolution. -/
def heldKey (region record : Nat) : Nat := region * 65536 + record

/-- Hold a resolved value on-chip (R244). -/
def holdValue (s : State) (region record : Nat) (v : DWord) : State :=
  { s with keys := { s.keys with held := Map.put s.keys.held (heldKey region record) v } }

/-- Resolve a record at its first use in a boot (R244): its value, or the DETAIL of ST_COUNTER_EXHAUSTED (Table 77). -/
def resolveRec (s : State) (region record fails : Nat) : State × Except Nat DWord :=
  match Map.get? s.keys.held (heldKey region record) with
  | some v => (s, .ok v)
  | none =>
    match recVal s.nvm region record with
    | .corrupt => (reportCorrupt s region record, .error 2)
    | .value g v =>
      match commitRec s region record g v fails with
      | (s1, true) => (holdValue s1 region record v, .ok v)
      | (s1, false) => (s1, .error 3)

/-! ### Interrupts (R328 to R346) -/

/-- Change a fast vector. -/
def modFast (s : State) (fn n : Nat) (f : FastVec → FastVec) : State :=
  modFn s fn fun x => { x with fast := x.fast.mapIdx (fun i v => if i = n then f v else v) }

/-- Send a fast vector's message if it is sendable (R331). -/
def flushFast (s : State) (fn n : Nat) : State :=
  let v := getFast s fn n
  if v.pending && v.enable && !v.mask && canReq s fn then
    emit (modFast s fn n fun x => { x with pending := false }) (.write fn v.addr (leBytes 4 v.data.toNat))
  else s

/-- Send every sendable fast message of a function in ascending vector number (R332). -/
def flushAllFast (s : State) (fn : Nat) : State := (List.range 8).foldl (fun t n => flushFast t fn n) s

/-- Send every sendable fast message (R332). -/
def flushSignals (s : State) : State := (s.fns.map (·.1)).foldl flushAllFast s

/-- A signal on a fast vector is counted, and pends (R331). -/
def pendFast (s : State) (fn n info : Nat) : State :=
  modFast s fn n fun v => { v with count := satAdd v.count 1 255, info := BitVec.ofNat 16 info,
                                   pending := v.pending || v.enable }

/-- A signal on a fast vector (R331). -/
def signalFast (s : State) (fn n info : Nat) : State := flushFast (pendFast s fn n info) fn n

/-- A normal vector is sendable (R333). -/
def sendable (s : State) (fn v : Nat) : Bool :=
  (getFn s fn).normPend.contains v && (getFn s fn).msixEnable && !(getFn s fn).msixMask && !(getMsix s fn v).masked &&
    canReq s fn

/-- Clear a normal vector's pending bit and hold. -/
def clearPending (s : State) (fn v : Nat) : State :=
  modFn s fn fun x => { x with normPend := x.normPend.filter (· != v), holds := Map.del x.holds v }

/-- Issue a normal message (R341). -/
def sendNormal (s : State) (fn v : Nat) (addr : DWord) (data : Word) : State :=
  emit (clearPending s fn v) (.write fn addr (leBytes 4 data.toNat))

/-- Key of a vector set. -/
def setKey (fn v : Nat) : Nat := fn * 2048 + v

/-- A registered target of a port (R337). -/
def getTarget (p : Port) (i : Nat) : Option Target := Map.get? p.targets i

/-- The first awake registered member after the last one delivered to (R339). -/
def awakeMember (p : Port) (vs : VecSet) : Option (Nat × Target) :=
  (List.range vs.members.length).findSome? fun k =>
    let m := (vs.last + k + 1) % vs.members.length
    match getTarget p (vs.members.getD m 0) with
    | some t => if t.asleep then none else some (m, t)
    | none => none

/-- The wake member, or failing it the first registered member (R339). -/
def holdMember (p : Port) (vs : VecSet) : Option (Nat × Target) :=
  match getTarget p (vs.members.getD vs.wake 0) with
  | some t => some (vs.wake, t)
  | none => (List.range vs.members.length).findSome? fun m =>
      (getTarget p (vs.members.getD m 0)).map fun t => (m, t)

/-- Send to a member of a vector's set and move its round-robin position. -/
def sendMember (s : State) (fn v : Nat) (m : Nat) (t : Target) : State :=
  modPort (sendNormal s fn v t.addr t.data) (portOf fn) fun p =>
    { p with sets := Map.modify p.sets (setKey fn v) fun x => { x with last := m } }

/-- Run the delivery procedure of a normal vector (R339). -/
def deliver (s : State) (fn v : Nat) : State :=
  if !sendable s fn v then s
  else
    let p := getPort s (portOf fn)
    match Map.get? p.sets (setKey fn v) with
    | none =>
      if (getMsix s fn v).addr = 0 then s else sendNormal s fn v (getMsix s fn v).addr (getMsix s fn v).data
    | some vs =>
      match awakeMember p vs with
      | some (m, t) => sendMember s fn v m t
      | none =>
        let start := (Map.get? (getFn s fn).holds v).getD s.sys.tick
        let s1 := modFn s fn fun x => { x with holds := Map.put x.holds v start }
        if tickNat s - start.toNat < vs.hold * 100 then s1
        else match holdMember p vs with
          | some (m, t) => sendMember s1 fn v m t
          | none => s1

/-- Set a normal vector's pending bit and deliver it (R328). -/
def pendNormal (s : State) (fn v : Nat) : State :=
  deliver (modFn s fn fun x => { x with normPend := insertNat v x.normPend }) fn v

/-- Run the procedure again for every pending vector of a function. -/
def deliverAll (s : State) (fn : Nat) : State := (getFn s fn).normPend.foldl (fun t v => deliver t fn v) s

/-- Run the procedure again for every pending vector of a port (R339). -/
def deliverPort (s : State) (p : Nat) : State :=
  (s.fns.filter (fun e => portOf e.1 == p)).foldl (fun t e => deliverAll t e.1) s

/-- Fire a CQ's vector and stop its count (R335). -/
def fireCq (s : State) (fn qid : Nat) (c : Cq) : State :=
  pendNormal (putCq s fn qid { c with count := 0 }) fn c.vector

/-- Moderation after an entry write (R335); the keeper CQ counts only while IRQ_EN is 1 (R334). -/
def moderate (s : State) (fn qid : Nat) (irq : Bool) : State :=
  match getCq s fn qid with
  | none => s
  | some c =>
    if !irq || (qid == 0 && !(getFn s fn).kq.irqEn) then s
    else
      let c1 : Cq := { c with start := if c.count = 0 then s.sys.tick else c.start, count := c.count + 1 }
      if c1.modCount ≤ c1.count then fireCq s fn qid c1 else putCq s fn qid c1

/-! ### Writes to a BAR (R430) -/

/-- A poisoned or ECRC-failing write to a BAR is logged in the function's AER status (bits 12 and 19), and reported by a message where
Device Control enables the reporting of non-fatal errors (R430; the bits: log 11). -/
def logBadWrite (s : State) (fn bitNo : Nat) : State :=
  let s1 := modFn s fn fun x => { x with pcie := { x.pcie with aerUnc := x.pcie.aerUnc ||| BitVec.ofNat 32 (2 ^ bitNo) } }
  if (getFn s fn).pcie.devCtl.getLsbD 1 then emit s1 (.errorMsg fn) else s1

/-- What a write request to a BAR that the function claims does: `f` takes good data, the rest is discarded. -/
def barData (s : State) (fn : Nat) (d : BarData) (f : Bytes → State) : State :=
  match d with
  | .good b => f b
  | .poisoned => logBadWrite s fn 12
  | .badEcrc => logBadWrite s fn 19

/-! ### Queue events -/

/-- The function is in idle back-off (R81, Table 36). -/
def backingOff (s : State) (fn : Nat) : Bool := !(getFn s fn).activity

/-- The 64 bytes of an SQ status line (Table 36). -/
def statusBytes (s : State) (fn : Nat) (q : Sq) : Bytes :=
  leBytes 4 q.head ++ [BitVec.ofNat 8 q.st.code]
    ++ [BitVec.ofNat 8 (b2n ((getCq s fn q.cq).any (fun c => decide (c.allow ≤ c.reserved))) + 2 * b2n (backingOff s fn))]
    ++ leBytes 2 0 ++ leBytes 4 q.opened ++ leBytes 4 q.fetch ++ leBytes 8 (tickNat s)
    ++ leBytes 4 (if q.st = .doorbellError || q.st = .fetchError then q.errInfo.toNat else 0) ++ zeros 36

/-- Write an SQ's status line, or mark it due while the function may issue no request (R77, R431). -/
def statusLine (s : State) (fn qid : Nat) : State :=
  match getSq s fn qid with
  | none => s
  | some q =>
    if canReq s fn then
      emit (putSq s fn qid { q with lineDue := false }) (.write fn (dbBlock s fn qid + 0x80) (statusBytes s fn q))
    else putSq s fn qid { q with lineDue := true }

/-- The last status line of an SQ that is being destroyed: it is written, or waits with its function's requests (R77, R431). -/
def lastLine (s : State) (fn qid : Nat) : State :=
  match getSq s fn qid with
  | some q => if q.lineDue then modFn s fn fun x => { x with lines := x.lines ++ [(qid, q)] } else s
  | none => s

/-- The lines that waited are written (R431). -/
def flushLines (s : State) (fn : Nat) : State :=
  if canReq s fn then
    (getFn s fn).lines.foldl (fun t l => emit t (.write fn (dbBlock t fn l.1 + 0x80) (statusBytes t fn l.2)))
      (modFn s fn fun x => { x with lines := [] })
  else s

/-- Release reservations of a CQ (R91). -/
def unreserve (s : State) (fn cq n : Nat) : State :=
  match getCq s fn cq with
  | some c => putCq s fn cq { c with reserved := c.reserved - n }
  | none => s

/-- Entries of an SQ fetched and not yet accepted: delivered and still being read (R88). -/
def unaccepted (q : Sq) : Nat := q.ready.length + (q.reads.map (·.2)).sum

/-- An SQ with its fetched entries and push slots discarded (R78, R86, R99). -/
def discarded (q : Sq) : Sq := { q with ready := [], reads := [], slots := Vector.replicate 4 [] }

/-- The reads of an SQ that are outstanding when it stops: what they return is ignored, and they keep their tags (R99, R433). -/
def dropReads (s : State) (fn qid : Nat) (q : Sq) : State :=
  modFn s fn fun x => { x with
    dbReads := x.dbReads.filter (· != (qid, false)), dbTodo := x.dbTodo.filter (· != (qid, false)),
    late := x.late ++ (x.dbReads.filter (· == (qid, false))).map (fun _ => (0, qid)) ++ q.reads.map fun _ => (2, qid) }

/-- Stop an SQ in a state, discarding what it had fetched and releasing its reservations. -/
def stopSq (s : State) (fn qid : Nat) (st : SqState) (info : Word) : State :=
  match getSq s fn qid with
  | none => s
  | some q =>
    statusLine (unreserve (putSq (dropReads s fn qid q) fn qid { discarded q with st := st, errInfo := info }) fn q.cq (unaccepted q)) fn qid

/-- The effect of DISABLE_SQ on one SQ (R99, R121): only an ENABLED SQ changes state. -/
def disableSq (s : State) (fn qid : Nat) : State :=
  match getSq s fn qid with
  | none => s
  | some q =>
    if q.st = .enabled then stopSq s fn qid (if q.opened = 0 then .disabled else .draining) 0 else s

/-- The effect of ENABLE_SQ on one SQ (R100): F at the published head, ENABLED, push slots invalid (R86). A function that is DRAINING has no
ENABLED SQ (R80), so its SQ stays as it is; one of a function that is OFF becomes ENABLED and is served once the function is ON (DESIGN
CHOICE, log 104). -/
def enableSq (s : State) (fn qid : Nat) : State :=
  match if (getFn s fn).power = .draining then none else getSq s fn qid with
  | none => s
  | some q =>
    statusLine (modFn (putSq s fn qid { discarded q with st := .enabled, fetch := q.head, errInfo := 0 }) fn
      fun x => { x with nextPass := s.sys.tick }) fn qid

/-- Return a function to its active polling interval (R81): the next pass starts one active interval after the start of the last one, which
lies one interval of the back-off before the next, and not before now. The count of unchanged passes starts again, also for a function
that is active (DESIGN CHOICE, log 103). -/
def wakePolling (s : State) (fn : Nat) : State :=
  modFn s fn fun x =>
    let due := x.nextPass.toNat - 25 * x.interval + 25 * x.kq.active.toNat
    { x with interval := x.kq.active.toNat, unchanged := 0, activity := true,
             nextPass := if !x.activity && decide (x.kq.active.toNat < x.interval) then
                 BitVec.ofNat 64 (max (tickNat s) due) else x.nextPass }

/-- Entry of an SQ to an error state; the keeper SQ's signals KEEPER_STALL (R330). -/
def errorSq (s : State) (fn qid : Nat) (st : SqState) (info : Word) : State :=
  if qid = 0 then signalFast (stopSq s fn qid st info) fn 4 1 else stopSq s fn qid st info

/-! ### Command ends -/

/-- The vector engines a command was running on stop and are zeroised (R186), and the seeds its engines had been handed are gone. -/
def releaseLves (s : State) (cid : Nat) : State :=
  let on := ((getCmd s cid).map (·.running)).getD []
  { s with eng := { s.eng with lves := s.eng.lves.filter (fun e => e.2.cid != cid),
                               maskGen := Map.keep s.eng.maskGen fun k _ => !(on.any fun e => e.1 * 256 + e.2 == k) } }

/-- A command runs on a plan's working copy: its first segment has been dispatched from it, and it has not finished (R30). -/
def onCopyOf (c : Cmd) (id : Nat) : Bool :=
  c.planId == id && c.dispatched && (match c.phase with
    | .fin _ => false
    | _ => true)

/-- The copies of plans marked missing go with their last user (R30). -/
def reapCopies (s : State) : State :=
  { s with eng := { s.eng with
      copies := Map.keep s.eng.copies fun id _ => !(s.eng.stale.contains id) || s.cmds.any fun c => onCopyOf c id,
      stale := s.eng.stale.filter fun id => s.cmds.any fun c => onCopyOf c id } }

/-- The place of the next command in the order in which commands finish (R94). -/
def nextFin (s : State) : Nat := (s.cmds.map (·.finAt)).foldl max 0 + 1

/-- Pieces of the shared staging pool that commands hold (R92). -/
def poolUsed (s : State) : Nat := (s.cmds.map (·.staged)).sum

/-- Staging pieces the output of a result fills (R92). -/
def outPieces (r : Result) : Nat := if r.status = .ok then (r.out.length + 4095) / 4096 else 0

/-- Pieces of the shared pool a finished command holds: none while its function's writes are issued, which empties them; else
what its own piece does not take, up to 16 (R92). -/
def poolPieces (s : State) (c : Cmd) (r : Result) : Nat :=
  if c.origin.isSome || canReq s c.fn then 0 else min (outPieces r - 1) (min 16 (Config.stagingPool - poolUsed s))

/-- The handover of a finished command's output waits for staging, so that it keeps its frames and slots (R92, R193). -/
def handoverWaits (s : State) (c : Cmd) (r : Result) : Bool :=
  c.origin.isNone && !canReq s c.fn && decide (1 + poolPieces s c r < outPieces r)

/-- OUT_LEN of a result (R69). -/
def resultLen (r : Result) : Nat := if r.status = .ok then r.out.length else 0

/-- The writes of a command's output that are still to be issued (R92, R429), and the zeros that overwrite what it had written (R69). -/
def outputWrites (s : State) (c : Cmd) (r : Result) : State :=
  let s1 := if c.zeroDue = 0 then s else emitWrite s c.fn (outIova c.entry) (zeros c.zeroDue)
  if resultLen r = 0 then s1
  else emitWrite s1 c.fn (outIova c.entry + BitVec.ofNat 64 c.sent) (r.out.drop c.sent)

/-- The output writes of a finished command are issued, if its function may issue requests: its staging, frames and slots are free (R92,
R431). -/
def issueOut (s : State) (cid : Nat) : State :=
  match getCmd s cid with
  | none => s
  | some c => match c.phase with
    | .fin r =>
      if c.origin.isNone && canReq s c.fn && !c.issued then
        modCmd (outputWrites s c r) cid fun x => { x with issued := true, staged := 0, hold := [] }
      else s
    | _ => s

/-- A command as it finishes: with a status other than ST_OK, all it has written at OUT_IOVA is due to be overwritten (R69). -/
def finished (s : State) (c : Cmd) (r : Result) : Cmd :=
  { c with phase := .fin r, running := [], runSegs := [], hold := if handoverWaits s c r then c.hold else [], frame := [], xbar := [],
           shares := [], finAt := nextFin s, staged := poolPieces s c r,
           zeroDue := if r.status = .ok then c.zeroDue else max c.zeroDue c.sent, sent := if r.status = .ok then c.sent else 0 }

/-- A command that still has reads of its input outstanding wants them no more; they keep their tags (R433). -/
def dropInput (s : State) (cid : Nat) : State :=
  match getCmd s cid with
  | none => s
  | some c =>
    let s1 := modCmd s cid fun x => { x with asked := false, pulls := [], pulled := 0 }
    if inputReads c = 0 then s1
    else modFn s1 c.fn fun x => { x with late := x.late ++ List.replicate (inputReads c) (3, cid) }

/-- A command finishes with a result; its segments stop, its output is issued, and its frames and slots are released once its output is
in staging (R186, R92). -/
def finish (s : State) (cid : Nat) (r : Result) : State :=
  reapCopies (issueOut (modCmd (releaseLves (dropInput s cid) cid) cid fun c => finished s c r) cid)

/-- The output writes of a function's finished commands are issued (R92, R431). -/
def issueStaged (s : State) (fn : Nat) : State :=
  ((s.cmds.filter fun c => c.fn == fn).map (·.id)).foldl issueOut s

/-- A command finishes with a status other than ST_OK, without output (R69). -/
def fail (s : State) (cid : Nat) (st : Status) (detail : Nat) : State := finish s cid { status := st, detail, out := [] }

/-- A forwarded command ends with a status that came from this device: what a peer has sent for it is dropped. -/
def endForwarded (s : State) (c : Cmd) (st : Status) (detail : Nat) : State :=
  fail (modCmd s c.id fun x => { x with buf := [] }) c.id st detail

/-- A command finishes ST_OK with its output bytes. -/
def okOut (s : State) (cid detail : Nat) (out : Bytes) : State := finish s cid { status := .ok, detail, out }

/-- Accepted commands of a function on this device. -/
def openOf (s : State) (fn : Nat) : Nat := (s.cmds.filter (fun c => c.fn == fn && c.origin.isNone)).length

/-- Unpin a command's cache entries (R201) and stop its vector engines. -/
def unpin (s : State) (cid : Nat) : State :=
  let s1 := releaseLves s cid
  { s1 with eng := { s1.eng with cache := s1.eng.cache.map fun e => { e with pinned := e.pinned.filter (· != cid) } } }

/-- End a command without a completion (R102, R316): its reservation is released, and a timetable it had pending is not installed
(R320). -/
def endCmd (s : State) (cid : Nat) : State :=
  let s1 := reapCopies (dropCmd (unpin (dropInput s cid) cid) cid)
  { s1 with eng := { s1.eng with nextTable := s1.eng.nextTable.filter fun t => t.1 != cid } }

/-! ### Random draws (R353 to R355, R361) -/

/-- An instance can serve a call: below its reseed count, or a pooled block lets it reseed (R355). -/
def instReady (s : State) (i : Nat) : Bool :=
  match s.rng.inst[i]? with
  | some (_, n) => decide (n < 2 ^ s.rng.reseed) || s.rng.pool != []
  | none => false

/-- The instance the round robin chooses (R353). -/
def nextInst (s : State) : Option Nat :=
  (List.range 8).findSome? fun k => if instReady s ((s.rng.next + k) % 8) then some ((s.rng.next + k) % 8) else none

/-- The generator serves draws: it is READY, no known-answer test runs, and the device is not in Lockdown (R361, R363, R364). -/
def serves (s : State) : Bool := s.rng.state == .ready && !s.rng.katRun && s.sys.mode != .lockdown

/-- The generator can serve a draw now (R361). -/
def canDraw (s : State) : Bool := serves s && (nextInst s).isSome

/-- Reseed an instance from one pooled block (R355). -/
def reseedInst (s : State) (i : Nat) : State :=
  match s.rng.pool, s.rng.inst[i]? with
  | b :: rest, some (st, _) => { s with rng := { s.rng with
      pool := rest,
      inst := s.rng.inst.set i (Config.drbgReseed st (leBytes 32 b.toNat), 0) } }
  | _, _ => s

/-- One generate call of `n` bytes on an instance, reseeding first when its count is reached or when asked to. -/
def generateOn (s : State) (i n : Nat) (pr : Bool) : Bytes × State :=
  let s1 := match s.rng.inst[i]? with
    | some (_, k) => if pr || 2 ^ s.rng.reseed ≤ k then reseedInst s i else s
    | none => s
  match s1.rng.inst[i]? with
  | some (st, k) =>
    let g := Config.drbgGenerate st n
    (padTo n g.1, { s1 with rng := { s1.rng with inst := s1.rng.inst.set i (g.2, k + 1), next := (i + 1) % 8 } })
  | none => (zeros n, s1)

/-- A draw of `n` bytes (R353); none while the generator cannot serve it. -/
def draw (s : State) (n : Nat) : Option (Bytes × State) :=
  if serves s then (nextInst s).map fun i => generateOn s i n false else none

/-- The next free value's index. -/
def takeFree (s : State) : Nat × State := (s.free, { s with free := s.free + 1 })

/-! ### Granules as the banks hold them (R264, R267, R268) -/

/-- Change a key. -/
def modKey (s : State) (g : Nat) (f : Key → Key) : State :=
  { s with keys := { s.keys with keys := Map.modify s.keys.keys g f } }

/-- Draws of 64 bytes: one mask for each granule written (R267). -/
def drawMasks : Nat → State → Option (Bytes × State)
  | 0, s => some ([], s)
  | n + 1, s => (draw s 64).bind fun r => (drawMasks n r.2).map fun t => (r.1 ++ t.1, t.2)

/-- The row of a bank a granule lies in, and what the SRAM holds there: the share under the row's AES-256 keystream (R267). -/
def bankRow (s : State) (bank g : Nat) (share : Bytes) : Nat × Bytes :=
  let row := Config.scramble s.bkeys.scramble bank g
  (row, underStream share (ctrStream (if bank = 0 then s.bkeys.maskA else s.bkeys.maskB) (leBytes 12 row ++ zeros 4) 64))

/-- A granule of a key is re-shared: the head granule's attribute bytes under the first half of the mask and its key bytes under the
second, a tail granule under all of it. -/
def reshareGranule (k : Key) (head : Bool) (j : Nat) (m : Bytes) : Key :=
  let off := if head then 0 else 32 + 64 * j
  let n := if head then 32 else 64
  { k.masked (overwrite k.shareB off (((if head then m.drop 32 else m).take n).take (k.shareB.length - off))) with
    attrMask := if head then padTo 32 (m.take 32) else k.attrMask }

/-- The head granule of a key whose attribute block has changed is written under a fresh mask; while the RNG delivers no output the mask
in place stays (R267, R268). -/
def remask (s : State) (g : Nat) : State :=
  match Map.get? s.keys.keys g, draw s 64 with
  | some _, some r => modKey r.2 g fun k => reshareGranule k true 0 r.1
  | _, _ => s

/-- Change the attributes of a key, and write its head granule. -/
def setAttr (s : State) (g : Nat) (f : Key → Key) : State := remask (modKey s g f) g

/-- The two banks' shares of a head granule's attribute block, given its 32 bytes (R267). -/
def attrShares (k : Key) (block : Bytes) : Bytes × Bytes := (underStream block k.attrMask, k.attrMask)

/-- A read of a key re-shares every granule of it; while the RNG delivers no output the masks in place stay (R268). -/
def reshareKey (s : State) (g : Option Nat) : State :=
  match g, g.bind (Map.get? s.keys.keys) with
  | some i, some k =>
    (match drawMasks (1 + k.tail.length) s with
      | some r => modKey r.2 i fun x => x.granuled r.1
      | none => s)
  | _, _ => s

/-! ### Engine faults (R212 to R216) -/

/-- DETAIL of ST_ENGINE_FAULT (Table 71). -/
def faultDetail (cause kind idx : Nat) : Nat := cause + 256 * kind + 65536 * idx

/-- The ENGINE_FAULT record of one command (R212). Of an element address of 2^32 or more the address field of 4 bytes holds the low 32 bits
(R238; DESIGN CHOICE, log 49). -/
def recordFault (s : State) (cause kind idx planId element addr : Nat) : State :=
  record s 0x1003 (kind * 256 + idx)
    ([BitVec.ofNat 8 cause, 0, 0, 0] ++ leBytes 4 planId ++ leBytes 2 element ++ [0, 0] ++ leBytes 4 addr)

/-- An engine of a kind is in service that the command has not faulted on (R213). -/
def otherEngine (s : State) (kind : Nat) (avoid : List (Nat × Nat)) : Bool :=
  (List.range (engCount kind)).any fun i => inService s kind i && !avoid.contains (kind, i)

/-- A command that starts again from its first segment (R213, R214): the leaf of an HBS_SIGN stays spent, a committed
value and a linked header stand, a LOAD_PLAN that waited is checked again, and a KEY_DESTROY that waited runs again. -/
def rerunCmd (avoid : List (Nat × Nat)) (c : Cmd) : Cmd :=
  { c with running := [], runSegs := [], hold := [], frame := [], pos := 0, cand := 0, rep := 0, reps := [], jump := none, verdict := none, avoid := avoid, rnd := if c.value.isSome then c.rnd else none, picks := [], xbar := [],
           dispatched := false, shares := [], reran := true, leaf := if le c.entry 0 2 = 0x0611 then none else c.leaf,
           phase := match c.phase with
             | .drawWait _ => .run
             | .effected => if le c.entry 0 2 = 0x50 || le c.entry 0 2 = 0x0405 then .run else .effected
             | p => p }

/-- Rerun a command after a fault of an engine, or complete it (R213): a second fault completes it with that fault's own cause, also where
it leaves no other engine of the kind (DESIGN CHOICE, log 102). -/
def faultCmd (s : State) (cid cause kind idx : Nat) : State :=
  match getCmd s cid with
  | none => s
  | some c =>
    let avoid := if (c.avoid).contains (kind, idx) || idx ≥ engCount kind then c.avoid else c.avoid ++ [(kind, idx)]
    if c.reran then fail s cid .engineFault (faultDetail cause kind idx)
    else if !otherEngine s kind avoid then fail s cid .engineFault (faultDetail 5 kind idx)
    else modCmd (unpin s cid) cid (rerunCmd avoid)

/-- Commands that hold a frame or slot on an engine; one that has finished and whose output waits in it for staging is not run
again (R92; log 78). -/
def holders (s : State) (kind idx : Nat) : List Cmd :=
  s.cmds.filter fun c => (c.hold.any fun h => h.1 == kind && h.2.1 == idx) && (match c.phase with
    | .fin _ => false
    | _ => true)

/-- An engine is retired until the next entry to Boot, with its record (Table 70, R212). The record carries the PLAN_ID of the first
command that holds the engine, in the order of acceptance, and 0 where none does: R212 names one record and "the command's plan" (DESIGN
CHOICE, log 102). -/
def retireEngine (s : State) (kind idx cause : Nat) : State :=
  let s1 : State := { s with eng := { s.eng with
    retired := if s.eng.retired.contains (kind, idx) then s.eng.retired else s.eng.retired ++ [(kind, idx)],
    lves := if kind = 1 then Map.del s.eng.lves idx else s.eng.lves,
    seedQ := Map.del s.eng.seedQ (kind * 256 + idx), maskGen := Map.del s.eng.maskGen (kind * 256 + idx) } }
  match holders s1 kind idx with
  | [] => recordFault s1 cause kind idx 0 0 0
  | c :: _ => recordFault s1 cause kind idx c.planId 0 0

/-- A fault that retires an engine (Table 70): every command with a frame or slot on it reruns or completes. -/
def faultEngine (s : State) (kind idx cause : Nat) : State :=
  (holders s kind idx).foldl (fun t c => faultCmd t c.id cause kind idx) (retireEngine s kind idx cause)

/-- An engine completes a step now: its stall timer starts again (R17). -/
def noteStep (s : State) (kind idx : Nat) : State :=
  { s with eng := { s.eng with lastStep := Map.put s.eng.lastStep (kind * 256 + idx) s.sys.tick } }

/-- Rerun a command after an error that retires no engine (Table 10): a second rerun completes it. -/
def rerunOnly (s : State) (cid cause : Nat) : State :=
  match getCmd s cid with
  | none => s
  | some c => if c.reran then fail s cid .engineFault (faultDetail cause 0 0) else modCmd (unpin s cid) cid (rerunCmd c.avoid)

end Sys2Proof.Machine
end

