-- ==== Sys2Proof/Machine/Wire.lean ====
section
/-!
DEFINITION. What stands in bytes outside the core: the attribute block of a key (Table 84) and the public view of a berth (Table 88),
and the packets of a link message (R410, R411, Tables 150 and 151).
-/

namespace Sys2Proof.Machine

/-! ### Keys and berths in bytes -/

/-- Attribute block (Table 84); a blob's has owner and sharing zero and FLAGS only PRIVATE. -/
def attrBlock (k : Key) (blob : Bool) : Bytes :=
  leBytes 2 k.typ ++ leBytes 1 k.origin
    ++ leBytes 1 (if blob then 2 * b2n k.priv else b2n k.spilled + 2 * b2n k.priv + 4 * b2n k.destroyPending)
    ++ leBytes 4 k.len
    ++ (if blob then zeros 11 else leBytes 2 k.owner ++ k.share.flatMap (leBytes 2) ++ leBytes 1 (b2n k.wholePort))
    ++ leBytes 1 k.attr.toNat ++ leBytes 2 k.uses.toNat ++ leBytes 1 k.lcMask.toNat ++ zeros 1
    ++ leBytes 4 (keyGranules k.len) ++ zeros 4

/-- The handle a berth has now. -/
def berthHandle (s : State) (i : Nat) (b : Berth) : Nat := mkHandle s.topo.position b.roleEpoch.toNat i

/-- A slot as Table 88 shows it. -/
def slotWord (g : Option Nat) : Nat := g.getD 0xFFFFFFFF

/-- The public view of a berth with its handle (Table 88). -/
def viewBytes (handle : Nat) (b : Berth) : Bytes :=
  leBytes 4 handle ++ leBytes 2 b.owner ++ leBytes 1 b.bflags.toNat
    ++ leBytes 1 (b2n b.spilled + 2 * b2n b.lock0 + 4 * b2n b.lock1) ++ leBytes 4 (slotWord b.slot0)
    ++ leBytes 4 (slotWord b.slot1) ++ padTo 48 b.chainHead ++ leBytes 8 b.nextSeq.toNat ++ leBytes 8 b.lastEpoch.toNat
    ++ leBytes 8 b.done ++ leBytes 8 b.failed ++ leBytes 8 b.inBytes ++ leBytes 8 b.opAllow.toNat
    ++ leBytes 1 b.pflags.toNat ++ zeros 3 ++ padTo 12 b.label

/-- The public berth view (Table 88). -/
def berthView (s : State) (i : Nat) (b : Berth) : Bytes := viewBytes (berthHandle s i b) b

/-! ### Link messages (Table 151) -/

/-- A byte string in pieces of at most `n` bytes with their offsets; `fuel` bounds the pieces. -/
def pieces (n : Nat) : Nat → Nat → Bytes → List (Nat × Bytes)
  | 0, _, _ => []
  | fuel + 1, off, b => if b = [] then [] else (off, b.take n) :: pieces n fuel (off + n) (b.drop n)

/-- Data bytes of one IN_DATA or OUT_DATA packet (R411, log 26). -/
def packetData : Nat := 1008

/-- Bytes of a HELLO: nonce, epoch, DEVICE_ID, owner root digest, identity key and agreement key (R409). -/
def helloLen : Nat := 32 + 8 + 32 + 32 + 2592 + 1568

/-- Body length of a message in bytes, rounded up to a multiple of 16; the numbers in front of its data take 16 bytes (R411; log 26). -/
def bodyLen (m : LinkMsg) : Nat :=
  let n := match m with
    | .cmd .. => 80
    | .inData _ _ d => 16 + d.length
    | .outData _ _ d => 16 + d.length
    | .berthXfer _ _ _ keys => 16 + 256 + (keys.map fun e => 32 + e.2.len).sum
    | .hello _ => helloLen
    | .kemSig ct sig => ct.length + sig.length
    | .rekey _ ct sig => helloLen + ct.length + sig.length
    | .training _ _ => 0
    | .ack _ => 0
    | .nak => 0
    | _ => 16
  (n + 15) / 16 * 16

/-- Packets a message takes: a body holds at most 1,024 bytes (Table 150; log 26). -/
def packetCount (m : LinkMsg) : Nat := max 1 ((bodyLen m + 1023) / 1024)

/-- Virtual channel of a message (Table 151); 4 for the link layer's own and for what TRAINING sends. -/
def linkChannel (m : LinkMsg) : Nat :=
  match m with
  | .cmd .. => 0
  | .inData .. => 0
  | .inPull .. => 1
  | .outData .. => 1
  | .done .. => 1
  | .berthXfer .. => 2
  | .xferAck .. => 2
  | .xferCommit .. => 2
  | .xferAbort .. => 2
  | .training _ _ => 4
  | .ack _ => 4
  | .nak => 4
  | _ => 3

/-- TYPE of a message (Table 151); those of ACK and NAK, which the table does not give, are 0 and 1 (log 26). -/
def linkType (m : LinkMsg) : Nat :=
  match m with
  | .training _ _ => 0
  | .cmd .. => 0x01
  | .inData .. => 0x02
  | .inPull .. => 0x10
  | .outData .. => 0x11
  | .done .. => 0x12
  | .berthXfer .. => 0x20
  | .xferAck .. => 0x21
  | .xferCommit .. => 0x21
  | .xferAbort .. => 0x21
  | .hello .. => 0x30
  | .kemSig .. => 0x31
  | .rekey .. => 0x32
  | .credit .. => 0x33
  | .endFunc .. => 0x34
  | .ack _ => 0
  | .nak => 1

/-- A HELLO as bytes, in the order R409 lists it. -/
def helloBytes (m : HelloMsg) : Bytes :=
  m.nonce ++ leBytes 8 m.epoch.toNat ++ m.deviceId ++ m.ownerDigest ++ m.idKey ++ m.agreeKey

/-- A message's body before its padding (Table 151; the places of its numbers: log 26). `work` is the working state of a berth, whose
layout the spec does not give (R286; log 71). -/
def msgBody (work : Bytes) (m : LinkMsg) : Bytes :=
  match m with
  | .cmd p n fn w c e => padTo 16 (leBytes 1 p ++ leBytes 2 fn ++ leBytes 1 (b2n w) ++ leBytes 1 c.toNat ++ leBytes 8 n) ++ padTo 64 e
  | .inData n o d => padTo 16 (leBytes 8 n ++ leBytes 4 o) ++ d
  | .inPull n o l => leBytes 8 n ++ leBytes 4 o ++ leBytes 4 l
  | .outData n o d => padTo 16 (leBytes 8 n ++ leBytes 4 o) ++ d
  | .done n st l d => leBytes 6 n ++ leBytes 2 st ++ leBytes 4 l ++ leBytes 4 d
  | .berthXfer v h b ks => padTo 16 (leBytes 8 v) ++ viewBytes h b ++ padTo 128 work
      ++ ks.flatMap fun e => attrBlock e.2 false ++ padTo e.2.len e.2.bytes
  | .xferAck v h => [0] ++ leBytes 8 v ++ leBytes 4 h.toNat
  | .xferCommit v => [1] ++ leBytes 8 v
  | .xferAbort v => [2] ++ leBytes 8 v
  | .hello h => helloBytes h
  | .kemSig ct sig => ct ++ sig
  | .rekey h ct sig => helloBytes h ++ ct ++ sig
  | .credit c n => leBytes 1 c ++ leBytes 4 n
  | .endFunc p fn kind => leBytes 1 p ++ leBytes 2 fn ++ leBytes 1 kind
  | _ => []

/-- Free bytes a message's body takes. -/
def workBytes (m : LinkMsg) : Nat :=
  match m with
  | .berthXfer .. => 128
  | _ => 0

/-! ### Packets (R410, R411, Table 150) -/

/-- A message that confirms a rekey: this side's signature over T (R409, R410). -/
def confirms (m : LinkMsg) : Bool :=
  match m with
  | .rekey _ _ sig => sig != []
  | _ => false

/-- Both sides have confirmed the new keys: the peer's signature is good, and this side's has been acknowledged (R410; DEDUCED, log
107). -/
def bothConfirmed (l : Link) : Bool := l.newTx != [] && !(l.resend.any fun p => confirms p.msg)

/-- The first multiple of 2^16 at or above a sequence number. -/
def nextRoll (q : Nat) : Nat := (q + 65535) / 65536 * 65536

/-- The key and the SEQ of the packet `i` places after the next one of a direction: past the roll, the new key and a sequence from 0
(R410). -/
def packetKey (l : Link) (i : Nat) : Bytes × Nat :=
  let q := l.seqTx.toNat
  if bothConfirmed l && decide (nextRoll q ≤ q + i) then (l.newTx, q + i - nextRoll q) else (l.keyTx, q + i)

/-- A packet: its header in the clear, the body under AES-256-GCM with the header as associated data and the SEQ in the IV, the tag, and
the CRC over all before it (R410, R411). While the link has no key, in KEYING, the body is sent as it is, with a tag of zeros (DESIGN CHOICE,
log 107). -/
def packet (vc ty seq : Nat) (key body : Bytes) : Bytes :=
  let header := [BitVec.ofNat 8 vc, BitVec.ofNat 8 ty] ++ leBytes 2 body.length ++ leBytes 8 seq ++ zeros 4
  let r := if key = [] then (body, zeros 16) else aeadSeal 0x3001 16 key (zeros 4 ++ leBytes 8 seq) header body
  let p := header ++ r.1 ++ r.2
  p ++ leBytes 4 (crc32c p)

/-- A link-layer packet: ACK or NAK, without body, tag or encryption (Table 150). -/
def bare (m : LinkMsg) : Bytes :=
  let seq := match m with
    | .ack q => q.toNat
    | _ => 0
  let p := [0x0F, BitVec.ofNat 8 (linkType m)] ++ leBytes 2 0 ++ leBytes 8 seq ++ zeros 4
  p ++ leBytes 4 (crc32c p)

/-- The packets of a message on a link. -/
def wire (l : Link) (work : Bytes) (m : LinkMsg) : List Bytes :=
  if linkChannel m = 4 then [bare m]
  else
    let body := padTo (bodyLen m) (msgBody work m)
    (List.range (packetCount m)).map fun i =>
      packet (linkChannel m) (linkType m) (packetKey l i).2 (packetKey l i).1 (slice body (1024 * i) (min 1024 (bodyLen m - 1024 * i)))

end Sys2Proof.Machine
end

