-- ==== Sys2Proof/Machine/Modes.lean ====
section
/-!
DEFINITION. Mode transitions (Table 15), entry to Boot (R58, R460), to Held (R38) and to Lockdown (R40), the drain of
functions (R112 to R116), function resets (R316, Table 97), and sending on a towpath link (R410, R414).
-/

namespace Sys2Proof.Machine

/-! ### Keys and berths going away -/

/-- Unbind a key from every berth slot (R166). -/
def unbindAll (s : State) (g : Nat) : State :=
  { s with keys := { s.keys with berths := Map.update s.keys.berths fun _ b =>
      { b with slot0 := if b.slot0 = some g then none else b.slot0, slot1 := if b.slot1 = some g then none else b.slot1 } } }

/-- Zeroise a key: its granules, tail map and spill record go, and it is unbound (R269, R166). -/
def zeroiseKey (s : State) (g : Nat) : State :=
  unbindAll { s with keys := { s.keys with keys := Map.del s.keys.keys g, tails := Map.del s.keys.tails g } } g

/-- A tree record is overwritten with zeros (R258); in a worn region it is overwritten in part, and authenticates no more (R279). -/
def eraseTree (s : State) (t : Nat) : State :=
  match wearWrite s 2 treeWords 0 with
  | (s1, true) => { s1 with nvm := { s1.nvm with trees := Map.del s1.nvm.trees t } }
  | (s1, false) => { s1 with nvm := { s1.nvm with trees := Map.modify s1.nvm.trees t fun r => { r with box := .bad, authentic := false } } }

/-- Zeroise a key for good: a tree key's record is overwritten, so its tree is EMPTY (R258). -/
def destroyKey (s : State) (g : Nat) : State :=
  let s1 := zeroiseKey s g
  if Config.treeBase ≤ g && (Map.get? s1.nvm.trees (g - Config.treeBase)).isSome then eraseTree s1 (g - Config.treeBase) else s1

/-- Zeroise and free a berth, in its entry and in any spill record (R292). -/
def freeBerth (s : State) (i : Nat) : State :=
  { s with keys := { s.keys with berths := Map.del s.keys.berths i, views := Map.del s.keys.views i } }

/-- Commands that name a key: resolved to it, or naming it in KEY_REF or TARGET. -/
def namesKey (c : Cmd) (g : Nat) : Bool := c.keyA == some g || c.keyB == some g

/-! ### Links -/

/-- Credits a message costs (R414). -/
def creditCost (m : LinkMsg) : Nat :=
  if linkChannel m = 4 then 0
  else
    let full := bodyLen m / 1024
    let rest := bodyLen m % 1024
    full * ((36 + 1024 + 63) / 64) + (if rest = 0 && full != 0 then 0 else (36 + rest + 63) / 64)

/-- A link can carry a message now: UP or DEGRADED, or a KEYING link for the maintenance channel, with credits. -/
def canSend (l : Link) (m : LinkMsg) : Bool :=
  (carrying l || (l.st == .keying && linkChannel m == 3) || (linkChannel m == 4)) &&
    (linkChannel m == 4 || decide (creditCost m ≤ l.credits.toArray.getD (linkChannel m) 0))

/-- The direction sent after `n` packets more: the new keys take over at the first sequence number that is a multiple of 2^16, and the
sequence restarts there at 0 (R410). -/
def rollTx (l : Link) (n : Nat) : Link :=
  let q := l.seqTx.toNat
  if bothConfirmed l && decide (nextRoll q < q + n) then
    { l with keyTx := l.newTx, newTx := [], seqTx := BitVec.ofNat 64 (q + n - nextRoll q) }
  else { l with seqTx := BitVec.ofNat 64 (q + n) }

/-- The direction received after a message of `n` packets whose last has SEQ `seq`: the next in order, or one with which the sender's new
keys have taken over (R410, R412); none for a packet out of order. -/
def rollRx (l : Link) (n : Nat) (seq : DWord) : Option Link :=
  let q := l.seqRx.toNat
  if seq.toNat + 1 = q + n then some { l with seqRx := seq + 1 }
  else if l.newRx != [] && decide (nextRoll q < q + n) && seq.toNat + 1 == q + n - nextRoll q then
    some { l with keyRx := l.newRx, newRx := [], seqRx := seq + 1 }
  else none

/-- Put one message on a link; it is held, as it was sent, until the ACK of its last packet. -/
def putOnLink (s : State) (k : Nat) (m : LinkMsg) : State :=
  let ps := wire (getLink s k) (freeBytes 128 s.free) m
  let s1 := modLink s k fun l0 =>
    if linkChannel m = 4 then l0
    else
      let l := rollTx l0 (packetCount m)
      { l with
        resend := l.resend ++ [{ seq := l.seqTx - 1, msg := m, packets := ps }],
        credits := l.credits.mapIdx (fun i c => if i = linkChannel m then c - creditCost m else c) }
  emit { s1 with free := s1.free + workBytes m } (.link k m ps)

/-- Hold a message back. -/
def holdBack (s : State) (k : Nat) (m : LinkMsg) : State := modLink s k fun l => { l with back := l.back ++ [m] }

/-- Send on a link, or hold the message back, behind those of its own channel only, until credits or the link return (R414, R415,
R425). -/
def linkSend (s : State) (k : Nat) (m : LinkMsg) : State :=
  if canSend (getLink s k) m && ((getLink s k).back.all fun b => linkChannel b != linkChannel m) then putOnLink s k m
  else if carrying (getLink s k) || (getLink s k).st = .retraining || (getLink s k).st = .keying then holdBack s k m
  else s

/-- Send messages that were held back, each channel in its order, and hold back again what cannot go; `blocked` are the channels of which
a message is held (R415). -/
def drainList (k : Nat) : List LinkMsg → List Nat → State → State
  | [], _, s => s
  | m :: r, blocked, s =>
    if canSend (getLink s k) m && !blocked.contains (linkChannel m) then drainList k r blocked (putOnLink s k m)
    else drainList k r (linkChannel m :: blocked) (holdBack s k m)

/-- Send what every channel of a link had held back, while it can. -/
def drainBack (s : State) (k : Nat) : State :=
  drainList k (getLink s k).back [] (modLink s k fun l => { l with back := [] })

/-- A link enters TRAINING, in which this side sends its POSITION and DEVICES (R406, R408). -/
def startTraining (s : State) (k : Nat) : State :=
  emit (modLink s k fun l => { l with st := .training }) (.link k (.training s.topo.position s.topo.devices) [])

/-- The link a forwarded command or move uses: of a doubled pair the one of berth index mod 2 (R417). -/
def linkFor (s : State) (pos idx : Nat) : Option Nat :=
  match (linksTo s pos).filter (fun k => carrying (getLink s k) || (getLink s k).st == .retraining) with
  | [] => none
  | [k] => some k
  | k :: j :: _ => if idx % 2 = 0 then some k else some j

/-! ### Drain of functions (R112 to R116) -/

/-- Destroy a function's created queues, writing DESTROYED lines (R114). -/
def destroyQueues (s : State) (fn : Nat) : State :=
  let ids := (qidsOf s.sqs fn).filter (· != 0)
  let s1 := ids.foldl (fun t q => lastLine (stopSq t fn q .destroyed 0) fn q) s
  { s1 with sqs := Map.keep s1.sqs (fun k _ => k / 4096 != fn || k % 4096 == 0),
            cqs := Map.keep s1.cqs (fun k _ => k / 4096 != fn || k % 4096 == 0) }

/-- A DRAINING function becomes OFF (R114); its keeper SQ's change of STATE is written to its status line (R77). -/
def offFn (s : State) (fn : Nat) : State :=
  let s1 := destroyQueues s fn
  let s2 := match getSq s1 fn 0 with
    | some q => if q.st = .disabled then s1 else statusLine (putSq s1 fn 0 { discarded q with st := .disabled }) fn 0
    | none => s1
  modFn s2 fn fun x => { x with power := .off, quenched := false, normPend := [], holds := [] }

/-- A drained target: FUNC_DRAINED to each waiting issuer, a DRAINING target becomes OFF, and a held FUNC_ENABLE takes
effect (R114, Table 51). -/
def drainPend (s : State) (fn : Nat) : State :=
  let f := getFn s fn
  let s1 := f.waiters.foldl (fun t w => pendFast t w 3 fn) (modFn s fn fun x => { x with waiters := [] })
  let s2 := if f.power = .draining then offFn s1 fn else s1
  match f.heldEnable with
  | none => s2
  | some cid =>
    okOut (modFn s2 fn fun x => { x with heldEnable := none, quenched := false,
                                         power := if x.power = .off then .on else x.power }) cid 0 []

/-- A function has drained, and the signals of that go out. -/
def drainFn (s : State) (fn : Nat) : State := flushSignals (drainPend s fn)

/-- A function waits for a drain once (R114). -/
def addWaiter (s : State) (fn w : Nat) : State := modFn s fn fun x => { x with waiters := insertNat w x.waiters }

/-- FUNC_QUENCH takes effect (R112); its signals pend until its completion is at its CQ, since they go out in ascending order (R332). -/
def quenchEffect (s : State) (c : Cmd) : State :=
  let t := le c.entry 40 2
  let s1 := ((qidsOf s.sqs t).filter (· != 0)).foldl (fun u q => disableSq u t q) s
  let s2 := addWaiter (modFn s1 t fun x => { x with quenched := true }) t c.fn
  let s3 := pendFast (okOut s2 c.id (openOf s t) []) c.fn 2 t
  if openOf s t = 0 then drainPend s3 t else s3

/-- FUNC_DISABLE takes effect (R113); its signals pend as those of FUNC_QUENCH do. -/
def disableEffect (s : State) (c : Cmd) : State :=
  let t := le c.entry 40 2
  let s1 := (qidsOf s.sqs t).foldl (fun u q => disableSq u t q) s
  let s2 := addWaiter (modFn s1 t fun x => { x with power := .draining }) t c.fn
  let s3 := okOut s2 c.id (openOf s t) []
  if openOf s t = 0 then drainPend s3 t else s3

/-- A change of CLASS and GRANTS takes effect (R117). -/
def classEffect (s : State) (fn : Nat) : State :=
  modFn s fn fun x => match x.nextCls with
    | some (c, g) => { x with cls := c, grants := g, nextCls := none }
    | none => x

/-! ### Function reset (R316, R321, Table 97) -/

/-- A berth survives a reset of its owner (R292). -/
def berthSurvives (b : Berth) : Bool := b.bflags.getLsbD 0

/-- A berth or key belongs to a function of a position (R419). -/
def ownedBy (owner ownerPos fn pos : Nat) : Bool := owner == fn && ownerPos == pos

/-- A key is bound in a slot of a berth of the list. -/
def boundIn (bs : Map Berth) (g : Nat) : Bool := bs.any fun e => e.2.slot0 == some g || e.2.slot1 == some g

/-- A key marked for destruction: the first command that no longer knows it is the earliest that marks it (R274, R283). -/
def markKey (id : Nat) (k : Key) : Key :=
  { k with destroyPending := true, markId := if k.destroyPending then min k.markId id else id }

/-- The keys as a reset of functions of a position leaves them: those it destroys are marked, and the functions' numbers leave the SHARE
lists of the keys of that position (R283, R419). -/
def keysAfter (s : State) (berths : Map Berth) (fns : List Nat) (pos : Nat) : Map Key :=
  let live := berths.filter fun e => !e.2.freeing
  Map.update s.keys.keys fun g k =>
    let k1 : Key := if k.ownerPos = pos then { k with share := k.share.map fun x => if fns.contains x then 0xFFFF else x } else k
    if fns.contains k.owner && k.ownerPos == pos && decide (g < Config.treeBase) && (k.destroyPending || !boundIn live g) then
      markKey s.nextId k1 else k1

/-- Keys and berths of functions after their reset at one instant (R283, R292): marked for destruction, zeroised in clean-up. A head
granule whose attributes change is written under a fresh mask (R267). -/
def resetHoldings (s : State) (fns : List Nat) (pos : Nat) : State :=
  let berths := Map.update s.keys.berths fun _ b =>
    if fns.contains b.owner && b.ownerPos == pos && !berthSurvives b then { b with freeing := true } else b
  let keys := keysAfter s berths fns pos
  let hit := (s.keys.keys.filter fun e => Map.get? keys e.1 != some e.2).map (·.1)
  hit.foldl remask { s with keys := { s.keys with berths := berths, keys := keys } }

/-- Send END_FUNC to every peer whose link carries traffic, or hold it for a RETRAINING link (R425). -/
def sendEndFunc (s : State) (fn kind : Nat) : State :=
  (List.range 8).foldl (fun t k =>
    if carrying (getLink t k) || (getLink t k).st = .retraining then linkSend t k (.endFunc t.topo.position fn kind) else t) s

/-- A command was issued by a function of a position (R419). -/
def issuedBy (s : State) (c : Cmd) (fn pos : Nat) : Bool :=
  c.fn == fn && (if c.origin.isNone then s.topo.position else c.originPos) == pos

/-- A reset of a function cuts short the move of a berth: its own berth, or a move it issued. -/
def moveCut (s : State) (fn pos : Nat) (b : Berth) : Bool :=
  match b.moving with
  | some cid => ownedBy b.owner b.ownerPos fn pos || s.cmds.any fun c => c.id == cid && issuedBy s c fn pos
  | none => false

/-- Moves that have not committed are called off where the berths' moves are cut short: XFER_ABORT where one was sent. -/
def callOff (s : State) (cut : Berth → Bool) : State :=
  let hit := s.keys.berths.filter fun e => cut e.2
  let gone := s.topo.moves.filter fun m => !m.committed && !m.aborted && hit.any fun e => e.1 == m.index
  let s1 := gone.foldl (fun t m => linkSend t m.link (.xferAbort m.id)) s
  let berths := Map.update s1.keys.berths fun i b => if (hit.any fun e => e.1 == i) then { b with moving := none } else b
  { s1 with topo := { s1.topo with moves := s1.topo.moves.filter fun m => !(gone.any fun g => g.id == m.id) },
            keys := { s1.keys with berths := berths } }

/-- Moves that a reset of a function cuts short before they commit complete ST_ABORTED with DETAIL 0x10 (Table 152). -/
def abortMoves (s : State) (fn pos : Nat) : State :=
  let hit := s.keys.berths.filter fun e => moveCut s fn pos e.2
  callOff (hit.foldl (fun t e => fail t (e.2.moving.getD 0) .aborted 0x10) s) fun b => moveCut s fn pos b

/-- A key of the board is bound in a berth that lies on another device. -/
def RemoteBerth.binds (b : RemoteBerth) (g : Nat) : Bool := b.slot0 == some g || b.slot1 == some g

/-- A function's own state after a reset (Table 97, R344, R460). Writes held for the function, in Boot (R49) or in clean-up (R317),
stay held and take effect when they are due (log 82). -/
def resetFnState (x : Fn) : Fn :=
  let away := Map.keep x.remoteBerths fun _ b => b.persistent
  { x with
    remoteBerths := away, remoteKeys := Map.keep x.remoteKeys fun g _ => away.any (fun e => e.2.binds g) || decide (Config.treeBase ≤ g % 131072),
    power := if x.power = .draining then .off else x.power, quenched := false, waiters := [], heldEnable := none,
    flr := .cleanup, kq := Kq.reset,
    fast := Vector.replicate 8 FastVec.reset, msix := [], normPend := [], holds := [], interval := 4, unchanged := 0,
    activity := true, dbTodo := [], dbReads := [],
    late := (x.late ++ x.dbReads.map fun r => (b2n r.2, r.1)).map (fun e => (e.1 % 4 + 4, e.2)), lines := [], lastSq := none, stalled := false, kcqSince := none, recIndex := 0, recPinned := false }

/-- The ring reads of a function's SQs that are outstanding when they go: they keep their tags (R433). -/
def lateRings (s : State) (fn : Nat) : State :=
  let rs := (s.sqs.filter fun e => e.1 / 4096 == fn).flatMap fun e => e.2.reads.map fun _ => (2, e.1 % 4096)
  modFn s fn fun x => { x with late := x.late ++ rs }

/-- The reset of a function at the instant it takes effect (R316): `kind` 0 FLR, 1 PERST_N. Its signals pend until the instant's effects are
done, since they go out in ascending order (R332). -/
def resetFn (s : State) (fn kind : Nat) : State :=
  let f := getFn s fn
  let ended := (s.cmds.filter fun c => c.fn == fn && c.origin.isNone).map (·.id)
  let s0 := abortMoves s fn s.topo.position
  let s1 := lateRings (ended.foldl endCmd s0) fn
  let s2 : State := { s1 with
    sqs := Map.keep s1.sqs (fun k _ => k / 4096 != fn), cqs := Map.keep s1.cqs (fun k _ => k / 4096 != fn),
    fns := Map.update s1.fns (fun _ x => { x with waiters := x.waiters.filter (· != fn),
                                                  heldEnable := x.heldEnable.filter fun c => !ended.contains c }) }
  let s3 := if f.power = .draining || f.quenched then
      f.waiters.foldl (fun t w => if w = fn then t else pendFast t w 3 fn) s2 else s2
  let s4 := match f.heldEnable with
    | some cid => fail s3 cid .aborted 0x10
    | none => s3
  let s5 := modFn (resetHoldings s4 [fn] s.topo.position) fn resetFnState
  let s6 := { s5 with eng := { s5.eng with changes := s5.eng.changes.filter fun e => !(e.1 == 1 && e.2.1 == fn) } }
  record (sendEndFunc s6 fn kind) 0x2003 fn (leBytes 4 ended.length ++ [BitVec.ofNat 8 kind])

/-- The first moment of an FLR: the function's PCIe configuration is as after reset, and no request is issued from it on (R316). -/
def flrWrite (s : State) (fn : Nat) : State :=
  modFn s fn fun x => { x with
    bme := false, mse := false, d3hot := false, msixEnable := false, msixMask := false, flr := .requested, pcie := PcieRegs.reset }

/-! ### Port reset (R312, R321) -/

/-- Functions of a port that exist: the PF and its VFs. -/
def portFns (s : State) (p : Nat) : List Nat := ((List.range 128).map (128 * p + ·)).filter (fnExists s)

/-- A VF that ceased to exist has the limits, world and state of a VF that comes into existence (R312); its clean-up goes on, and what it
still owns on other devices, and the reads it has outstanding, stay noted. -/
def ceaseVf (s : State) (fn : Nat) : State :=
  modFn s fn fun x => { Fn.reset true false with
    flr := x.flr, heldWrites := x.heldWrites, remoteKeys := x.remoteKeys, remoteBerths := x.remoteBerths, late := x.late }

/-- The instant of a port's reset: that of all its functions, whose keys and berths are judged together (R283), and what the port holds
(R321). Its requests are gone with its link. -/
def resetPortNow (s : State) (p : Nat) : State :=
  let fns := portFns s p
  let s1 := fns.foldl (fun t f => modFn (resetFn (flrWrite t f) f 1) f fun x => { x with late := [] })
    (resetHoldings s fns s.topo.position)
  let s2 := (fns.filter (fun f => vfOf f != 0)).foldl ceaseVf s1
  let s3 := modPort s2 p fun x => { x with
    vfEnable := false, numVfs := 0, targets := [], sets := [], tag10 := false, lastFetch := none, vfBar0 := 0x4, vfBar2 := 0xC }
  if 128 * p = keeperFn s3 && s3.sys.mode = .boot then { s3 with boot := { s3.boot with loading := false } } else s3

/-! ### Dispatch boundaries (R188) -/

/-- Note a control change that waits for the next dispatch boundary (R188). -/
def addChange (s : State) (kind id : Nat) : State :=
  { s with eng := { s.eng with changes := s.eng.changes ++ [(kind, id, 0)] } }

/-- Every sequencer has passed a boundary since a change reached it, or the device is in Held (R188, R38). -/
def changeDue (s : State) (kind id : Nat) : Bool :=
  s.sys.mode == .held || s.eng.changes.any (fun e => e.1 == kind && e.2.1 == id && e.2.2 == 0xFFFF)

/-- A change has taken effect. -/
def dropChange (s : State) (kind id : Nat) : State :=
  { s with eng := { s.eng with changes := s.eng.changes.filter fun e => !(e.1 == kind && e.2.1 == id) } }

/-- A sequencer has passed a boundary since a change reached it. -/
def passedBy (s : State) (seqr kind id : Nat) : Bool :=
  s.eng.changes.any fun e => e.1 == kind && e.2.1 == id && e.2.2.getLsbD seqr

/-- The sequencer of a command has acted on the end of its function's commands before the common instant: it dispatches nothing more of
it (R188). -/
def withdrawn (s : State) (c : Cmd) : Bool :=
  c.origin.isNone && (passedBy s c.seqr 1 c.fn || passedBy s c.seqr 3 (portOf c.fn))

/-- A sequencer that has acted on a change takes no entry the change keeps from it: none of a function being reset, none of a created
SQ of a function being quenched, none of a function being disabled (R188). -/
def closedTo (s : State) (seqr fn qid : Nat) : Bool :=
  passedBy s seqr 1 fn || passedBy s seqr 3 (portOf fn) ||
    s.cmds.any fun c => c.phase == .effected && le c.entry 40 2 == fn && passedBy s seqr 0 c.id &&
      (le c.entry 0 2 == 0x11 || (le c.entry 0 2 == 0x12 && qid != 0))

/-- The reset of a port that waits for a boundary takes place. -/
def takePort (s : State) (p : Nat) : State := dropChange (resetPortNow s p) 3 p

/-- Ports whose reset waits. -/
def portsWaiting (s : State) : List Nat := (s.eng.changes.filter fun e => e.1 == 3).map (·.2.1)

/-! ### Modes -/

/-- Row of Table 15 of a transition, the first row 1. -/
def transRow (frm into : Mode) : Nat :=
  match frm, into with
  | _, .dormant => 12
  | .dormant, _ => 1
  | .held, .lockdown => 9
  | .held, .boot => 10
  | .held, _ => 2
  | .lockdown, _ => 11
  | .boot, .service => 5
  | .boot, .maintenance => 6
  | .boot, .lockdown => 8
  | .boot, _ => 10
  | _, .boot => 10
  | _, .lockdown => 9
  | _, .held => 7
  | .service, _ => 3
  | .maintenance, _ => 4

/-- Change mode and note the transition (Tables 14, 22). -/
def setMode (s : State) (m : Mode) (cause : BitVec 4) : State :=
  { s with sys := { s.sys with prev := s.sys.mode, mode := m, cause := cause,
                               moved := some (s.sys.tick, transRow s.sys.mode m) } }

/-- The zeroisation of CLEAR_WORKING (Table 118). -/
def clearWorking (s : State) : State :=
  { s with
    keys := { s.keys with keys := [] }, bkeys := BootKeys.reset, rng := { s.rng with inst := [] },
    eng := { s.eng with lves := [], seedQ := [], maskGen := [] },
    cmds := s.cmds.map fun c => { c with
      frame := [], xbar := [], shares := [], rnd := none, header := none, input := none, buf := [],
      phase := match c.phase with
        | .fin r => .fin { r with out := zeros r.out.length }
        | p => p } }

/-- The record of a debug scope that closes (Table 143); none where no scope was open. -/
def scopeClosed (s : State) (l : LcSt) : State :=
  if l.scope = 0 then s else record s 0x2006 l.scope ([4, if l.byOwner then 2 else 1, 0, 0] ++ l.nonce)

/-- Close an open debug scope (R402) with its record; what it had halted runs on (DESIGN CHOICE, log 105). -/
def closeScope (s : State) : State :=
  if s.lc.scope = 0 then s else scopeClosed { s with lc := { s.lc with scope := 0, byOwner := false, units := [] } } s.lc

/-- What every entry to Lockdown does beside its cause's clearing (R40, R402, R407): the writes a Boot has held are discarded (R49), those
held in a clean-up stay due at its end (R457, R317), and the flash interface is idle (R442); no boundary comes any more, so the reset of a port
that waits for one takes place. -/
def enterLockdown (s : State) (cause : BitVec 4) : State :=
  let s1 := closeScope (setMode (flushSignals ((portsWaiting s).foldl takePort s)) .lockdown cause)
  { s1 with
    cmds := [],
    sqs := Map.update s1.sqs (fun _ q => { discarded q with opened := 0 }),
    cqs := Map.update s1.cqs (fun _ c => { c with waiting := [], reserved := 0, count := 0 }),
    fns := Map.update s1.fns (fun _ f => { f with
      heldWrites := if f.flr = .cleanup then f.heldWrites else [], waiters := [], heldEnable := none }),
    eng := { s1.eng with walking := false, lves := [], changes := [], faulted := [] },
    sys := { s1.sys with byAlarm := false, heldReturn := .dormant, qspiActive := false },
    topo := { s1.topo with
      moves := [], links := s1.topo.links.map fun l =>
        if l.st = .unused then l else { l with st := .failed, failedAt := s1.sys.tick, back := [], resend := [], inbox := [] } } }

/-- The TIME_LOST record, once for each time it is set (R297). -/
def noteTimeLost (s : State) : State :=
  if s.backup.timeLost || s.backup.timeUnset then
    record { s with time := { s.time with noticed := true } } 0x1009 0
      [s.backup.cause.setWidth 8, BitVec.ofNat 8 (b2n s.backup.timeLost + 2 * b2n s.backup.timeUnset)]
  else s

/-- The BOOT record at the end of Boot (Table 120). -/
def recordBoot (s : State) : State :=
  record s 0x2001 s.boot.used.toNat
    (leBytes 4 (bootStatus s).toNat ++ leBytes 4 (ucodeVersion s).toNat ++ leBytes 8 s.time.epoch.toNat)

/-- Alarm fields that ALARM_CFG_LOCK keeps over a reset that is not a cold start (R6, R460). -/
def keptAlarm (s : State) (cold : Bool) : AlarmSt :=
  if cold || !s.alarm.lock then AlarmSt.reset
  else { AlarmSt.reset with
    lock := true, snapSel := s.alarm.snapSel,
    mons := s.alarm.mons.map fun m => { m with hist := [], inWin := 0, total := 0 } }

/-- A TAP instruction as the device lets it act: in SCRAP every one but IDCODE is BYPASS (R398, R389). -/
def tapAllowed (l : Lc) (code : Nat) : Nat := if l = .scrap && code != 1 then 0xFF else code

/-- Entry to Boot: every volatile content at its reset value, NVM, OTP and the backup domain kept (Table 20, R460). The
blocks are isolated after a loss of main power and while DEV_RESET_N is low, not by DEV_SOFT_RESET (R42, R377). -/
def bootState (s : State) (cold : Bool) : State :=
  { State.reset with
    pending := s.pending, bus := s.bus, stamp := s.stamp, nextId := s.nextId, free := s.free,
    otp := s.otp, backup := s.backup,
    nvm := { s.nvm with wear := s.nvm.wear.map fun w => { w with window := 0, life := 0xFFFFFF } },
    sys := { Sys.reset with
      mainGood := s.sys.mainGood, vio18Good := s.sys.vio18Good, tbclk := s.sys.tbclk, resetLow := s.sys.resetLow,
      isolated := cold || s.sys.resetLow, keeperSel := s.sys.keeperSel },
    ports := s.ports.map fun p => { Port.reset with perst := p.perst },
    alarm := keptAlarm s cold,
    rng := if cold || !s.alarm.lock then RngSt.reset
      else { RngSt.reset with prAll := s.rng.prAll, reseed := s.rng.reseed },
    recorder := { RecSt.reset with mounted := !cold && s.recorder.mounted, skip := s.recorder.skip },
    lc := if cold then LcSt.reset (lcDecode s.otp).1 (lcDecode s.otp).2
      else { LcSt.reset (lcDecode s.otp).1 (lcDecode s.otp).2 with
        tapIr := tapAllowed (lcDecode s.otp).1 s.lc.tapIr, tapData := s.lc.tapData, boundary := s.lc.boundary, bypass := s.lc.bypass } }

/-- Entry to Boot by DEV_RESET_N or DEV_SOFT_RESET (Table 20, R472), with its MODE record; an open debug scope closes, and its record is
formed after the volatile contents have gone (R402, R403). -/
def warmBoot (s : State) (cause : BitVec 4) : State :=
  let s1 := bootState s false
  recordMode (scopeClosed { s1 with sys := { s1.sys with prev := s.sys.mode, cause := cause } } s.lc)

/-! ### Alarm responses (R373 to R376) -/

/-- The CLEAR record (Table 120). -/
def recordClear (s : State) (level phase : Nat) : State := record s 0x2004 level [BitVec.ofNat 8 phase]

/-- An erase writes every word of a region (R261; log 38). -/
def countErase (s : State) (r : Nat) : State :=
  { s with nvm := { s.nvm with wear := s.nvm.wear.mapIdx fun i w => if i = r then { w with window := w.window + regionWords r } else w } }

/-- Erase the persistent keys region to blank (R376 step 2). -/
def erasePersistent (s : State) : State :=
  let s1 := countErase s 2
  { s1 with nvm := { s1.nvm with identity := .blank, ownerRoot := .blank, swk := .blank, trees := [] } }

/-- Erase user NVM to blank. -/
def eraseUser (s : State) : State :=
  let s1 := countErase s 1
  { s1 with nvm := { s1.nvm with user := [] } }

/-- Start the CLEAR_ALL erase: the clear-pending mark is committed (R376 step 1). -/
def startErase (s : State) : State :=
  let s1 := writeMark s 3 1
  { s1 with alarm := { s1.alarm with clearing := true, erased := true } }

/-- CLEAR_WORKING or CLEAR_ALL and entry to Lockdown (Table 118). -/
def clearAndLock (s : State) (level : Nat) : State :=
  let s1 := recordClear s level 1
  let s2 := recordMode (enterLockdown (clearWorking s1) (if level = 4 then 6 else 5))
  if level = 4 then startErase s2 else recordClear s2 level 2

end Sys2Proof.Machine
end

