-- ==== Sys2Proof/Machine/Operands.lean ====
section
/-!
DEFINITION. The submission entry (Tables 31, 32), the opcodes (Tables 47, 53), the operands each names (Tables 48, 54),
the parameter sets and codes (Tables 57, 58), and the operand checks of R106, R135, R138 step 2 and R144.
-/

namespace Sys2Proof.Machine

/-! ### Fields of an entry (Table 31) -/

/-- OPCODE. -/
def opcode (e : Bytes) : Nat := le e 0 2

/-- FLAGS bit n (Table 32). -/
def flagBit (e : Bytes) (n : Nat) : Bool := bit (le e 2 1) n

/-- Berth handle. -/
def handleOf (e : Bytes) : Nat := le e 8 4

/-- Device position of a handle. -/
def handlePos (h : Nat) : Nat := bits h 29 3

/-- Role epoch of a handle. -/
def handleEpoch (h : Nat) : Nat := bits h 16 8

/-- Berth index of a handle. -/
def handleIdx (h : Nat) : Nat := bits h 0 16

/-- KEY_REF [16:0]. -/
def keyRef (e : Bytes) : Nat := bits (le e 12 4) 0 17

/-- IN_LEN. -/
def inLen (e : Bytes) : Nat := le e 24 4

/-- OUT_CAP. -/
def outCap (e : Bytes) : Nat := le e 28 4

/-! ### Opcodes -/

/-- Keeper opcodes (Table 47). -/
def keeperOps : List Nat :=
  [0x01, 0x02, 0x03, 0x04, 0x05, 0x06, 0x10, 0x11, 0x12, 0x13, 0x14, 0x20, 0x21, 0x22, 0x23, 0x30, 0x31, 0x32, 0x40,
   0x41, 0x42, 0x43, 0x50, 0x51, 0x60, 0x61, 0x62, 0x70, 0x71, 0x72]

/-- Operation opcodes in the row order of Table 53, which is the bit order of OP_ALLOW (R287). -/
def operationOps : List Nat :=
  [0x0101, 0x0102, 0x0103, 0x0104, 0x0105, 0x0110, 0x0201, 0x0202, 0x0301, 0x0302, 0x0303, 0x0304, 0x0310, 0x0320,
   0x0321, 0x0330, 0x0401, 0x0402, 0x0403, 0x0404, 0x0405, 0x0406, 0x0407, 0x0408, 0x0410, 0x0411, 0x0412, 0x0413,
   0x0501, 0x0601, 0x0602, 0x0610, 0x0611, 0x0612, 0x0620, 0x0621, 0x0701, 0x0702, 0x0710, 0x0801]

/-- The entry is a keeper command. -/
def isKeeperOp (e : Bytes) : Bool := keeperOps.contains (opcode e)

/-- The entry is an operation command. -/
def isOperation (e : Bytes) : Bool := operationOps.contains (opcode e)

/-- Keeper commands that need an engine (R38). -/
def keeperEngineOp (op : Nat) : Bool := op == 0x50 || op == 0x31 || op == 0x60 || op == 0x61 || op == 0x62

/-- Commands that need no randomness (R142). -/
def noRandom (op : Nat) : Bool :=
  [0x0310, 0x0202, 0x0402, 0x0404, 0x0405, 0x0406, 0x0407, 0x0408, 0x0601, 0x0602, 0x0612, 0x0620, 0x0621, 0x0701].contains op

/-- Operands of Tables 48 and 54: (offset, bytes) of each named inline field. -/
def inlineFields (op : Nat) : List (Nat × Nat) :=
  match op with
  | 0x01 => [(40, 8), (48, 2), (50, 2), (52, 4)]
  | 0x02 => [(40, 8), (48, 2), (52, 4), (56, 2), (58, 2)]
  | 0x03 => [(48, 2)]
  | 0x04 => [(48, 2)]
  | 0x05 => [(48, 2)]
  | 0x06 => [(48, 2)]
  | 0x10 => [(40, 2)]
  | 0x11 => [(40, 2)]
  | 0x12 => [(40, 2)]
  | 0x13 => [(40, 2), (42, 2), (44, 2), (46, 1), (47, 1), (48, 4), (52, 4)]
  | 0x14 => [(40, 2), (42, 1)]
  | 0x21 => [(40, 1), (42, 2)]
  | 0x22 => [(40, 2), (48, 8), (56, 8)]
  | 0x23 => [(48, 2), (50, 2), (52, 2), (54, 2)]
  | 0x30 => [(40, 1), (41, 1), (48, 8)]
  | 0x31 => [(40, 8)]
  | 0x32 => [(40, 1), (42, 2), (44, 4)]
  | 0x40 => [(40, 2), (42, 1)]
  | 0x42 => [(40, 1)]
  | 0x51 => [(40, 4)]
  | 0x60 => [(40, 2)]
  | 0x61 => [(40, 1)]
  | 0x70 => [(40, 16)]
  | 0x0101 => [(40, 3), (56, 8)]
  | 0x0102 => [(40, 2), (56, 8)]
  | 0x0103 => [(40, 2), (56, 8)]
  | 0x0104 => [(40, 2), (43, 1)]
  | 0x0105 => [(40, 2), (43, 1), (56, 8)]
  | 0x0110 => [(40, 8), (56, 8)]
  | 0x0201 => [(40, 6)]
  | 0x0202 => [(40, 6), (48, 4)]
  | 0x0301 => [(40, 2), (43, 5)]
  | 0x0302 => [(40, 2), (43, 5)]
  | 0x0303 => [(40, 2), (44, 20)]
  | 0x0304 => [(40, 2), (44, 20)]
  | 0x0310 => [(40, 2), (44, 4)]
  | 0x0320 => [(40, 2), (44, 6)]
  | 0x0321 => [(40, 2), (44, 6)]
  | 0x0330 => [(40, 3), (44, 4), (56, 8)]
  | 0x0401 => [(40, 3), (56, 8)]
  | 0x0402 => [(40, 2), (56, 8)]
  | 0x0403 => [(40, 2), (44, 2), (56, 8)]
  | 0x0407 => [(40, 9)]
  | 0x0408 => [(40, 2)]
  | 0x0410 => [(40, 1), (44, 4)]
  | 0x0411 => [(40, 1)]
  | 0x0412 => [(44, 4)]
  | 0x0413 => [(40, 2), (56, 8)]
  | 0x0501 => [(42, 1), (44, 4)]
  | 0x0601 => [(40, 1)]
  | 0x0602 => [(40, 1)]
  | 0x0610 => [(40, 4), (56, 8)]
  | 0x0620 => [(44, 8)]
  | 0x0621 => [(44, 4)]
  | 0x0702 => [(40, 2)]
  | 0x0710 => [(40, 1)]
  | 0x0801 => [(40, 4), (48, 16)]
  | _ => []

/-- Offsets of reserved inline bytes that are not zero (R106, R135). -/
def reservedBad (e : Bytes) : List Nat :=
  ((List.range 24).map (40 + ·)).filter fun o =>
    e.getD o 0 != 0 && !(inlineFields (opcode e)).any fun f => decide (f.1 ≤ o) && decide (o < f.1 + f.2)

/-- The command uses KEY_REF (Table 54). -/
def usesKeyRef (e : Bytes) : Bool :=
  match opcode e with
  | 0x0101 => le e 42 1 == 1
  | 0x0102 => true
  | 0x0103 => true
  | 0x0104 => true
  | 0x0105 => true
  | 0x0110 => le e 42 1 == 3
  | 0x0201 => true
  | 0x0202 => !bit (le e 45 1) 1
  | 0x0301 => true
  | 0x0302 => true
  | 0x0303 => true
  | 0x0304 => true
  | 0x0320 => true
  | 0x0321 => true
  | 0x0330 => true
  | 0x0404 => true
  | 0x0405 => true
  | 0x0406 => true
  | 0x0407 => true
  | 0x0408 => !bit (le e 41 1) 0
  | 0x0410 => le e 40 1 == 1
  | 0x0411 => le e 40 1 == 1 || le e 40 1 == 2
  | 0x0412 => true
  | 0x0413 => true
  | 0x0611 => true
  | 0x0612 => true
  | 0x0801 => true
  | _ => false

/-- The command uses BERTH: every operation command and the three of Table 48 that name it. -/
def usesBerth (e : Bytes) : Bool := isOperation e || opcode e == 0x41 || opcode e == 0x42 || opcode e == 0x43

/-- The command names a second key in TARGET (R167, R169). -/
def usesTarget (e : Bytes) : Bool := opcode e == 0x0410 || opcode e == 0x0412

/-- TARGET. -/
def targetOf (e : Bytes) : Nat := le e 44 4

/-! ### Parameter sets (Table 57) -/

/-- Families of Tables 57 and 58. -/
inductive Fam where
  | mlkem | mceliece | hqc | bike | ecdh | xdh | mldsa | slhdsa | hbs | ecdsa | eddsa | rsaV15 | rsaPss | rsaOaep
  | sym | ephemeral | unknown
  deriving DecidableEq, Repr

/-- Family of a PSET or KTYPE. -/
def famOf (t : Nat) : Fam :=
  if 0x0101 ≤ t && t ≤ 0x0103 then .mlkem
  else if 0x0201 ≤ t && t ≤ 0x020A then .mceliece
  else if 0x0301 ≤ t && t ≤ 0x0303 then .hqc
  else if 0x0401 ≤ t && t ≤ 0x0403 then .bike
  else if 0x0501 ≤ t && t ≤ 0x0503 then .ecdh
  else if t = 0x0504 || t = 0x0505 then .xdh
  else if 0x1001 ≤ t && t ≤ 0x1003 then .mldsa
  else if 0x1101 ≤ t && t ≤ 0x110C then .slhdsa
  else if 0x1201 ≤ t && t ≤ 0x1203 then .hbs
  else if 0x1301 ≤ t && t ≤ 0x1303 then .ecdsa
  else if t = 0x1401 || t = 0x1402 then .eddsa
  else if t = 0x1501 then .rsaV15
  else if t = 0x1502 then .rsaPss
  else if t = 0x1503 then .rsaOaep
  else if t = 0x3010 || t = 0x3011 || t = 0x3012 || t = 0x3020 then .sym
  else if 0x7F01 ≤ t && t ≤ 0x7F03 then .ephemeral
  else .unknown

/-- An RSA family. -/
def isRsa (t : Nat) : Bool := famOf t == .rsaV15 || famOf t == .rsaPss || famOf t == .rsaOaep

/-- A signature family other than the stateful ones. -/
def isSigFam (t : Nat) : Bool :=
  [Fam.mldsa, .slhdsa, .ecdsa, .eddsa, .rsaV15, .rsaPss].contains (famOf t)

/-- A KEM of KEM_ENCAPS and KEM_DECAPS (R147). -/
def isKem (t : Nat) : Bool := [Fam.mlkem, .mceliece, .hqc, .bike].contains (famOf t)

/-- A type for which ORDER2 may be set on a private key (R144). -/
def order2Fam (t : Nat) : Bool := [Fam.mlkem, .mldsa, .hqc, .bike].contains (famOf t)

/-- Public key length; RSA's follows from its modulus. -/
def pubLen (t : Nat) : Nat :=
  match t with
  | 0x0101 => 800
  | 0x0102 => 1184
  | 0x0103 => 1568
  | 0x0201 => 261120
  | 0x0202 => 261120
  | 0x0203 => 524160
  | 0x0204 => 524160
  | 0x0205 => 1044992
  | 0x0206 => 1044992
  | 0x0207 => 1047319
  | 0x0208 => 1047319
  | 0x0209 => 1357824
  | 0x020A => 1357824
  | 0x0301 => 2249
  | 0x0302 => 4522
  | 0x0303 => 7245
  | 0x0401 => 1541
  | 0x0402 => 3083
  | 0x0403 => 5122
  | 0x0501 => 65
  | 0x0502 => 97
  | 0x0503 => 133
  | 0x0504 => 32
  | 0x0505 => 56
  | 0x1001 => 1312
  | 0x1002 => 1952
  | 0x1003 => 2592
  | 0x1301 => 65
  | 0x1302 => 97
  | 0x1303 => 133
  | 0x1401 => 32
  | 0x1402 => 57
  | _ => if 0x1101 ≤ t && t ≤ 0x1104 then 32 else if 0x1105 ≤ t && t ≤ 0x1108 then 48 else if 0x1109 ≤ t && t ≤ 0x110C then 64 else 0

/-- Private key length; the sets that are generated only have a length the spec does not state. -/
def privLen (t : Nat) : Nat :=
  match t with
  | 0x0101 => 1632
  | 0x0102 => 2400
  | 0x0103 => 3168
  | 0x0501 => 32
  | 0x0502 => 48
  | 0x0503 => 66
  | 0x0504 => 32
  | 0x0505 => 56
  | 0x1001 => 2560
  | 0x1002 => 4032
  | 0x1003 => 4896
  | 0x1301 => 32
  | 0x1302 => 48
  | 0x1303 => 66
  | 0x1401 => 32
  | 0x1402 => 57
  | _ => if 0x1101 ≤ t && t ≤ 0x110C then 2 * pubLen t else Config.generatedLen t

/-- Ciphertext or signature length. -/
def sigLen (t : Nat) : Nat :=
  match t with
  | 0x0101 => 768
  | 0x0102 => 1088
  | 0x0103 => 1568
  | 0x0201 => 96
  | 0x0202 => 96
  | 0x0203 => 156
  | 0x0204 => 156
  | 0x0205 => 208
  | 0x0206 => 208
  | 0x0207 => 194
  | 0x0208 => 194
  | 0x0209 => 208
  | 0x020A => 208
  | 0x0301 => 4433
  | 0x0302 => 8978
  | 0x0303 => 14421
  | 0x0401 => 1573
  | 0x0402 => 3115
  | 0x0403 => 5154
  | 0x1001 => 2420
  | 0x1002 => 3309
  | 0x1003 => 4627
  | 0x1101 => 7856
  | 0x1102 => 7856
  | 0x1103 => 17088
  | 0x1104 => 17088
  | 0x1105 => 16224
  | 0x1106 => 16224
  | 0x1107 => 35664
  | 0x1108 => 35664
  | 0x1109 => 29792
  | 0x110A => 29792
  | 0x110B => 49856
  | 0x110C => 49856
  | 0x1301 => 64
  | 0x1302 => 96
  | 0x1303 => 132
  | 0x1401 => 64
  | 0x1402 => 114
  | _ => 0

/-- Shared secret length. -/
def secretLen (t : Nat) : Nat :=
  match t with
  | 0x0301 => 64
  | 0x0302 => 64
  | 0x0303 => 64
  | 0x0502 => 48
  | 0x0503 => 66
  | 0x0505 => 56
  | _ => 32

/-- Seed form length (R162). -/
def seedLen (t : Nat) : Nat := if famOf t = .mlkem then 64 else if famOf t = .mldsa then 32 else 0

/-- RSA modulus lengths (R145). -/
def rsaModuli : List Nat := (List.range 97).map fun i => 256 + 8 * i

/-- RSA private key length. -/
def rsaPriv (k : Nat) : Nat := 7 * k / 2 + 8

/-- Modulus length of a stored RSA key. -/
def rsaK (k : Key) : Nat := if k.priv then (k.len - 8) * 2 / 7 else k.len - 8

/-- Uses Table 57 or 58 allows for a private or symmetric key of a type. -/
def typeUses (t : Nat) : Nat :=
  match famOf t with
  | .mlkem => if t = 0x0103 then 0x48 else 0x08
  | .mceliece => 0x08
  | .hqc => 0x08
  | .bike => 0x08
  | .ecdh => 0x10
  | .xdh => 0x10
  | .mldsa => 0x81
  | .slhdsa => 0x81
  | .hbs => 0x01
  | .ecdsa => 0x81
  | .eddsa => 0x81
  | .rsaV15 => 0x01
  | .rsaPss => 0x01
  | .rsaOaep => 0x400
  | .sym => if t = 0x3010 then 0x660 else if t = 0x3020 then 0x110 else 0x600
  | _ => 0

/-- The one use of a stored public key (R145). -/
def publicUse (t : Nat) : Nat := if isSigFam t then 0x02 else 0x04

/-- Length range of a symmetric KTYPE (Table 58). -/
def symLenOk (t len : Nat) : Bool :=
  match t with
  | 0x3010 => len == 16 || len == 24 || len == 32
  | 0x3011 => len == 32 || len == 64
  | 0x3012 => len == 32
  | 0x3020 => decide (16 ≤ len) && decide (len ≤ 256)
  | _ => false

/-- A fixed-length hash by its low byte. -/
def fixedHash (h : Nat) : Bool := (decide (1 ≤ h) && decide (h ≤ 6)) || (decide (0x11 ≤ h) && decide (h ≤ 0x14))

/-- Hashes of the pre-hash variants of ML-DSA and SLH-DSA (Table 60). -/
def preHash (h : Nat) : Bool := fixedHash h || h == 0x21 || h == 0x22

/-- SHA-256/384/512 and SHA3-256/384/512 (Table 60). -/
def curveHash (h : Nat) : Bool := [0x02, 0x03, 0x04, 0x12, 0x13, 0x14].contains h

/-! ### Operand checks: offsets of operands that break their rule -/

/-- An offset that fails unless the condition holds. -/
def need (off : Nat) (ok : Bool) : List Nat := if ok then [] else [off]

/-- NKD (R144): `uses` the uses allowed when they can be judged, `order2` whether ORDER2 may be set, `dk` whether
DKTYPE is valid; the reserved field fails at its own offset (log 29). -/
def nkdBad (e : Bytes) (worldS : Bool) (uses : Option Nat) (order2 dk : Bool) : List Nat :=
  let u := le e 56 2
  let b := le e 58 1
  let l := le e 59 1
  need 56 (u != 0 && decide (u < 2048) && uses.all (fun a => Nat.land u a == u))
    ++ need 58 (bit b (if worldS then 1 else 0) && decide (b < 16) && (!bit b 3 || order2))
    ++ need 59 (l != 0 && decide (l < 32)) ++ need 60 dk ++ need 62 (le e 62 2 == 0)

/-- NKD of a derived secret of a known length (R144). -/
def nkdDerived (e : Bytes) (worldS : Bool) (len : Nat) : List Nat :=
  let t := le e 60 2
  nkdBad e worldS (if symLenOk t len then some (typeUses t) else none) false (symLenOk t len)

/-- NKD of a key whose type the command fixes: DKTYPE must be zero (R144). -/
def nkdTyped (e : Bytes) (worldS : Bool) (uses : Nat) (order2 : Bool) : List Nat :=
  nkdBad e worldS (some uses) order2 (le e 60 2 == 0)

/-- VARIANT, HASH and CTX_LEN of a signature (R152, Table 60). -/
def variantBad (e : Bytes) (verify : Bool) : List Nat :=
  let p := le e 40 2
  let v := le e 42 1
  let h := le e 43 1
  let c := le e 44 1
  match famOf p with
  | .mldsa => need 42 (decide (v ≤ 2)) ++ need 43 (if v = 0 then h == 0 else preHash h)
  | .slhdsa => need 42 (decide (v ≤ 2)) ++ need 43 (if v = 0 then h == 0 else preHash h)
  | .ecdsa => need 42 (v == 1 || v == 2) ++ need 43 (curveHash h) ++ need 44 (c == 0)
  | .rsaV15 => need 42 (v == 1 || v == 2) ++ need 43 (curveHash h) ++ need 44 (c == 0)
  | .rsaPss => need 42 (v == 1 || v == 2) ++ need 43 (curveHash h) ++ need 44 (c == 0)
  | .eddsa => need 42 (decide (v ≤ 1)) ++ need 43 (h == (if v = 0 then 0 else if p = 0x1401 then 0x04 else 0x22))
  | .hbs => if verify then need 42 (v == 0) ++ need 43 (h == 0) ++ need 44 (c == 0) else [40]
  | _ => [40]

/-- SIGN's SFLAGS (R153). -/
def signFlagsBad (e : Bytes) : List Nat :=
  let f := famOf (le e 40 2)
  need 45 (decide (le e 45 1 ≤ 1) && (le e 45 1 == 0 || !(f == .eddsa || f == .rsaV15)))

/-- Rule of R161 for PRF. -/
def prfOk (alg prf : Nat) : Bool := if alg = 0x3305 then prf == 0x41 || prf == 0x42 else fixedHash prf

/-- The issuer of a command as the operand checks see it: its world, whether a function number exists to it, and the
header of the plan it names when that plan is loaded. -/
structure Asker where
  worldS : Bool
  exists? : Nat → Bool
  plan : Option Bytes

/-- Offsets of failing operands of an operation command, in no order (R135, R138 step 2). -/
def operationBad (a : Asker) (e : Bytes) : List Nat :=
  let p := le e 40 2
  let w := a.worldS
  match opcode e with
  | 0x0101 => need 40 (isKem p) ++ need 42 (decide (le e 42 1 ≤ 1)) ++ nkdDerived e w (secretLen p)
  | 0x0102 => need 40 (isKem p) ++ nkdDerived e w (secretLen p)
  | 0x0103 => need 40 (famOf p == .ecdh || famOf p == .xdh)
      ++ nkdBad e w (if le e 60 2 = 0x3020 then some (typeUses 0x3020) else none) false (le e 60 2 == 0x3020)
  | 0x0104 => need 40 (p == 0x1503) ++ need 43 (decide (2 ≤ le e 43 1) && decide (le e 43 1 ≤ 4))
  | 0x0105 => need 40 (p == 0x1503) ++ need 43 (decide (2 ≤ le e 43 1) && decide (le e 43 1 ≤ 4))
      ++ nkdBad e w (if famOf (le e 60 2) = .sym then some (typeUses (le e 60 2)) else none) false (famOf (le e 60 2) == .sym)
  | 0x0110 =>
    need 40 (famOf p == .mlkem) ++ need 42 (decide (1 ≤ le e 42 1) && decide (le e 42 1 ≤ 3))
      ++ need 43 (decide (1 ≤ le e 43 1) && decide (le e 43 1 ≤ 3))
      ++ (if le e 42 1 = 1 then
            need 44 (le e 44 2 == 0) ++ need 46 (le e 46 2 == 0) ++ nkdTyped e w 0x10 true
          else need 44 (decide (le e 44 2 ≤ 256)) ++ need 46 (decide (16 ≤ le e 46 2) && decide (le e 46 2 ≤ 64))
            ++ nkdDerived e w (le e 46 2))
  | 0x0201 => variantBad e false ++ signFlagsBad e
  | 0x0202 => variantBad e true ++ need 45 (Nat.land (le e 45 1) 0xF9 == 0)
      ++ need 48 (le e 42 1 != 2 || le e 48 4 == hashLen (le e 43 1))
  | 0x0301 => need 40 (p == 0x3001 || p == 0x3006)
      ++ need 43 (if p = 0x3001 then decide (12 ≤ le e 43 1) && decide (le e 43 1 ≤ 16) else le e 43 1 == 16)
  | 0x0302 => need 40 (p == 0x3001 || p == 0x3006)
      ++ need 43 (if p = 0x3001 then decide (12 ≤ le e 43 1) && decide (le e 43 1 ≤ 16) else le e 43 1 == 16)
  | 0x0303 => cipherBad e
  | 0x0304 => cipherBad e
  | 0x0310 => need 40 (hashAlg p) ++ need 44 (if fixedHash (p % 256) then le e 44 4 == 0
      else decide (1 ≤ le e 44 4) && decide (le e 44 4 ≤ 65536))
  | 0x0320 => macBad e
  | 0x0321 => macBad e
  | 0x0330 => need 40 (decide (0x3301 ≤ p) && decide (p ≤ 0x3305)) ++ need 42 (prfOk p (le e 42 1))
      ++ need 44 (decide (16 ≤ le e 44 2) && decide (le e 44 2 ≤ 256))
      ++ need 46 (!(p == 0x3302 || p == 0x3304) || le e 46 2 == 0) ++ nkdDerived e w (le e 44 2)
  | 0x0401 =>
    need 40 (famOf p == .sym || [Fam.mlkem, .ecdh, .xdh, .rsaOaep].contains (famOf p) || isSigFam p)
      ++ need 42 (decide (le e 42 1 ≤ 1) && (le e 42 1 == 0 || seedLen p != 0)) ++ nkdTyped e w (typeUses p) (order2Fam p)
  | 0x0402 => need 40 (isSigFam p || isKem p || [Fam.ecdh, .xdh, .rsaOaep].contains (famOf p))
      ++ nkdTyped e w (publicUse p) false
  | 0x0403 =>
    if famOf p = .sym then need 44 (symLenOk p (le e 44 2)) ++ nkdTyped e w (typeUses p) false
    else need 40 (isSigFam p || isKem p || [Fam.ecdh, .xdh, .rsaOaep].contains (famOf p))
      ++ need 44 (if isRsa p then [256, 384, 512, 768, 1024].contains (le e 44 2) else le e 44 2 == 0)
      ++ nkdTyped e w (typeUses p) (order2Fam p)
  | 0x0407 => ((List.range 4).flatMap fun i =>
        need (40 + 2 * i) (le e (40 + 2 * i) 2 == 0xFFFF || a.exists? (le e (40 + 2 * i) 2)))
      ++ need 48 (decide (le e 48 1 ≤ 1))
  | 0x0408 => need 40 (decide (le e 40 1 ≤ 1)) ++ need 41 (decide (le e 41 1 ≤ 1))
  | 0x0410 => need 40 (decide (1 ≤ le e 40 1) && decide (le e 40 1 ≤ 3))
  | 0x0411 => need 40 (decide (1 ≤ le e 40 1) && decide (le e 40 1 ≤ 3))
  | 0x0413 => need 40 (famOf p == .sym || [Fam.mlkem, .ecdh, .xdh, .rsaOaep, .mceliece, .hqc, .bike].contains (famOf p) || isSigFam p)
      ++ nkdTyped e w (typeUses p) (order2Fam p)
  | 0x0501 => need 42 (decide (le e 42 1 ≤ 1)) ++ need 44 (decide (1 ≤ le e 44 4) && decide (le e 44 4 ≤ 65536))
  | 0x0610 => need 40 (famOf p == .hbs) ++ need 42 (decide (le e 42 2 ≤ 1023)) ++ nkdTyped e w 0x01 false
  | 0x0620 =>
    if decide (1 ≤ le e 48 4) && decide (le e 48 4 ≤ 65536) then need 44 (decide (le e 44 4 + le e 48 4 ≤ Config.userNvm))
    else [48]
  | 0x0621 => need 44 (decide (le e 44 4 + inLen e ≤ Config.userNvm))
  | 0x0702 => need 40 (decide (p / 256 = 0x31) && fixedHash (p % 256))
  | 0x0710 => need 40 (decide (le e 40 1 ≤ 1))
  | 0x0801 => need 40 (decide (0x80000000 ≤ le e 40 4))
      ++ (match a.plan with
          | some b => if le b 48 1 = 0 then (firstNonZero e 48 16).toList else []
          | none => [])
  | _ => []
where
  /-- A hash code of Table 58. -/
  hashAlg (p : Nat) : Bool := p / 256 == 0x31 && preHash (p % 256)
  /-- R158. -/
  cipherBad (e : Bytes) : List Nat :=
    let p := le e 40 2
    need 40 (p == 0x3002 || p == 0x3003)
      ++ (if p = 0x3002 then need 44 (le e 44 4 == 0) ++ need 48 (le e 48 16 == 0)
          else need 44 (decide (16 ≤ le e 44 4) && decide (le e 44 4 ≤ 16777216)))
  /-- R160. -/
  macBad (e : Bytes) : List Nat :=
    let p := le e 40 2
    if p = 0x3241 || p = 0x3242 then
      need 44 (decide (4 ≤ le e 44 4) && decide (le e 44 4 ≤ 64)) ++ need 48 (decide (le e 48 2 ≤ 256))
    else need 40 (p / 256 == 0x32 && fixedHash (p % 256))
      ++ need 44 (decide (4 ≤ le e 44 4) && decide (le e 44 4 ≤ hashLen (p % 256))) ++ need 48 (le e 48 2 == 0)

/-- The least of a list of offsets: the first failing operand (R106). -/
def firstBad : List Nat → Option Nat
  | [] => none
  | x :: r => match firstBad r with
    | some y => some (min x y)
    | none => some x

end Sys2Proof.Machine
end

