-- ==== Sys2Proof/Machine/Schemes.lean ====
section
/-!
DEFINITION. What the spec says of keys and signatures by family, over the primitives of Config: encodings (R145), key pairs and their
checks (R162, R164), the randomness of signatures (R153, R177, R192) and the blinding values of R198.
-/

namespace Sys2Proof.Machine

/-! ### Encodings (R145) -/

/-- Modulus length of an RSA private key's encoding. -/
def rsaModLen (sk : Bytes) : Nat := (sk.length - 8) * 2 / 7

/-- Bytes of the vector part of an ML-KEM private key: 384 for each of 2, 3 or 4 polynomials. -/
def kemPolyBytes (t : Nat) : Nat := 384 * (t % 256 + 1)

/-- The encoded public key of a private key: RSA's n ‖ e, ML-KEM's encapsulation key and SLH-DSA's public seed and root stand in the
private key's own encoding. -/
def publicPart (t : Nat) (sk : Bytes) : Bytes :=
  match famOf t with
  | .rsaV15 => sk.take (rsaModLen sk + 8)
  | .rsaPss => sk.take (rsaModLen sk + 8)
  | .rsaOaep => sk.take (rsaModLen sk + 8)
  | .mlkem => slice sk (kemPolyBytes t) (pubLen t)
  | .slhdsa => slice sk (pubLen t) (pubLen t)
  | _ => padTo (pubLen t) (Config.publicOf t sk)

/-! ### Checks of a written private key (R162) -/

/-- Order of the group of a P-curve (FIPS 186-5). -/
def curveOrder (t : Nat) : Nat :=
  match t % 16 with
  | 1 => 0xFFFFFFFF00000000FFFFFFFFFFFFFFFFBCE6FAADA7179E84F3B9CAC2FC632551
  | 2 => 0xFFFFFFFFFFFFFFFFFFFFFFFFFFFFFFFFFFFFFFFFFFFFFFFFC7634D81F4372DDF581A0DB248B0A77AECEC196ACCC52973
  | _ => 0x1FFFFFFFFFFFFFFFFFFFFFFFFFFFFFFFFFFFFFFFFFFFFFFFFFFFFFFFFFFFFFFFFFA51868783BF2F966B7FCC0148F709A5D03BB5C9B8899C47AEBB6FB71E91386409

/-- A scalar of a P-curve in range: 1 to the order less one. Every string of its length is a scalar of the other curves. -/
def scalarOk (t : Nat) (sk : Bytes) : Bool := decide (1 ≤ beVal sk) && decide (beVal sk < curveOrder t)

/-- The hash check of FIPS 203: the stored digest is that of the encapsulation key. -/
def kemHashOk (t : Nat) (sk : Bytes) : Bool :=
  slice sk (kemPolyBytes t + pubLen t) 32 == digest 0x12 32 (publicPart t sk)

/-- An ML-DSA key's tr is the SHAKE256 of its recomputed public key. -/
def dsaTrOk (t : Nat) (sk : Bytes) : Bool := slice sk 64 64 == digest 0x22 64 (publicPart t sk)

/-- An SLH-DSA key's PK.root is the root its seeds give. -/
def slhRootOk (t : Nat) (sk : Bytes) : Bool :=
  let n := pubLen t / 2
  slice sk (3 * n) n == padTo n (Config.slhRoot t (sk.take n) (slice sk (2 * n) n))

/-- An RSA private key: n = p · q, and e · dP, e · dQ and q · qInv are one modulo p − 1, q − 1 and p. -/
def rsaKeyOk (sk : Bytes) : Bool :=
  let k := rsaModLen sk
  let at' := fun i => beVal (slice sk (k + 8 + i * (k / 2)) (k / 2))
  let e := beVal (slice sk k 8)
  let p := at' 0
  let q := at' 1
  decide (1 < p) && decide (1 < q) && beVal (sk.take k) == p * q && e * at' 2 % (p - 1) == 1 % (p - 1)
    && e * at' 3 % (q - 1) == 1 % (q - 1) && q * at' 4 % p == 1

/-- The consistency checks of a written private key. -/
def privateOk (t : Nat) (sk : Bytes) : Bool :=
  match famOf t with
  | .mlkem => kemHashOk t sk
  | .mldsa => dsaTrOk t sk
  | .slhdsa => slhRootOk t sk
  | .ecdh => scalarOk t sk
  | .ecdsa => scalarOk t sk
  | .rsaV15 => rsaKeyOk sk
  | .rsaPss => rsaKeyOk sk
  | .rsaOaep => rsaKeyOk sk
  | _ => true

/-! ### Key pairs (R164) -/

/-- RSA's public exponent (R164). -/
def rsaE : Nat := 65537

/-- x^n modulo m by squaring, over at most `fuel` bits of n. -/
def powMod (m : Nat) : (fuel n x : Nat) → Nat
  | 0, _, _ => 1 % m
  | f + 1, n, x => let r := powMod m f (n / 2) (x * x % m); if n % 2 = 1 then r * x % m else r

/-- The inverse of the prime 65,537 modulo m: (1 + m · t) / e, with t the inverse of −m modulo e. -/
def inverseE (m : Nat) : Nat := (1 + m * ((rsaE - powMod rsaE 17 (rsaE - 2) (m % rsaE)) % rsaE)) / rsaE

/-- An RSA private key of a modulus length from its primes: n ‖ e ‖ p ‖ q ‖ dP ‖ dQ ‖ qInv (R145). -/
def rsaPrivate (k p q : Nat) : Bytes :=
  beBytes k (p * q) ++ beBytes 8 rsaE
    ++ [p, q, inverseE (p - 1), inverseE (q - 1), powMod p (4 * k) (p - 2) (q % p)].flatMap (beBytes (k / 2))

/-- A private key of a type, of RSA with `k` modulus bytes, from the randomness of its generation. -/
def genPrivate (t k : Nat) (seed : Bytes) : Bytes :=
  if isRsa t then let pq := Config.rsaPrimes k seed; rsaPrivate k pq.1 pq.2 else padTo (privLen t) (Config.expandSeed t seed)

/-- Randomness of a key generation: the seed of FIPS 203 and 204, the three seeds of FIPS 205, and 64 bytes where the spec
does not give the seed's form (log 90). -/
def genDraw (t : Nat) : Nat := if seedLen t ≠ 0 then seedLen t else if famOf t = .slhdsa then 3 * pubLen t / 2 else 64

/-! ### Signatures (R153, R177) -/

/-- Bytes of a prime field element or scalar of a curve's type. -/
def fieldLen (t : Nat) : Nat := match famOf t with
  | .ecdh => privLen t
  | .xdh => privLen t
  | .ecdsa => privLen t
  | .eddsa => privLen t
  | _ => 0

/-- Randomness a signature draws: rnd of ML-DSA, opt_rand of SLH-DSA, k of ECDSA (log 90), a salt of hash length of PSS. -/
def signDraw (t h : Nat) (det : Bool) : Nat :=
  if det then 0
  else match famOf t with
    | .mldsa => 32
    | .slhdsa => pubLen t / 2
    | .ecdsa => fieldLen t + 8
    | .rsaPss => hashLen h
    | _ => 0

/-- What enters a signature as its randomness (R153): drawn, or 32 zero bytes, PK.seed, the deterministic k or the empty salt. -/
def signRnd (t : Nat) (det : Bool) (sk rnd : Bytes) : Option Bytes :=
  match famOf t with
  | .mldsa => some (if det then zeros 32 else rnd)
  | .slhdsa => some (if det then slice sk (pubLen t) (pubLen t / 2) else rnd)
  | .ecdsa => if det then none else some rnd
  | .rsaPss => some (if det then [] else rnd)
  | _ => none

/-- The columns ℓ of ML-DSA-44, 65 and 87 (R192). -/
def dsaL (t : Nat) : Nat := match t with
  | 0x1001 => 4
  | 0x1002 => 5
  | _ => 7

/-- The mask counter of candidate c of batch j, for the number 4 · j + c (R192). -/
def maskCounter (t pick : Nat) : Nat := if famOf t = .mldsa then pick * dsaL t else 0

/-- A signature of a private key; `pick` numbers the ML-DSA candidate the decisions chose (R192). -/
def signWith (mode : Nat × Nat × Nat) (det : Bool) (sk ctx msg rnd : Bytes) (pick : Nat) : Bytes :=
  Config.sign mode sk ctx msg (signRnd mode.1 det sk rnd) (maskCounter mode.1 pick)

/-! ### Blinding (R198) -/

/-- Bytes of blinding a private-key operation at order 0 draws: a 64-bit multiple of the order and a projective coordinate for a
curve; two 64-bit multiples and a base for RSA of modulus length `k`. -/
def blindDraw (t k : Nat) : Nat :=
  if isRsa t then 16 + k else if fieldLen t ≠ 0 then 8 + fieldLen t else 0

end Sys2Proof.Machine
end

