-- ==== Sys2Proof/Machine/Checks.lean ====
section
/-!
DEFINITION. The checks of an accepted entry: R65 with the permissions of Table 47 and R134, and the nine steps of R138
with the berth resolution of R291 and R423, the policy of R288, the key checks of R272, the lengths of R140 to R177,
the plan of R203, the room of R266 and the randomness of R360.
-/

namespace Sys2Proof.Machine

/-- A status with its DETAIL; none where a check passes. -/
abbrev Err := Option (Status × Nat)

/-- The first status of a list of checks. -/
def firstErr : List Err → Err
  | [] => none
  | some e :: _ => some e
  | none :: r => firstErr r

/-- A status with its DETAIL unless the condition holds. -/
def require (ok : Bool) (st : Status) (d : Nat) : Err := if ok then none else some (st, d)

/-! ### The issuer -/

/-- Position of the issuer of a command: this device's for its own commands, the origin's for forwarded ones (R418). -/
def posOf (s : State) (c : Cmd) : Nat := if c.origin.isNone then s.topo.position else c.originPos

/-- The issuer is this device's keeper function. -/
def byKeeper (s : State) (c : Cmd) : Bool := c.origin.isNone && c.fn == keeperFn s

/-- The header of the plan a PLAN_RUN names. -/
def planNamed (s : State) (e : Bytes) : Option Bytes := if opcode e = 0x0801 then Map.get? s.eng.plans (le e 40 4) else none

/-- What operand checks need of the issuer. A function of another device exists when its number has the form of R103. -/
def askerOf (s : State) (c : Cmd) : Asker :=
  { worldS := c.worldS, exists? := fun f => if c.origin.isNone then fnExists s f else decide (f < 1024),
    plan := planNamed s c.entry }

/-! ### R65 -/

/-- The function may issue the keeper opcode (Table 47). -/
def keeperPermits (s : State) (fn op : Nat) : Bool :=
  if [0x01, 0x02, 0x03, 0x04, 0x05, 0x06, 0x23, 0x40, 0x41, 0x43].contains op then true
  else if [0x10, 0x11, 0x12, 0x13, 0x21, 0x22, 0x42, 0x70].contains op then isPf fn
  else fn == keeperFn s

/-- Step 1 of R65: the opcode is assigned and permitted (R105, R134); which SQ of its function an entry comes from does not matter
(log 86). -/
def permitted (s : State) (c : Cmd) : Bool :=
  let op := opcode c.entry
  if isKeeperOp c.entry then keeperPermits s c.fn op
  else if op = 0x0401 || op = 0x0621 then (c.fn == keeperFn s || bit c.grants.toNat 0) && c.worldS
  else if op = 0x0801 then c.worldS
  else isOperation c.entry

/-- Step 2 of R65: reserved bits of FLAGS, BERTH and KEY_REF. -/
def reservedBits (e : Bytes) : Err :=
  firstErr [require (decide (le e 2 1 < 16)) .badParam 2,
    require (!usesBerth e || le e 11 1 % 32 == 0) .badParam 11,
    require (!usesKeyRef e || decide (le e 14 1 ≤ 1)) .badParam 14,
    require (!usesKeyRef e || le e 15 1 == 0) .badParam 15]

/-- Step 3 of R65: the mode, the QUENCHED mark, Maintenance only, and LOAD_PLAN's states (R38, R41, R111, R131, R132). -/
def modeErr (s : State) (c : Cmd) : Err :=
  let op := opcode c.entry
  if isOperation c.entry then
    require (s.sys.mode != .held && (s.sys.mode != .maintenance || byKeeper s c)) .held 0
  else if s.sys.mode = .held && keeperEngineOp op then some (.held, 0)
  else if op = 0x06 && (getFn s c.fn).quenched then some (.held, 0)
  else if (op = 0x60 || op = 0x61 || op = 0x62) && s.sys.mode != .maintenance then some (.deniedLc, 0)
  else if op = 0x50 && !(s.lc.state == .owned || (s.lc.state == .field && s.sys.mode == .maintenance)) then some (.deniedLc, 0)
  else none

/-- Steps 1 to 3 of R65; step 3 answers for the mode and marks at the acceptance. -/
def r65 (s : State) (c : Cmd) : Err := firstErr [require (permitted s c) .badOpcode 0, reservedBits c.entry, c.refused]

/-! ### Naming berths and keys -/

/-- A command that has not passed step 5 of R138 yet. -/
def unresolved (c : Cmd) : Bool :=
  match c.phase with
  | .chainWait => true
  | .berthWait => true
  | .run => isKeeperOp c.entry && c.berth.isNone
  | _ => false

/-- A command named a berth of this device: resolved to it, or naming its index before it resolved. -/
def namesBerth (s : State) (c : Cmd) (i : Nat) : Bool :=
  c.berth == some i ||
    (unresolved c && usesBerth c.entry && handleIdx (handleOf c.entry) == i &&
      handlePos (handleOf c.entry) == s.topo.position)

/-- The granule a KEY_REF stands for: slot 0 of the berth, or the granule itself (R137). -/
def refGranule (s : State) (idx ref : Nat) : Option Nat :=
  if ref = 0x1FFFF then (Map.get? s.keys.berths idx).bind (·.slot0) else some ref

/-- A command named a key: resolved to it, or naming it in KEY_REF or TARGET before it resolved. -/
def blocksKey (s : State) (c : Cmd) (g : Nat) : Bool :=
  namesKey c g ||
    (unresolved c && isOperation c.entry &&
      ((usesKeyRef c.entry && refGranule s (handleIdx (handleOf c.entry)) (keyRef c.entry) == some g)
        || (usesTarget c.entry && targetOf c.entry == g)))

/-- A key marked for destruction is still known to a command accepted before what marked it (R166, R274, R283). -/
def keyVisible (c : Cmd) (k : Key) : Bool := !k.destroyPending || decide (c.id < k.markId)

/-- A KEY_DESTROY of a key that waits for its zeroising. -/
def destroys (c : Cmd) (g : Nat) : Bool := opcode c.entry == 0x0405 && c.keyA == some g

/-- A key's zeroising is awaited by a command: one that resolved it, or one accepted before what marked it that names it
(R166, R274, R283). -/
def keyAwaited (s : State) (g : Nat) : Bool :=
  s.cmds.any fun c => !(destroys c g && c.phase == .effected) &&
    (namesKey c g || (blocksKey s c g && (Map.get? s.keys.keys g).any (keyVisible c)))

/-- Zeroise what a reset marked, save keys that accepted commands still await (R283, R317). -/
def cleanHoldings (s : State) (fn pos : Nat) : State :=
  let gone := (s.keys.keys.filter fun e =>
    ownedBy e.2.owner e.2.ownerPos fn pos && e.2.destroyPending && !keyAwaited s e.1).map (·.1)
  let s1 := gone.foldl destroyKey s
  { s1 with keys := { s1.keys with berths := Map.keep s1.keys.berths fun _ b => !(ownedBy b.owner b.ownerPos fn pos && b.freeing) } }

/-- The issuer owns the berth or is its owner's PF (Table 47, R419). -/
def ownerOrPf (s : State) (c : Cmd) (o p : Nat) : Bool := p == posOf s c && (o == c.fn || pfOf o == c.fn)

/-- An accepted BERTH_FREE that waits for its turn and will free the berth: it names it, and passes its checks (R130). One that still waits
for its chain predecessor (R98) may yet end ST_ABORTED, and hides nothing until it has started (DESIGN CHOICE, log 106). -/
def willFree (s : State) (d : Cmd) (i : Nat) (b : Berth) : Bool :=
  opcode d.entry == 0x41 && d.phase == .run && (firstBad (reservedBad d.entry)).isNone && ownerOrPf s d b.owner b.ownerPos &&
    handlePos (handleOf d.entry) == s.topo.position && handleIdx (handleOf d.entry) == i &&
    handleEpoch (handleOf d.entry) == b.roleEpoch.toNat && b.incoming.isNone && b.moving.isNone

/-- A berth is unknown to a command accepted after a BERTH_FREE of it, and known to one accepted before (R130). -/
def berthVisible (s : State) (c : Cmd) (i : Nat) (b : Berth) : Bool :=
  !(s.cmds.any fun d => decide (d.id < c.id) && willFree s d i b) && (!b.freeing || s.cmds.any fun d => opcode d.entry == 0x41 && d.berth == some i && decide (c.id < d.id))

/-- An accepted BERTH_MOVE earlier than a command names a berth of this device and has not finished: the command waits (R421 step 1). -/
def moveAhead (s : State) (c : Cmd) (i : Nat) : Bool :=
  s.cmds.any fun d => decide (d.id < c.id) && opcode d.entry == 0x42 && handlePos (handleOf d.entry) == s.topo.position &&
    handleIdx (handleOf d.entry) == i && (match d.phase with
      | .fin _ => false
      | .forwarded _ => false
      | _ => true)

/-- What step 3 of R138 answers. -/
inductive Found where
  | err (st : Status) (d : Nat)
  | wait
  | berth (i : Nat) (b : Berth)
  deriving DecidableEq, Repr

/-- A forwarding entry at an index. -/
def forwardAt (s : State) (i : Nat) : Option Forward := s.topo.forwards.find? fun f => f.index == i

/-- Resolution of a handle on this device (R136, R291, R421, R423). `may` says who may name the berth. -/
def findBerth (s : State) (c : Cmd) (may : (owner ownerPos : Nat) → Bool) : Found :=
  let h := handleOf c.entry
  let i := handleIdx h
  if handlePos h ≠ s.topo.position then .err .berthUnknown 0
  else match forwardAt s i with
    | some f => if may f.owner f.ownerPos then .err .berthMoved f.handle.toNat else .err .berthUnknown 0
    | none =>
      match Map.get? s.keys.berths i with
      | none => .err .berthUnknown 0
      | some b =>
        if !may b.owner b.ownerPos || !berthVisible s c i b then .err .berthUnknown 0
        else if b.incoming.isSome then .wait
        else if b.moving.any (fun m => decide (m < c.id)) || moveAhead s c i then .wait
        else if handleEpoch h ≠ b.roleEpoch.toNat then .err .berthMoved (berthHandle s i b)
        else .berth i b

/-- Step 3 for an operation command: the owner is the issuer (R136). -/
def operationBerth (s : State) (c : Cmd) : Found :=
  findBerth s c fun o p => o == c.fn && p == posOf s c

/-! ### Step 4: policy (R288) -/

/-- The command's KEY_REF names a key at step 5; PLAN_RUN's only when its plan takes one (R210). -/
def refNamed (s : State) (e : Bytes) : Bool :=
  usesKeyRef e && (opcode e != 0x0801 || (planNamed s e).any fun b => le b 44 2 != 0xFFFF)

/-- R288, and SEAL with sealing off. -/
def policyErr (s : State) (c : Cmd) (b : Berth) : Err :=
  let e := c.entry
  let op := opcode e
  let bound := fun g => b.slot0 == some g || b.slot1 == some g
  require (bit b.opAllow.toNat (operationOps.idxOf op)
      && !(bit b.pflags.toNat 0 &&
        ((refNamed s e && op != 0x0408 && keyRef e != 0x1FFFF && !bound (keyRef e)) || (usesTarget e && !bound (targetOf e))))
      && !(op == 0x0408 && (if le e 40 1 = 0 then b.lock0 else b.lock1))
      && !(op == 0x0710 && !bit b.bflags.toNat 1)) .keyDenied 0x17

/-! ### Step 5: keys (R272) -/

/-- What a command demands of one key (Table 86); `idle` is whether a stored public key that nothing takes will do (R145). -/
structure Demand where
  idle    : Bool
  use     : Option Nat
  typeOk  : Key → Bool
  exports : Bool
  owner   : Bool

/-- The owner of a key is the issuer (R419). -/
def ownsKey (s : State) (c : Cmd) (k : Key) : Bool := k.owner == c.fn && k.ownerPos == posOf s c

/-- The issuer shares a key: named in SHARE, or on the owner's port under WHOLE_PORT (R272). -/
def sharesKey (s : State) (c : Cmd) (k : Key) : Bool :=
  k.ownerPos == posOf s c && (k.share.contains c.fn || (k.wholePort && portOf c.fn == portOf k.owner))

/-- Export of a key is permitted: its own bit; never a tree key or an ephemeral one (R167, R251); always a stored
public key, whose EXPORT has no effect (R163). -/
def exportable (g : Nat) (k : Key) : Bool :=
  if famOf k.typ = .ephemeral || decide (Config.treeBase ≤ g) then false
  else if !k.priv then true else bit k.attr.toNat 2

/-- A stored public key that serves KEY_PUBLIC and KEY_QUERY only (R145). -/
def idlePublic (k : Key) : Bool := !k.priv && [Fam.ecdh, .xdh, .rsaOaep].contains (famOf k.typ)

/-- The checks of R272 on one key. -/
def keyErr (s : State) (c : Cmd) (g : Option Nat) (d : Demand) : Err :=
  match g with
  | none => some (.keyEmpty, 0)
  | some g =>
    match Map.get? s.keys.keys g with
    | none => some (.keyEmpty, 0)
    | some k =>
      firstErr [require (keyVisible c k) .keyEmpty 0,
        require (ownsKey s c k || (sharesKey s c k && !d.owner)) .keyDenied 0x11,
        require (bit k.attr.toNat (if c.worldS then 1 else 0)) .keyDenied 0x12,
        require (bit k.lcMask.toNat s.lc.state.index) .keyDenied 0x13,
        require (d.use.all fun u => bit k.uses.toNat u) .keyDenied 0x14,
        require (d.typeOk k && (d.idle || !idlePublic k)) .keyDenied 0x15,
        require (!d.exports || exportable g k) .keyDenied 0x16]

/-- Use Table 86 demands of KEY_REF. -/
def refUse (op : Nat) : Option Nat :=
  match op with
  | 0x0101 => some 2
  | 0x0102 => some 3
  | 0x0103 => some 4
  | 0x0105 => some 10
  | 0x0110 => some 4
  | 0x0201 => some 0
  | 0x0202 => some 1
  | 0x0301 => some 9
  | 0x0302 => some 10
  | 0x0303 => some 9
  | 0x0304 => some 10
  | 0x0320 => some 8
  | 0x0321 => some 8
  | 0x0330 => some 4
  | 0x0410 => some 5
  | 0x0411 => some 6
  | 0x0412 => some 5
  | 0x0413 => some 6
  | 0x0611 => some 0
  | _ => none

/-- Masking order of a key (R194). -/
def keyOrder (k : Key) : Nat := if k.priv && order2Fam k.typ then (if bit k.attr.toNat 3 then 2 else 1)
  else if famOf k.typ = .ephemeral then (if bit k.attr.toNat 3 then 2 else 1) else 0

/-- The modulus length RSA_OAEP_ENCAP's input implies. -/
def oaepK (e : Bytes) : Nat := inLen e - 8

/-- TYPE suits the operands (R147 to R177, R272). -/
def refType (e : Bytes) (k : Key) : Bool :=
  let p := le e 40 2
  match opcode e with
  | 0x0101 => k.typ == p
  | 0x0102 => k.typ == p
  | 0x0103 => k.typ == p
  | 0x0104 => !rsaModuli.contains (oaepK e) || decide (k.len + 2 * hashLen (le e 43 1) + 2 ≤ oaepK e)
  | 0x0105 => k.typ == 0x1503
  | 0x0110 => k.typ == 0x7E00 + p
  | 0x0201 => k.typ == p
  | 0x0202 => k.typ == p
  | 0x0301 => k.typ == (if p = 0x3001 then 0x3010 else 0x3012)
  | 0x0302 => k.typ == (if p = 0x3001 then 0x3010 else 0x3012)
  | 0x0303 => k.typ == (if p = 0x3002 then 0x3010 else 0x3011)
  | 0x0304 => k.typ == (if p = 0x3002 then 0x3010 else 0x3011)
  | 0x0320 => k.typ == 0x3020
  | 0x0321 => k.typ == 0x3020
  | 0x0330 => famOf k.typ != .ephemeral
  | 0x0404 => famOf k.typ != .sym && famOf k.typ != .ephemeral
  | 0x0410 => k.typ == 0x3010 && k.len == 32
  | 0x0411 => if le e 40 1 = 1 then k.typ == 0x3010 && k.len == 32 else k.typ == 0x0103 && k.priv
  | 0x0412 => k.typ == 0x3010
  | 0x0413 => k.typ == 0x3010
  | 0x0611 => famOf k.typ == .hbs
  | 0x0612 => famOf k.typ == .hbs
  | _ => true

/-- Only KEY_PUBLIC and KEY_QUERY serve a stored public key that no command takes (R145). -/
def servesIdle (op : Nat) : Bool := op == 0x0404 || op == 0x0406

/-- What a command demands of its KEY_REF key. -/
def refDemand (s : State) (e : Bytes) : Demand :=
  let op := opcode e
  match op, planNamed s e with
  | 0x0801, some b =>
    { idle := false, use := some (le b 44 2), owner := false, exports := true,
      typeOk := fun k => (le b 46 2 == 0 || le b 46 2 == k.typ) && bit (le b 49 1) (keyOrder k) }
  | _, _ => { idle := servesIdle op, use := refUse op, typeOk := refType e, exports := op == 0x0104, owner := op == 0x0405 || op == 0x0407 }

/-- What a command demands of its TARGET key (R167, R169). -/
def targetDemand (e : Bytes) : Demand :=
  { idle := false, use := none, exports := true, owner := false,
    typeOk := fun k => opcode e != 0x0412 || (k.len % 8 == 0 && decide (16 ≤ k.len)) }

/-- What SEAL and TIMESTAMP demand of a slot key (R177). -/
def sealDemand : Demand :=
  { idle := false, use := some 7, exports := false, owner := false,
    typeOk := fun k => [Fam.mldsa, .slhdsa, .ecdsa, .eddsa].contains (famOf k.typ) }

/-- SEAL and TIMESTAMP sign with the slots' keys. -/
def isSealing (op : Nat) : Bool := op == 0x0702 || op == 0x0710

/-- The two keys a command resolves at step 5 (R290). -/
def keysOf (s : State) (c : Cmd) (b : Berth) : Option Nat × Option Nat :=
  let e := c.entry
  if isSealing (opcode e) then (b.slot0, b.slot1)
  else (if refNamed s e then (if keyRef e = 0x1FFFF then b.slot0 else some (keyRef e)) else none,
        if usesTarget e then some (targetOf e) else none)

/-- The function may use the counter (Table 78); the keeper function of the device that runs the command, not of its origin (log 93). -/
def counterAllowed (s : State) (c : Cmd) (n : Nat) : Bool :=
  if n < 16 then byKeeper s c else if n < 128 then c.worldS else true

/-- Step 5. -/
def keysErr (s : State) (c : Cmd) (b : Berth) : Err :=
  let e := c.entry
  let op := opcode e
  let ks := keysOf s c b
  if isSealing op then
    firstErr [keyErr s c ks.1 sealDemand, if ks.2.isSome then keyErr s c ks.2 sealDemand else none]
  else firstErr [
    require (!((op == 0x0410 || op == 0x0411) && le e 40 1 == 3 && (swk s).isNone)) .keyEmpty 0,
    require (!(op == 0x0610 && (swk s).isNone)) .keyEmpty 0,
    if refNamed s e then keyErr s c ks.1 (refDemand s e) else none,
    if usesTarget e then keyErr s c ks.2 (targetDemand e) else none,
    require (!(op == 0x0601 || op == 0x0602) || counterAllowed s c (le e 40 1)) .keyDenied 0x11]

/-! ### Step 6: lengths -/

/-- A DETAIL of 32 bits; a length that no IN_LEN reaches has none, and the spec states no other: a free value (log 94). -/
def lenDetail (n x : Nat) : Nat := if x ≤ 0xFFFFFFFF then x else Config.freeResult 0x0012 n x 0 % 2 ^ 32

/-- DETAIL of ST_BAD_LENGTH when a length is not among the accepted ones that an IN_LEN can reach: the least accepted at or above it,
or the greatest (R155, Table 34). -/
def lenAmong (n : Nat) (l : List Nat) : Option Nat :=
  let r := l.filter fun x => decide (x ≤ 0xFFFFFFFF)
  if r.contains n then none
  else match (r.filter fun x => decide (n ≤ x)).min?, r.max? with
    | some x, _ => some x
    | none, some x => some x
    | none, none => some (lenDetail n (l.headD 0x100000000))

/-- DETAIL when a length lies below the least. -/
def lenLeast (n least : Nat) : Option Nat := if n < least then some least else none

/-- A key's length, 0 for none. -/
def keyLen (s : State) (g : Option Nat) : Nat := ((g.bind (Map.get? s.keys.keys)).map (·.len)).getD 0

/-- A named key. -/
def keyAt (s : State) (g : Option Nat) : Option Key := g.bind (Map.get? s.keys.keys)

/-- Signature length by the key that makes or checks it. -/
def sigOf (p : Nat) (k : Option Key) : Nat := if isRsa p then (k.map rsaK).getD 0 else sigLen p

/-- Length of a KEM ciphertext or 0 ahead of a wrapped blob (Table 61). -/
def wrapE (e : Bytes) : Nat := if le e 40 1 = 2 then 1568 else 0

/-- DETAIL when a multiple of a unit is required (R158). -/
def lenMultiple (n unit : Nat) : Option Nat :=
  if n != 0 && n % unit == 0 then none
  else if (n + unit - 1) / unit * unit ≤ 0xFFFFFFFF then some (max unit ((n + unit - 1) / unit * unit))
  else some (n / unit * unit)

/-- DETAIL when IN_LEN breaks an owner plan's rule (R210). -/
def lenPlan (n : Nat) (b : Bytes) : Option Nat :=
  let lo := le b 24 4
  let hi := le b 28 4
  let m := max 1 (le b 32 4)
  if decide (lo ≤ n) && decide (n ≤ hi) && n % m == 0 then none
  else if (max n lo + m - 1) / m * m ≤ hi then some ((max n lo + m - 1) / m * m) else some hi

/-- Lengths of a key type KEY_WRITE, KEY_WRITE_PUBLIC and KW_UNWRAP accept (R162, R163, R169). -/
def writtenLens (t : Nat) : List Nat :=
  match t with
  | 0x3010 => [16, 24, 32]
  | 0x3011 => [32, 64]
  | 0x3012 => [32]
  | 0x3020 => (List.range 241).map (16 + ·)
  | _ => if isRsa t then rsaModuli.map rsaPriv else [privLen t]

/-- DETAIL of ST_BAD_LENGTH for IN_LEN at step 6, none where it is accepted. KW_UNWRAP into a KTYPE whose length is no multiple of 8 takes
IN_LEN = L + 8 as any other, and its answer is `Config.kwUnwrap`'s (R169; DESIGN CHOICE, log 108). -/
def inLenBad (s : State) (c : Cmd) (ka : Option Nat) : Option Nat :=
  let e := c.entry
  let n := inLen e
  let p := le e 40 2
  match opcode e with
  | 0x0101 => lenAmong n [if le e 42 1 = 1 then 0 else pubLen p]
  | 0x0102 => lenAmong n [sigLen p]
  | 0x0103 => lenAmong n [pubLen p]
  | 0x0104 => lenAmong n (rsaModuli.map (· + 8))
  | 0x0105 => lenAmong n [((keyAt s ka).map rsaK).getD 0]
  | 0x0110 =>
    if le e 42 1 = 1 then lenAmong n [0]
    else if le e 42 1 = 2 then lenAmong n [pubLen p + 32 + le e 44 2] else lenAmong n [sigLen p + 32 + le e 44 2]
  | 0x0201 => if le e 42 1 = 2 then lenAmong n [le e 44 1 + hashLen (le e 43 1)] else lenLeast n (le e 44 1)
  | 0x0202 =>
    let rest := le e 44 1 + le e 48 4
    if !bit (le e 45 1) 1 then lenAmong n [sigOf p (keyAt s ka) + rest]
    else if isRsa p then lenAmong n (rsaModuli.map fun k => 2 * k + 8 + rest)
    else if famOf p = .hbs then lenLeast n (if p = 0x1201 then 12 else 4)
    else lenAmong n [pubLen p + sigLen p + rest]
  | 0x0301 => lenLeast n (le e 44 4)
  | 0x0302 => lenLeast n (12 + le e 44 4 + le e 43 1)
  | 0x0303 => if p = 0x3002 then none else lenMultiple n (le e 44 4)
  | 0x0304 => if p = 0x3002 then lenLeast n 16 else lenMultiple n (le e 44 4)
  | 0x0320 => lenLeast n (le e 48 2)
  | 0x0321 => lenLeast n (le e 48 2 + le e 44 4)
  | 0x0330 => lenLeast n (le e 46 2)
  | 0x0401 => lenAmong n (if le e 42 1 = 1 then [seedLen p] else writtenLens p)
  | 0x0402 => lenAmong n (if isRsa p then rsaModuli.map (· + 8) else [pubLen p])
  | 0x0410 => if le e 40 1 = 2 then lenAmong n [1568] else none
  | 0x0411 => lenLeast n (80 + wrapE e)
  | 0x0413 => lenAmong n ((writtenLens p).map (· + 8))
  | 0x0610 => if p = 0x1201 then (lenAmong n ((List.range 8).map fun l => 12 + 8 * l)) else if n < 4 then some 4 else if n = 4 then none else some 68
  | 0x0621 => if n = 0 then some 1 else if 4096 < n then some 4096 else none
  | 0x0702 => lenAmong n [hashLen (p % 256)]
  | 0x0710 => if bit (le e 40 1) 0 then lenAmong n [48] else none
  | 0x0801 => match planNamed s e with
    | some b => lenPlan n b
    | none => none
  | _ => none

/-- The tree of a granule. -/
def treeOf (g : Nat) : Nat := g - Config.treeBase

/-- Parameters of a tree key: public key length, signature length, total height (hbsParams). -/
def treeParams (s : State) (g : Option Nat) : Nat × Nat × Nat :=
  match g.bind fun x => Map.get? s.nvm.trees (treeOf x) with
  | some t => (hbsParams t.pset t.params).getD (0, 0, 0)
  | none => (0, 0, 0)

/-- Length of the public key KEY_PUBLIC writes. -/
def publicOutLen (s : State) (g : Option Nat) : Nat :=
  match keyAt s g with
  | none => 0
  | some k =>
    if famOf k.typ = .hbs then (treeParams s g).1
    else if !k.priv then k.len else if isRsa k.typ then rsaK k + 8 else pubLen k.typ

/-- Output length of a command (R140). -/
def outLenOf (s : State) (c : Cmd) (ka kb : Option Nat) : Nat :=
  let e := c.entry
  let n := inLen e
  let p := le e 40 2
  match opcode e with
  | 0x0101 => sigLen p
  | 0x0104 => oaepK e
  | 0x0110 => if le e 42 1 = 1 then pubLen p + 32 else if le e 42 1 = 2 then sigLen p + 32 else 0
  | 0x0201 => sigOf p (keyAt s ka)
  | 0x0301 => 12 + (n - le e 44 4) + le e 43 1
  | 0x0302 => n - 12 - le e 44 4 - le e 43 1
  | 0x0303 => if p = 0x3002 then n + 16 else n
  | 0x0304 => if p = 0x3002 then n - 16 else n
  | 0x0310 => if fixedHash (p % 256) then hashLen (p % 256) else le e 44 4
  | 0x0320 => le e 44 4
  | 0x0403 => if famOf p = .sym then 0 else if isRsa p then le e 44 2 + 8 else pubLen p
  | 0x0404 => publicOutLen s ka
  | 0x0406 => 32
  | 0x0410 => 80 + wrapE e + keyLen s kb
  | 0x0412 => keyLen s kb + 8
  | 0x0501 => le e 44 4
  | 0x0601 => 8
  | 0x0602 => 8
  | 0x0611 => (treeParams s ka).2.1
  | 0x0612 => 24
  | 0x0620 => le e 48 4
  | 0x0701 => 32
  | 0x0702 => 256 + sealSigs s ka kb
  | 0x0710 => 256 + sealSigs s ka kb
  | 0x0801 => match planNamed s e with
    | some b => le b 36 4 + le b 40 4 * (n / max 1 (le b 32 4))
    | none => 0
  | _ => 0
where
  /-- Signatures of a seal: slot 0's and slot 1's (R177). -/
  sealSigs (s : State) (ka kb : Option Nat) : Nat :=
    ((keyAt s ka).map fun k => sigLen k.typ).getD 0 + ((keyAt s kb).map fun k => sigLen k.typ).getD 0

/-- Step 6. -/
def lengthErr (s : State) (c : Cmd) (ka kb : Option Nat) : Err :=
  match inLenBad s c ka with
  | some d => some (.badLength, d)
  | none => require (decide (outLenOf s c ka kb ≤ outCap c.entry)) .badLength (outLenOf s c ka kb)

/-! ### Step 7: the plan (R203) -/

/-- Commands with a PSET, ALG or KTYPE operand. -/
def hasSet (op : Nat) : Bool :=
  [0x0101, 0x0102, 0x0103, 0x0104, 0x0105, 0x0110, 0x0201, 0x0202, 0x0301, 0x0302, 0x0303, 0x0304, 0x0310, 0x0320, 0x0321,
   0x0330, 0x0401, 0x0402, 0x0403, 0x0413, 0x0610].contains op

/-- Plan identifier of a command (R203). -/
def planOf (s : State) (e : Bytes) (ka kb : Option Nat) : Nat :=
  let op := opcode e
  if op = 0x0801 then le e 40 4
  else if hasSet op then op * 65536 + le e 40 2
  else match keyAt s ka, keyAt s kb with
    | some k, _ => op * 65536 + k.typ
    | none, some k => op * 65536 + k.typ
    | none, none => op * 65536

/-- A plan is resident (R204, R205). -/
def planResident (s : State) (id : Nat) : Bool :=
  if id < 0x80000000 then !s.eng.missing.contains id else (Map.get? s.eng.plans id).isSome

/-! ### Step 8: room for a new key (R266) -/

/-- Length of the key a command creates, none when it creates none; RSA_OAEP_DECAP's is known after decoding. -/
def newKeyLen (e : Bytes) : Option Nat :=
  let p := le e 40 2
  match opcode e with
  | 0x0101 => some (secretLen p)
  | 0x0102 => some (secretLen p)
  | 0x0103 => some (secretLen p)
  | 0x0105 => some 16
  | 0x0110 => some (if le e 42 1 = 1 then privLen p + 32 else le e 46 2)
  | 0x0330 => some (le e 44 2)
  | 0x0401 => some (if le e 42 1 = 1 then privLen p else inLen e)
  | 0x0402 => some (inLen e)
  | 0x0403 => some (if famOf p = .sym then le e 44 2 else if isRsa p then rsaPriv (le e 44 2) else privLen p)
  | 0x0411 => some (inLen e - 80 - wrapE e)
  | 0x0413 => some (inLen e - 8)
  | _ => none

/-- Size of a spill record of a tail (R281). -/
def spillSize (l : Nat) : Nat := (l - 32 + 16 + 255) / 256 * 256

/-- Bytes of wrapped key spill (Table 12). -/
def keySpillBytes (s : State) : Nat := if s.otp.variant32 then 2 * Config.keySpill16 else Config.keySpill16

/-- Bytes of wrapped key spill in use. -/
def keySpillUsed (s : State) : Nat :=
  ((s.keys.keys.filter fun e => e.2.spilled).map fun e => spillSize e.2.len).sum

/-- General granules free. -/
def freeGranules (s : State) : Nat :=
  Config.generalGranules - ((usedGranules s).filter fun g => decide (g < Config.treeBase)).length

/-- Keys whose tail may be spilled: general keys with a resident tail that no accepted command names (R280). -/
def spillable (s : State) : List (Nat × Key) :=
  s.keys.keys.filter fun e => decide (e.1 < Config.treeBase) && e.2.tail != [] && !e.2.spilled &&
    !(s.cmds.any fun c => blocksKey s c e.1)

/-- Granules spilling can free within the room of the spill region. -/
def spillGain (s : State) : Nat × Nat :=
  (spillable s).foldl (fun a e =>
    if a.2 + spillSize e.2.len ≤ keySpillBytes s then (a.1 + e.2.tail.length, a.2 + spillSize e.2.len) else a)
    (0, keySpillUsed s)

/-- A key of `l` bytes can be placed (R266). -/
def keyFits (s : State) (l : Nat) : Bool :=
  decide (1 ≤ freeGranules s) &&
    (decide (keyGranules l ≤ freeGranules s) || decide (keyGranules l ≤ freeGranules s + (spillGain s).1)
      || decide (keySpillUsed s + spillSize l ≤ keySpillBytes s))

/-- A tree's record in NVM carries the GEN of its reservation record, or that record is corrupt (R250). -/
def treeActive (s : State) (t : Nat) : Bool :=
  match Map.get? s.nvm.trees t with
  | none => false
  | some r => r.authentic && (swk s).isSome && (match recVal s.nvm 4 t with
      | .value g _ => g == r.gen
      | .corrupt => true)

/-- The issuer's GRAN_LIM allows `n` more granules; a forwarded command's limits are its origin's (R419). -/
def limitAllows (s : State) (c : Cmd) (n : Nat) : Bool :=
  c.origin.isSome || decide (granCharge s c.fn + n ≤ (getFn s c.fn).granLim)

/-- Step 8. -/
def roomErr (s : State) (c : Cmd) : Err :=
  if opcode c.entry = 0x0610 then
    let t := le c.entry 42 2
    firstErr [require (!treeActive s t) .busy 0x0B,
      require (recVal s.nvm 4 t != .corrupt) .counterExhausted 2,
      require (limitAllows s c 1) .busy 1]
  else match newKeyLen c.entry with
    | none => none
    | some l => firstErr [require (limitAllows s c (keyGranules l)) .busy 1, require (keyFits s l) .busy 0x0A]

/-! ### Step 9: randomness (R360, R364) -/

/-- What step 9 answers. -/
inductive Gate where
  | pass | wait | fault
  deriving DecidableEq, Repr

/-- A RANDOM that reseeds first: RFLAGS bit 0 or PR_ALL (R355). -/
def wantsReseed (s : State) (e : Bytes) : Bool := opcode e == 0x0501 && (bit (le e 42 1) 0 || s.rng.prAll)

/-- Step 9. -/
def rngGate (s : State) (e : Bytes) : Gate :=
  if noRandom (opcode e) then .pass
  else match s.rng.state with
    | .fault => .fault
    | .ready =>
      if s.rng.katRun then .wait
      else if wantsReseed s e && s.rng.pool == [] then .wait
      else if opcode e = 0x0501 && (nextInst s).isNone then .wait
      else .pass
    | _ => .wait

/-! ### The whole of R138 -/

/-- Step 1: the life-cycle state permits the command (Table 138, R180). -/
def lifeErr (s : State) (c : Cmd) : Err :=
  require (match s.lc.state with
    | .scrap => false
    | .owned => true
    | .field => true
    | _ => byKeeper s c && opcode c.entry != 0x0801) .deniedLc 0

/-- Step 2. -/
def operandErr (s : State) (c : Cmd) : Err :=
  (firstBad (reservedBad c.entry ++ operationBad (askerOf s c) c.entry)).map fun o => (.badParam, o)

/-- What the checks of R138 answer: a status and whether the berth was found, a wait, or the berth with the keys. -/
inductive Verdict where
  | err (berth : Option Nat) (st : Status) (d : Nat)
  | waitBerth
  | waitRng (berth : Nat) (ka kb : Option Nat)
  | pass (berth : Nat) (ka kb : Option Nat)
  deriving DecidableEq, Repr

/-- Steps 4 to 9 with the berth found. -/
def checkFound (s : State) (c : Cmd) (i : Nat) (b : Berth) : Verdict :=
  let ks := keysOf s c b
  match firstErr [policyErr s c b, keysErr s c b, lengthErr s c ks.1 ks.2,
      require (planResident s (planOf s c.entry ks.1 ks.2)) .planMissing 0, roomErr s c] with
  | some (st, d) => .err (some i) st d
  | none =>
    match rngGate s c.entry with
    | .pass => .pass i ks.1 ks.2
    | .wait => .waitRng i ks.1 ks.2
    | .fault => .err (some i) .rngFault 0

/-- R138. -/
def checkOp (s : State) (c : Cmd) : Verdict :=
  match firstErr [lifeErr s c, operandErr s c] with
  | some (st, d) => .err none st d
  | none =>
    match operationBerth s c with
    | .err st d => .err none st d
    | .wait => .waitBerth
    | .berth i b => checkFound s c i b

end Sys2Proof.Machine
end

