-- ==== Sys2Proof/Machine/Start.lean ====
section
/-!
DEFINITION. Starting an accepted command: its plan's segments (R207, R208), its input read (R101, R418), forwarding
(R405, R417, R418), the verdict of the checks, and the commands that wait in them.
-/

namespace Sys2Proof.Machine

/-- Change a berth. -/
def modBerth (s : State) (i : Nat) (f : Berth → Berth) : State :=
  { s with keys := { s.keys with berths := Map.modify s.keys.berths i f } }

/-- Note the use of a key and a berth, for the rules that choose the least recently used (R280, R285). -/
def touch (s : State) (i : Nat) (ks : List Nat) : State :=
  let n := s.stamp + 1
  let s1 := ks.foldl (fun t g => modKey t g fun k => { k with used := n }) (modBerth s i fun b => { b with used := n })
  { s1 with stamp := n }

/-! ### Plans -/

/-- The decision entry of a segment in a plan's body (Table 69). -/
def bodyDec (b : Bytes) (seg : Nat) : Option Dec :=
  (List.range (le b 22 1)).findSome? fun i =>
    let o := le b 68 4 + 8 * i
    if le b o 2 = seg then
      some { rule := le b (o + 2) 1, mask := le b (o + 3) 1, target := le b (o + 4) 2, limit := le b (o + 6) 1,
             fail := le b (o + 7) 1 }
    else none

/-- Segments of a plan's body (Table 68). -/
def bodySegs (b : Bytes) : List Seg :=
  (List.range (le b 20 2)).map fun i =>
    let o := le b 64 4 + 16 * i
    { kind := le b o 1, grouped := bit (le b (o + 1) 1) 0, masked := bit (le b (o + 1) 1) 1, steps := le b (o + 4) 4,
      off := le b (o + 8) 4, len := le b (o + 12) 4, dec := if bit (le b (o + 1) 1) 2 then bodyDec b i else none }

/-- The body of a plan: a standard plan's is fixed in the boot ROM, an owner plan's was loaded (R474, R204). -/
def planBody (s : State) (id : Nat) : Bytes := if id < 0x80000000 then Config.stdBody id else Map.getD s.eng.plans id []

/-- A standard plan that signs with ML-DSA (R192): SIGN's of its sets, and those of TIMESTAMP and SEAL. -/
def dsaSigns (id : Nat) : Bool :=
  id / 65536 == 0x0702 || id / 65536 == 0x0710 || (id / 65536 == 0x0201 && famOf (id % 65536) == .mldsa)

/-- The decision of ML-DSA signing: FIRST_SET over a batch of four candidates, with a repeat limit of 64 (R192). -/
def batchDec (d : Dec) : Dec := if d.rule = 1 then { d with mask := 0x0F, limit := 64 } else d

/-- Segments of a plan. -/
def planSegs (s : State) (id : Nat) : List Seg :=
  if dsaSigns id then (bodySegs (planBody s id)).map fun g => { g with dec := g.dec.map batchDec } else bodySegs (planBody s id)

/-- A kind the segments need that has no engine in service (R25, R213). -/
def deadKind (s : State) (l : List Seg) : Option Nat :=
  (l.find? fun g => engLeft s g.kind == 0).map (·.kind)

/-- Index of the engine of a kind that was retired last (Table 71). -/
def lastRetired (s : State) (kind : Nat) : Nat :=
  (((s.eng.retired.filter fun e => e.1 == kind).getLast?).map (·.2)).getD 0

/-- Masking order of an operation (R194). -/
def opOrder (s : State) (e : Bytes) (ka : Option Nat) : Nat :=
  let p := le e 40 2
  let key := ((keyAt s ka).map keyOrder).getD 0
  let nkd := if bit (le e 58 1) 3 then 2 else 1
  match opcode e with
  | 0x0101 => if order2Fam p then 1 else 0
  | 0x0102 => key
  | 0x0110 => if le e 42 1 = 1 then nkd else if le e 42 1 = 2 then 1 else key
  | 0x0201 => key
  | 0x0403 => if order2Fam p then nkd else 0
  | 0x0702 => key
  | 0x0710 => key
  | 0x0801 => key
  | _ => 0

/-! ### Input randomness (R153, R197, R198; the sizes of its draws, and a nonce, counter block or wrap IV among them: log 90) -/

/-- A signature's own draw and its blinding. -/
def signNeed (k : Key) (h : Nat) (det : Bool) : Nat := signDraw k.typ h det + blindDraw k.typ (rsaK k)

/-- What signing a seal with a slot's key draws. -/
def sealNeed (s : State) (g : Option Nat) : Nat := ((keyAt s g).map fun k => signNeed k 0 false).getD 0

/-- Bytes of input randomness and blinding that the segments of a command draw at their dispatches (R197, R198). -/
def rndNeed (s : State) (e : Bytes) (ka kb : Option Nat) : Nat :=
  let p := le e 40 2
  match opcode e with
  | 0x0101 => 32
  | 0x0103 => blindDraw p 0
  | 0x0104 => hashLen (le e 43 1)
  | 0x0105 => blindDraw 0x1503 (((keyAt s ka).map rsaK).getD 0)
  | 0x0110 => if le e 42 1 = 1 then 96 + blindDraw 0x0504 0 else if le e 42 1 = 2 then 64 + 2 * blindDraw 0x0504 0
      else 2 * blindDraw 0x0504 0
  | 0x0201 => ((keyAt s ka).map fun k => signNeed k (le e 43 1) (bit (le e 45 1) 0)).getD 0
  | 0x0301 => 12
  | 0x0303 => if p = 0x3002 then 12 else 0
  | 0x0401 => if isRsa p then 0 else blindDraw p 0
  | 0x0403 => if famOf p = .sym then le e 44 2 else genDraw p + (if isRsa p then 0 else blindDraw p 0)
  | 0x0404 => ((keyAt s ka).map fun k => if k.priv && !isRsa k.typ then blindDraw k.typ 0 else 0).getD 0
  | 0x0410 => if le e 40 1 = 2 then 32 + 12 else 12
  | 0x0610 => 32
  | 0x0702 => sealNeed s ka + sealNeed s kb
  | 0x0710 => sealNeed s ka + sealNeed s kb
  | 0x61 => 32
  | _ => 0

/-- Bytes of it that a group of segments draws at its dispatch: what each of them uses, and with the last segment of the plan all that is
left (R197, R354; the parts: log 90). -/
def groupDraw (s : State) (c : Cmd) (gs : List (Nat × Seg)) : Nat :=
  let rest := rndNeed s c.entry c.keyA c.keyB - (c.rnd.getD []).length
  if gs.any fun g => g.1 + 1 == c.segs.length then rest else min rest ((gs.map fun g => Config.segDraw c.planId g.1).sum)

/-! ### The parameter block of HBS_KEYGEN (R252) -/

/-- The checks on the parameter block after its read (R252 step 2), in the rule's order: the supported list, over the levels whose types
lie in the input, then the length, then OUT_CAP. -/
def paramErr (c : Cmd) (d : Bytes) : Err :=
  let p := le c.entry 40 2
  let levels := beVal (d.take 4)
  let n := if p = 0x1201 then 4 + 8 * levels else 4
  let here := min levels ((inLen c.entry - 4) / 8)
  if p = 0x1201 && !(decide (1 ≤ levels) && decide (levels ≤ 8)) then some (.badParam, 0xFFFF)
  else match hbsParams p (if p = 0x1201 then [0, 0, 0, BitVec.ofNat 8 here] ++ slice d 4 (8 * here) else d.take 4) with
    | none => some (.badParam, 0xFFFF)
    | some _ =>
      if inLen c.entry ≠ n then some (.badLength, n)
      else match hbsParams p (d.take n) with
        | none => some (.badParam, 0xFFFF)
        | some (pl, _, _) => require (decide (pl ≤ outCap c.entry)) .badLength pl

/-- The parameter block of an HBS_KEYGEN has come and fails its checks: the command dispatches nothing and draws nothing (R252). -/
def blockErr (c : Cmd) : Err :=
  if opcode c.entry = 0x0610 then c.input.bind fun d => paramErr c d else none

/-! ### Input -/

/-- The command reads its input buffer (Tables 48, 54). -/
def readsInput (e : Bytes) : Bool :=
  match opcode e with
  | 0x20 => true
  | 0x21 => true
  | 0x31 => true
  | 0x32 => true
  | 0x40 => true
  | 0x50 => true
  | 0x60 => true
  | 0x62 => true
  | 0x0110 => le e 42 1 != 1
  | 0x0403 => false
  | 0x0404 => false
  | 0x0405 => false
  | 0x0406 => false
  | 0x0407 => false
  | 0x0408 => false
  | 0x0410 => le e 40 1 == 2
  | 0x0412 => false
  | 0x0501 => false
  | 0x0601 => false
  | 0x0602 => false
  | 0x0612 => false
  | 0x0620 => false
  | 0x0701 => false
  | op => operationOps.contains op

/-- Issue the read of a command's input: over the host port, or IN_PULL to its origin (R418). -/
def askInput (s : State) (cid : Nat) : State :=
  match getCmd s cid with
  | none => s
  | some c =>
    if c.asked || c.input.isSome then s
    else match c.origin with
      | some (k, n) => modCmd (linkSend s k (.inPull n 0 (inLen c.entry))) cid fun x => { x with asked := true }
      | none =>
        if canRead s c.fn false then
          modCmd (emitRead s c.fn (inIova c.entry) (inLen c.entry)) cid fun x => { x with asked := true }
        else s

/-- A command of this device that runs and waits for input it has not asked for. -/
def owesRead (c : Cmd) : Bool := c.origin.isNone && c.phase == .run && c.input.isNone && !c.asked && isOperation c.entry

/-- Issue the reads of the input a peer asked for, oldest first, while there are tags for them (R418, R433); `fuel` bounds them. -/
def askPullsN : Nat → State → (cid : Nat) → State
  | 0, s, _ => s
  | fuel + 1, s, cid =>
    match getCmd s cid with
    | none => s
    | some c =>
      match c.pulls[c.pulled]? with
      | some p =>
        if canRead s c.fn false then
          askPullsN fuel (modCmd (emitRead s c.fn (inIova c.entry + BitVec.ofNat 64 p.1) p.2) cid fun x => { x with pulled := x.pulled + 1 }) cid
        else s
      | none => s

/-- Issue the reads a peer's pulls still lack. -/
def askPulls (s : State) (cid : Nat) : State :=
  askPullsN (((getCmd s cid).map fun c => c.pulls.length - c.pulled).getD 0) s cid

/-- Issue the input reads that waited for Bus Master Enable or for a tag (R431, R433). -/
def askAll (s : State) (fn : Nat) : State :=
  let s1 := ((s.cmds.filter fun c => c.fn == fn && owesRead c).map (·.id)).foldl askInput s
  ((s1.cmds.filter fun c => c.fn == fn && c.origin.isNone && c.pulls != []).map (·.id)).foldl askPulls s1

/-- A tag of a port has come free: the input reads that lacked one are issued, function by function (R433). -/
def askPort (s : State) (p : Nat) : State :=
  ((s.fns.map (·.1)).filter fun f => portOf f == p).foldl askAll s

/-! ### Running -/

/-- A command has passed its checks (R138): it takes its plan and asks for its input; KEY_DESTROY marks its key (R274), and
so does the FINISH of HYBRID_KEX, which consumes its ephemeral key whatever its result (R151). The key is marked as of this command's
acceptance, once its checks have passed: while a KEY_DESTROY waits for its chain predecessor or its berth, later commands that pass their
checks still know the key (DESIGN CHOICE, log 106). -/
def beginRun (s : State) (cid i : Nat) (ka kb : Option Nat) : State :=
  match getCmd s cid with
  | none => s
  | some c =>
    let id := planOf s c.entry ka kb
    let segs := planSegs s id
    let input := if readsInput c.entry && inLen c.entry != 0 then none else some []
    let c' : Cmd := { c with
      phase := .run, berth := some i, keyA := ka, keyB := kb, planId := id, segs := segs, pos := 0, input := input,
      order := opOrder s c.entry ka, orderB := if isSealing (opcode c.entry) then ((keyAt s kb).map keyOrder).getD 0 else 0,
      body := planBody s id }
    let s1 := touch (modCmd s cid fun _ => c') i (ka.toList ++ kb.toList)
    let s2 := match opcode c.entry, ka with
      | 0x0405, some g => setAttr s1 g (markKey cid)
      | 0x0110, some g => setAttr s1 g (markKey cid)
      | _, _ => s1
    match deadKind s segs with
    | some k => fail s2 cid .engineFault (faultDetail 5 k (lastRetired s k))
    | none => if input.isNone then askInput s2 cid else s2

/-- The reservation record that step 8 of an HBS_KEYGEN found corrupt is reported (R245). -/
def reportStep8 (s : State) (cid : Nat) (st : Status) (d : Nat) : State :=
  match getCmd s cid with
  | some c => if opcode c.entry = 0x0610 && st == .counterExhausted && d == 2 then reportCorrupt s 4 (le c.entry 42 2) else s
  | none => s

/-- What the checks of R138 answered takes effect. -/
def applyVerdict (s : State) (cid : Nat) (v : Verdict) : State :=
  match v with
  | .err i st d => fail (modCmd (reportStep8 s cid st d) cid fun c => { c with berth := i }) cid st d
  | .waitBerth => modCmd s cid fun c => { c with phase := .berthWait }
  | .waitRng i ka kb => modCmd s cid fun c =>
      { c with phase := .rngWait s.sys.tick, berth := some i, keyA := ka, keyB := kb }
  | .pass i ka kb => beginRun s cid i ka kb

/-! ### Forwarding (R405, R417, R418) -/

/-- The berth named lies on another device. -/
def remote (s : State) (c : Cmd) : Bool :=
  c.origin.isNone && s.topo.set && usesBerth c.entry && handlePos (handleOf c.entry) != s.topo.position

/-- A command of this device accepted earlier names the same berth of the other device and has not been forwarded yet: commands that name
one berth reach its device in the order of their acceptance (R420). -/
def sendsFirst (s : State) (c : Cmd) (h : Nat) : Bool :=
  s.cmds.any fun d => decide (d.id < c.id) && d.origin.isNone && usesBerth d.entry && handlePos (handleOf d.entry) == handlePos h &&
    handleIdx (handleOf d.entry) == handleIdx h && (match d.phase with
      | .fin _ => false
      | .forwarded _ => false
      | _ => true)

/-- The granules of the key a command creates count against its function's limit here, since a function's limits are its own device's (R266,
R419): where its operands are right, it is tested before it is forwarded (DESIGN CHOICE, log 45). -/
def forwardErr (s : State) (c : Cmd) (entry : Bytes) : Err :=
  match operandErr s { c with entry := entry }, if opcode entry = 0x0610 then some 32 else newKeyLen entry with
  | none, some l => if isOperation entry then require (decide (granCharge s c.fn + keyGranules l ≤ (getFn s c.fn).granLim)) .busy 1 else none
  | _, _ => none

/-- Send a command over a link that carries traffic. -/
def sendCmd (s : State) (c : Cmd) (entry : Bytes) : State :=
  match linkFor s (handlePos (handleOf entry)) (handleIdx (handleOf entry)) with
  | some k =>
    let s1 := linkSend s k (.cmd s.topo.position c.id c.fn c.worldS c.cls entry)
    modCmd s1 c.id fun x => { x with phase := .forwarded k, berth := none, keyA := none, keyB := none }
  | none => fail s c.id .busy 9

/-- Forward a command to the position of its handle. -/
def forwardTo (s : State) (c : Cmd) (entry : Bytes) : State :=
  let h := handleOf entry
  let ks := linksTo s (handlePos h)
  if ks = [] then fail s c.id .badParam 8
  else if ks.any fun k => carrying (getLink s k) then
    if sendsFirst s c h then modCmd s c.id fun x => { x with phase := .berthWait }
    else match forwardErr s c entry with
      | some (st, d) => fail s c.id st d
      | none => sendCmd s c entry
  else if ks.all fun k => (getLink s k).st == .failed || (getLink s k).st == .unused then fail s c.id .busy 9
  else modCmd s c.id fun x => { x with phase := .berthWait }

/-- Run a command's checks once: R65, then its keeper row, forwarding, or R138. -/
def startOnce (s : State) (cid : Nat) : State :=
  match getCmd s cid with
  | none => s
  | some c =>
    match if c.origin.isNone then r65 s c else none with
    | some (st, d) => fail s cid st d
    | none =>
      if isKeeperOp c.entry then
        modCmd s cid fun x => { x with
          phase := .run, planId := opcode c.entry * 65536,
          segs := if keeperEngineOp (opcode c.entry) then planSegs s (opcode c.entry * 65536) else [],
          body := if keeperEngineOp (opcode c.entry) then planBody s (opcode c.entry * 65536) else [] }
      else if remote s c then forwardTo s c c.entry
      else applyVerdict s cid (checkOp s c)

/-- Send a command on to the new handle a forwarding entry gave, once (R423). -/
def redirect (s : State) (cid handle : Nat) : State :=
  startOnce (modCmd s cid fun c => { c with entry := overwrite c.entry 8 (leBytes 4 handle), again := true }) cid

/-- A forwarding entry of this device answers a command of this device for the first time (R423). -/
def mayRedirect (s : State) (c : Cmd) : Bool :=
  c.origin.isNone && !c.again && handlePos (handleOf c.entry) == s.topo.position &&
    (forwardAt s (handleIdx (handleOf c.entry))).isSome

/-- Run a command's checks, sending it on where a forwarding entry answers (R423). -/
def startCmd (s : State) (cid : Nat) : State :=
  match getCmd s cid with
  | none => s
  | some c =>
    if isOperation c.entry && mayRedirect s c && (r65 s c).isNone then
      (match checkOp s c with
        | .err _ .berthMoved d => redirect s cid d
        | _ => startOnce s cid)
    else startOnce s cid

/-- Commands that wait at step 3 of R138 try again (R405, R421). -/
def retryBerth (s : State) : State :=
  ((s.cmds.filter fun c => c.phase == .berthWait).map (·.id)).foldl startCmd s

/-- A wait at step 9 has lasted more than 4 ms (R360). -/
def gateLate (s : State) (t : DWord) : Bool := decide (400000 < tickNat s - t.toNat)

/-- A command waiting at step 9 tries again (R360): READY reached later than 4 ms after the start of the wait does not let it pass. -/
def retryGate (s : State) (cid : Nat) : State :=
  match getCmd s cid with
  | none => s
  | some c =>
    match c.phase, c.berth with
    | .rngWait t, some i =>
      (match rngGate s c.entry with
        | .pass => if gateLate s t then fail s cid .rngNotReady 0 else beginRun s cid i c.keyA c.keyB
        | .wait => s
        | .fault => fail s cid .rngFault 0)
    | _, _ => s

/-- Every command waiting at step 9 tries again. -/
def retryRng (s : State) : State := (s.cmds.map (·.id)).foldl retryGate s

end Sys2Proof.Machine
end

