-- ==== Sys2Proof/Machine/Cache.lean ====
section
/-!
DEFINITION. The expanded-key cache (R199 to R202).
-/

namespace Sys2Proof.Machine

/-- Bytes of the expanded-key cache (Table 12). -/
def cacheBytes (s : State) : Nat := if s.otp.variant32 then 4294967296 else 2147483648

/-- Size of an ML-KEM or ML-DSA entry (Table 66). -/
def entrySize (p : Nat) : Option Nat :=
  match p with
  | 0x0101 => some 1792
  | 0x0102 => some 3840
  | 0x0103 => some 6400
  | 0x1001 => some 12032
  | 0x1002 => some 22528
  | 0x1003 => some 41472
  | _ => none

/-- Public key bytes of a stored key: of the ML-KEM part for a HYBRID_KEX ephemeral key (R151). -/
def publicBytes (k : Key) : Bytes :=
  if !k.priv then k.bytes else publicPart (if famOf k.typ = .ephemeral then k.typ - 0x7E00 else k.typ) k.bytes

/-- Tag of an encoded public key (R199). -/
def cacheTag (pk : Bytes) : Bytes := digest 0x12 32 pk

/-- A cache entry a command looks up, with what it builds on a miss. -/
structure Want where
  pset    : Nat
  tag     : Bytes
  tr      : Bytes
  content : Bytes
  size    : Nat

/-- Values of `w` bits packed low bit first into bytes. -/
def packBits (w : Nat) (l : List Nat) : Bytes :=
  leBytes ((l.length * w + 7) / 8) (l.foldr (fun x a => x % 2 ^ w + 2 ^ w * a) 0)

/-- The entry of an ML-KEM or ML-DSA public key: Â at 12 or 23 bits per coefficient, and ML-DSA's tr in the header (Table 66). -/
def matrixEntry (p : Nat) (pk : Bytes) : List Want :=
  (entrySize p).toList.map fun n =>
    { pset := p, tag := cacheTag pk, tr := if famOf p = .mldsa then digest 0x22 64 pk else [],
      content := padTo (n - 256) (packBits (if famOf p = .mldsa then 23 else 12) (Config.matrix p pk)), size := n }

/-- The entry of a stored key. -/
def keyEntry (s : State) (g : Option Nat) : List Want :=
  match keyAt s g with
  | none => []
  | some k => matrixEntry (if famOf k.typ = .ephemeral then k.typ - 0x7E00 else k.typ) (publicBytes k)

/-- The entry of a stored private key (R200). -/
def privateEntry (s : State) (g : Option Nat) : List Want := if (keyAt s g).any (·.priv) then keyEntry s g else []

/-- The entries of the trees that a leaf lies in, one for each level (R199, Table 66; tag layout: log 95). -/
def treeEntries (t : Nat) (r : TreeRec) (seed : Bytes) (leaf : Nat) : List Want :=
  match hbsLevels r.pset r.params with
  | none => []
  | some l => ((l.zip (treeSplit l leaf)).mapIdx fun i x =>
      let n := (hbsNodeBytes x.1 + 255) / 256 * 256
      { pset := r.pset, tag := cacheTag r.pub ++ leBytes 2 t ++ leBytes 1 i ++ leBytes 8 x.2, tr := [],
        content := padTo n (Config.hbsNodes r.pset r.params seed i x.2), size := 256 + n })

/-- The entries of the trees in use by HBS_SIGN. -/
def treeEntry (s : State) (c : Cmd) : List Want :=
  match c.keyA.bind fun g => (Map.get? s.nvm.trees (treeOf g)).map fun t => (g, t), c.leaf with
  | some (g, t), some leaf => treeEntries (treeOf g) t (((keyAt s (some g)).map (·.bytes)).getD []) leaf
  | _, _ => []

/-- The entries a command looks up, and builds on a miss (R200): VERIFY's key without NO_CACHE, a stored key of KEM_ENCAPS, the trees of
HBS_SIGN, and every ML-KEM or ML-DSA private key an operation uses. -/
def cacheWants (s : State) (c : Cmd) : List Want :=
  let e := c.entry
  let p := le e 40 2
  match opcode e with
  | 0x0101 => if le e 42 1 = 1 then keyEntry s c.keyA else []
  | 0x0202 =>
    if bit (le e 45 1) 2 then []
    else if bit (le e 45 1) 1 then matrixEntry p (slice (c.input.getD []) 0 (pubLen p)) else keyEntry s c.keyA
  | 0x0611 => treeEntry s c
  | _ => privateEntry s c.keyA ++ privateEntry s c.keyB

/-- An entry by set and tag. -/
def sameEntry (pset : Nat) (tag : Bytes) (x : CacheEnt) : Bool := x.pset == pset && x.tag == tag

/-- A hit pins the entry for the command (R201). -/
def pinEntry (s : State) (cid : Nat) (w : Want) : State :=
  let l := s.eng.cache.map fun x =>
    if sameEntry w.pset w.tag x then { x with used := s.stamp + 1, pinned := insertNat cid x.pinned } else x
  { s with stamp := s.stamp + 1, eng := { s.eng with cache := l } }

/-- A hit on an entry whose write failed fails its MAC check: one event, and the entry is dropped, to be built again (R30, R440). -/
def dropBad (s : State) (w : Want) : State :=
  if s.eng.cache.any (fun x => x.bad && sameEntry w.pset w.tag x) then
    alarmEvent { s with eng := { s.eng with cache := s.eng.cache.filter fun x => !sameEntry w.pset w.tag x } } 15 [1]
  else s

/-- Look up what a command wants and pin what hits. -/
def cacheLookup (s : State) (c : Cmd) : State := (cacheWants s c).foldl (fun t w => pinEntry (dropBad t w) c.id w) s

/-- Bytes the entries take. -/
def cacheUsed (l : List CacheEnt) : Nat := (l.map (·.size)).sum

/-- The least recently used entry that no command pins. -/
def lruEntry (l : List CacheEnt) : Option CacheEnt :=
  (l.filter fun x => x.pinned == []).foldl (fun a x => match a with
    | none => some x
    | some y => if x.used < y.used then some x else some y) none

/-- Evict unpinned entries until `need` bytes fit. -/
def evict (room need : Nat) : Nat → List CacheEnt → List CacheEnt
  | 0, l => l
  | n + 1, l =>
    if cacheUsed l + need ≤ room then l
    else match lruEntry l with
      | some y => evict room need n (l.filter fun x => !sameEntry y.pset y.tag x)
      | none => l

/-- Insert a built entry, unless it is there or every entry is pinned (R201). -/
def insertEntry (s : State) (w : Want) : State :=
  if s.eng.cache.any (sameEntry w.pset w.tag) then s
  else
    let l := evict (cacheBytes s) w.size s.eng.cache.length s.eng.cache
    if cacheUsed l + w.size ≤ cacheBytes s then
      let x : CacheEnt :=
        { pset := w.pset, tag := w.tag, tr := w.tr, content := w.content, size := w.size, used := s.stamp + 1, pinned := [], bad := false }
      { s with stamp := s.stamp + 1, eng := { s.eng with cache := l ++ [x] } }
    else { s with eng := { s.eng with cache := l } }

/-- A command that missed inserts what it built. -/
def cacheBuild (s : State) (c : Cmd) : State := (cacheWants s c).foldl insertEntry s

end Sys2Proof.Machine
end

