-- ==== Sys2Proof/Machine/Instant.lean ====
section
/-!
DEFINITION. What the device takes at one instant (R37): the causes of mode transitions that wait in the queue at one tick, of
which the row of Table 15 that appears lowest is carried out; with what such a cause depends on: whether BAR 0 is open to a
write (R431), a keeper command's turn (R106, R109) and the strongest level of a set of alarms (R374).
-/

namespace Sys2Proof.Machine

/-- Boot runs this phase. -/
def inPhase (s : State) (n : Nat) : Bool := s.sys.mode == .boot && !s.sys.resetLow && s.boot.phase == n

/-- Monitors run: from the end of the ROM phase until main power is lost (R369). -/
def monitorsRun (s : State) : Bool :=
  s.sys.mode != .dormant && !s.sys.isolated && (s.sys.mode != .boot || decide (2 ≤ s.boot.phase))

/-- An event of a monitor, while monitors run (R369). -/
def monEvent (s : State) (src : Nat) (detail : Bytes) : State := if monitorsRun s then alarmEvent s src detail else s

/-- BAR 0 of a function answers: it exists, Memory Space Enable is 1, and its port has its link and answers (R431, R435, R446, R473). -/
def barOpen (s : State) (fn : Nat) : Bool :=
  fnExists s fn && (getFn s fn).mse && portUp s fn && s.sys.mode != .dormant && !s.sys.resetLow && !s.sys.isolated

/-! ### The turn of a keeper command (R106, R109) -/

/-- A keeper command that keeps the later ones of its function from starting (R109): not a BERTH_FREE that another device carries
out. -/
def blocksTurn (c : Cmd) : Bool :=
  isKeeperOp c.entry && (match c.phase with
    | .fin _ => false
    | .effected => !([0x10, 0x41, 0x50, 0x51].contains (opcode c.entry))
    | .forwarded _ => opcode c.entry != 0x41
    | _ => true)

/-- It runs, or waits for a draw. -/
def mayRun (c : Cmd) : Bool :=
  match c.phase with
  | .run => true
  | .drawWait _ => true
  | _ => false

/-- The command may run now: its opcode's row, its turn, and queues are served. -/
def turnOf (s : State) (cid op : Nat) : Option Cmd :=
  if !serving s then none
  else (getCmd s cid).filter fun c =>
    opcode c.entry == op && mayRun c &&
      !(s.cmds.any fun d => d.fn == c.fn && posOf s d == posOf s c && decide (d.id < c.id) && blocksTurn d)

/-! ### Alarms that wait for their response -/

/-- An alarm of a set: source, configured level, record. -/
abbrev Fired := Nat × Nat × Bytes

/-- The strongest level of a set. -/
def strongest (l : List Fired) : Nat := l.foldl (fun m a => max m a.2.1) 0

/-- The microsecond of the timebase in which an alarm fired: of the TICK of its record (R374, Table 119). -/
def firedUs (a : Fired) : Nat := le a.2.2 8 8 / 100

/-- The set whose response comes first: the alarms of one microsecond (R374). -/
def firstSet (s : State) : List Fired :=
  match s.alarm.set with
  | [] => []
  | a :: _ => s.alarm.set.filter fun b => firedUs b == firedUs a

/-- The set of the latest alarm's microsecond. -/
def latestSet (s : State) : List Fired := s.alarm.set.filter fun b => firedUs b == s.alarm.setUs

/-- Its microsecond has ended (R374). -/
def setDue (s : State) : Bool :=
  match s.alarm.set with
  | [] => false
  | a :: _ => decide (firedUs a < tickNat s / 100)

/-- Row of Table 15 that the response of the set of alarms takes that is due; 0 for none. -/
def alarmRow (s : State) : Nat :=
  let level := if setDue s then strongest (firstSet s) else 0
  match s.sys.mode with
  | .dormant => 0
  | .lockdown => 0
  | .boot => if 2 ≤ level then 8 else 0
  | .held => if 3 ≤ level then 9 else 0
  | _ => if 3 ≤ level then 9 else if level = 2 then 7 else 0

/-! ### Causes of transitions at one instant (R37) -/

/-- A write of DEV_SOFT_RESET with its key, where it acts (R58). -/
def softReset (s : State) (fn off : Nat) (v : Word) : Bool :=
  off == 0x1008 && bits v.toNat 0 16 == 0x5A5A && barOpen s fn && fn == keeperFn s && serving s &&
    (getFn s fn).flr != .cleanup

/-- Row of Table 15 that a command would cause; 0 where it causes none, or one of the first six, which give way to every
other. -/
def causeRow (s : State) (i : Instr) : Nat :=
  match i with
  | .mainPowerLost _ => if s.sys.mode = .dormant then 0 else 12
  | .devResetNAssert _ => if s.sys.mode = .dormant then 0 else if s.sys.mode = .lockdown then 11 else 10
  | .devSoftReset fn v _ => if softReset s fn 0x1008 v then 10 else 0
  | .registerWrite fn off (.good d) => if d.length = 4 && softReset s fn off (BitVec.ofNat 32 (le d 0 4)) then 10 else 0
  | .alarmSetResponse => alarmRow s
  | .modeHold cid => if running s && (turnOf s cid 0x71).isSome then 7 else 0
  | _ => 0

/-- A transition of a row gives way: a lower row has been taken in this tick, or waits to be (R37; log 73). -/
def opposed (s : State) (row : Nat) : Bool :=
  s.sys.moved.any (fun m => m.1 == s.sys.tick && decide (row < m.2)) || s.pending.any fun i => decide (row < causeRow s i)

/-- Boot ends in Lockdown with an error code (Table 17, R47). -/
def bootFail (s : State) (err : BitVec 8) : State :=
  if opposed s 8 then s
  else recordMode (recordBoot (noteTimeLost (enterLockdown { s with boot := { s.boot with error := err } } 0xB)))

end Sys2Proof.Machine
end

