-- ==== Sys2Proof/Machine/Rings.lean ====
section
/-!
DEFINITION. Rings: polling (R80 to R82), push windows (R83 to R87), fetch and acceptance (R88 to R92), completions
(R93 to R98), and the input read (R101).
-/

namespace Sys2Proof.Machine

/-! ### Completions -/

/-- The 32 bytes of a completion entry (Table 33). -/
def completionBytes (s : State) (c : Cmd) (r : Result) (phase sqHead : Nat) : Bytes :=
  slice c.entry 4 4 ++ leBytes 2 r.status.code ++ [BitVec.ofNat 8 phase, 0] ++ leBytes 2 c.sq ++ leBytes 2 0
    ++ leBytes 4 sqHead ++ leBytes 4 (resultLen r) ++ leBytes 8 (tickNat s) ++ leBytes 4 r.detail

/-- A sum of a berth's statistics; it saturates at 2^64 − 1 (R286). -/
def statAdd (a b : Nat) : Nat := satAdd a b 0xFFFFFFFFFFFFFFFF

/-- Statistics of a berth when a completion is written (R286). -/
def countBerth (s : State) (c : Cmd) (r : Result) : State :=
  match c.berth with
  | none => s
  | some i =>
    modBerth s i fun b =>
      if r.status = .ok || r.status = .sigInvalid then
        { b with done := statAdd b.done 1, inBytes := statAdd b.inBytes (inLen c.entry) }
      else { b with failed := statAdd b.failed 1 }

/-- The slot of a berth takes a key, or becomes empty; LOCK_SLOTn locks it when it is first filled (R166, R289). -/
def bindSlot (b : Berth) (slot : Nat) (g : Option Nat) : Berth :=
  if (if slot = 0 then b.lock0 else b.lock1) then b
  else if slot = 0 then { b with slot0 := g, lock0 := b.lock0 || (g.isSome && b.pflags.getLsbD 1) }
  else { b with slot1 := g, lock1 := b.lock1 || (g.isSome && b.pflags.getLsbD 2) }

/-- The sleep states of a SET_TARGET_STATE, and the runs of the port's pending vectors (R124, R339, R340). -/
def targetStates (s : State) (c : Cmd) : State :=
  let e := c.entry
  let f := le e 40 2
  let asleep := fun (i : Nat) (t : Target) =>
    if decide (f ≤ i) && decide (i < f + 64) && bit (le e 56 8) (i - f) then { t with asleep := bit (le e 48 8) (i - f) } else t
  deliverPort (modPort s (portOf c.fn) fun p => { p with targets := Map.update p.targets asleep }) (portOf c.fn)

/-- The moderation of a CQ after a SET_MODERATION: a count that has reached the new COUNT fires at once (R122, R336). -/
def moderationEffect (s : State) (c : Cmd) : State :=
  let e := c.entry
  match getCq s c.fn (le e 48 2) with
  | none => s
  | some q =>
    let q1 : Cq := { q with modCount := le e 50 2, modTime := le e 52 2, vector := le e 54 2 }
    if q.count != 0 && decide (q1.modCount ≤ q.count) then fireCq s c.fn (le e 48 2) q1 else putCq s c.fn (le e 48 2) q1

/-- What takes effect when a completion is written: KEY_SHARE (R273), KEY_BIND (R290), SET_TARGET_STATE (R340) and SET_MODERATION
(R122). -/
def completionEffect (s : State) (c : Cmd) (r : Result) : State :=
  let e := c.entry
  match r.status, opcode e with
  | .ok, 0x0407 =>
    (match c.keyA with
      | some g => setAttr s g fun k => { k with share := (List.range 4).map fun i => le e (40 + 2 * i) 2, wholePort := le e 48 1 == 1 }
      | none => s)
  | .ok, 0x0408 =>
    (match c.berth with
      | some i => modBerth s i fun b => bindSlot b (le e 40 1) (if bit (le e 41 1) 0 then none else c.keyA)
      | none => s)
  | .ok, 0x22 => targetStates s c
  | .ok, 0x23 => moderationEffect s c
  | _, _ => s

/-- A command's completion is written: its successor in the chain starts, or completes ST_ABORTED (R98), and the commands that wait for it
at step 3 of R138 try again (R420, R421). -/
def chainDone (s : State) (c : Cmd) (ok : Bool) : State :=
  let s1 := match getSq s c.fn c.sq with
    | some q => if q.chainId = c.id && q.chainLen != 0 then putSq s c.fn c.sq { q with chainOk := some ok } else s
    | none => s
  retryBerth (match s1.cmds.find? fun d => d.after == some c.id && d.phase == .chainWait && d.origin.isNone with
    | none => s1
    | some d => if !ok then fail s1 d.id .aborted 1 else if d.tooLong then fail s1 d.id .aborted 2 else startCmd s1 d.id)

/-- OPEN of an SQ falls by one; a DRAINING SQ with none left becomes DISABLED (R99, Table 37). -/
def closeOne (s : State) (fn qid : Nat) : State :=
  match getSq s fn qid with
  | none => s
  | some q =>
    let o := q.opened - 1
    statusLine (putSq s fn qid { q with opened := o, st := if q.st = .draining && o = 0 then .disabled else q.st }) fn qid

/-- The completion is written to a CQ that has room: what is left of the output, the entry, then the interrupt (R93). -/
def writeEntry (s : State) (c : Cmd) (r : Result) (q : Cq) : State :=
  let s1 := if c.issued then s else outputWrites s c r
  let sqHead := ((getSq s c.fn c.sq).map (·.head)).getD 0
  let s2 := emit s1 (.write c.fn (cqBase s c.fn (getCqId s c) q + BitVec.ofNat 64 (32 * (q.tail % q.n)))
    (completionBytes s c r (ringPhase q.tail q.n) sqHead))
  let waiting := q.waiting.filter (· != c.id)
  let q1 : Cq := { q with tail := ringNext q.tail q.n, reserved := q.reserved - 1, waiting := waiting,
                          episode := q.episode && waiting != [] }
  let s3 := putCq s2 c.fn (getCqId s c) q1
  let s4 := if getCqId s c = 0 then
      modFn s3 c.fn fun x => { x with kcqSince := (waiting.head?.bind (getCmd s)).map (·.waitFrom),
                                      stalled := x.stalled && waiting != [] } else s3
  let s5 := moderate (completionEffect s4 c r) c.fn (getCqId s c) (flagBit c.entry 1)
  let s6 := unpin (dropCmd (countBerth (closeOne s5 c.fn c.sq) c r) c.id) c.id
  chainDone s6 c (r.status == .ok)
where
  /-- The CQ of a command's SQ. -/
  getCqId (s : State) (c : Cmd) : Nat := ((getSq s c.fn c.sq).map (·.cq)).getD 0

/-- Commands that have finished and whose completions go to a CQ, in the order they finished (R94). -/
def finishedOn (s : State) (fn cqid : Nat) : List Cmd :=
  (s.cmds.filter fun c => c.fn == fn && c.origin.isNone && ((getSq s fn c.sq).any fun q => q.cq == cqid) && (match c.phase with
    | .fin _ => true
    | _ => false)).mergeSort fun a b => decide (a.finAt ≤ b.finAt)

/-- Completions begin to wait for room, behind those that wait: CQ_FULL once in an episode, and polling becomes active (R81, R94,
R95). The reservations are looked at when a completion begins to wait, not at a later fetch (log 79). -/
def joinWaiting (s : State) (fn cqid : Nat) (q : Cq) (ids : List Nat) : State :=
  if ids = [] then s
  else
    let full := decide (q.allow ≤ q.reserved)
    let s0 := ids.foldl (fun t i => modCmd t i fun x => { x with waitFrom := s.sys.tick }) s
    let s1 := putCq s0 fn cqid { q with waiting := q.waiting ++ ids, episode := q.episode || full }
    let s2 := if cqid = 0 then
        modFn s1 fn fun x => { x with kcqSince := if x.kcqSince.isNone then some s.sys.tick else x.kcqSince } else s1
    let s3 := wakePolling s2 fn
    if full && !q.episode then flushAllFast (pendFast s3 fn 1 cqid) fn else s3

/-- Every completion that has to wait for room in a CQ joins those that wait (R94). -/
def joinFinished (s : State) (fn cqid : Nat) (q : Cq) : State :=
  joinWaiting s fn cqid q (((finishedOn s fn cqid).map (·.id)).filter fun i => !q.waiting.contains i)

/-- A forwarded command answers its origin with its output and DONE (R418). -/
def answerOrigin (s : State) (c : Cmd) (k n : Nat) (r : Result) : State :=
  let out := if r.status = .ok then r.out else []
  let s1 := (pieces packetData out.length 0 out).foldl (fun t p => linkSend t k (.outData n p.1 p.2)) s
  let s2 := linkSend s1 k (.done n r.status.code (resultLen r) r.detail)
  retryBerth (unpin (dropCmd (completionEffect (countBerth s2 c r) c r) c.id) c.id)

/-- A finished command's completion is written, or waits for room behind those that finished earlier (R93 to R95). -/
def completeWrite (s : State) (cid : Nat) : State :=
  match getCmd s cid with
  | none => s
  | some c =>
    match c.phase, c.origin with
    | .fin r, some (k, n) => answerOrigin s c k n r
    | .fin r, none =>
      let cqid := ((getSq s c.fn c.sq).map (·.cq)).getD 0
      (match getCq s c.fn cqid with
        | none => s
        | some q =>
          if !canReq s c.fn then s
          else if ringCount q.tail q.head q.n = q.n || (q.waiting != [] && q.waiting.head? != some cid) then joinFinished s c.fn cqid q
          else writeEntry s c r q)
    | _, _ => s

/-- A completion has to wait for room in its CQ, or behind another (R94). -/
def mustWait (s : State) (cid : Nat) : Bool :=
  (getCmd s cid).any fun c =>
    match getCq s c.fn (((getSq s c.fn c.sq).map (·.cq)).getD 0) with
    | some q => c.origin.isNone && (ringCount q.tail q.head q.n == q.n || (q.waiting != [] && q.waiting.head? != some cid))
    | none => false

/-- Completions go to their CQs, and the signals that pend go out: those that wait may signal CQ_FULL, a lower vector, and those that
are written may send a normal message, which goes after (R332). -/
def completeSignalled (s : State) (ids : List Nat) : State :=
  (ids.filter fun i => !mustWait s i).foldl completeWrite (flushSignals ((ids.filter (mustWait s)).foldl completeWrite s))

/-- Write the completions that wait for a CQ, in the order they finished, while it has room (R94). -/
def drainCq : Nat → State → Nat → Nat → State
  | 0, s, _, _ => s
  | n + 1, s, fn, cqid =>
    match getCq s fn cqid with
    | none => s
    | some q =>
      match q.waiting with
      | [] => s
      | cid :: _ => if ringCount q.tail q.head q.n = q.n then s else drainCq n (completeWrite s cid) fn cqid

/-- COMPLETION_WRITE (R93). -/
def execCompletionWrite (cid : Nat) (s : State) : Out := .next (if serving s then completeWrite s cid else s)

/-! ### Polling -/

/-- Queue identifiers of a function, keeper queue included, rising. -/
def pollIds (s : State) (fn : Nat) : List Nat :=
  ((qidsOf s.sqs fn ++ qidsOf s.cqs fn).foldl (fun a q => insertNat q a) [0])

/-- A CQ has a completion waiting. -/
def cqWaits (s : State) (fn qid : Nat) : Bool := (getCq s fn qid).any fun c => c.waiting != []

/-- The reads of a pass, in ascending queue identifier: a queue, and whether the line is its CQ's (R80). -/
def passReads (s : State) (fn : Nat) : List (Nat × Bool) :=
  (pollIds s fn).flatMap fun q =>
    (if (getSq s fn q).any (fun x => x.st == .enabled) then [(q, false)] else []) ++ (if cqWaits s fn q then [(q, true)] else [])

/-- Issue doorbell reads in order while there are tags for them; the others wait (R80, R433). -/
def issueReads (fn : Nat) : List (Nat × Bool) → State → State
  | [], s => s
  | r :: rest, s =>
    if canRead s fn (r == (0, false)) then
      issueReads fn rest (emit (modFn s fn fun x => { x with dbReads := x.dbReads ++ [r] })
        (.read fn (dbBlock s fn r.1 + (if r.2 then 0x40 else 0)) 64))
    else modFn s fn fun x => { x with dbTodo := r :: rest }

/-- The reads of a pass that the device still makes: of SQs that are still ENABLED, of a function that is not OFF (R80). -/
def liveReads (s : State) (fn : Nat) (l : List (Nat × Bool)) : List (Nat × Bool) :=
  if (getFn s fn).power = .off then [] else l.filter fun r => r.2 || (getSq s fn r.1).any fun q => q.st == .enabled

/-- The pass goes on with the reads it has not issued. -/
def goOnPass (s : State) (fn : Nat) : State :=
  issueReads fn (liveReads s fn (getFn s fn).dbTodo) (modFn s fn fun x => { x with dbTodo := [] })

/-- A pass has finished: every read is issued and has come back (R80), those of queues that have stopped since included. -/
def passOver (f : Fn) : Bool := f.dbTodo == [] && f.dbReads == [] && f.late.all fun e => decide (2 ≤ e.1)

/-- The function becomes idle once 64 unchanged passes in a row have finished (R81). -/
def endPass (s : State) (fn : Nat) : State :=
  if passOver (getFn s fn) && decide (64 ≤ (getFn s fn).unchanged) then modFn s fn fun x => { x with activity := false } else s

/-- The interval after a pass, in units of 0.25 µs: 64 unchanged passes make the function idle, and each further one
doubles it up to 1 ms (R81). -/
def nextInterval (f : Fn) (unchanged : Nat) : Nat :=
  if f.kq.noBackoff || unchanged ≤ 64 then f.kq.active.toNat else min 4000 (2 * max f.interval f.kq.active.toNat)

/-- A pass starts; it counts as unchanged until a read shows a changed tail (R80, R81). -/
def startPass (s : State) (fn : Nat) : State :=
  let f := getFn s fn
  let busy := (pollIds s fn).any (cqWaits s fn) || f.kq.noBackoff
  let u := if busy then 0 else f.unchanged + 1
  let i := nextInterval f u
  let s1 := modFn s fn fun x => { x with
    unchanged := u, activity := x.activity || busy, interval := i, nextPass := s.sys.tick + BitVec.ofNat 64 (25 * i) }
  endPass (issueReads fn (passReads s fn) s1) fn

/-- POLL_PASS (R80, R81): a pass starts one interval after the last one, and not before that one has finished; one that lacked tags
goes on. -/
def execPollPass (fn : Nat) (s : State) : Out :=
  .next (let f := getFn s fn
    if !(fnExists s fn && canReq s fn && f.power != .off) then s
    else if f.dbTodo != [] then goOnPass s fn
    else if passOver f && decide (f.nextPass.toNat ≤ tickNat s) then startPass s fn
    else s)

/-- The device takes a completion of a function's read now: one that comes after the write of an FLR is discarded (R316). -/
def takesReads (s : State) (fn : Nat) : Bool := serving s && (getFn s fn).flr != .requested

/-- A read has come back and its tag is free: the function's pass goes on, and so do the input reads of its port (R433). -/
def tagBack (s : State) (fn : Nat) : State := askPort (endPass (goOnPass s fn) fn) (portOf fn)

/-- An outstanding doorbell read has come back. -/
def readBack (s : State) (fn qid : Nat) (cq : Bool) : State :=
  tagBack (modFn s fn fun x => { x with dbReads := x.dbReads.erase (qid, cq) }) fn

/-- The read of a kind whose answer comes first is one that the device no longer wants (R99, R316). -/
def lateRead (s : State) (fn kind id : Nat) : Option (Nat × Nat) :=
  (getFn s fn).late.find? fun e => e.1 % 4 == kind && e.2 == id

/-- The answer of such a read is ignored; its tag is free. -/
def dropLate (s : State) (fn : Nat) (e : Nat × Nat) : State :=
  tagBack (modFn s fn fun x => { x with late := x.late.erase e }) fn

/-- A doorbell read comes back that the device is waiting for. -/
def awaited (s : State) (fn qid : Nat) (cq : Bool) : Bool :=
  takesReads s fn && (getFn s fn).dbReads.contains (qid, cq) && (lateRead s fn (b2n cq) qid).isNone

/-- A doorbell line's read comes back: `f` is what its answer does. Reads of one line are answered in the order they were made; an answer
that is not wanted frees its tag only. -/
def lineBack (s : State) (fn qid : Nat) (cq : Bool) (f : State → State) : State :=
  if !serving s then s
  else match lateRead s fn (b2n cq) qid with
    | some e => dropLate s fn e
    | none =>
      if awaited s fn qid cq then readBack (f s) fn qid cq
      else if (getFn s fn).dbReads.contains (qid, cq) then readBack s fn qid cq else s

/-- The tail or head of a doorbell line: its bytes 0 to 3, little-endian; the other 60 are ignored (R3, R74). -/
def lineIndex (line : Bytes) : Word := BitVec.ofNat 32 (le line 0 4)

/-- A tail read from an SQ's doorbell line (R78, R81); a read in flight when the SQ stopped is ignored (R99). -/
def readTail (s : State) (fn qid : Nat) (tail : Word) : State :=
  match getSq s fn qid with
  | none => s
  | some q =>
    if q.st ≠ .enabled then s
    else if !ringValid tail.toNat q.head q.n then errorSq (putSq s fn qid { q with dbFail := false }) fn qid .doorbellError tail
    else
      let s1 := putSq s fn qid { q with tail := tail.toNat, seen := tail.toNat, dbFail := false }
      if tail.toNat = q.seen then s1 else wakePolling s1 fn

/-- SQ_DOORBELL_READ (R74, R78). -/
def execSqDoorbellRead (fn qid : Nat) (line : Bytes) (s : State) : Out :=
  .next (lineBack s fn qid false fun t => readTail t fn qid (lineIndex line))

/-- A head read from a CQ's doorbell line (R79, R94): completions that finished while the CQ was full go first. -/
def readHead (s : State) (fn qid : Nat) (head : Word) : State :=
  match getCq s fn qid with
  | none => s
  | some q =>
    if (getFn s fn).power = .off then s
    else if decide (2 * q.n ≤ head.toNat) || decide (q.n < ringCount q.tail head.toNat q.n) then
      (let s1 := putCq s fn qid { q with badHead := true, dbFail := false }
       if q.badHead then s1 else record s1 0x100B fn (leBytes 2 qid ++ leBytes 2 0 ++ leBytes 4 head.toNat))
    else
      let s1 := if ringCount q.tail q.head q.n = q.n then joinFinished s fn qid q else s
      match getCq s1 fn qid with
      | none => s1
      | some p =>
        drainCq p.waiting.length (putCq s1 fn qid { p with head := head.toNat, badHead := false, dbFail := false }) fn qid

/-- CQ_DOORBELL_READ (R79, R94). -/
def execCqDoorbellRead (fn qid : Nat) (line : Bytes) (s : State) : Out :=
  .next (lineBack s fn qid true fun t => readHead t fn qid (lineIndex line))

/-- The DOORBELL_FAIL record (Table 120). -/
def recordDbFail (s : State) (fn qid : Nat) (cq : Bool) : State :=
  record s 0x100A fn (leBytes 2 qid ++ [BitVec.ofNat 8 (b2n cq)])

/-- A doorbell read failed: one record for each run of failures on a line (R82). -/
def failedRead (s : State) (fn qid : Nat) (cq : Bool) : State :=
  if cq then
    (match getCq s fn qid with
      | some q => if q.dbFail then s else recordDbFail (putCq s fn qid { q with dbFail := true }) fn qid true
      | none => s)
  else
    (match getSq s fn qid with
      | some q =>
        if q.dbFail || q.st ≠ .enabled then s else recordDbFail (putSq s fn qid { q with dbFail := true }) fn qid false
      | none => s)

/-- DOORBELL_FAIL (R82): the read is made again in the next pass. -/
def execDoorbellFail (fn qid : Nat) (cq : Bool) (s : State) : Out :=
  .next (lineBack s fn qid cq fun t => failedRead t fn qid cq)

/-! ### Push windows -/

/-- A read of BAR 2 (R83). -/
def pushRead (_fn _offset : Nat) : Word := 0

/-- One dword into a slot. -/
def pushDword (q : Sq) (slot i : Nat) (v : Word) : Sq :=
  { q with slots := q.slots.mapIdx fun k m => if k = slot then Map.put m i v else m }

/-- Consecutive dwords of a push. -/
def pushDwords (q : Sq) : Nat → Nat → Bytes → Sq
  | 0, _, _ => q
  | n + 1, off, d =>
    pushDwords (pushDword q (off / 64 % 4) (off / 4 % 16) (BitVec.ofNat 32 (le d 0 4))) n (off + 4) (d.drop 4)

/-- A write that touches a valid slot makes it invalid, and starts a new assembly there (R84). -/
def restartSlots (q : Sq) (slots : List Nat) : Sq :=
  { q with slots := q.slots.mapIdx fun k m => if slots.contains k && m.length = 16 then [] else m }

/-- The dwords of a request that fall into one queue's window are written (R83, R84, R86). -/
def pushWindow (s : State) (fn qid off n : Nat) (d : Bytes) : State :=
  match getSq s fn qid with
  | some q =>
    if q.st = .enabled && decide (qid ≤ 4095) then
      putSq s fn qid (pushDwords (restartSlots q ((List.range n).map fun i => (off + 4 * i) / 64 % 4)) n off d)
    else s
  | none => s

/-- The dwords of a request in ascending order, those of one window together; `fuel` bounds the windows. -/
def pushAll (s : State) (fn : Nat) : Nat → Nat → Bytes → State
  | 0, _, _ => s
  | fuel + 1, off, d =>
    let n := min (d.length / 4) (64 - off / 4 % 64)
    if n = 0 then s else pushAll (pushWindow s fn (off / 256) off n d) fn fuel (off + 4 * n) (d.drop (4 * n))

/-- PUSH_WRITE (R83, R84, R430, R453): whole aligned dwords of BAR 2; any write there ends the back-off (R81). -/
def execPushWrite (fn offset : Nat) (data : BarData) (s : State) : Out :=
  .next (if fnExists s fn && (getFn s fn).mse && portUp s fn && serving s && (getFn s fn).flr != .cleanup
        && decide (offset < 0x100000) then
      barData s fn data fun d =>
        let s1 := wakePolling s fn
        if offset % 4 = 0 && d.length % 4 = 0 then pushAll s1 fn (d.length / 4) offset d else s1
    else s)

/-! ### Fetch and acceptance -/

/-- The 64 bytes of an assembled slot. -/
def slotBytes (m : Map Word) : Bytes := m.flatMap fun e => leBytes 4 e.2.toNat

/-- The slot that may be taken at F in place of the ring read (R85). -/
def pushTaken (q : Sq) : Option Bytes :=
  let m := q.slots.toArray.getD (q.fetch % 4) []
  let b := slotBytes m
  if m.length = 16 && bit (le b 2 1) 3 && le b 3 1 == q.fetch % 256 then some b else none

/-- Slots of indices `F` to `F + k − 1` become invalid (R86). -/
def passSlots (q : Sq) (k : Nat) : Sq :=
  { q with slots := q.slots.mapIdx fun i m => if (List.range k).any fun j => (q.fetch + j) % (2 * q.n) % 4 == i then [] else m }

/-- F lies before the tail, and how far (R88). -/
def behindTail (q : Sq) : Nat := ringCount q.tail q.head q.n - ringCount q.fetch q.head q.n

/-- Entries one ring read fetches: at most eight, to the ring's end, within 16 unaccepted and the CQ's allowance (R88, R89). -/
def fetchCount (q : Sq) (room : Nat) : Nat :=
  min (min 8 (behindTail q)) (min (q.n - q.fetch % q.n) (min (16 - unaccepted q) room))

/-- An SQ can fetch now: its function is ON (Table 50), and there is a push to take, or an entry before the tail whose read may be issued (R88, R433). -/
def canFetch (s : State) (fn qid : Nat) : Bool :=
  serving s && (getFn s fn).power == .on && (getSq s fn qid).any fun q => q.st == .enabled && decide (unaccepted q < 16) &&
    ((getCq s fn q.cq).any fun c => decide (c.reserved < c.allow)) &&
    ((pushTaken q).isSome || (behindTail q != 0 && canRead s fn (qid == 0)))

/-- SQs of a port that can fetch, by their keys. -/
def fetchers (s : State) (p : Nat) : List Nat :=
  (s.sqs.map (·.1)).filter fun k => portOf (k / 4096) == p && canFetch s (k / 4096) (k % 4096)

/-- The SQ of a port that the fetch unit serves next: round robin by function, and in a function by queue identifier (R89; log 80). -/
def nextFetch (s : State) (p : Nat) : Option (Nat × Nat) :=
  let ks := fetchers s p
  (nextAfter (ks.map (· / 4096)) (getPort s p).lastFetch).bind fun fn =>
    (nextAfter ((ks.filter fun k => k / 4096 == fn).map (· % 4096)) (getFn s fn).lastSq).map fun q => (fn, q)

/-- The fetch of one turn of an SQ (R85, R88). -/
def fetchTurn (s : State) (fn qid : Nat) (q : Sq) (c : Cq) : State :=
  let room := c.allow - c.reserved
  if room = 0 || 16 ≤ unaccepted q then s
  else match pushTaken q with
    | some b =>
      let q1 := passSlots q 1
      putCq (putSq s fn qid { q1 with ready := q.ready ++ [(q.fetch, b)], fetch := ringNext q.fetch q.n }) fn q.cq
        { c with reserved := c.reserved + 1 }
    | none =>
      let k := fetchCount q room
      if k = 0 || !canRead s fn (qid == 0) then s
      else
        let q1 := passSlots q k
        let s1 := putCq (putSq s fn qid { q1 with reads := q.reads ++ [(q.fetch, k)], fetch := (q.fetch + k) % (2 * q.n) })
          fn q.cq { c with reserved := c.reserved + k }
        emitRead s1 fn (sqBase s fn qid q + BitVec.ofNat 64 (64 * (q.fetch % q.n))) (64 * k)

/-- The fetch unit of the function's port has served this SQ. -/
def noteFetch (s : State) (fn qid : Nat) : State :=
  modPort (modFn s fn fun x => { x with lastSq := some qid }) (portOf fn) fun p => { p with lastFetch := some fn }

/-- FETCH (R88, R89): the turn of the SQ the round robin has come to. -/
def execFetch (fn qid : Nat) (s : State) : Out :=
  .next (if nextFetch s (portOf fn) = some (fn, qid) then
      match getSq s fn qid with
      | some q =>
        (match getCq s fn q.cq with
          | some c => noteFetch (fetchTurn s fn qid q c) fn qid
          | none => s)
      | none => s
    else s)

/-- The oldest ring read of an SQ delivers its entries, or fails; the failed index is the first of the read (log 81). -/
def entriesRead (s : State) (fn qid : Nat) (q : Sq) (data : Option Bytes) : State :=
  match q.reads, data with
  | (i, k) :: rest, some d =>
    putSq s fn qid { q with
      reads := rest, ready := q.ready ++ (List.range k).map fun j => ((i + j) % (2 * q.n), padTo 64 (slice d (64 * j) 64)) }
  | (i, k) :: rest, none =>
    errorSq (unreserve (putSq s fn qid { q with reads := rest }) fn q.cq k) fn qid .fetchError (BitVec.ofNat 32 i)
  | [], _ => s

/-- ENTRY_READ_DONE (R101): a read that the device no longer wants frees its tag only. -/
def execEntryReadDone (fn qid : Nat) (data : Option Bytes) (s : State) : Out :=
  .next (if !serving s then s
    else match lateRead s fn 2 qid, getSq s fn qid with
      | some e, _ => dropLate s fn e
      | none, some q =>
        if q.reads = [] then s
        else if takesReads s fn then tagBack (entriesRead s fn qid q data) fn
        else tagBack (putSq s fn qid { q with reads := q.reads.tail }) fn
      | none, none => s)

/-- A sequencer has a free position for the entry; one position takes only keeper commands (R10, R108). -/
def positionFree (s : State) (seqr : Nat) (keeper : Bool) : Bool :=
  let held := s.cmds.filter fun c => c.seqr == seqr && c.origin.isNone
  decide (held.length < Config.positions) &&
    (keeper || decide ((held.filter fun c => !isKeeperOp c.entry).length < Config.positions - 1))

/-- FENCE lets the entry be accepted (R97). -/
def fenceOk (s : State) (fn qid : Nat) (q : Sq) (e : Bytes) : Bool :=
  (!flagBit e 0 || q.opened == 0) && !(s.cmds.any fun c => c.fn == fn && c.sq == qid && c.origin.isNone && flagBit c.entry 0)

/-- A command just accepted. -/
def newCmd (s : State) (fn qid seqr : Nat) (e : Bytes) : Cmd :=
  { id := s.nextId, fn := fn, sq := qid, seqr := seqr, entry := e, worldS := (getFn s fn).worldS, cls := (getFn s fn).cls,
    grants := (getFn s fn).grants, origin := none, originPos := 0, after := none, phase := .chainWait, input := none,
    berth := none, keyA := none, keyB := none, planId := 0, order := 0, body := [], segs := [], pos := 0, running := [], runSegs := [],
    hold := [], avoid := [], reran := false, cand := 0, rep := 0, reps := [], jump := none, verdict := none, frame := [], leaf := none, value := none,
    header := none, again := false, asked := false, refused := none, tooLong := false, pulls := [],
    buf := [], sent := 0, zeroDue := 0, finAt := 0, waitFrom := 0, staged := 0, orderB := 0, rnd := none, picks := [],
    xbar := [], dispatched := false, shares := [], issued := false, pulled := 0 }

/-- Accept the entry at the published head (R90) and run its checks, or let it wait for its chain (R98). The tail held
is never behind the head: an entry that a push brought, or that a tail moved back left behind, takes it along (R85). -/
def acceptEntry (s : State) (fn qid seqr : Nat) (q : Sq) (e : Bytes) : State :=
  let c0 := newCmd s fn qid seqr e
  let chained := q.chainLen != 0
  let long := decide (64 ≤ q.chainLen)
  let c : Cmd := { c0 with
    refused := modeErr s c0, after := if chained then some q.chainId else none, tooLong := chained && long }
  let goes := flagBit e 2 && !(chained && long)
  let q1 : Sq := { q with
    head := ringNext q.head q.n, opened := q.opened + 1, ready := q.ready.filter fun r => r.1 != q.head,
    tail := if q.tail = q.head then ringNext q.head q.n else q.tail,
    chainLen := if goes then q.chainLen + 1 else 0, chainId := c.id, chainOk := none }
  let s1 := statusLine (putSq { s with cmds := s.cmds ++ [c], nextId := s.nextId + 1 } fn qid q1) fn qid
  if !chained then startCmd s1 c.id
  else match q.chainOk with
    | some true => if long then fail s1 c.id .aborted 2 else startCmd s1 c.id
    | some false => fail s1 c.id .aborted 1
    | none => s1

/-- ACCEPT (R10, R90); a sequencer that is halted takes nothing (R399), and one that has acted on a control change takes nothing the change bars (R188). -/
def execAccept (fn qid : Nat) (sequencer : Fin 16) (s : State) : Out :=
  .next (match getSq s fn qid with
    | none => s
    | some q =>
      match q.ready.find? fun r => r.1 == q.head with
      | none => s
      | some (_, e) =>
        if serving s && unitRuns s sequencer.val && (getFn s fn).power == .on && q.st == .enabled && !closedTo s sequencer.val fn qid && positionFree s sequencer.val (isKeeperOp e) && fenceOk s fn qid q e then
          acceptEntry (unitStep s sequencer.val) fn qid sequencer.val q e
        else s)

/-- Input of a forwarded command goes to the device that asked for it (R418): the oldest pull's read has come back. -/
def sendPull (s : State) (c : Cmd) (k : Nat) (data : Bytes) : State :=
  match c.pulls, c.pulled with
  | (off, n) :: rest, p + 1 =>
    (pieces packetData n off (padTo n data)).foldl (fun t p => linkSend t k (.inData c.id p.1 p.2))
      (modCmd s c.id fun x => { x with pulls := rest, pulled := p })
  | _, _ => s

/-- The oldest outstanding input read of a command has come back. -/
def inputBack (c : Cmd) : Cmd := { c with asked := false, pulls := c.pulls.drop (min 1 c.pulled), pulled := c.pulled - 1 }

/-- What the answer of a command's oldest outstanding input read does (R101, R418). -/
def inputRead (s : State) (c : Cmd) (data : Bytes) (failed : Option Nat) : State :=
  match c.phase, failed with
  | .forwarded k, none => sendPull s c k data
  | .forwarded _, some o => endForwarded (modCmd s c.id inputBack) (inputBack c) .dmaError (((c.pulls.map (·.1)).head?).getD 0 + o)
  | .run, none => modCmd s c.id fun x => { x with input := some (padTo (inLen c.entry) data) }
  | .run, some o => fail (modCmd s c.id inputBack) c.id .dmaError o
  | _, _ => s

/-- A function with an outstanding input read of a command that no longer wants it. -/
def lateInput (s : State) (cid : Nat) : Option (Nat × (Nat × Nat)) :=
  s.fns.findSome? fun e => (lateRead s e.1 3 cid).map fun l => (e.1, l)

/-- INPUT_READ_DONE (R101): the input arrives, or its read fails at a byte offset. -/
def execInputReadDone (cid : Nat) (data : Bytes) (failed : Option Nat) (s : State) : Out :=
  .next (if !serving s then s
    else match lateInput s cid, getCmd s cid with
      | some l, _ => dropLate s l.1 l.2
      | none, some c =>
        if inputReads c = 0 then s
        else if takesReads s c.fn then askPort (inputRead s c data failed) (portOf c.fn)
        else askPort (modCmd s cid inputBack) (portOf c.fn)
      | none, none => s)

end Sys2Proof.Machine
end

