-- ==== Sys2Proof/Machine/Keeper.lean ====
section
/-!
DEFINITION. Keeper commands (R103 to R132): queues, functions, limits, the timetable, interrupts, topology, calendar,
environment, mode and the recorder. Berths, plans and the life cycle stand in their own files.
-/

namespace Sys2Proof.Machine

/-! ### The turn of a keeper command (R106, R109) -/

/-- Segments of a command have all ended. -/
def segsDone (c : Cmd) : Bool := decide (c.segs.length ≤ c.pos) && c.running == []

/-- The first failing operand of a keeper command. -/
def keeperOperands (c : Cmd) (bad : List Nat) : Err := (firstBad (reservedBad c.entry ++ bad)).map fun o => (.badParam, o)

/-- A keeper command without input: its checks, then its effect. -/
def runTurn (s : State) (cid op : Nat) (pre : Cmd → Err) (f : Cmd → State) : State :=
  match turnOf s cid op with
  | none => s
  | some c => match pre c with
    | some (st, d) => fail s cid st d
    | none => f c

/-- A keeper command with input: its checks come before the read, its effect after it (R106). -/
def runInput (s : State) (cid op : Nat) (pre : Cmd → Err) (f : Cmd → Bytes → State) : State :=
  runTurn s cid op pre fun c =>
    match c.input with
    | some d => f c d
    | none => if inLen c.entry = 0 then f c [] else askInput s cid

/-- A keeper command completes ST_OK with no output. -/
def done (s : State) (cid detail : Nat) : State := okOut s cid detail []

/-! ### Queues (R119 to R121) -/

/-- A power of two from 16 to 65,536. -/
def ringSize (n : Nat) : Bool := (List.range 13).any fun i => n == 2 ^ (i + 4)

/-- Created queues of a function in a map. -/
def createdOf {α : Type} (m : Map α) (fn : Nat) : Nat := ((qidsOf m fn).filter (· != 0)).length

/-- Created queues of the device in a map. -/
def createdAll {α : Type} (m : Map α) : Nat := (m.filter fun e => e.1 % 4096 != 0).length

/-- A created queue exists. -/
def hasQueue {α : Type} (m : Map α) (fn qid : Nat) : Bool :=
  qid != 0 && decide (qid ≤ 4095) && (Map.get? m (qKey fn qid)).isSome

/-- Sum of the allowances of created CQs (R91). -/
def allowances (s : State) : Nat := ((s.cqs.filter fun e => e.1 % 4096 != 0).map fun e => e.2.allow).sum

/-- CREATE_SQ (R119). The SQ is ENABLED; of a function that has become DRAINING meanwhile it is DISABLED, since such a function has no
ENABLED SQ (R80; DESIGN CHOICE, log 104). -/
def execCreateSq (cid : Nat) (s : State) : Out :=
  .next (runTurn s cid 0x01 (fun c =>
      let e := c.entry
      let q := le e 48 2
      firstErr [
        keeperOperands c (need 40 (le e 40 8 % 4096 == 0)
          ++ need 48 (decide (1 ≤ q) && decide (q ≤ 4095) && !hasQueue s.sqs c.fn q)
          ++ need 50 (decide (le e 50 2 ≤ 4095) && hasQueue s.cqs c.fn (le e 50 2)) ++ need 52 (ringSize (le e 52 4))),
        require (decide (createdOf s.sqs c.fn < (getFn s c.fn).sqLim)) .busy 1,
        require (decide (createdAll s.sqs < Config.queueTotal)) .busy 2])
    fun c =>
      let e := c.entry
      let st : SqState := if (getFn s c.fn).power = .draining then .disabled else .enabled
      let s1 := putSq s c.fn (le e 48 2) (Sq.fresh (BitVec.ofNat 64 (le e 40 8)) (le e 52 4) (le e 50 2) st)
      done (statusLine s1 c.fn (le e 48 2)) cid 0)

/-- CREATE_CQ (R119). -/
def execCreateCq (cid : Nat) (s : State) : Out :=
  .next (runTurn s cid 0x02 (fun c =>
      let e := c.entry
      let q := le e 48 2
      let a := le e 56 2
      let allow := if a = 0 then 64 else a
      firstErr [
        keeperOperands c (need 40 (le e 40 8 % 4096 == 0)
          ++ need 48 (decide (1 ≤ q) && decide (q ≤ 4095) && !hasQueue s.cqs c.fn q) ++ need 52 (ringSize (le e 52 4))
          ++ need 56 (a == 0 || (decide (16 ≤ a) && decide (a ≤ 4096))) ++ need 58 (decide (le e 58 2 < 2048))),
        require (decide (createdOf s.cqs c.fn < (getFn s c.fn).cqLim)) .busy 1,
        require (decide (createdAll s.cqs < Config.queueTotal)) .busy 2,
        require (decide (allowances s + allow ≤ Config.wharfSlots)) .busy 3])
    fun c =>
      let e := c.entry
      let a := le e 56 2
      done (putCq s c.fn (le e 48 2)
        (Cq.fresh (BitVec.ofNat 64 (le e 40 8)) (le e 52 4) (if a = 0 then 64 else a) (le e 58 2))) cid 0)

/-- An SQ of the function with no command open that may be destroyed (R120). -/
def sqIdle (s : State) (fn qid : Nat) : Bool :=
  (getSq s fn qid).any fun q => q.opened == 0 && (q.st == .disabled || q.st == .doorbellError || q.st == .fetchError)

/-- DESTROY_SQ (R120). -/
def execDestroySq (cid : Nat) (s : State) : Out :=
  .next (runTurn s cid 0x03 (fun c =>
      firstErr [keeperOperands c (need 48 (hasQueue s.sqs c.fn (le c.entry 48 2))),
        require (sqIdle s c.fn (le c.entry 48 2)) .busy 4])
    fun c =>
      let q := le c.entry 48 2
      let s1 := lastLine (stopSq s c.fn q .destroyed 0) c.fn q
      done { s1 with sqs := Map.del s1.sqs (qKey c.fn q) } cid 0)

/-- DESTROY_CQ (R120, R336). -/
def execDestroyCq (cid : Nat) (s : State) : Out :=
  .next (runTurn s cid 0x04 (fun c =>
      let q := le c.entry 48 2
      firstErr [keeperOperands c (need 48 (hasQueue s.cqs c.fn q)),
        require (!cqWaits s c.fn q && !((qidsOf s.sqs c.fn).any fun i => i != 0 && (getSq s c.fn i).any fun x => x.cq == q)) .busy 5])
    fun c => done { s with cqs := Map.del s.cqs (qKey c.fn (le c.entry 48 2)) } cid 0)

/-- DISABLE_SQ (R121). -/
def execDisableSq (cid : Nat) (s : State) : Out :=
  .next (runTurn s cid 0x05 (fun c => keeperOperands c (need 48 (hasQueue s.sqs c.fn (le c.entry 48 2))))
    fun c =>
      let q := le c.entry 48 2
      done (disableSq s c.fn q) cid (((getSq s c.fn q).map (·.head)).getD 0))

/-- ENABLE_SQ (R121); a function that has been QUENCHED since its acceptance gets ST_HELD (R111). -/
def execEnableSq (cid : Nat) (s : State) : Out :=
  .next (runTurn s cid 0x06 (fun c =>
      let q := le c.entry 48 2
      firstErr [require (!(getFn s c.fn).quenched) .held 0, keeperOperands c (need 48 (hasQueue s.sqs c.fn q)),
        require (!((getSq s c.fn q).any fun x => x.st == .draining)) .busy 4])
    fun c =>
      let q := le c.entry 48 2
      done (if (getSq s c.fn q).any (fun x => x.st == .enabled) then s else enableSq s c.fn q) cid 0)

/-! ### Functions (R111 to R118) -/

/-- The issuer may act on a function: its own VFs, or any other function for the keeper function (R105). -/
def mayAct (s : State) (fn t : Nat) : Bool :=
  fnExists s t && t != fn && (fn == keeperFn s || (portOf fn == portOf t && vfOf t != 0))

/-- FUNC operand at 40 of a keeper command. -/
def funcBad (s : State) (c : Cmd) : List Nat := need 40 (mayAct s c.fn (le c.entry 40 2))

/-- FUNC_ENABLE (R115, R116). A quenched target counts as draining while it has accepted commands, those it accepted after it had
drained included (log 83). -/
def execFuncEnable (cid : Nat) (s : State) : Out :=
  .next (runTurn s cid 0x10 (fun c => firstErr [keeperOperands c (funcBad s c),
      require ((getFn s (le c.entry 40 2)).heldEnable.isNone) .busy 6])
    fun c =>
      let t := le c.entry 40 2
      let f := getFn s t
      if f.power = .draining || (f.power = .on && f.quenched && openOf s t != 0) then
        modCmd (modFn s t fun x => { x with heldEnable := some cid }) cid fun x => { x with phase := .effected }
      else done (modFn s t fun x => { x with power := .on, quenched := false }) cid 0)

/-- FUNC_QUENCH and FUNC_DISABLE have nothing to do: the target is not ON, or is quenched already (Table 51). -/
def quenchIdle (s : State) (t : Nat) (quench : Bool) : Bool :=
  (getFn s t).power != .on || (quench && (getFn s t).quenched)

/-- A FUNC_QUENCH or FUNC_DISABLE waits for the next dispatch boundary; in Held it takes effect at once (R38, R188). -/
def requestChange (s : State) (c : Cmd) (effect : State → Cmd → State) : State :=
  if s.sys.mode = .held then completeSignalled (effect s c) [c.id]
  else addChange (modCmd s c.id fun x => { x with phase := .effected }) 0 c.id

/-- FUNC_DISABLE (R113). -/
def execFuncDisable (cid : Nat) (s : State) : Out :=
  .next (runTurn s cid 0x11 (fun c => keeperOperands c (funcBad s c)) fun c =>
    if quenchIdle s (le c.entry 40 2) false then done s cid (openOf s (le c.entry 40 2)) else requestChange s c disableEffect)

/-- FUNC_QUENCH (R112). -/
def execFuncQuench (cid : Nat) (s : State) : Out :=
  .next (runTurn s cid 0x12 (fun c => keeperOperands c (funcBad s c)) fun c =>
    if quenchIdle s (le c.entry 40 2) true then done s cid (openOf s (le c.entry 40 2)) else requestChange s c quenchEffect)

/-- A FUNC_QUENCH or FUNC_DISABLE takes effect on the state its target has then (Table 51). -/
def changeEffect (s : State) (c : Cmd) : State :=
  let quench := opcode c.entry == 0x12
  if quenchIdle s (le c.entry 40 2) quench then done s c.id (openOf s (le c.entry 40 2))
  else if quench then quenchEffect s c else disableEffect s c

/-- A FUNC_QUENCH or FUNC_DISABLE whose boundary has come takes effect, and its completion is written (R112, R113). -/
def boundaryEffect (s : State) (cid op : Nat) : State :=
  match getCmd s cid with
  | none => s
  | some c =>
    if opcode c.entry = op && c.phase == .effected && serving s && changeDue s 0 cid then
      completeSignalled (changeEffect (dropChange s 0 cid) c) [cid]
    else s

/-- FUNC_DISABLE_EFFECT (R113). -/
def execFuncDisableEffect (cid : Nat) (s : State) : Out := .next (boundaryEffect s cid 0x11)

/-- QUENCH_DONE (R112). -/
def execQuenchDone (cid : Nat) (s : State) : Out := .next (boundaryEffect s cid 0x12)

/-- FUNC_DRAINED (R114). -/
def execFuncDrained (fn : Nat) (s : State) : Out :=
  .next (let f := getFn s fn
    if serving s && openOf s fn == 0 && (f.power == .draining || f.waiters != [] || f.heldEnable.isSome) then drainFn s fn
    else s)

/-- FUNC_SET_LIMITS (R117). -/
def execFuncSetLimits (cid : Nat) (s : State) : Out :=
  .next (runTurn s cid 0x13 (fun c =>
      let e := c.entry
      keeperOperands c (funcBad s c ++ need 42 (decide (le e 42 2 ≤ 4095)) ++ need 44 (decide (le e 44 2 ≤ 4095))
        ++ need 46 (decide (le e 46 1 ≤ 63)) ++ need 47 (decide (le e 47 1 ≤ 1)) ++ need 48 (decide (le e 48 4 ≤ 65536))
        ++ need 52 (decide (le e 52 4 ≤ 131072))))
    fun c =>
      let e := c.entry
      let t := le e 40 2
      let s1 := modFn s t fun x => { x with
        sqLim := le e 42 2, cqLim := le e 44 2, berthLim := le e 48 4, granLim := le e 52 4,
        nextCls := some (BitVec.ofNat 6 (le e 46 1), BitVec.ofNat 8 (le e 47 1)) }
      let s2 := if s.sys.mode = .held then classEffect (dropChange s1 2 t) t else addChange (dropChange s1 2 t) 2 t
      done s2 cid 0)

/-- CLASS_GRANTS_CHANGE (R117). -/
def execClassGrantsChange (fn : Nat) (s : State) : Out :=
  .next (if (getFn s fn).nextCls.isSome && serving s && changeDue s 2 fn then classEffect (dropChange s 2 fn) fn else s)

/-- FUNC_SET_WORLD (R118). -/
def execFuncSetWorld (cid : Nat) (s : State) : Out :=
  .next (runTurn s cid 0x14 (fun c => firstErr [keeperOperands c (funcBad s c ++ need 42 (decide (le c.entry 42 1 ≤ 1))),
      require ((getFn s (le c.entry 40 2)).power == .off) .busy 7])
    fun c => done (modFn s (le c.entry 40 2) fun x => { x with worldS := le c.entry 42 1 == 1 }) cid 0)

/-! ### Timetable (R125) -/

/-- Slot entries of a buffer. -/
def tableOf (d : Bytes) : List (BitVec 16) := (List.range Config.timetableSlots).map fun i => BitVec.ofNat 16 (le d (2 * i) 2)

/-- LOAD_TIMETABLE (R125). -/
def execLoadTimetable (cid : Nat) (s : State) : Out :=
  .next (runInput s cid 0x20 (fun c => firstErr [keeperOperands c [], require (inLen c.entry == 8192) .badLength 8192])
    fun _ d =>
      let t := tableOf d
      if t.any fun e => e &&& 0xC0C0 != 0 then fail s cid .badParam 0xFFFF
      else modCmd { s with eng := { s.eng with nextTable := some (cid, t) } } cid fun x => { x with phase := .effected })

/-- The pending timetable replaces the one in force and its command completes (R125, R326); a table that came into force at this
slot 0 stays for a full cycle. -/
def replaceTable (s : State) : State :=
  match s.eng.fresh, s.eng.nextTable with
  | false, some (cid, t) => done { s with eng := { s.eng with table := some t, nextTable := none, fresh := true } } cid 0
  | _, _ => s

/-- TIMETABLE_REPLACE (R125): when the arbiter returns to slot 0. -/
def execTimetableReplace (s : State) : Out := .next (if s.eng.walking && s.eng.slot == 0 then replaceTable s else s)

/-! ### Interrupt set-up (R122 to R124, R336 to R340) -/

/-- A 16-byte target record is well-formed (R123, R337). -/
def targetOk (r : Bytes) : Bool := decide (le r 0 2 ≤ 1023) && le r 2 2 == 0 && le r 8 8 % 4 == 0

/-- Register, replace or remove a target (R123, R337); one that was removed and comes again is awake (log 84). -/
def putTarget (p : Port) (r : Bytes) : Port :=
  let i := le r 0 2
  let asleep := ((getTarget p i).map (·.asleep)).getD false
  let t : Target := { addr := BitVec.ofNat 64 (le r 8 8), data := BitVec.ofNat 32 (le r 4 4), asleep := asleep }
  let ts := if le r 8 8 = 0 then Map.del p.targets i else Map.put p.targets i t
  { p with targets := ts }

/-- A 48-byte vector set record is well-formed for the issuer's port (R123). -/
def vecSetOk (s : State) (fn : Nat) (r : Bytes) : Bool :=
  let n := le r 4 1
  fnExists s (le r 0 2) && portOf (le r 0 2) == portOf fn && decide (le r 2 2 < 2048) && decide (1 ≤ n) && decide (n ≤ 16)
    && decide (le r 5 1 < n) && decide (le r 6 2 ≤ 10000) && allZero (slice r 40 8)
    && ((List.range 16).all fun i => if i < n then decide (le r (8 + 2 * i) 2 ≤ 1023) else le r (8 + 2 * i) 2 == 0)

/-- Attach a vector set; its position starts at the last member (R338). -/
def putVecSet (p : Port) (r : Bytes) : Port :=
  let ms := (List.range (le r 4 1)).map fun i => le r (8 + 2 * i) 2
  let v : VecSet := { members := ms, wake := le r 5 1, hold := le r 6 2, last := le r 4 1 - 1 }
  { p with sets := Map.put p.sets (setKey (le r 0 2) (le r 2 2)) v }

/-- Records of a buffer. -/
def records (d : Bytes) (n size : Nat) : List Bytes := (List.range n).map fun i => slice d (size * i) size

/-- SET_TARGETS (R123). -/
def execSetTargets (cid : Nat) (s : State) : Out :=
  .next (runInput s cid 0x21 (fun c =>
      let e := c.entry
      let size := if le e 40 1 = 1 then 16 else 48
      firstErr [keeperOperands c (need 40 (le e 40 1 == 1 || le e 40 1 == 2)),
        require (inLen e == le e 42 2 * size) .badLength (le e 42 2 * size)])
    fun c d =>
      let e := c.entry
      let rs := records d (le e 42 2) (if le e 40 1 = 1 then 16 else 48)
      if le e 40 1 = 1 then
        if (rs.all targetOk) then done (deliverPort (modPort s (portOf c.fn) fun p => rs.foldl putTarget p) (portOf c.fn)) cid 0
        else fail s cid .badParam 0xFFFF
      else if (rs.all (vecSetOk s c.fn)) then
        done (deliverPort (modPort s (portOf c.fn) fun p => rs.foldl putVecSet p) (portOf c.fn)) cid 0
      else fail s cid .badParam 0xFFFF)

/-- SET_TARGET_STATE (R124): the states change when its completion is written (R340). -/
def execSetTargetState (cid : Nat) (s : State) : Out :=
  .next (runTurn s cid 0x22 (fun c =>
      keeperOperands c (need 40 (le c.entry 40 2 % 64 == 0 && decide (le c.entry 40 2 < 1024))))
    fun _ => done s cid 0)

/-- SET_MODERATION (R122, R336): the values apply from its completion (Rings, completionEffect). -/
def execSetModeration (cid : Nat) (s : State) : Out :=
  .next (runTurn s cid 0x23 (fun c =>
      let e := c.entry
      keeperOperands c (need 48 (hasQueue s.cqs c.fn (le e 48 2))
        ++ need 50 (decide (1 ≤ le e 50 2) && decide (le e 50 2 ≤ 4096)) ++ need 54 (decide (le e 54 2 ≤ 2047))))
    fun _ => done s cid 0)

/-! ### Surroundings (R126 to R128) -/

/-- LINK[k] of a SET_TOPOLOGY. -/
def linkOperand (e : Bytes) (k : Nat) : Nat := le e (48 + k) 1

/-- LINK operands that break R404, given POSITION and DEVICES. -/
def linksBad (e : Bytes) (position devices : Nat) : List Nat :=
  (List.range 8).flatMap fun k =>
    let l := linkOperand e k
    let before := ((List.range k).map (linkOperand e)).filter (· != 0xFF)
    need (48 + k) (l == 0xFF || (decide (l < devices) && l != position && decide (before.count l < 2)
      && (before.count l == 0 || !(before.any fun x => x != l && decide (2 ≤ before.count x)))))

/-- Operands of SET_TOPOLOGY (R106, R126, R404): DEVICES on its own first. -/
def topologyBad (e : Bytes) : List Nat :=
  let d := le e 41 1
  if decide (1 ≤ d) && decide (d ≤ 8) then need 40 (decide (le e 40 1 < d)) ++ linksBad e (le e 40 1) d else [41]

/-- The topology in force has these operands. -/
def sameTopology (s : State) (e : Bytes) : Bool :=
  s.topo.position == le e 40 1 && s.topo.devices == le e 41 1 &&
    (List.range 8).all fun k => (getLink s k).peer == (if linkOperand e k = 0xFF then none else some (linkOperand e k))

/-- Links may train and key now (R407). -/
def linksMayTrain (s : State) : Bool := (s.lc.state == .owned || s.lc.state == .field) && running s

/-- A first SET_TOPOLOGY takes effect: the position, the peers, and training (R126, R406). -/
def setTopology (s : State) (e : Bytes) : State :=
  let p := le e 40 1
  let s1 : State := { s with
    topo := { s.topo with
      set := true, position := p, devices := le e 41 1,
      links := s.topo.links.mapIdx fun k l => { l with peer := if linkOperand e k = 0xFF then l.peer else some (linkOperand e k) } },
    keys := { s.keys with
      keys := Map.update s.keys.keys fun _ k => { k with ownerPos := p },
      berths := Map.update s.keys.berths fun _ b => { b with ownerPos := p } } }
  if linksMayTrain s then ((List.range 8).filter fun k => linkOperand e k != 0xFF).foldl startTraining s1 else s1

/-- SET_TOPOLOGY (R126, R404). -/
def execSetTopology (cid : Nat) (s : State) : Out :=
  .next (runTurn s cid 0x30 (fun c => firstErr [keeperOperands c (topologyBad c.entry),
      require (!s.topo.set || sameTopology s c.entry) .busy 8,
      require (s.topo.set || le c.entry 40 1 == 0 || s.keys.berths == []) .busy 0x0E])
    fun c => done (if s.topo.set then s else setTopology s c.entry) cid 0)

/-- The calendar is set at one instant (R298, R301, R302). -/
def setCalendar (s : State) (fn : Nat) (t : DWord) : State :=
  let before := time64Now s
  let sec : BitVec 40 := (t >>> 24).setWidth 40
  let frac : BitVec 15 := (t >>> 9).setWidth 15
  let stopped := s.backup.stopped
  let s1 : State := { s with
    backup := { s.backup with sec := sec, frac := frac, timeLost := stopped, timeUnset := false, cause := if stopped then 2 else 0 },
    time := { s.time with
      anchorSec := sec, anchorFrac := frac, anchorTick := s.sys.tick, anchored := true,
      calSets := satAdd s.time.calSets 1 255, noticed := false, second := none } }
  record s1 0x3003 (fn % 1024 + 1024 * s.lc.state.index) (leBytes 8 before.toNat ++ leBytes 8 (time64Now s1).toNat)

/-- Length SET_CALENDAR's input must have (R127). -/
def tokenLen (s : State) : Nat := if s.lc.state = .field then 4691 else 0

/-- The checks of a FIELD calendar token, in order (R127). -/
def tokenErr (s : State) (t : Nat) (d : Bytes) : Err :=
  let b := slice d 0 64
  firstErr [
    require ((ownerRoot s).any fun pk => Config.verify (0x1003, 0, 0) pk [] b (slice d 64 4627)) .keyDenied 1,
    require (slice b 0 4 == [0x54, 0x43, 0x41, 0x4C] && le b 4 4 == 0 && le b 8 8 == t && allZero (slice b 56 8)) .badParam 0xFFFF,
    require (le b 16 8 == s.time.epoch.toNat) .keyDenied 2,
    require (slice b 24 32 == deviceId s) .keyDenied 3,
    require (s.time.lastToken.all fun l => decide (l.toNat < t)) .keyDenied 4]

/-- A keeper command's plan is missing before it has read its input (R205). -/
def planErr (s : State) (c : Cmd) : Err := require (planResident s c.planId || c.input.isSome) .planMissing 0

/-- SET_CALENDAR (R127, R301): its segments run before it takes effect. -/
def execSetCalendar (cid : Nat) (s : State) : Out :=
  .next (runInput s cid 0x31 (fun c => firstErr [keeperOperands c [],
      require (inLen c.entry == tokenLen s || c.input.isSome) .badLength (tokenLen s), planErr s c])
    fun c d =>
      let t := le c.entry 40 8
      if !segsDone c || !running s then modCmd s cid fun x => { x with input := some d }
      else if s.lc.state = .field then
        match tokenErr s t d with
        | some (st, x) => fail s cid st x
        | none =>
          let s1 := setCalendar s c.fn (BitVec.ofNat 64 t)
          done { s1 with time := { s1.time with lastToken := some (BitVec.ofNat 64 t) } } cid 0
      else done (setCalendar s c.fn (BitVec.ofNat 64 t)) cid 0)

/-- Operands of SET_ENVIRONMENT by KIND (R128). -/
def environmentBad (e : Bytes) : List Nat :=
  let mv := le e 42 2
  let n := le e 44 4
  match le e 40 1 with
  | 1 => need 42 (decide (600 ≤ mv) && decide (mv ≤ 900)) ++ need 44 (n == 0)
  | 2 => need 42 (mv == 0) ++ need 44 (n == 0)
  | 3 => need 42 (mv == 0) ++ need 44 (decide (1 ≤ n) && decide (n ≤ 65536))
  | _ => [40]

/-- IN_LEN SET_ENVIRONMENT requires (R128). -/
def environmentLen (e : Bytes) : Nat :=
  match le e 40 1 with
  | 2 => 64
  | 3 => 64 * le e 44 4
  | _ => 0

/-- A VCORE setpoint is reported: its band holds for 10 ms (R46); bands in microvolts. -/
def reportVcore (s : State) (mv : Nat) : State :=
  let old := s.alarm.vcoreSet
  let band := if s.alarm.reported then (min old mv * 950, max old mv * 1050) else (570000, 945000)
  { s with alarm := { s.alarm with
    vcoreSet := mv, reported := true, reports := s.alarm.reports ++ [(band.1, band.2, s.sys.tick + 1000000)] } }

/-- The check of a chain-head record and its position (R128): a berth that R130 makes unknown to the command is not allocated. -/
def headErr (s : State) (c : Cmd) (pos : Nat) (r : Bytes) : Err :=
  if !allZero (slice r 2 14) then some (.badParam, 0xFFFF)
  else match Map.get? s.keys.berths (le r 0 2) with
    | none => some (.berthUnknown, pos)
    | some b => firstErr [require (berthVisible s c (le r 0 2) b) .berthUnknown pos,
        require (bit b.bflags.toNat 1 && b.lastEpoch != s.time.epoch) .badParam 0xFFFF]

/-- Apply a chain-head record (R306). -/
def putHead (s : State) (r : Bytes) : State := modBerth s (le r 0 2) fun b => { b with chainHead := slice r 16 48, resume := true }

/-- SET_ENVIRONMENT (R128). -/
def execSetEnvironment (cid : Nat) (s : State) : Out :=
  .next (runInput s cid 0x32 (fun c => firstErr [keeperOperands c (environmentBad c.entry),
      require (inLen c.entry == environmentLen c.entry) .badLength (environmentLen c.entry)])
    fun c d =>
      let e := c.entry
      match le e 40 1 with
      | 1 => done (reportVcore s (le e 42 2)) cid 0
      | 2 => done (record { s with lc := { s.lc with boardId := some d } } 0x3002 c.fn (slice d 0 16)) cid 0
      | _ =>
        let rs := records d (le e 44 4) 64
        match firstErr (rs.mapIdx fun i r => headErr s c i r) with
        | some (st, x) => fail s cid st x
        | none => done (rs.foldl putHead s) cid 0)

/-! ### The plan store (R131, R204, R205) -/

/-- Bytes of the plan store (Table 12). -/
def storeBytes (s : State) : Nat := if s.otp.variant32 then 1073741824 else 536870912

/-- Bytes the owner plans' images take. -/
def storeUsed (s : State) : Nat := (s.eng.plans.map fun e => e.2.length + 4627).sum

/-- The store cannot take a body under an identifier (R205, Table 12). -/
def storeFull (s : State) (id len : Nat) : Bool :=
  let old := (Map.get? s.eng.plans id).map fun b => b.length + 4627
  (old.isNone && decide (Config.ownerPlans ≤ s.eng.plans.length))
    || decide (storeBytes s < storeUsed s - old.getD 0 + len + 4627)

/-- An accepted PLAN_RUN of this device's engines names a plan and is still open. -/
def planOpen (s : State) (id : Nat) : Bool :=
  s.cmds.any fun c => opcode c.entry == 0x0801 && le c.entry 40 4 == id && !remote s c

/-- Drop a plan: its image and its working copy. -/
def dropPlan (s : State) (id : Nat) : State :=
  { s with eng := { s.eng with plans := Map.del s.eng.plans id, copies := Map.del s.eng.copies id } }

/-- The plan takes its place in the store and serves the commands accepted from then on (R131): from the instant the LOAD_PLAN finishes, also
where its completion entry is written later (DESIGN CHOICE, log 106). -/
def storePlan (s : State) (cid : Nat) (b : Bytes) : State :=
  let s1 := gmFresh (dropPlan s (le b 8 4)) (.planStore (le b 8 4) 0)
  done { s1 with eng := { s1.eng with plans := Map.put s1.eng.plans (le b 8 4) b } } cid 0

/-- A LOAD_PLAN that waited for the open commands of the plan it replaces and for the boundary; in Held, where no
boundary comes, once those commands are done (R38). -/
def loadLater (s : State) (c : Cmd) : State :=
  let d := c.input.getD []
  let b := slice d 0 (le d 16 4)
  if opcode c.entry = 0x50 && serving s && !planOpen s (le b 8 4) && changeDue s 0 c.id then
    (if storeFull s (le b 8 4) b.length then fail (dropChange s 0 c.id) c.id .busy 0x0A
     else storePlan (dropChange s 0 c.id) c.id b)
  else s

/-! ### Recorder and mode (R132, R38, R39) -/

/-- RECORDER_MARK (R132). -/
def execRecorderMark (cid : Nat) (s : State) : Out :=
  .next (runTurn s cid 0x70 (fun c => keeperOperands c []) fun c => done (record s 0x3001 c.fn (slice c.entry 40 16)) cid 0)

/-- A command's control change takes effect (R188): FUNC_QUENCH, FUNC_DISABLE or the replacement of a plan. -/
def commandEffect (s : State) (c : Cmd) : State := if opcode c.entry = 0x50 then loadLater s c else changeEffect s c

/-- A command's control change waits for a boundary. -/
def changeWaits (c : Cmd) : Bool := c.phase == .effected && [0x11, 0x12, 0x50].contains (opcode c.entry)

/-- The FLRs that wait for a boundary of their own take effect. -/
def flrEffects (s : State) : State :=
  ((s.fns.filter fun e => e.2.flr == .requested && !(s.eng.changes.any fun x => x.1 == 3 && x.2.1 == portOf e.1)).map (·.1)).foldl
    (fun t f => resetFn t f 0) s

/-- At entry to Held every change that waits for a boundary takes effect at once, those of commands in acceptance order (R38); a LOAD_PLAN
that waits for open commands needs no boundary any more. The signals pend until the completions are written (R332). -/
def heldEffects (s : State) : State :=
  let s1 := flrEffects ((s.cmds.filter changeWaits).foldl commandEffect s)
  let s2 := (portsWaiting s1).foldl takePort s1
  let s3 := ((s2.fns.filter fun e => e.2.nextCls.isSome).map (·.1)).foldl classEffect s2
  { s3 with eng := { s3.eng with
      changes := (s3.cmds.filter fun c => c.phase == .effected && opcode c.entry == 0x50).map fun c => (0, c.id, 0xFFFF) } }

/-- The commands of an engine whose fault fired the HOLD: their frames are released, and they rerun at MODE_RESUME, or complete now
(R215). -/
def heldFault (s : State) (e : Nat × Nat × Nat) : State :=
  (holders s e.1 e.2.1).foldl (fun t c => faultCmd t c.id e.2.2 e.1 e.2.1) s

/-- Every such engine's commands. -/
def heldFaults (s : State) : State :=
  let s1 := s.eng.faulted.foldl heldFault s
  { s1 with eng := { s1.eng with faulted := [] } }

/-- Entry to Held (R38): engines stop at a step boundary, with every command in place, and their stall timers stop. -/
def enterHeld (s : State) (alarm : Bool) : State :=
  let s1 : State := { s with sys := { s.sys with heldReturn := s.sys.mode, byAlarm := alarm, heldSince := s.sys.tick } }
  heldEffects (heldFaults (recordMode (setMode s1 .held (if alarm then 3 else 2))))

/-- The stall timers go on where they stopped at the entry to Held (R38). -/
def resumeTimers (s : State) : State :=
  { s with eng := { s.eng with lastStep := Map.update s.eng.lastStep fun _ t => t + (s.sys.tick - s.sys.heldSince) } }

/-- Completions of FUNC_QUENCH and FUNC_DISABLE that took effect are written, and the signals go out (R38). -/
def writeChanges (s : State) : State :=
  completeSignalled s ((s.cmds.filter fun c => (opcode c.entry == 0x11 || opcode c.entry == 0x12) && c.origin.isNone).map (·.id))

/-- MODE_HOLD (R38, R39). -/
def execModeHold (cid : Nat) (s : State) : Out :=
  .next (runTurn s cid 0x71 (fun c => keeperOperands c []) fun _ =>
    if s.sys.mode = .held then done s cid 0
    else if opposed s 7 then s
    else writeChanges (enterHeld (done s cid 0) false))

end Sys2Proof.Machine
end

