-- ==== Sys2Proof/Machine/Place.lean ====
section
/-!
DEFINITION. What operation commands share: when a row may act, draws that wait (R361), placing a new key (R143, R265 to
R267), the attribute block (R270), and seal headers (R307).
-/

namespace Sys2Proof.Machine

/-- A named key's tail is on-chip (R280). -/
def tailsHere (s : State) (c : Cmd) : Bool := (keyAt s c.keyA).all (fun k => !k.spilled) && (keyAt s c.keyB).all fun k => !k.spilled

/-- A named berth is on-chip (R285). -/
def berthHere (s : State) (c : Cmd) : Bool := (c.berth.bind (Map.get? s.keys.berths)).all fun b => !b.spilled

/-- An operation command may act: engines run, its opcode is the row's, its input is there, what it names is on-chip (R280, R285) and its
segments have ended. -/
def opReady (s : State) (cid op : Nat) : Option (Cmd × Bytes) :=
  if !running s then none
  else match getCmd s cid with
    | none => none
    | some c =>
      match c.phase, c.input with
      | .run, some d => if opcode c.entry == op && segsDone c && tailsHere s c && berthHere s c then some (c, d) else none
      | .drawWait _, some d => if opcode c.entry == op && segsDone c && tailsHere s c && berthHere s c then some (c, d) else none
      | _, _ => none

/-- A draw cannot be served now: the wait of R361 starts, or goes on. -/
def waitDraw (s : State) (cid : Nat) : State :=
  modCmd s cid fun c => { c with phase := match c.phase with
    | .drawWait t => .drawWait t
    | _ => .drawWait s.sys.tick }

/-- A wait for a draw has lasted more than 2 ms (R361). -/
def drawLate (s : State) (c : Cmd) : Bool :=
  match c.phase with
  | .drawWait t => decide (200000 < tickNat s - t.toNat)
  | _ => false

/-- The wait for a draw in which a command stood has ended; a wait that started since goes on (R361). -/
def endDraw (s : State) (cid : Nat) (p : Phase) : State :=
  match p with
  | .drawWait _ => modCmd s cid fun c => { c with phase := if c.phase = p then .run else c.phase }
  | _ => s

/-- Run an operation: `none` means a draw must wait, for at most 2 ms; where its draws are served the wait is over (R361). -/
def runOp (s : State) (cid op : Nat) (k : Cmd → Bytes → Option State) : State :=
  match opReady s cid op with
  | none => s
  | some (c, d) =>
    match k c d with
    | some t => endDraw t cid c.phase
    | none => if drawLate s c then fail s cid .rngFault 0 else waitDraw s cid

/-- A status other than ST_OK; a command that missed inserts what it built, however it ends (R200). -/
def bad (s : State) (c : Cmd) (st : Status) (d : Nat) : Option State := some (fail (cacheBuild s c) c.id st d)

/-- ST_OK with output of the length R140 gives. -/
def good (s : State) (c : Cmd) (detail n : Nat) (out : Bytes) : Option State :=
  some (okOut (cacheBuild s c) c.id detail (padTo n out))

/-- Draw `n` bytes, then go on; none while the generator cannot serve it. -/
def withDraw (s : State) (n : Nat) (k : Bytes → State → Option State) : Option State :=
  if n = 0 then k [] s else (draw s n).bind fun r => k r.1 r.2

/-- The command's input randomness (R197): what its segments drew at their dispatches, and a draw now of what they left. -/
def withRnd (s : State) (c : Cmd) (k : Bytes → State → Option State) : Option State :=
  withDraw s (rndNeed s c.entry c.keyA c.keyB - (c.rnd.getD []).length) fun r t => k (c.rnd.getD [] ++ r) t

/-! ### New keys -/

/-- The lowest `k` free general granules (R265). -/
def lowestFree (s : State) (k : Nat) : List Nat :=
  let used := usedGranules s
  ((List.range (min Config.generalGranules (used.length + k))).filter fun g => !used.contains g).take k

/-- Tail granules of a key of `l` bytes (R264). -/
def tailGranules (l : Nat) : Nat := keyGranules l - 1

/-- A key with the attributes of NKD, owned by the issuer and shared with no function (R143, R144). -/
def nkdKey (s : State) (c : Cmd) (typ origin : Nat) (priv : Bool) (bytes : Bytes) : Key :=
  { typ, origin, priv, destroyPending := false, markId := 0, len := bytes.length, shareA := bytes, shareB := zeros bytes.length, attrMask := zeros 32, owner := c.fn,
    ownerPos := posOf s c,
    share := List.replicate 4 0xFFFF, wholePort := false, attr := BitVec.ofNat 8 (le c.entry 58 1),
    uses := BitVec.ofNat 16 (le c.entry 56 2), lcMask := BitVec.ofNat 8 (le c.entry 59 1), tail := [], spilled := false,
    version := 0, used := 0 }

/-- Put a key at a granule. -/
def putKey (s : State) (g : Nat) (k : Key) : State :=
  { s with stamp := s.stamp + 1, keys := { s.keys with keys := Map.put s.keys.keys g { k with used := s.stamp + 1 } } }

/-- Where a new key goes: its head and tail granules, its tail in spill, a wait for a spill, or no room (R265, R266). -/
inductive Room where
  | at (head : Nat) (tail : List Nat)
  | spill (head : Nat)
  | wait
  | full
  deriving DecidableEq, Repr

/-- Room for a key of `l` bytes (R266, R280). -/
def roomFor (s : State) (l : Nat) : Room :=
  match lowestFree s (keyGranules l) with
  | [] => .full
  | h :: t =>
    if t.length = tailGranules l then .at h t
    else if keyGranules l ≤ freeGranules s + (spillGain s).1 then .wait
    else if keySpillUsed s + spillSize l ≤ keySpillBytes s then .spill h
    else .full

/-- Associated data of a spill record: the attribute block with FLAGS zero (R281). -/
def spillAad (k : Key) : Bytes := overwrite (attrBlock k false) 3 (zeros 1)

/-- IV of a spill record: the head granule and the key's version (R281). -/
def spillIv (g version : Nat) : Bytes := leBytes 4 g ++ leBytes 8 version

/-- The spill record of a key's tail: ciphertext and tag under the storage key, padded to whole blocks (R281). -/
def tailRecord (s : State) (g : Nat) (k : Key) : Bytes :=
  let r := aeadSeal 0x3001 16 s.bkeys.storage (spillIv g k.version) (spillAad k) (k.bytes.drop 32)
  padTo (spillSize k.len) (r.1 ++ r.2)

/-- A key whose tail is in its spill record: the register keeps the head (R264, R280). -/
def headOnly (k : Key) : Key := { k with shareA := k.shareA.take 32, shareB := k.shareB.take 32, tail := [], spilled := true }

/-- A key's tail goes to wrapped key spill under the next version (R280, R281). -/
def spillTail (s : State) (g : Nat) (k : Key) : State :=
  let k1 : Key := { k with version := k.version + 1 }
  gmFresh { s with keys := { s.keys with
    keys := Map.put s.keys.keys g (headOnly k1), tails := Map.put s.keys.tails g (tailRecord s g k1, spillAad k1) } } (.keySpill g 0)

/-- Place a new general key and complete with its granule in DETAIL and the output (R139, R143); while tails can be
spilled to make room the command waits for TAIL_SPILL. A decoded RSA-OAEP message has its length only now, so its charge is
judged here (R266). -/
def place (s : State) (c : Cmd) (k : Key) (n : Nat) (out : Bytes) : Option State :=
  if opcode c.entry = 0x0105 && !limitAllows s c (keyGranules k.len) then bad s c .busy 1
  else match roomFor s k.len with
  | .full => bad s c .busy 0x0A
  | .wait => some s
  | .at h t => (drawMasks (1 + t.length) s).bind fun r => good (putKey r.2 h (Key.granuled { k with tail := t } r.1)) c h n out
  | .spill h => (drawMasks 1 s).bind fun r =>
      good (spillTail (putKey r.2 h k) h (Key.granuled { k with used := s.stamp + 1 } r.1)) c h n out

/-- Place the derived secret of a command: type DKTYPE, origin 0x03 (Table 84). -/
def placeDerived (s : State) (c : Cmd) (bytes : Bytes) (n : Nat) (out : Bytes) : Option State :=
  place s c (nkdKey s c (le c.entry 60 2) 3 true bytes) n out

/-- The key bytes of a granule. -/
def keyBytes (s : State) (g : Option Nat) : Bytes := ((keyAt s g).map (·.bytes)).getD []

/-- TYPE of the key of a granule. -/
def keyType (s : State) (g : Option Nat) : Nat := ((keyAt s g).map (·.typ)).getD 0

/-! ### Keys under the storage wrapping key (Table 87) -/

/-- The tree seed key (R250, Table 87). -/
def treeSeedKey (s : State) : Bytes := Config.kmac256 32 ((swk s).getD []) [] (ascii "TURUND TREE")

/-- Associated data of a master seed: the tree and its generation (R250; layout: log 71). -/
def treeAad (t : Nat) (gen : BitVec 24) : Bytes := leBytes 2 t ++ leBytes 3 gen.toNat

/-- The bytes of a tree record in the persistent keys region (R250; layout: log 71). -/
def treeBytes (t : Nat) (r : TreeRec) : Bytes :=
  leBytes 2 t ++ leBytes 3 r.gen.toNat ++ leBytes 2 r.pset ++ leBytes 2 r.params.length ++ r.params ++ leBytes 2 r.owner
    ++ leBytes 2 r.uses.toNat ++ leBytes 1 r.attr.toNat ++ leBytes 1 r.lcMask.toNat ++ leBytes 2 r.pub.length ++ r.pub ++ r.iv ++ r.ct ++ r.tag

/-- A tree record as NVM holds it: sealed whole under the key of the boot ROM (R276). -/
def boxTree (t : Nat) (iv : Bytes) (r : TreeRec) : TreeRec := { r with box := sealPersist iv (treeBytes t r) }

/-- The master seed of a tree record, if it authenticates (R250). -/
def treeSeed (s : State) (t : Nat) (r : TreeRec) : Option Bytes :=
  let o := aeadOpen 0x3001 (treeSeedKey s) r.iv (treeAad t r.gen) r.ct r.tag
  if o.2 then some o.1 else none

/-! ### Seals (R176 to R178, R305, R307) -/

/-- Signature mode of a seal key: pure for ML-DSA, SLH-DSA and EdDSA; hashed for ECDSA (R177). -/
def sealMode (t : Nat) : Nat × Nat × Nat :=
  match t with
  | 0x1301 => (t, 1, 0x02)
  | 0x1302 => (t, 1, 0x03)
  | 0x1303 => (t, 1, 0x04)
  | _ => (t, 0, 0)

/-- The time is untrusted and the berth's policy is strict (R179). -/
def strictUntrusted (s : State) (b : Berth) : Bool := untrusted s && b.bflags.getLsbD 2

/-- A seal record header (Table 91). `kind` KIND, `supplied` DIGEST_SUPPLIED, `chunk` CHUNK_LEN. -/
def sealHeader (s : State) (c : Cmd) (i : Nat) (b : Berth) (kind seq alg : Nat) (supplied : Bool) (chunk : Nat)
    (digest prev : Bytes) : Bytes :=
  [0x54, 0x53, 0x45, 0x4C] ++ leBytes 2 1 ++ leBytes 1 kind
    ++ leBytes 1 (b2n s.backup.timeLost + 2 * b2n s.backup.timeUnset + 4 * b2n (untrusted s) + 8 * b2n s.time.tbFault + 16 * b2n supplied)
    ++ leBytes 2 i ++ leBytes 1 s.topo.position ++ leBytes 1 b.roleEpoch.toNat ++ leBytes 1 s.time.calSets ++ zeros 3
    ++ leBytes 8 s.time.epoch.toNat ++ leBytes 8 seq ++ leBytes 8 (time64Now s).toNat ++ leBytes 8 (tickNat s)
    ++ leBytes 2 (keyType s c.keyA) ++ leBytes 2 (keyType s c.keyB) ++ leBytes 2 alg ++ leBytes 2 digest.length
    ++ leBytes 8 chunk ++ padTo 64 digest ++ padTo 48 prev ++ deviceId s ++ padTo 12 b.label ++ leBytes 2 b.owner ++ zeros 34

/-- The signature of a slot's key over a header: the randomness at the start of `rnd`, the candidate `pick` (R177, R192). -/
def slotSig (s : State) (g : Option Nat) (hdr rnd : Bytes) (pick : Nat) : Bytes :=
  match keyAt s g with
  | some k => padTo (sigLen k.typ) (signWith (sealMode k.typ) false k.bytes [] hdr (rnd.take (signDraw k.typ 0 false)) pick)
  | none => []

/-- The place among the decided candidates of slot 1's: after slot 0's where that key is ML-DSA too (R192). -/
def pickB (s : State) (c : Cmd) : Nat := if famOf (keyType s c.keyA) = .mldsa then c.picks.getD 1 0 else c.picks.getD 0 0

/-- A header with its signatures: slot 0's, then any slot 1's (R177). -/
def sealSigned (s : State) (c : Cmd) (hdr rnd : Bytes) : Bytes :=
  hdr ++ slotSig s c.keyA hdr rnd (c.picks.getD 0 0) ++ slotSig s c.keyB hdr (rnd.drop (sealNeed s c.keyA)) (pickB s c)

/-- Sign a header with fresh randomness for each key and complete. -/
def sealOut (s : State) (c : Cmd) (hdr : Bytes) : Option State :=
  withRnd s c fun rnd s1 => good s1 c 0 (outLenOf s1 c c.keyA c.keyB) (sealSigned s1 c hdr rnd)

/-- Commands of a list of opcodes accepted before this one that satisfy a test and have not finished. -/
def earlierOpen (s : State) (c : Cmd) (ops : List Nat) (p : Cmd → Bool) : Bool :=
  s.cmds.any fun d => decide (d.id < c.id) && ops.contains (opcode d.entry) && p d && (match d.phase with
    | .fin _ => false
    | .forwarded _ => false
    | _ => true)

end Sys2Proof.Machine
end

