-- ==== Sys2Proof/Machine/Berths.lean ====
section
/-!
DEFINITION. The keeper commands on berths (R129, R130, R284 to R287, R292), the source side of a move (R421), and what
becomes of the commands that named a key or berth that is gone.
-/

namespace Sys2Proof.Machine

/-! ### Keys and berths that are gone -/

/-- A command has not finished on this device. -/
def unfinished (c : Cmd) : Bool :=
  match c.phase with
  | .fin _ => false
  | .forwarded _ => false
  | _ => true

/-- Commands that named a key that is gone and have not finished complete ST_KEY_EMPTY (Table 10). -/
def emptyNamers (s : State) (g : Nat) : State :=
  ((s.cmds.filter fun c => namesKey c g && unfinished c).map (·.id)).foldl (fun t cid => fail t cid .keyEmpty 0) s

/-- A key is lost: zeroised for good, and the commands that named it complete ST_KEY_EMPTY. -/
def loseKey (s : State) (g : Nat) : State := emptyNamers (zeroiseKey s g) g

/-- A berth is lost: freed, and the commands that named it and have not finished complete ST_BERTH_UNKNOWN. -/
def loseBerth (s : State) (i : Nat) : State :=
  ((s.cmds.filter fun c => c.berth == some i && unfinished c).map (·.id)).foldl (fun t cid => fail t cid .berthUnknown 0)
    (freeBerth s i)

/-! ### Indices and entries -/

/-- An index that no berth and no forwarding entry takes (R284, R422). -/
def indexFree (s : State) (i : Nat) : Bool := (Map.get? s.keys.berths i).isNone && (forwardAt s i).isNone

/-- The index the next berth takes: the lowest free one above the last, wrapping from 65,535 to 0 (R284). -/
def nextIndex (s : State) : Option Nat :=
  (List.range (min Config.berthTotal (s.keys.berths.length + s.topo.forwards.length + 1))).findSome? fun k =>
    let i := (s.keys.lastBerth + 1 + k) % Config.berthTotal
    if indexFree s i then some i else none

/-- An entry of the on-chip berth table is free (R285). -/
def entryFree (s : State) : Bool :=
  decide ((s.keys.berths.filter fun e => !e.2.spilled).length + s.keys.deadEntry.length < Config.berthTotal)

/-- IV of a berth's spill record: bit 31 set and the index, then the version (R285). -/
def berthIv (i version : Nat) : Bytes := leBytes 4 (0x80000000 + i) ++ leBytes 8 version

/-- The 256 bytes of a berth: the public view, then working state whose layout the spec does not give, free bytes (R286; log 71). -/
def berthPlain (s : State) (i : Nat) (b : Berth) : Bytes := berthView s i b ++ freeBytes 128 s.free

/-- A berth goes to berth spill under the next version (R281, R285). -/
def spillBerth (s : State) (i : Nat) (b : Berth) : State :=
  let b1 : Berth := { b with version := b.version + 1 }
  let r := aeadSeal 0x3001 16 s.bkeys.storage (berthIv i b1.version) [] (berthPlain s i b1)
  gmFresh { s with free := s.free + 128,
                   keys := { s.keys with berths := Map.put s.keys.berths i { b1 with spilled := true },
                                         views := Map.put s.keys.views i (r.1 ++ r.2) } } (.berthSpill i 0)

/-- A spill record read back passes the check of its tag under the current version (R281, R285). -/
def viewOk (s : State) (i : Nat) (b : Berth) (record : Bytes) : Bool :=
  record.length == 272 &&
    (aeadOpen 0x3001 s.bkeys.storage (berthIv i b.version) [] (record.take 256) (record.drop 256)).2

/-- Put a berth at an index, resident where an entry is free, else spilled (R285). -/
def placeBerth (s : State) (i : Nat) (b : Berth) : State :=
  let b1 : Berth := { b with spilled := false, version := 0, used := s.stamp + 1 }
  let s1 : State := { s with stamp := s.stamp + 1,
                             keys := { s.keys with berths := Map.put s.keys.berths i b1, lastBerth := i } }
  if entryFree s then s1 else spillBerth s1 i b1

/-! ### BERTH_ALLOC (R129, R287) -/

/-- OWNER of a BERTH_ALLOC: 0xFFFF the issuer, else a VF of an issuing PF (R129, Table 47). -/
def allocOwner (c : Cmd) : Nat := if le c.entry 40 2 = 0xFFFF then c.fn else le c.entry 40 2

/-- Operands of BERTH_ALLOC that break R105 (an OWNER that names the issuer by number fails) or R129, in ascending
offset. -/
def allocBad (s : State) (c : Cmd) : List Nat :=
  let o := le c.entry 40 2
  let fl := le c.entry 42 1
  need 40 (o == 0xFFFF || (fnExists s o && isPf c.fn && pfOf o == c.fn && o != c.fn))
    ++ need 42 (decide (fl ≤ 7) && (!bit fl 0 || isPf c.fn))

/-- A berth policy has no reserved bit set (Table 89). -/
def policyOk (d : Bytes) : Bool :=
  d == [] || (decide (le d 0 8 < 2 ^ 40) && decide (le d 8 1 < 8) && allZero (slice d 9 7) && allZero (slice d 28 4))

/-- A new berth: zero apart from what its allocation sets and the empty slots (R286, R304). -/
def newBerth (s : State) (owner flags : Nat) (d : Bytes) : Berth :=
  { owner := owner, ownerPos := s.topo.position, roleEpoch := 0, bflags := BitVec.ofNat 8 flags, lock0 := false,
    lock1 := false, slot0 := none, slot1 := none, chainHead := zeros 48, nextSeq := 0, lastEpoch := 0, resume := false,
    done := 0, failed := 0, inBytes := 0,
    opAllow := if d = [] then BitVec.ofNat 64 (2 ^ 40 - 1) else BitVec.ofNat 64 (le d 0 8),
    pflags := if d = [] then 0 else BitVec.ofNat 8 (le d 8 1), label := if d = [] then zeros 12 else slice d 16 12,
    spilled := false, version := 0, used := 0, freeing := false, incoming := none, moving := none }

/-- BERTH_ALLOC (R129). With every index taken the device is full, whatever room spill has (log 85). -/
def execBerthAlloc (cid : Nat) (s : State) : Out :=
  .next (runInput s cid 0x40 (fun c => firstErr [keeperOperands c (allocBad s c),
      require (inLen c.entry == 0 || inLen c.entry == 32) .badLength 32])
    fun c d =>
      let o := allocOwner c
      if !policyOk d then fail s cid .badParam 0xFFFF
      else if (getFn s o).berthLim ≤ berthCharge s o then fail s cid .busy 1
      else match nextIndex s with
        | none => fail s cid .busy 0x0A
        | some i => done (placeBerth s i (newBerth s o (le c.entry 42 1) d)) cid (mkHandle s.topo.position 0 i))

/-! ### The berth of a keeper command -/

/-- The keeper function of the device a command comes from (R419): a peer's is the one its KEEPER_SEL pins name. -/
def homeKeeper (s : State) (c : Cmd) : Nat :=
  if c.origin.isNone then keeperFn s else 128 * (Config.peerKeeper c.originPos % 8)

/-- The issuer is the owner's PF or the keeper function of its device (Table 47, R419). -/
def moverOf (s : State) (c : Cmd) (o p : Nat) : Bool := p == posOf s c && (pfOf o == c.fn || c.fn == homeKeeper s c)

/-- A keeper command that names a berth, at its turn: it is forwarded, sent on, waits, fails, or acts on the berth, which
it names from then on (R130, R291, R423). -/
def runBerth (s : State) (cid op : Nat) (pre : Cmd → Err) (may : Cmd → Nat → Nat → Bool) (f : Cmd → Nat → Berth → State) :
    State :=
  match turnOf s cid op with
  | none => s
  | some c =>
    if remote s c then retryBerth (forwardTo s c c.entry)
    else match pre c with
      | some (st, d) => fail s cid st d
      | none =>
        match findBerth s c (may c) with
        | .wait => s
        | .err st d => if st = .berthMoved && mayRedirect s c then redirect s cid d else fail s cid st d
        | .berth i b => f { c with berth := some i } i b

/-- The command names the berth. -/
def nameBerth (s : State) (cid i : Nat) : State := modCmd s cid fun c => { c with berth := some i }

/-! ### BERTH_FREE and BERTH_QUERY (R130) -/

/-- BERTH_FREE (R130): the berth becomes unknown to commands accepted after it. -/
def execBerthFree (cid : Nat) (s : State) : Out :=
  .next (runBerth s cid 0x41 (fun c => keeperOperands c []) (ownerOrPf s) fun _ i _ =>
    modCmd (modBerth s i fun b => { b with freeing := true }) cid fun c => { c with phase := .effected, berth := some i })

/-- BERTH_FREE_DONE (R130, R292): every command accepted earlier that names the berth has completed. -/
def execBerthFreeDone (cid : Nat) (s : State) : Out :=
  .next (match getCmd s cid with
    | none => s
    | some c =>
      match serving s && opcode c.entry == 0x41 && c.phase == .effected, c.berth with
      | true, some i =>
        if (s.cmds.any fun d => d.id != cid && (d.berth == some i || (decide (d.id < cid) && namesBerth s d i))) then s
        else done (freeBerth s i) cid 0
      | _, _ => s)

/-- BERTH_QUERY (R130). -/
def execBerthQuery (cid : Nat) (s : State) : Out :=
  .next (runBerth s cid 0x43 (fun c => keeperOperands c []) (ownerOrPf s) fun c i b =>
    if outCap c.entry < 128 then fail (nameBerth s cid i) cid .badLength 128
    else okOut (nameBerth s cid i) cid 0 (berthView s i b))

/-! ### BERTH_MOVE at the source (R421, Table 152) -/

/-- Keys bound in a berth's slots, each once. -/
def boundKeys (b : Berth) : List Nat :=
  match b.slot0, b.slot1 with
  | some x, some y => if x = y then [x] else [x, y]
  | some x, none => [x]
  | none, some y => [y]
  | none, none => []

/-- A command accepted before a move names the berth or a key bound in its slots and has not completed (step 1), or what moves is
spilled (R280, R285). -/
def moveWaits (s : State) (cid i : Nat) (b : Berth) : Bool :=
  b.spilled || ((boundKeys b).any fun g => (Map.get? s.keys.keys g).any (·.spilled)) || s.cmds.any fun d => decide (d.id < cid) && (namesBerth s d i || (boundKeys b).any fun g => blocksKey s d g)

/-- A key bound in the slots that keeps the berth from moving (step 2). -/
def moveErr (s : State) (i : Nat) (b : Berth) : Err :=
  firstErr [require (!((boundKeys b).any fun g => decide (Config.treeBase ≤ g))) .busy 0x0D,
    require (!((boundKeys b).any fun g => boundIn (s.keys.berths.filter fun e => e.1 != i) g)) .busy 0x0C]

/-- A move ends before it commits: the berth stays, its command completes, and the waiting commands go on (Table 152). -/
def endMove (s : State) (cid i : Nat) (st : Status) (d : Nat) : State :=
  retryBerth (fail (modBerth s i fun b => { b with moving := none }) cid st d)

/-- Steps 1 to 3 of R421 for a berth whose move has begun. -/
def moveTry (s : State) (c : Cmd) (i : Nat) (b : Berth) : State :=
  let pos := le c.entry 40 1
  if moveWaits s c.id i b then s
  else match moveErr s i b with
    | some (st, d) => endMove s c.id i st d
    | none =>
      let ks := linksTo s pos
      if (ks.all fun k => (getLink s k).st == .failed || (getLink s k).st == .unused) then endMove s c.id i .busy 9
      else match linkFor s pos i with
        | none => s
        | some k =>
          let n := s.topo.position + 8 * s.topo.nextMove
          let keys := (boundKeys b).filterMap fun g => (Map.get? s.keys.keys g).map fun x => (g, x)
          let m : Move := { id := n, cid := c.id, index := i, target := pos, link := k, committed := false, aborted := false,
                            handle := 0 }
          linkSend { s with topo := { s.topo with moves := s.topo.moves ++ [m], nextMove := s.topo.nextMove + 1 } } k
            (.berthXfer n (berthHandle s i b) b keys)

/-- A BERTH_MOVE at its turn: the berth's commands wait from here on. -/
def moveStart (s : State) (c : Cmd) (i : Nat) (b : Berth) : State :=
  if le c.entry 40 1 = s.topo.position then done (nameBerth s c.id i) c.id (berthHandle s i b)
  else
    let s1 := modBerth (modCmd s c.id fun x => { x with phase := .effected, berth := some i }) i
      fun x => { x with moving := some c.id }
    moveTry s1 { c with phase := .effected } i { b with moving := some c.id }

/-- The move of a BERTH_MOVE that waits at step 1, or for its links. -/
def moveAgain (s : State) (cid : Nat) : State :=
  match getCmd s cid with
  | none => s
  | some c =>
    match serving s && opcode c.entry == 0x42 && c.phase == .effected && !(s.topo.moves.any fun m => m.cid == cid), c.berth with
    | true, some i =>
      (match Map.get? s.keys.berths i with
        | some b => moveTry s c i b
        | none => s)
    | _, _ => s

/-- BERTH_MOVE (R130, R421). -/
def execBerthMove (cid : Nat) (s : State) : Out :=
  .next (if (getCmd s cid).any (fun c => c.phase == .effected) then moveAgain s cid
    else runBerth s cid 0x42
      (fun c => keeperOperands c (need 40 (le c.entry 40 1 == s.topo.position || linksTo s (le c.entry 40 1) != [])))
      (moverOf s) fun c i b => moveStart s c i b)

end Sys2Proof.Machine
end

