-- ==== Sys2Proof/Machine/KeyOps.lean ====
section
/-!
DEFINITION. Key management and wrapped keys (R162 to R169), and RANDOM (R170).
-/

namespace Sys2Proof.Machine

/-! ### Key management -/

/-- An AES-XTS key with equal halves (R146). -/
def xtsEqual (typ : Nat) (k : Bytes) : Bool := typ == 0x3011 && k.take (k.length / 2) == k.drop (k.length / 2)

/-- The buffered input of a command that has finished is overwritten with zeros (R275). -/
def scrubInput (s : State) (cid : Nat) : State :=
  modCmd s cid fun c => match c.phase with
    | .fin _ => { c with input := c.input.map fun d => zeros d.length }
    | _ => c

/-- KEY_WRITE (R162, R275). -/
def execKeyWrite (cid : Nat) (s : State) : Out := .next (runOp s cid 0x0401 fun c d =>
  let p := le c.entry 40 2
  let k := if le c.entry 42 1 = 1 then padTo (privLen p) (Config.expandSeed p d) else d
  withRnd s c fun _ s1 =>
    (if xtsEqual p k || (famOf p != .sym && !privateOk p k) then bad s1 c .badParam 0xFFFF
      else place s1 c (nkdKey s1 c p 1 true k) 0 []).map fun t => scrubInput t cid)

/-- KEY_WRITE_PUBLIC (R163). An X25519 or X448 public key has no check of its own (R147, R149, R155). -/
def execKeyWritePublic (cid : Nat) (s : State) : Out := .next (runOp s cid 0x0402 fun c d =>
  let p := le c.entry 40 2
  if famOf p == .xdh || Config.publicOk p d then place s c (nkdKey s c p 7 false d) 0 [] else bad s c .badParam 0xFFFF)

/-- KEY_GENERATE (R164); a drawn AES-XTS key with equal halves is drawn again. A pair's public key is that of the private key it
made, in the form KEY_PUBLIC gives. -/
def execKeyGenerate (cid : Nat) (s : State) : Out := .next (runOp s cid 0x0403 fun c _ =>
  let p := le c.entry 40 2
  let n := le c.entry 44 2
  withRnd s c fun rnd s1 =>
    if famOf p = .sym then
      (if xtsEqual p rnd then some (modCmd s1 cid fun x => { x with rnd := none }) else place s1 c (nkdKey s1 c p 2 true rnd) 0 [])
    else
      let sk := genPrivate p n (rnd.take (genDraw p))
      place s1 c (nkdKey s1 c p 2 true sk) (outLenOf s c c.keyA c.keyB) (publicPart p sk))

/-- The encoded public key KEY_PUBLIC writes (R165). -/
def publicOfKey (s : State) (g : Nat) (k : Key) : Bytes :=
  if famOf k.typ = .hbs then ((Map.get? s.nvm.trees (treeOf g)).map (·.pub)).getD []
  else if k.priv then publicPart k.typ k.bytes else k.bytes

/-- KEY_PUBLIC (R165). -/
def execKeyPublic (cid : Nat) (s : State) : Out := .next (runOp s cid 0x0404 fun c _ =>
  match c.keyA, keyAt s c.keyA with
  | some g, some k => good s c 0 (publicOutLen s c.keyA) (publicOfKey s g k)
  | _, _ => bad s c .keyEmpty 0)

/-- KEY_DESTROY (R166, R274): its own segments have ended; it completes when KEY_DESTROY_ZEROISE acts. -/
def execKeyDestroy (cid : Nat) (s : State) : Out := .next (runOp s cid 0x0405 fun c _ =>
  some (modCmd s c.id fun x => { x with phase := .effected }))

/-- The KEY_DESTROY commands of a key that is gone complete ST_OK. -/
def endDestroys (s : State) (granule : Nat) : State :=
  ((s.cmds.filter fun c => destroys c granule && c.phase == .effected).map (·.id)).foldl (fun t d => okOut t d 0 []) s

/-- KEY_DESTROY_ZEROISE (R269, R274, R258): the key's granules, spill and bindings go, and the waiting KEY_DESTROY commands
of the key complete ST_OK. Where the key is gone already (a FINISH of HYBRID_KEX consumed it, R151, or its spilled tail was lost, R282), they
complete; a key that stands in its place is no longer theirs. -/
def execKeyDestroyZeroise (granule : Nat) (s : State) : Out :=
  .next (match Map.get? s.keys.keys granule with
    | none => endDestroys s granule
    | some k =>
      if !k.destroyPending then endDestroys s granule
      else if keyAwaited s granule then s
      else endDestroys (destroyKey s granule) granule)

/-- KEY_QUERY (R165, R270). -/
def execKeyQuery (cid : Nat) (s : State) : Out := .next (runOp s cid 0x0406 fun c _ =>
  match keyAt s c.keyA with
  | some k => good s c 0 32 (attrBlock k false)
  | none => bad s c .keyEmpty 0)

/-- KEY_SHARE (R166): its sharing takes effect when the completion is written (R273). -/
def execKeyShare (cid : Nat) (s : State) : Out := .next (runOp s cid 0x0407 fun c _ => good s c 0 0 [])

/-- KEY_BIND (R166): the slot changes when the completion is written (R290). -/
def execKeyBind (cid : Nat) (s : State) : Out := .next (runOp s cid 0x0408 fun c _ => good s c 0 0 [])

/-! ### Wrapped keys (R167, R168) -/

/-- Bytes 0 to 63 of a blob (Table 61). -/
def blobHeader (mode : Nat) (k : Key) (iv : Bytes) : Bytes :=
  [0x54, 0x57, 0x52, 0x50] ++ leBytes 2 1 ++ leBytes 1 mode ++ zeros 1 ++ leBytes 2 k.typ ++ zeros 2
    ++ leBytes 4 k.len ++ attrBlock k true ++ iv ++ zeros 4

/-- Export key of MODE 0x03 (Table 87). -/
def storeKey (s : State) : Bytes := Config.kmac256 32 ((swk s).getD []) [] (ascii "TURUND STORE")

/-- The blob of a key under a key-encryption key (Table 61). -/
def blobOf (k : Key) (hdr kemCt kek : Bytes) : Bytes :=
  let r := aeadSeal 0x3001 16 kek (slice hdr 48 12) (hdr ++ kemCt) k.bytes
  hdr ++ kemCt ++ padTo k.len r.1 ++ padTo 16 r.2

/-- WRAP_OUT (R167). -/
def execWrapOut (cid : Nat) (s : State) : Out := .next (runOp s cid 0x0410 fun c d =>
  let mode := le c.entry 40 1
  let n := outLenOf s c c.keyA c.keyB
  match keyAt s c.keyB with
  | none => bad s c .keyEmpty 0
  | some k =>
    if mode = 2 then
      if !Config.publicOk 0x0103 d then bad s c .badParam 0xFFFF
      else withRnd s c fun rnd s1 =>
        let hdr := blobHeader mode k (slice rnd 32 12)
        let r := Config.kemEncaps 0x0103 d (rnd.take 32)
        good s1 c 0 n (blobOf k hdr (padTo 1568 r.1) (Config.kmac256 32 (padTo 32 r.2) hdr (ascii "TURUND WRAP")))
    else withRnd s c fun iv s1 =>
      good s1 c 0 n (blobOf k (blobHeader mode k iv) [] (if mode = 1 then keyBytes s c.keyA else storeKey s)))

/-- The layout rules of a blob (R168). -/
def blobOk (d : Bytes) (mode : Nat) : Bool :=
  d.take 6 == [0x54, 0x57, 0x52, 0x50, 0x01, 0x00] && le d 6 1 == mode && le d 7 1 == 0 && le d 10 2 == 0 && le d 60 4 == 0

/-- The key a blob carries: its attributes, the issuer as owner and no sharers (R168, R270). -/
def blobKey (s : State) (c : Cmd) (d bytes : Bytes) : Key :=
  { typ := le d 16 2, origin := 4, priv := bit (le d 19 1) 1, destroyPending := false, markId := 0, len := bytes.length, shareA := bytes,
    shareB := zeros bytes.length, attrMask := zeros 32, owner := c.fn,
    ownerPos := posOf s c, share := List.replicate 4 0xFFFF, wholePort := false, attr := BitVec.ofNat 8 (le d 35 1),
    uses := BitVec.ofNat 16 (le d 36 2), lcMask := BitVec.ofNat 8 (le d 38 1), tail := [], spilled := false, version := 0,
    used := 0 }

/-- A blob carries a key of a supported type, of a length of that type: no stateful private key is imported (R181; log 92). -/
def blobTypeOk (k : Key) : Bool :=
  match famOf k.typ with
  | .hbs => false
  | .ephemeral => false
  | .unknown => false
  | .sym => k.priv && symLenOk k.typ k.len
  | _ => if k.priv then (writtenLens k.typ).contains k.len
      else if isRsa k.typ then (rsaModuli.map (· + 8)).contains k.len else k.len == pubLen k.typ

/-- WRAP_IN (R168). -/
def execWrapIn (cid : Nat) (s : State) : Out := .next (runOp s cid 0x0411 fun c d =>
  let mode := le c.entry 40 1
  let E := wrapE c.entry
  let L := le d 12 4
  let kem := slice d 64 E
  let kek := if mode = 1 then keyBytes s c.keyA
    else if mode = 2 then Config.kmac256 32 (padTo 32 (Config.kemDecaps 0x0103 (keyBytes s c.keyA) kem)) (d.take 64) (ascii "TURUND WRAP")
    else storeKey s
  if !blobOk d mode then bad s c .keyDenied 1
  else if inLen c.entry ≠ 80 + E + L then bad s c .badLength (min (80 + E + L) 0xFFFFFFFF)
  else
    let r := aeadOpen 0x3001 kek (slice d 48 12) (d.take (64 + E)) (slice d (64 + E) L) (slice d (64 + E + L) 16)
    if !r.2 then bad s c .keyDenied 1
    else if !bit (le d 35 1) (if c.worldS then 1 else 0) then bad s c .keyDenied 0x12
    else if !blobTypeOk (blobKey s c d (padTo L r.1)) then bad s c .badParam 0xFFFF
    else place s c (blobKey s c d (padTo L r.1)) 0 [])

/-- KW_WRAP (R169). -/
def execKwWrap (cid : Nat) (s : State) : Out := .next (runOp s cid 0x0412 fun c _ =>
  good s c 0 (keyLen s c.keyB + 8) (Config.kwWrap (keyBytes s c.keyA) (keyBytes s c.keyB)))

/-- KW_UNWRAP (R169). A length L that is no multiple of 8 is accepted with IN_LEN L + 8, as step 6 of R138 states lengths, and the answer is
then the opaque unwrapping's (DESIGN CHOICE, log 108). -/
def execKwUnwrap (cid : Nat) (s : State) : Out := .next (runOp s cid 0x0413 fun c d =>
  match Config.kwUnwrap (keyBytes s c.keyA) d with
  | none => bad s c .keyDenied 1
  | some k => place s c (nkdKey s c (le c.entry 40 2) 5 true (padTo (inLen c.entry - 8) k)) 0 [])

/-! ### RANDOM -/

/-- A draw that reseeds its instance first (R355); none while no pooled block can serve it. -/
def drawFresh (s : State) (n : Nat) : Option (Bytes × State) :=
  if serves s && s.rng.pool != [] then (nextInst s).map fun i => generateOn s i n true else none

/-- RANDOM (R170, R355). -/
def execRandom (cid : Nat) (s : State) : Out := .next (runOp s cid 0x0501 fun c _ =>
  let n := le c.entry 44 4
  (if wantsReseed s c.entry then drawFresh s n else draw s n).bind fun r => good r.2 c 0 n r.1)

end Sys2Proof.Machine
end

