-- ==== Sys2Proof/Machine/Registers.lean ====
section
/-!
DEFINITION. Register writes of BAR 0 (R5, R452 to R463), the two reads with side effects (R310), and the interrupt and
register rows of the table.
-/

namespace Sys2Proof.Machine

/-- Put a low or high half into a 64-bit value. -/
def setHalf (d : DWord) (hi : Bool) (v : Word) : DWord :=
  if hi then (v ++ d.setWidth 32 : BitVec 64) else ((d >>> 32).setWidth 32 ++ v : BitVec 64)

/-- Change a function's keeper queue registers. -/
def modKq (s : State) (fn : Nat) (f : Kq → Kq) : State := modFn s fn fun x => { x with kq := f x.kq }

/-- Keeper SQ state. -/
def kqState (s : State) (fn : Nat) : SqState := ((getSq s fn 0).map (·.st)).getD .disabled

/-- A write to a base register is ignored (Tables 38 to 43). -/
def kqBusy (s : State) (fn : Nat) : Bool := kqState s fn != .disabled || (getFn s fn).kq.enable

/-- RESET_IDX on a disabled keeper queue (Table 45); the head it changes is written to the status line (R77). -/
def kqResetIdx (s : State) (fn : Nat) : State :=
  if kqState s fn = .disabled && !(getFn s fn).kq.enable then
    match getSq s fn 0, getCq s fn 0 with
    | some q, some c =>
      statusLine (putCq (putSq s fn 0 { q with head := 0, fetch := 0, tail := 0, seen := 0, chainLen := 0, chainId := 0, chainOk := none }) fn 0
        { c with tail := 0, head := 0 }) fn 0
    | _, _ => s
  else s

/-- A write of KQ_CTRL (Table 45): RESET_IDX is judged on STATE and ENABLE before the write (log 34). Of a function that is DRAINING the field
takes the value and the queue stays as it is (R80; log 104). -/
def kqCtrlWrite (s : State) (fn : Nat) (v : Word) : State :=
  let s0 := if v.getLsbD 2 then kqResetIdx s fn else s
  let s1 := modKq s0 fn fun k => { k with enable := v.getLsbD 0, irqEn := v.getLsbD 1 }
  if v.getLsbD 0 then
    (if kqState s1 fn = .disabled || kqState s1 fn = .doorbellError || kqState s1 fn = .fetchError
      then enableSq s1 fn 0 else s1)
  else disableSq s1 fn 0

/-- A write to a keeper queue register (Tables 38 to 45). -/
def kqWrite (s : State) (fn off : Nat) (v : Word) : State :=
  let lo := v &&& 0xFFFFF000
  match off with
  | 0x0800 => if kqBusy s fn then s else modKq s fn fun k => { k with sqBase := setHalf k.sqBase false lo }
  | 0x0804 => if kqBusy s fn then s else modKq s fn fun k => { k with sqBase := setHalf k.sqBase true v }
  | 0x0808 => if kqBusy s fn then s else modKq s fn fun k => { k with cqBase := setHalf k.cqBase false lo }
  | 0x080C => if kqBusy s fn then s else modKq s fn fun k => { k with cqBase := setHalf k.cqBase true v }
  | 0x0810 => if kqBusy s fn then s else modKq s fn fun k => { k with dbBase := setHalf k.dbBase false lo }
  | 0x0814 => if kqBusy s fn then s else modKq s fn fun k => { k with dbBase := setHalf k.dbBase true v }
  | 0x0818 => modKq s fn fun k =>
      { k with active := BitVec.ofNat 9 (max 1 (min 256 (bits v.toNat 0 9))), noBackoff := v.getLsbD 9 }
  | 0x081C => kqCtrlWrite s fn v
  | _ => s

/-- A write of a fast vector's registers (Tables 103 to 106). -/
def fastWrite (s : State) (fn off : Nat) (v : Word) : State :=
  let n := off / 16 % 8
  match off / 4 % 4 with
  | 0 => modFast s fn n fun x => { x with addr := setHalf x.addr false (v &&& 0xFFFFFFFC) }
  | 1 => modFast s fn n fun x => { x with addr := setHalf x.addr true v }
  | 2 => modFast s fn n fun x => { x with data := v }
  | _ => flushFast (modFast s fn n fun x =>
      { x with enable := v.getLsbD 0, mask := v.getLsbD 1, count := if v.getLsbD 3 then 0 else x.count }) fn n

/-- INT_SOFT_PEND (R343). -/
def softPend (s : State) (fn : Nat) (v : Word) : State :=
  if !v.getLsbD 31 then s
  else if v.getLsbD 11 then
    (if bits v.toNat 0 11 < 8 then signalFast s fn (bits v.toNat 0 11) 0xFFFF else s)
  else pendNormal s fn (bits v.toNat 0 11)

/-- MODE_REQ (Table 23, R401). -/
def modeReq (s : State) (v : Word) : State :=
  let reject : State := { s with sys := { s.sys with reqRejected := true } }
  match bits v.toNat 0 2 with
  | 0 => s
  | 1 =>
    if s.sys.mode = .service then (if opposed s 3 then s else recordMode (setMode s .maintenance 7)) else reject
  | 2 =>
    if s.sys.mode = .maintenance && (s.lc.state == .owned || s.lc.state == .field) && (pendingMove s.nvm).isNone
        && !s.lc.tainted then (if opposed s 4 then s else recordMode (setMode s .service 7))
    else reject
  | _ => reject

/-- A field locked by ALARM_CFG_LOCK: its write is dropped once the lock is set (R6, R459). -/
def unlessLocked (s : State) (t : State) : State := if s.alarm.lock then s else t

/-- Change an alarm source. -/
def modMon (s : State) (n : Nat) (f : Mon → Mon) : State :=
  { s with alarm := { s.alarm with mons := s.alarm.mons.mapIdx (fun i x => if i = n then f x else x) } }

/-- A write of MON_CFG, MON_WINDOW or MON_THRESH (Tables 122 to 124, R372). -/
def monWrite (s : State) (off : Nat) (v : Word) : State :=
  let n := off / 16 % 16
  match off / 4 % 4 with
  | 0 => unlessLocked s (modMon s n fun m => { m with recEvents := v.getLsbD 0 })
  | 1 => unlessLocked s (modMon s n fun m =>
      { m with w := max 1 (min 1000000 (bits v.toNat 0 20)), hist := [], inWin := 0 })
  | 2 => unlessLocked s (modMon s n fun m => { m with n := max 1 (bits v.toNat 0 8), hist := [], inWin := 0 })
  | _ => s

/-- A write of ALARM_RESPONSE (Table 126). -/
def responseWrite (s : State) (n : Nat) (v : Word) : State :=
  let l := min 4 (bits v.toNat 0 3)
  unlessLocked s (modMon s n fun m => { m with level := if n = 12 || n = 13 then max 2 l else l })

/-- A stored snapshot selector: codes that are not assigned store 0 (Table 121). -/
def snapCodes (v : Word) : Word :=
  packFields ((List.range 4).map fun k => (8 * k, if bits v.toNat (8 * k) 8 ≤ 0x0C then bits v.toNat (8 * k) 8 else 0))

/-- MON_FUSE (Table 129, R370). -/
def fuseWrite (s : State) (v : Word) : State :=
  if bits v.toNat 16 16 = 0xD15A && s.sys.mode == .maintenance && s.lc.state == .factory then
    let m : BitVec 16 := v.setWidth 16 &&& 0xCFFF
    { s with otp := { s.otp with fuseA := s.otp.fuseA ||| m, fuseB := s.otp.fuseB ||| m } }
  else s

/-- A write to the keeper block by the keeper function (Table 170). -/
def keeperWrite (s : State) (off : Nat) (v : Word) : State :=
  match off with
  | 0x1000 => if v.getLsbD 12 then { s with sys := { s.sys with reqRejected := false } } else s
  | 0x1004 => modeReq s v
  | 0x1008 => if bits v.toNat 0 16 = 0x5A5A && !opposed s 10 then warmBoot s 9 else s
  | 0x2200 => { s with alarm := { s.alarm with fired := s.alarm.fired &&& ~~~(v.setWidth 16) } }
  | 0x2204 => if v.getLsbD 0 then { s with alarm := { s.alarm with lock := true } } else s
  | 0x2208 => fuseWrite s v
  | 0x2404 => unlessLocked s { s with rng := { s.rng with
      prAll := v.getLsbD 0, reseed := max 10 (min 20 (bits v.toNat 8 5)) } }
  | 0x2408 => if v.getLsbD 0 && s.rng.state == .ready && !s.rng.katRun then
      { s with rng := { s.rng with katRun := true } } else s
  | 0x2810 => if v.getLsbD 2 then closeScope s else s
  | 0x4008 => { s with alarm := { s.alarm with glitched := s.alarm.glitched &&& ~~~((v >>> 16).setWidth 6) } }
  | _ =>
    if 0x2000 ≤ off && off < 0x2100 then monWrite s off v
    else if 0x2100 ≤ off && off < 0x2140 then responseWrite s (off / 4 % 16) v
    else if 0x3020 ≤ off && off < 0x3030 then
      unlessLocked s { s with alarm := { s.alarm with
        snapSel := s.alarm.snapSel.mapIdx (fun i x => if i = off / 4 % 4 then snapCodes v else x) } }
    else s

/-- Change an MSI-X entry. -/
def modMsix (s : State) (fn v : Nat) (f : MsixEntry → MsixEntry) : State :=
  if v < 2048 then modFn s fn fun x => { x with msix := Map.put x.msix v (f (Map.getD x.msix v MsixEntry.reset)) } else s

/-- A dword write to the MSI-X table (log 9). Delivery runs after a write of the mask only (R333, R339; log 68). -/
def msixWrite (s : State) (fn off : Nat) (v : Word) : State :=
  match off / 4 % 4 with
  | 0 => modMsix s fn (off / 16) fun e => { e with addr := setHalf e.addr false v }
  | 1 => modMsix s fn (off / 16) fun e => { e with addr := setHalf e.addr true v }
  | 2 => modMsix s fn (off / 16) fun e => { e with data := v }
  | _ => deliver (modMsix s fn (off / 16) fun e => { e with masked := v.getLsbD 0 }) fn (off / 16)

/-- A PF's own recorder window registers (Tables 131, 132). -/
def recWrite (s : State) (fn off : Nat) (v : Word) : State :=
  if off = 0x3004 then modFn s fn fun x => { x with recIndex := v.setWidth 16 }
  else if off = 0x3008 then modFn s fn fun x => { x with recPinned := v.getLsbD 0 }
  else s

/-- The effect of a 32-bit BAR 0 write outside Boot and Lockdown (R452, R455, R463). -/
def regWrite (s : State) (fn off : Nat) (v : Word) : State :=
  if 0x0800 ≤ off && off < 0x0820 then kqWrite s fn off v
  else if 0x0C00 ≤ off && off < 0x0C80 then fastWrite s fn off v
  else if off = 0x0D00 then softPend s fn v
  else if 0x10000 ≤ off && off < 0x18000 then msixWrite s fn (off - 0x10000) v
  else if (off = 0x3004 || off = 0x3008) && isPf fn then recWrite s fn off v
  else if 0x1000 ≤ off && off < 0x8000 && fn = keeperFn s then keeperWrite s off v
  else s

/-- Hold a write of a function. -/
def holdWrite (s : State) (fn off : Nat) (v : Word) : State :=
  modFn s fn fun x => { x with heldWrites := x.heldWrites ++ [(off, v)] }

/-- The device may issue the reads of an image in WAIT_HOST: the keeper function is a bus master and its port has its link (R431). -/
def bootReq (s : State) : Bool :=
  s.sys.mode == .boot && (getFn s (keeperFn s)).bme && !(getFn s (keeperFn s)).d3hot && (getFn s (keeperFn s)).flr != .requested &&
    portUp s (keeperFn s)

/-- The read a load in WAIT_HOST has come to is issued once it can be: of the header's 64 bytes, then of the length it names (R54, R431). -/
def bootAsk (s : State) : State :=
  if s.boot.loading && !s.boot.asked && bootReq s then
    emitRead { s with boot := { s.boot with asked := true } } (keeperFn s) (s.boot.addrHi ++ s.boot.addrLo : BitVec 64)
      (match s.boot.header with
        | none => 64
        | some h => le h 12 4)
  else s

/-- A write of the host image address in WAIT_HOST; the high half starts the load with the read of the header (R54, Tables 27,
28). A second write of the high half while a load runs starts the load again (DESIGN CHOICE, log 72). -/
def imageWrite (s : State) (fn off : Nat) (v : Word) : State :=
  if fn = keeperFn s && s.boot.phase = 4 then
    if off = 0x1108 then { s with boot := { s.boot with addrLo := v &&& 0xFFFFFFC0 } }
    else if off = 0x110C then bootAsk { s with boot := { s.boot with addrHi := v, loading := true, asked := false, header := none } }
    else s
  else s

/-- A 32-bit BAR 0 write as the mode lets it act (R49, R40). -/
def barWriteNow (s : State) (fn off : Nat) (v : Word) : State :=
  match s.sys.mode with
  | .dormant => s
  | .boot =>
    if 0x0800 ≤ off && off < 0x0820 then
      (if (getFn s fn).heldWrites.length < Config.bootWrites then holdWrite s fn off v else s)
    else if 0x10000 ≤ off && off < 0x18000 then msixWrite s fn (off - 0x10000) v
    else imageWrite s fn off v
  | .lockdown => if isPf fn then recWrite s fn off v else s
  | _ => regWrite s fn off v

/-- A 32-bit write of a function's BAR 0 registers; one that arrives during FLR clean-up is held (R317). -/
def writeOrHold (s : State) (fn off : Nat) (v : Word) : State :=
  if (getFn s fn).flr = .cleanup then holdWrite s fn off v else barWriteNow s fn off v

/-- A 32-bit BAR 0 write that arrives on the port. -/
def barWrite (s : State) (fn off : Nat) (v : Word) : State := if barOpen s fn then writeOrHold s fn off v else s

/-- Apply the writes a function had held, in order (R49, R317). -/
def applyHeld (s : State) (fn : Nat) : State :=
  let ws := (getFn s fn).heldWrites
  ws.foldl (fun t w => barWriteNow t fn w.1 w.2) (modFn s fn fun x => { x with heldWrites := [] })

/-- Consecutive dwords of one request in ascending order (R454). -/
def barWrites (s : State) (fn : Nat) : Nat → Nat → Bytes → State
  | 0, _, _ => s
  | n + 1, off, d => barWrites (barWrite s fn off (BitVec.ofNat 32 (le d 0 4))) fn n (off + 4) (d.drop 4)

/-! ### Rows -/

/-- A write of part of a dword of the MSI-X table, whose result the PCIe Base Specification leaves undefined: each of `n`
dwords from an offset on takes a free value (R454, log 9). -/
def msixPartial (s : State) (fn : Nat) : Nat → Nat → State
  | 0, _ => s
  | n + 1, off =>
    if barOpen s fn && decide (off < 0x18000) then
      (let f := takeFree s
       msixPartial (barWrite f.2 fn off (BitVec.ofNat 32 (Config.freeNat f.1))) fn n (off + 4))
    else s

/-- The bytes of a write request to BAR 0 (R454): whole dwords act in ascending order; a write of part of a dword is discarded, except in
the MSI-X table. -/
def barBytes (s : State) (fn offset : Nat) (data : Bytes) : State :=
  if offset % 4 = 0 && data.length % 4 = 0 then barWrites s fn (data.length / 4) offset data
  else if 0x10000 ≤ offset && offset < 0x18000 then
    msixPartial s fn ((offset % 4 + data.length + 3) / 4) (offset - offset % 4)
  else s

/-- REGISTER_WRITE (R5, R454, R430). -/
def execRegisterWrite (fn offset : Nat) (data : BarData) (s : State) : Out :=
  .next (if barOpen s fn then barData s fn data (barBytes s fn offset) else s)

/-- MAINTENANCE_ENTER (R41): a MODE_REQ write with REQ 0b01. -/
def execMaintenanceEnter (fn : Nat) (value : Word) (s : State) : Out :=
  .next (if bits value.toNat 0 2 = 1 then barWrite s fn 0x1004 value else s)

/-- MAINTENANCE_LEAVE (R37): a MODE_REQ write with REQ 0b10. -/
def execMaintenanceLeave (fn : Nat) (value : Word) (s : State) : Out :=
  .next (if bits value.toNat 0 2 = 2 then barWrite s fn 0x1004 value else s)

/-- KQ_ENABLE (R100): a KQ_CTRL write with ENABLE 1. -/
def execKqEnable (fn : Nat) (value : Word) (s : State) : Out :=
  .next (if value.getLsbD 0 then barWrite s fn 0x081C value else s)

/-- KQ_DISABLE (R99): a KQ_CTRL write with ENABLE 0. -/
def execKqDisable (fn : Nat) (value : Word) (s : State) : Out :=
  .next (if value.getLsbD 0 then s else barWrite s fn 0x081C value)

/-- RESET_IDX (R72): a KQ_CTRL write with RESET_IDX 1. -/
def execResetIdx (fn : Nat) (value : Word) (s : State) : Out :=
  .next (if value.getLsbD 2 then barWrite s fn 0x081C value else s)

/-- MON_WINDOW_WRITE (R372). -/
def execMonWindowWrite (fn : Nat) (n : Fin 16) (value : Word) (s : State) : Out :=
  .next (barWrite s fn (0x2004 + 16 * n.val) value)

/-- MON_THRESH_WRITE (R372). -/
def execMonThreshWrite (fn : Nat) (n : Fin 16) (value : Word) (s : State) : Out :=
  .next (barWrite s fn (0x2008 + 16 * n.val) value)

/-- ALARM_CFG_LOCK (R6). -/
def execAlarmCfgLock (fn : Nat) (value : Word) (s : State) : Out := .next (barWrite s fn 0x2204 value)

/-- MON_FUSE (R370). -/
def execMonFuse (fn : Nat) (value : Word) (s : State) : Out := .next (barWrite s fn 0x2208 value)

/-- DBG_CTRL_CLOSE (R402). -/
def execDbgCtrlClose (fn : Nat) (value : Word) (s : State) : Out := .next (barWrite s fn 0x2810 value)

/-- RNG_KAT_CTRL_RUN (R364). -/
def execRngKatCtrlRun (fn : Nat) (value : Word) (s : State) : Out := .next (barWrite s fn 0x2408 value)

/-- BOOT_IMAGE_LOAD (R54). -/
def execBootImageLoad (fn : Nat) (value : Word) (s : State) : Out := .next (barWrite s fn 0x110C value)

/-- INT_SOFT_PEND (R343). -/
def execIntSoftPend (fn : Nat) (value : Word) (s : State) : Out := .next (barWrite s fn 0x0D00 value)

/-- MASK_CLEAR (R331): an INT_FAST_CTRL write with MASK 0. -/
def execMaskClear (fn : Nat) (n : Fin 8) (value : Word) (s : State) : Out :=
  .next (if value.getLsbD 1 then s else barWrite s fn (0x0C0C + 16 * n.val) value)

/-- CLEAR_COUNT (R331): an INT_FAST_CTRL write with CLEAR_COUNT 1. -/
def execClearCount (fn : Nat) (n : Fin 8) (value : Word) (s : State) : Out :=
  .next (if value.getLsbD 3 then barWrite s fn (0x0C0C + 16 * n.val) value else s)

/-- MSIX_UNMASK (R333): the capability's control is configuration space; entries lie in BAR 0 (log 9). -/
def execMsixUnmask (fn : Nat) (w : MsixWrite) (s : State) : Out :=
  .next (match w with
    | .control enable mask =>
      if fnExists s fn && portUp s fn && s.sys.mode != .dormant && !s.sys.isolated then
        deliverAll (modFn s fn fun x => { x with msixEnable := enable, msixMask := mask }) fn
      else s
    | .entryAddrLo v x => if v < 2048 then barWrite s fn (0x10000 + 16 * v) x else s
    | .entryAddrHi v x => if v < 2048 then barWrite s fn (0x10004 + 16 * v) x else s
    | .entryData v x => if v < 2048 then barWrite s fn (0x10008 + 16 * v) x else s
    | .entryMask v m => if v < 2048 then barWrite s fn (0x1000C + 16 * v) (if m then 1 else 0) else s)

/-- A read of the time block by a PF has its side effect: the register is readable now (R310, Table 170). -/
def timeReadable (s : State) (fn : Nat) : Bool := barOpen s fn && isPf fn && serving s

/-- The side effect of a 32-bit read: TB_NOW_LO and CAL_NOW_LO latch their high half for the reading function (R310). -/
def readEffect (s : State) (fn off : Nat) : State :=
  if !timeReadable s fn then s
  else if off = 0x1800 then modFn s fn fun x => { x with tbLatch := half s.sys.tick true }
  else if off = 0x1808 then modFn s fn fun x => { x with calLatch := half (time64Now s) true }
  else s

/-- The bytes of `n` consecutive dwords from an offset on, each read in its turn with its side effect (R454). -/
def readDwords (fn : Nat) : Nat → Nat → State → Bytes × State
  | 0, _, s => ([], s)
  | n + 1, off, s =>
    let r := readDwords fn n (off + 4) (readEffect s fn off)
    (leBytes 4 (regRead s fn off).toNat ++ r.1, r.2)

/-- A read request to BAR 0 is served (R454): each dword it touches is read whole, in ascending order, and the bytes asked for are
returned. A BAR that is not decoded answers Unsupported Request (R431); a device that is off answers nothing. -/
def barRead (s : State) (r : BarRead) : State :=
  if s.sys.mode = .dormant || s.sys.resetLow || !portUp s r.fn || s.sys.isolated then s
  else if !barOpen s r.fn then emit s (.reply r.fn r.off none)
  else
    let a := readDwords r.fn ((r.off % 4 + r.len + 3) / 4) (r.off - r.off % 4) s
    emit a.2 (.reply r.fn r.off (some (slice a.1 (r.off % 4) r.len)))

/-- TB_NOW_LO_READ (R310, R454): a read request to BAR 0, which latches the high half where it covers TB_NOW_LO. -/
def execTbNowLoRead (req : BarRead) (s : State) : Out := .next (barRead s req)

/-- CAL_NOW_LO_READ (R310, R454). -/
def execCalNowLoRead (req : BarRead) (s : State) : Out := .next (barRead s req)

/-- MODERATION_TIMER (R335). -/
def execModerationTimer (fn qid : Nat) (s : State) : Out :=
  .next (match getCq s fn qid with
    | some c =>
      if serving s && c.count != 0 && c.modTime != 0 && decide (c.modTime * 100 ≤ tickNat s - c.start.toNat) then
        fireCq s fn qid c
      else s
    | none => s)

/-- WAKE_HOLD_EXPIRE (R339): the procedure runs again for a vector that waits in its hold. -/
def execWakeHoldExpire (fn vec : Nat) (s : State) : Out :=
  .next (if serving s && (Map.get? (getFn s fn).holds vec).isSome then deliver s fn vec else s)

/-- KEEPER_STALL (R330): a keeper completion has waited 1 ms for the full keeper CQ. -/
def execKeeperStall (fn : Nat) (s : State) : Out :=
  .next (match (getFn s fn).kcqSince with
    | some t =>
      if serving s && !(getFn s fn).stalled && decide (100000 ≤ tickNat s - t.toNat) then
        signalFast (modFn s fn fun x => { x with stalled := true }) fn 4 2
      else s
    | none => s)

end Sys2Proof.Machine
end

