-- ==== Sys2Proof/Machine/LifeCycle.lean ====
section
/-!
DEFINITION. Life-cycle moves up to their mark (R390 to R393), debug authorisation (R400, R401), and the test access port
with the debug space (R398, R399, R458).
-/

namespace Sys2Proof.Machine

/-! ### Signers -/

/-- The owner signs in the present state; Waimar in the others (Tables 137, 138). -/
def ownerSigns (s : State) : Bool := s.lc.state == .owned || s.lc.state == .field

/-- The signer's public key (R391, R401). -/
def signerKey (s : State) : Option Bytes := if ownerSigns s then ownerRoot s else some Config.waimarLcKey

/-- Signer code of Table 143. -/
def signerCode (s : State) : Byte := if ownerSigns s then 2 else 1

/-! ### LC_TRANSITION (R391, R393) -/

/-- The moves of Table 139, with the move of any state to SCRAP (R390). -/
def moveAllowed (frm dst : Lc) : Bool :=
  match frm, dst with
  | .scrap, _ => false
  | _, .scrap => true
  | .blank, .factory => true
  | .factory, .owned => true
  | .owned, .field => true
  | .field, .ret => true
  | _, _ => false

/-- The target of an LC_TRANSITION: a code of Table 137 other than BLANK's. -/
def lcTarget (e : Bytes) : Option Lc := (lcOfCode (BitVec.ofNat 16 (le e 40 2))).filter (· != .blank)

/-- IN_LEN a move needs (R391 step 4). -/
def lcTokenLen (dst : Lc) : Nat := if dst = .owned then 7315 else 4723

/-- Steps 1 to 4 of R391. -/
def lcErr (s : State) (c : Cmd) : Err :=
  match lcTarget c.entry with
  | none => keeperOperands c [40]
  | some dst =>
    firstErr [keeperOperands c [], require (moveAllowed s.lc.state dst) .deniedLc 0,
      require ((pendingMove s.nvm).isNone || dst == .scrap) .deniedLc 0,
      require (inLen c.entry == lcTokenLen dst) .badLength (lcTokenLen dst), planErr s c]

/-- Steps 5 and 6 of R391. -/
def lcTokenErr (s : State) (dst : Lc) (d : Bytes) : Err :=
  let b := slice d 0 96
  firstErr [
    require ((signerKey s).any fun pk => Config.verify (0x1003, 0, 0) pk [] b (slice d 96 4627)) .keyDenied 1,
    require (le b 8 8 == s.time.epoch.toNat) .keyDenied 2,
    require (slice b 16 32 == deviceId s) .keyDenied 3,
    require (le b 4 2 == s.lc.state.code.toNat && le b 6 2 == dst.code.toNat
      && (dst != .owned || slice b 48 32 == padTo 32 (digest 0x12 32 (slice d 4723 2592)))) .badParam 0xFFFF]

/-- Which of copies A, B and C hold a state, as bits 0 to 2 (Table 143). -/
def copiesHolding (o : Otp) (l : Lc) : Nat :=
  b2n (lcCopy o.lcA == some l) + 2 * b2n (lcCopy o.lcB == some l) + 4 * b2n (lcCopy o.lcC == some l)

/-- A LIFE_CYCLE record (Table 143). -/
def recordLc (s : State) (frm dst : Lc) (event : Nat) : State :=
  record s 0x2005 (frm.index + 8 * dst.index) (leBytes 1 event ++ leBytes 1 (copiesHolding s.otp dst))

/-- The owner root of a token to OWNED stands in its record (R393). -/
def putOwnerRoot (s : State) (d : Bytes) : State :=
  { s with nvm := { s.nvm with ownerRoot := sealPersist (freeBytes 12 s.free) (slice d 4723 2592) }, free := s.free + 12 }

/-- An accepted move commits its pending mark, after the owner root of a move to OWNED (R393). -/
def acceptMove (s : State) (cid : Nat) (dst : Lc) (d : Bytes) (fails : Nat) : State :=
  let root : State × Bool := if dst = .owned then wearWrite s 2 rootWords fails else (s, true)
  if !root.2 then fail root.1 cid .counterExhausted 3
  else
    let s1 := if dst = .owned then putOwnerRoot root.1 d else root.1
    match commitRec s1 5 1 (genOf s1 5 1 + 1) (BitVec.ofNat 64 (moveMark s.lc.state dst)) 0 with
    | (s2, true) => done (recordLc (closeScope s2) s.lc.state dst 1) cid 0
    | (s2, false) => fail s2 cid .counterExhausted 3

/-- LC_TRANSITION (R391): the command, and how many write verifications of its owner root record fail (R279). -/
def execLcTransition (cidFails : Nat × Nat) (s : State) : Out :=
  .next (let cid := cidFails.1
    runInput s cid 0x60 (lcErr s) fun c d =>
    if !segsDone c || !running s then modCmd s cid fun x => { x with input := some d }
    else match lcTarget c.entry with
      | none => s
      | some dst => match lcTokenErr s dst d with
        | some (st, x) => fail s cid st x
        | none => acceptMove s cid dst d cidFails.2)

/-! ### Debug authorisation (R400, R401) -/

/-- Table 138 gives the scope to the present state; IDENTITY to every state but SCRAP. -/
def scopeAllowed (l : Lc) (scope : Nat) : Bool :=
  match l with
  | .blank => scope == 0
  | .factory => true
  | .owned => true
  | .field => scope != 2
  | .ret => true
  | .scrap => false

/-- The checks of DEBUG_CHALLENGE (R400). -/
def challengeErr (s : State) (c : Cmd) : Err :=
  firstErr [keeperOperands c (need 40 (decide (le c.entry 40 1 ≤ 2))),
    require (decide (4288 ≤ outCap c.entry)) .badLength 4288,
    require (scopeAllowed s.lc.state (le c.entry 40 1)) .deniedLc 0,
    require (s.lc.state != .blank) .keyEmpty 0, planErr s c]

/-- The 128-byte challenge (R400). -/
def challengeBytes (s : State) (scope : Nat) (nonce : Bytes) : Bytes :=
  [0x54, 0x44, 0x42, 0x43] ++ leBytes 1 scope ++ leBytes 1 s.lc.state.index ++ leBytes 2 0
    ++ leBytes 8 s.time.epoch.toNat ++ deviceId s ++ padTo 32 nonce ++ zeros 48

/-- The identity and agreement public keys (R397, R400). -/
def identityPublic (s : State) : Bytes :=
  match identityRec s with
  | some b => padTo 4160 b
  | none => zeros 4160

/-- A DEBUG record (Table 143). -/
def recordDebug (s : State) (scope : Nat) (event signer : Byte) (nonce : Bytes) : State :=
  record s 0x2006 scope ([event, signer, 0, 0] ++ slice nonce 0 4)

/-- A challenge with its nonce: that of a scope becomes the outstanding one (R400). -/
def giveChallenge (s : State) (cid scope : Nat) (nonce : Bytes) : State :=
  let ch := challengeBytes s scope nonce
  let s1 : State := if scope = 0 then s else { s with lc := { s.lc with challenge := some ch } }
  okOut (recordDebug s1 scope 1 (signerCode s) nonce) cid 0 (ch ++ identityPublic s)

/-- DEBUG_CHALLENGE (R400): its nonce is drawn at the dispatch of the segment that uses it (R197). -/
def execDebugChallenge (cid : Nat) (s : State) : Out :=
  .next (runTurn s cid 0x61 (challengeErr s) fun c =>
    if !segsDone c || !running s || c.input.isNone then modCmd s cid fun x => { x with input := some [] }
    else (withRnd s c fun n s1 => some (giveChallenge s1 cid (le c.entry 40 1) n)).getD (waitDraw s cid))

/-- Every key goes, with its bindings, and the commands that named it complete ST_KEY_EMPTY. -/
def loseKeys (s : State) : State := (s.keys.keys.map (·.1)).foldl loseKey s

/-- An operation command that lost its input and frames to a zeroisation starts again. -/
def restart (s : State) (cid : Nat) : State :=
  match getCmd s cid with
  | none => s
  | some c =>
    if isOperation c.entry && mayRun c then
      let input : Option Bytes := if readsInput c.entry && inLen c.entry != 0 then none else some []
      askInput (unpin (modCmd (dropInput s cid) cid fun x => { rerunCmd x.avoid x with reran := x.reran, input := input, asked := false }) cid) cid
    else s

/-- The zeroisation of CLEAR_WORKING without Lockdown (R401, Table 118). -/
def taint (s : State) (cid : Nat) : State :=
  let s1 := clearWorking (loseKeys s)
  ((s1.cmds.map (·.id)).filter (· != cid)).foldl restart { s1 with lc := { s1.lc with tainted := true } }

/-- A scope opens. -/
def openScope (s : State) (scope : Nat) (nonce : Bytes) : State :=
  recordDebug { s with lc := { s.lc with scope := scope, byOwner := ownerSigns s, nonce := padTo 4 nonce } } scope 2
    (signerCode s) nonce

/-- A response with its input read: it must be the challenge it consumed, well signed (R401). -/
def answerChallenge (s : State) (c : Cmd) (d : Bytes) : State :=
  let ch := c.header.getD []
  let scope := le ch 4 1
  let nonce := slice ch 48 32
  if c.header == some (slice d 0 128)
      && (signerKey s).any (fun pk => Config.verify (0x1003, 0, 0) pk [] (slice d 0 128) (slice d 128 4627)) then
    done (openScope (if scope = 2 then taint s c.id else s) scope nonce) c.id 0
  else fail (recordDebug s scope 3 (signerCode s) (padTo 4 nonce)) c.id .keyDenied 1

/-- DEBUG_RESPONSE (R401): one of the right length consumes the outstanding challenge at once. -/
def execDebugResponse (cid : Nat) (s : State) : Out :=
  .next (runTurn s cid 0x62 (fun c => firstErr [keeperOperands c [], require (inLen c.entry == 4755) .badLength 4755])
    fun c =>
      let s1 := if c.again then s
        else modCmd { s with lc := { s.lc with challenge := none } } cid fun x => { x with header := s.lc.challenge, again := true }
      match planErr s c, c.input with
      | some (st, d), _ => fail s1 cid st d
      | none, none => askInput s1 cid
      | none, some d => if segsDone c && running s && c.again then answerChallenge s c d else s1)

/-! ### Test access port (R398, R399) -/

/-- The instructions that drive the pins, which they do only while DEV_RESET_N is low (R398). -/
def drives (code : Nat) : Bool := code == 0 || code == 4 || code == 5

/-- Select a TAP instruction (Table 141). In SCRAP every one but IDCODE acts as BYPASS, and while DEV_RESET_N is high those that drive the
pins act as SAMPLE/PRELOAD: the instructions of the boundary-scan register capture the pins into it, the others but IDCODE and DBG_ACCESS
load 0 into the bypass register (R398). -/
def selectTap (s : State) (code : Nat) : State :=
  let k := tapAllowed s.lc.state code
  let acts := if drives k && !s.sys.resetLow then 2 else k
  let scans := acts == 0 || acts == 2
  if s.sys.mode = .dormant then s
  else { s with
    free := s.free + b2n scans,
    lc := { s.lc with
      tapIr := k, tapDrive := drives k && s.sys.resetLow, tapData := if k = 1 then 0x181280B7 else s.lc.tapData,
      boundary := if scans then Config.capturedPins s.free else s.lc.boundary,
      bypass := s.lc.bypass && (scans || k == 1 || k == 0x20) } }

/-- EXTEST. -/
def execExtest (s : State) : Out := .next (selectTap s 0x00)

/-- IDCODE. -/
def execIdcode (s : State) : Out := .next (selectTap s 0x01)

/-- SAMPLE/PRELOAD. -/
def execSamplePreload (s : State) : Out := .next (selectTap s 0x02)

/-- CLAMP. -/
def execClamp (s : State) : Out := .next (selectTap s 0x04)

/-- HIGHZ. -/
def execHighz (s : State) : Out := .next (selectTap s 0x05)

/-- BYPASS. -/
def execBypass (s : State) : Out := .next (selectTap s 0xFF)

/-- DBG_ACCESS. -/
def execDbgAccess (s : State) : Out := .next (selectTap s 0x20)

/-- The data the next Capture-DR loads. -/
def setTapData (s : State) (v : DWord) : State := { s with lc := { s.lc with tapData := v } }

/-- What a word of the debug space shows (Table 142): of a sequencer the commands it has accepted, of the engine part the arbiter's slot and
the engines that run; nothing of the SRAM. -/
def debugShows (s : State) (addr : Nat) : List Nat :=
  if addr < 0x20000 then ((s.cmds.filter fun c => c.seqr == (addr - 0x10000) / 4096).map (·.id))
  else if addr < 0x30000 then s.eng.slot :: s.cmds.flatMap fun c => c.running.map fun e => engUnit e.1 e.2
  else []

/-- A debug word whose layout Table 142 leaves open: a free value of what the word shows. -/
def freeDebug (s : State) (dr : DWord) (addr : Nat) : State :=
  setTapData { s with free := s.free + 1 }
    ((dr &&& 0x7FFFFFFF00000000) ||| (Config.freeDebugWord addr (debugShows s addr) s.free).setWidth 64)

/-- The sequencer or engine whose controls a word of the debug space holds (Table 142): 4 Ki words for each sequencer. -/
def debugUnit (addr : Nat) : Nat :=
  if addr < 0x20000 then (addr - 0x10000) / 4096 else engUnit (Config.debugEngine addr).1 (Config.debugEngine addr).2

/-- CONTROL scope writes the halt and step controls of a sequencer or an engine: it halts, at once or after some steps more, or runs on
(R399; how a word asks for that, log 105). -/
def debugHalt (s : State) (dr : DWord) (addr : Nat) : State :=
  setTapData { s with lc := { s.lc with units := match Config.debugCommand addr (dr.setWidth 32) with
    | none => Map.del s.lc.units (debugUnit addr)
    | some n => Map.put s.lc.units (debugUnit addr) n } } dr

/-- Byte of Table 9 that a word of the SRAM part of the debug space holds, regions in the table's order (R399; log 74). -/
def debugByte (addr : Nat) : Nat := 4 * (addr - 0x10000000)

/-- The word lies in a region of Table 9 other than the key register, which CONTROL scope reads and writes (Table 142). -/
def debugReaches (addr : Nat) : Bool := decide (0x1000000 ≤ debugByte addr) && decide (debugByte addr < 0x6000000)

/-- The microword dword at a byte of the control store's region, where a section wrote that microword (Table 9, R56). -/
def storeDword (s : State) (byte : Nat) : Option Word :=
  if 0x4200000 ≤ byte && byte < 0x4400000 then
    (Map.get? s.boot.store ((byte - 0x4200000) / 32)).map fun w : BitVec 256 => (w >>> (32 * (byte / 4 % 8))).setWidth 32
  else none

/-- A word of the SRAM: what CONTROL scope last wrote there, else the control store's microword, else a free value (log 74). -/
def debugRead (s : State) (dr : DWord) (addr : Nat) : State :=
  match Map.get? s.lc.dbgSram addr, storeDword s (debugByte addr) with
  | some w, _ => setTapData s ((dr &&& 0xFFFFFFFF00000000) ||| w.setWidth 64)
  | none, some w => setTapData s ((dr &&& 0xFFFFFFFF00000000) ||| w.setWidth 64)
  | none, none => freeDebug s dr addr

/-- A microword with one of its eight dwords replaced. -/
def setDword (w : BitVec 256) (i : Nat) (v : Word) : BitVec 256 :=
  (w &&& ~~~((0xFFFFFFFF : BitVec 256) <<< (32 * i))) ||| (v.setWidth 256 <<< (32 * i))

/-- CONTROL scope writes a word of the SRAM: of a microword of the control store, the microword changes (Table 9, R56). -/
def debugWrite (s : State) (dr : DWord) (addr : Nat) : State :=
  let byte := debugByte addr
  setTapData (if (storeDword s byte).isSome then
      { s with boot := { s.boot with
        store := Map.modify s.boot.store ((byte - 0x4200000) / 32) fun w => setDword w (byte / 4 % 8) (dr.setWidth 32) } }
    else { s with lc := { s.lc with dbgSram := Map.put s.lc.dbgSram addr (dr.setWidth 32) } }) dr

/-- DEBUG_SPACE_ACCESS (R399, Table 142): a write of a register acts as one by the keeper function, so it is held in a clean-up (R458,
R457, R317). -/
def execDebugSpaceAccess (dr : DWord) (s : State) : Out :=
  let write := dr.getLsbD 63
  let addr := bits dr.toNat 32 31
  let closed := setTapData s (dr &&& 0xFFFFFFFF00000000)
  let control := s.lc.scope = 2
  .next (if s.lc.tapIr ≠ 0x20 || s.sys.mode = .dormant then s
    else if s.lc.scope = 0 then closed
    else if addr < 0x4000 then
      (if !write then setTapData s ((dr &&& 0xFFFFFFFF00000000) ||| (regRead s (keeperFn s) (4 * addr)).setWidth 64)
       else if control then setTapData (writeOrHold s (keeperFn s) (4 * addr) (dr.setWidth 32)) dr
       else closed)
    else if 0x10000 ≤ addr && addr < 0x30000 then
      (if !write then freeDebug s dr addr else if control then debugHalt s dr addr else closed)
    else if 0x10000000 ≤ addr && addr < 0x18000000 && control && debugReaches addr then
      (if write then debugWrite s dr addr else debugRead s dr addr)
    else closed)

end Sys2Proof.Machine
end

