-- ==== Sys2Proof/Machine/Graphics.lean ====
section
/-!
DEFINITION. Graphics memory (R28, R30, R440, Table 12): blocks as the memory protection unit stores them, what a block that fails its MAC
check does, and items whose last write failed.
-/

namespace Sys2Proof.Machine

/-! ### Blocks (R28) -/

/-- MiB of the regions of Table 12 that come before a region, in the table's order (of the smaller variant); the placing is the table's
(DESIGN CHOICE, log 66). -/
def gmBase (s : State) (region : Nat) : Nat :=
  (if s.otp.variant32 then 2 else 1) * 1048576 * (([512, 2048, 4096, 512, 8192, 1024].take region).sum)

/-- A 256-byte block as graphics memory holds it at an address: its ciphertext under the XTS key, with the address as the tweak, and its
64-bit MAC in the tag region (R28). -/
def gmBlock (s : State) (addr : Nat) (b : Bytes) : Bytes × Bytes :=
  let ct := padTo 256 (Config.xts true s.bkeys.xts addr (padTo 256 b))
  (ct, padTo 8 (Config.gmMac s.bkeys.mac addr ct))

/-- The block a ciphertext and a MAC stand for, if the MAC passes (R28, R30). -/
def gmOpen (s : State) (addr : Nat) (ct mac : Bytes) : Option Bytes :=
  if mac = padTo 8 (Config.gmMac s.bkeys.mac addr ct) then some (padTo 256 (Config.xts false s.bkeys.xts addr ct)) else none

/-- An item's bytes as graphics memory holds them from an address on, block by block. -/
def gmStored (s : State) (addr : Nat) (d : Bytes) : List (Bytes × Bytes) :=
  (pieces 256 d.length 0 d).map fun p => gmBlock s (addr + p.1) p.2

/-! ### A block fails its MAC check (R30) -/

/-- The berth of a BERTH_MOVE that ends stays (Table 152). -/
def stay (s : State) (cid : Nat) : State :=
  { s with keys := { s.keys with berths := Map.update s.keys.berths fun _ b => { b with moving := b.moving.filter (· != cid) } } }

/-- A command completes ST_ENGINE_FAULT for a graphics-memory failure, the others that named the key ST_KEY_EMPTY
(R282). -/
def loseTail (s : State) (g cid : Nat) : State :=
  retryBerth (loseKey (fail (stay (record s 0x1006 1 (leBytes 4 g)) cid) cid .engineFault 9) g)

/-- The same for a spilled berth (R285). -/
def loseSpilled (s : State) (i cid : Nat) : State :=
  loseBerth (fail (record s 0x1006 2 (leBytes 4 i)) cid .engineFault 9) i

/-- A command that needs a plan and has not been dispatched from its verified working copy (R30). -/
def awaitsPlan (s : State) (id : Nat) (c : Cmd) : Bool :=
  (c.planId == id && c.segs != [] && unfinished c && !c.dispatched)
    || (match c.phase with
      | .rngWait _ => planOf s c.entry c.keyA c.keyB == id
      | _ => false)

/-- A plan is marked missing; its copy goes with the last command that runs on it (R30). -/
def missPlan (s : State) (id : Nat) : State :=
  let gone := (s.cmds.filter (awaitsPlan s id)).map (·.id)
  let s1 := gone.foldl (fun t cid => fail t cid .planMissing 0) s
  let plans := if id < 0x80000000 then s1.eng.plans else Map.del s1.eng.plans id
  let missing := if id < 0x80000000 then insertNat id s1.eng.missing else s1.eng.missing
  reapCopies { s1 with eng := { s1.eng with plans := plans, missing := missing, stale := insertNat id s1.eng.stale } }

/-- A BERTH_MOVE carries a key along with its berth. -/
def movesKey (s : State) (c : Cmd) (g : Nat) : Bool :=
  opcode c.entry == 0x42 && c.phase == .effected && (c.berth.bind (Map.get? s.keys.berths)).any fun b => (boundKeys b).contains g

/-- The command named reads the block that failed. -/
def gmReads (s : State) (r : GmRegion) : Bool :=
  match r with
  | .cache cid entry => (s.eng.cache[entry]?).any fun x => x.pinned.contains cid
  | .planStore id cid => (getCmd s cid).any (awaitsPlan s id)
  | .keySpill g cid => (Map.get? s.keys.keys g).any (·.spilled) && (getCmd s cid).any fun c => (namesKey c g || movesKey s c g) && unfinished c
  | .berthSpill i cid =>
    (Map.get? s.keys.berths i).any (·.spilled) && (getCmd s cid).any fun c => c.berth == some i && unfinished c
  | .working cid => (getCmd s cid).any unfinished

/-- What becomes of a region's item and command (R30, R282, R285). -/
def gmLoss (s : State) (r : GmRegion) : State :=
  match r with
  | .cache _ entry => { s with eng := { s.eng with cache := s.eng.cache.eraseIdx entry } }
  | .planStore id _ => missPlan s id
  | .keySpill g cid => loseTail s g cid
  | .berthSpill i cid => loseSpilled s i cid
  | .working cid => fail s cid .engineFault 9

/-- A block fails its MAC check on a read (R30): one event, then the region's response. -/
def gmFail (s : State) (r : GmRegion) : State :=
  if s.sys.mode != .dormant && gmReads s r then gmLoss (monEvent s 15 [1]) r else s

/-- An item that a command reads now, if its last write failed: it fails its MAC check (R440). -/
def gmRead (s : State) (r : GmRegion) : Option State := if gmIsBad s r then some (gmFail s r) else none

end Sys2Proof.Machine
end

