-- ==== Sys2Proof/Machine/Stream.lean ====
section
/-!
DEFINITION. What Table 75 says of each vector instruction: its class, its steps and the fields it uses, and the validity
of an instruction word (R236).
-/

namespace Sys2Proof.Machine

/-- Instruction classes (Table 73). -/
inductive VClass where
  | lin | gad | unmask | pub | mem | no
  deriving DecidableEq, Repr

/-- One row of Table 75 in Format A: class, steps at order 0, 1 and 2, used bits of VD, VA and VB, whether QM, PG, PZ and
W are used, and the used bits of IMM. -/
structure ASpec where
  cls : VClass
  steps : Nat × Nat × Nat
  vd : Nat
  va : Nat
  vb : Nat
  qm : Bool
  pg : Bool
  pz : Bool
  w : Bool
  imm : Word
  deriving DecidableEq, Repr

/-- A lane instruction: VD, VA, perhaps VB and QM, guarded. -/
def laneSpec (cls : VClass) (s0 s1 s2 vb : Nat) (qm : Bool) (imm : Word) : ASpec :=
  { cls, steps := (s0, s1, s2), vd := 5, va := 5, vb, qm, pg := true, pz := true, w := true, imm }

/-- A predicate or scalar instruction: used bits of VD, VA and VB, whether guarded, and IMM. -/
def predSpec (vd va vb : Nat) (qm guarded : Bool) (imm : Word) : ASpec :=
  { cls := .pub, steps := (1, 1, 1), vd, va, vb, qm, pg := guarded, pz := guarded, w := true, imm }

/-- Rows of Table 75 in Format A. -/
def aSpec (code : Nat) : Option ASpec :=
  match code with
  | 0x00 => some { cls := .lin, steps := (1, 1, 1), vd := 0, va := 0, vb := 0, qm := false, pg := false, pz := false, w := false, imm := 0 }
  | 0x10 => some (laneSpec .no 1 1 1 5 false 0)
  | 0x11 => some (laneSpec .no 1 1 1 5 false 0)
  | 0x12 => some (laneSpec .lin 1 1 1 5 true 0)
  | 0x13 => some (laneSpec .lin 1 1 1 5 true 0)
  | 0x14 => some (laneSpec .gad 2 6 12 5 true 0)
  | 0x15 => some (laneSpec .gad 2 6 12 5 true 0)
  | 0x16 => some (laneSpec .lin 2 2 2 0 true 0xF87FFFFF)
  | 0x17 => some (laneSpec .lin 3 3 3 0 true 0xF87FFFFF)
  | 0x18 => some (laneSpec .lin 3 3 3 0 true 0xF87FFFFF)
  | 0x19 => some (laneSpec .no 1 1 1 5 false 0x1)
  | 0x1A => some (laneSpec .no 1 1 1 5 false 0x1)
  | 0x1B => some (laneSpec .no 1 1 1 0 false 0x11F)
  | 0x1C => some (laneSpec .gad 2 10 18 0 true 0x1F)
  | 0x1D => some (laneSpec .gad 2 8 14 0 true 0x1F)
  | 0x1E => some (laneSpec .gad 2 12 22 0 true 0x1F)
  | 0x1F => some (laneSpec .gad 3 16 30 0 true 0xFFFFFF)
  | 0x20 => some (laneSpec .no 1 1 1 0 false 0xFFFFFF)
  | 0x21 => some { laneSpec .lin 1 1 1 5 false 0 with pz := false }
  | 0x22 => some (laneSpec .no 1 1 1 5 false 0)
  | 0x23 => some (laneSpec .no 1 1 1 5 false 0)
  | 0x24 => some (laneSpec .lin 1 1 1 5 false 0)
  | 0x25 => some (laneSpec .no 1 1 1 0 false 0x1F)
  | 0x26 => some (laneSpec .no 1 1 1 0 false 0x1F)
  | 0x28 => some (laneSpec .gad 1 8 16 0 true 0)
  | 0x29 => some (laneSpec .gad 1 8 16 0 true 0)
  | 0x2A => some (laneSpec .gad 1 2 3 0 true 0x1)
  | 0x2B => some (laneSpec .unmask 1 2 2 0 true 0x1)
  | 0x2C => some (laneSpec .lin 1 1 1 0 false 0)
  | 0x30 => some { laneSpec .pub 1 1 1 0 false 0xFFFFFF with va := 0 }
  | 0x31 => some { laneSpec .pub 1 1 1 0 false 0xFFFFFF with va := 0 }
  | 0x32 => some { laneSpec .pub 1 1 1 0 false 0 with va := 4 }
  | 0x33 => some (predSpec 4 5 0 false false 0x3F)
  | 0x38 => some (predSpec 3 5 5 false true 0x7)
  | 0x39 => some (predSpec 3 5 0 false true 0xFFFFFF07)
  | 0x3A => some (predSpec 3 5 0 true true 0xFFFFFF)
  | 0x40 => some (predSpec 3 3 3 false false 0x3)
  | 0x41 => some (predSpec 3 0 0 false false 0x7F)
  | 0x42 => some (predSpec 4 3 0 false false 0)
  | 0x58 => some { predSpec 0 0 0 true false 0xFFFFFF with steps := (4, 4, 4), w := false }
  | _ => none

/-- Element width EW (R219). -/
def ew (w : Bool) : Nat := if w then 24 else 12

/-- Lanes L (R219). -/
def laneCount (w : Bool) : Nat := if w then 32 else 64

/-- The modular instructions (R237). -/
def isModular (code : Nat) (imm : Word) : Bool :=
  (decide (0x12 ≤ code) && decide (code ≤ 0x1F) && !(code == 0x19 || code == 0x1A || code == 0x1B)) || code == 0x28 ||
    code == 0x29 || code == 0x3A || ((code == 0x2A || code == 0x2B) && !imm.getLsbD 0)

/-- DISP lies in its space as far as a word alone shows (R236): `frame` LVE_FRAME, `body` B. -/
def dispOk (sp : Bool) (disp frame body : Nat) : Bool := if sp then decide (disp ≤ body) else decide (disp < frame)

/-- The IMM address of VMMULT, VBFLY and VIBFLY: base scalar, space, DISP. -/
def immAddr (imm : Word) : Nat × Bool × Nat := (bits imm.toNat 28 4, imm.getLsbD 27, bits imm.toNat 0 23)

/-- Ranges of Table 75 in Format A (R236). -/
def aRange (code : Nat) (f : FmtA) (frame body : Nat) : Bool :=
  let n := f.imm.toNat
  match code with
  | 0x16 => dispOk (immAddr f.imm).2.1 (immAddr f.imm).2.2 frame body
  | 0x17 => dispOk (immAddr f.imm).2.1 (immAddr f.imm).2.2 frame body
  | 0x18 => dispOk (immAddr f.imm).2.1 (immAddr f.imm).2.2 frame body
  | 0x1C => decide (1 ≤ n) && decide (n ≤ ew f.w - 1)
  | 0x1D => decide (1 ≤ n) && decide (n ≤ ew f.w - 1)
  | 0x1E => f.w && decide (1 ≤ n) && decide (n ≤ 22) && decide (f.vd.val ≤ 30)
  | 0x1F => f.w && n != 0 && decide (f.vd.val ≤ 30)
  | 0x20 => decide (n < 2 ^ ew f.w)
  | 0x25 => decide (n < ew f.w)
  | 0x26 => decide (n < ew f.w)
  | 0x2A => n == 0 || f.qm.val == 0
  | 0x2B => n == 0 || f.qm.val == 0
  | 0x30 => decide (n < 2 ^ ew f.w)
  | 0x33 => decide (n < laneCount f.w)
  | 0x38 => decide (n < 6)
  | 0x39 => decide (n % 8 < 6) && decide (n / 256 < 2 ^ ew f.w)
  | 0x41 => decide (n ≤ laneCount f.w)
  | 0x58 => n % 2 == 1 && decide (3 ≤ n)
  | _ => true

/-- A Format A word is valid (R236). -/
def aValid (code : Nat) (f : FmtA) (masked : Bool) (frame body : Nat) : Bool :=
  match aSpec code with
  | none => false
  | some k =>
    decide (f.vd.val < 2 ^ k.vd) && decide (f.va.val < 2 ^ k.va) && decide (f.vb.val < 2 ^ k.vb) && (k.qm || f.qm.val == 0)
      && (k.pg || f.pg.val == 0) && (k.pz || !f.pz) && (k.w || !f.w) && f.imm &&& ~~~k.imm == 0
      && !(masked && k.cls == .no) && aRange code f frame body

/-- A store. -/
def isStore (code : Nat) : Bool := code == 0x51 || code == 0x53 || code == 0x55

/-- A Format M word is valid (R236). -/
def mValid (code : Nat) (f : FmtM) (masked : Bool) (frame body : Nat) : Bool :=
  decide (0x50 ≤ code) && decide (code ≤ 0x55) && (masked || f.pl.val == 0) && decide (f.vd.val + f.nf.val ≤ 31)
    && (!isStore code || (!f.pz && !f.sp)) && dispOk f.sp f.disp.toNat frame body
    && (match code with
      | 0x50 => f.vi.val == 0
      | 0x51 => f.vi.val == 0
      | 0x54 => decide (f.vi.val + 1 ≤ ew f.w) && f.nf.val == 0 && f.pg.val == 0
      | 0x55 => decide (f.vi.val + 1 ≤ ew f.w) && f.nf.val == 0 && f.pg.val == 0
      | _ => true)

/-- A Format S word is valid (R236). -/
def sValid (code : Nat) (f : FmtS) : Bool :=
  match code with
  | 0x60 => f.sa.val == 0 && f.sb.val == 0 && f.fn.val == 0 && !f.i
  | 0x61 => decide (f.fn.val ≤ 7) && (if f.i then f.sb.val == 0 else f.imm == 0)
  | 0x62 => f.sb.val == 0 && f.fn.val == 0 && !f.i
  | 0x63 => f.sb.val == 0 && f.fn.val == 0 && !f.i
  | _ => false

/-- An instruction is valid in a segment (R236). -/
def lveValid (x : LveForm) (masked : Bool) (frame body : Nat) : Bool :=
  match x with
  | .a code f => aValid code f masked frame body
  | .m code f => mValid code f masked frame body
  | .s code f => sValid code f

/-- Steps at a share order (Table 75, R227). -/
def lveSteps (x : LveForm) (d : Nat) : Nat :=
  match x with
  | .a code _ => match aSpec code with
    | some k => if d = 0 then k.steps.1 else if d = 1 then k.steps.2.1 else k.steps.2.2
    | none => 0
  | .m code f => if code = 0x52 || code = 0x53 then 4 * (f.nf.val + 1) else if code = 0x54 || code = 0x55 then 2 else f.nf.val + 1
  | .s code _ => if code = 0x62 || code = 0x63 then 2 else 1

/-- The word at a byte offset of a body (R225: words are little-endian). -/
def wordAt (body : Bytes) (off : Nat) : Nat := le body off 8

/-- The form a word decodes to; the engine it runs on does not matter. -/
def formAt (body : Bytes) (off : Nat) : Option LveForm := (lveDecode 0 (wordAt body off)).bind lveForm

/-- Every word of a stream is valid, and the steps at order `d` (R209, R228). -/
def streamSteps (body : Bytes) (off words : Nat) (masked : Bool) (frame d : Nat) : Option Nat :=
  (List.range words).foldl (fun a i => match a, formAt body (off + 8 * i) with
    | some n, some x => if lveValid x masked frame body.length then some (n + lveSteps x d) else none
    | _, _ => none) (some 0)

end Sys2Proof.Machine
end

