-- ==== Sys2Proof/Machine/Plans.lean ====
section
/-!
DEFINITION. Owner plans: the checks of R209 on an image (Tables 67 to 69, R208, R228), LOAD_PLAN and UNLOAD_PLAN (R131),
the working copies in plan memory (R204) and the rewrite of a standard plan (R205).
-/

namespace Sys2Proof.Machine

/-! ### Structure of a body (R206 to R209) -/

/-- The PSETs of Table 57 and the KTYPEs of Table 58. -/
def keyTypes : List Nat :=
  let span (a n : Nat) := (List.range n).map (a + ·)
  span 0x0101 3 ++ span 0x0201 10 ++ span 0x0301 3 ++ span 0x0401 3 ++ span 0x0501 5 ++ span 0x1001 3 ++ span 0x1101 12
    ++ span 0x1201 3 ++ span 0x1301 3 ++ span 0x1401 2 ++ span 0x1501 3 ++ span 0x3010 3 ++ [0x3020]

/-- Bytes of the longest private or symmetric key of a type. -/
def longestPrivate (t : Nat) : Nat :=
  if isRsa t then rsaPriv 1024
  else match t with
    | 0x3010 => 32
    | 0x3011 => 64
    | 0x3012 => 32
    | 0x3020 => 256
    | _ => if famOf t = .ephemeral then privLen (t - 0x7E00) + 32 else privLen t

/-- Bytes of the longest public key of a type. -/
def longestPublic (t : Nat) : Nat := if famOf t = .sym then 0 else if isRsa t then 1024 + 8 else pubLen t

/-- Bytes of the longest key of a type that can hold a use; 0 for none. -/
def longestOf (t use : Nat) : Nat :=
  max (if bit (publicUse t) use then longestPublic t else 0) (if bit (typeUses t) use then longestPrivate t else 0)

/-- Bytes of the largest key of a plan's KEY_TYPE (R209). A KEY_TYPE of zero names no type: the largest key that KEY_USE lets the plan be
given then counts, which is none for a plan without a key (log 100). -/
def longestKey (ktype use : Nat) : Nat :=
  if ktype ≠ 0 then max (longestPublic ktype) (longestPrivate ktype)
  else if use = 0xFFFF then 0 else keyTypes.foldl (fun a t => max a (longestOf t use)) 0

/-- The greatest output length a header declares (R206). -/
def outMost (b : Bytes) : Nat := le b 36 4 + le b 40 4 * (le b 28 4 / max 1 (le b 32 4))

/-- The header's fields lie in Table 67, for an owner plan. -/
def headerOk (b : Bytes) : Bool :=
  let bl := le b 16 4
  slice b 0 4 == [0x54, 0x50, 0x4C, 0x4E] && le b 4 2 == 1 && slice b 6 2 == [0x41, 0x31]
    && decide (0x80000000 ≤ le b 8 4) && le b 8 4 != 0xFFFFFFFF
    && bl % 256 == 0 && decide (256 ≤ bl) && decide (bl ≤ 0x00400000) && b.length == bl
    && decide (1 ≤ le b 20 2) && decide (le b 20 2 ≤ 4096) && decide (le b 22 1 ≤ 16) && le b 23 1 == 1
    && decide (le b 24 4 ≤ le b 28 4) && decide (1 ≤ le b 32 4)
    && (le b 44 2 == 0xFFFF || decide (le b 44 2 ≤ 10)) && (le b 46 2 == 0 || keyTypes.contains (le b 46 2))
    && decide (le b 48 1 ≤ 1) && decide (le b 49 1 < 8) && le b 50 2 == 0
    && le b 52 4 % 4096 == 0 && decide (le b 52 4 ≤ 524288) && le b 56 4 == 0 && le b 60 4 == 0
    && le b 64 4 % 16 == 0 && le b 68 4 % 8 == 0 && (le b 22 1 != 0 || le b 68 4 == 0) && allZero (slice b 84 172)

/-- The tables lie within the body, and input, output and key within the frame (R209 step 3). -/
def extentOk (b : Bytes) : Bool :=
  let frame := le b 52 4
  decide (le b 64 4 + 16 * le b 20 2 ≤ b.length) && decide (le b 68 4 + 8 * le b 22 1 ≤ b.length)
    && decide (le b 72 4 + le b 28 4 ≤ frame) && decide (outMost b ≤ 0xFFFFFFFF) && decide (le b 76 4 + outMost b ≤ frame)
    && decide (le b 80 4 + 2 * longestKey (le b 46 2) (le b 44 2) ≤ frame)

/-- The highest masking order a plan's ORDERS allows. -/
def topOrder (b : Bytes) : Nat := if bit (le b 49 1) 2 then 2 else if bit (le b 49 1) 1 then 1 else 0

/-- A segment entry lies in Table 68; its stream is valid and needs at most STEPS (R209, R228). -/
def segOk (b : Bytes) (i : Nat) : Bool :=
  let o := le b 64 4 + 16 * i
  let fl := le b (o + 1) 1
  let off := le b (o + 8) 4
  let len := le b (o + 12) 4
  le b o 1 == 1 && decide (fl < 8) && le b (o + 2) 2 == 0 && decide (1 ≤ le b (o + 4) 4) && decide (le b (o + 4) 4 ≤ 65536)
    && off % 8 == 0 && len % 8 == 0 && len != 0 && decide (off + len ≤ b.length)
    && !(bit fl 0 && i + 1 == le b 20 2)
    && (match streamSteps b off (len / 8) (bit fl 1) (le b 52 4) (topOrder b) with
      | some n => decide (n ≤ le b (o + 4) 4)
      | none => false)

/-- Indices of the decision segments, rising. -/
def decSegs (b : Bytes) : List Nat := (List.range (le b 20 2)).filter fun i => bit (le b (le b 64 4 + 16 * i + 1) 1) 2

/-- A segment is the first of its group. -/
def firstOfGroup (b : Bytes) (t : Nat) : Bool := t == 0 || !bit (le b (le b 64 4 + 16 * (t - 1) + 1) 1) 0

/-- A decision entry lies in Table 69. -/
def decOk (b : Bytes) (k : Nat) : Bool :=
  let o := le b 68 4 + 8 * k
  let seg := le b o 2
  let target := le b (o + 4) 2
  le b (o + 3) 1 != 0 &&
    (match le b (o + 2) 1 with
      | 1 => decide (target ≤ seg) && firstOfGroup b target && le b (o + 6) 1 != 0 && le b (o + 7) 1 == 0
      | 2 => decide (target ≤ seg) && firstOfGroup b target && le b (o + 6) 1 != 0 && le b (o + 7) 1 == 0
      | 3 => target == 0 && le b (o + 6) 1 == 0 && (le b (o + 7) 1 == 1 || le b (o + 7) 1 == 2) && seg + 1 == le b 20 2
      | _ => false)

/-- The body breaks no structural rule of R209 step 3. -/
def bodyOk (b : Bytes) : Bool :=
  headerOk b && extentOk b && (List.range (le b 20 2)).all (segOk b)
    && ((List.range (le b 22 1)).map fun k => le b (le b 68 4 + 8 * k) 2) == decSegs b && (List.range (le b 22 1)).all (decOk b)

/-! ### LOAD_PLAN and UNLOAD_PLAN -/

/-- Steps 2 to 4 of R209, once the command's segments have run; a plan it replaces waits for its open commands and the next dispatch
boundary (R131, R188). -/
def loadPlan (s : State) (cid : Nat) (d : Bytes) : State :=
  let n := le d 16 4
  let b := slice d 0 n
  if !((ownerRoot s).any fun pk => Config.verify (0x1003, 0, 0) pk [] b (slice d n 4627)) then fail s cid .keyDenied 1
  else if !bodyOk b then fail s cid .badParam 0xFFFF
  else if storeFull s (le b 8 4) b.length then fail s cid .busy 0x0A
  else if planOpen s (le b 8 4) || (Map.get? s.eng.plans (le b 8 4)).isSome then
    addChange (modCmd s cid fun c => { c with phase := .effected }) 0 cid
  else storePlan s cid b

/-- The command with its number waits after its immediate effect. -/
def waiting (s : State) (cid : Nat) : Option Cmd := (getCmd s cid).filter fun c => c.phase == .effected

/-- LOAD_PLAN (R131, R209). -/
def execLoadPlan (cid : Nat) (s : State) : Out :=
  .next (match waiting s cid with
    | some c => loadLater s c
    | none => runInput s cid 0x50
        (fun c => firstErr [keeperOperands c [], require (decide (256 ≤ inLen c.entry)) .badLength 256, planErr s c])
        fun c d =>
          if inLen c.entry ≠ le d 16 4 + 4627 then fail s cid .badLength (le d 16 4 + 4627)
          else if !segsDone c || !running s then modCmd s cid fun x => { x with input := some d }
          else loadPlan s cid d)

/-- UNLOAD_PLAN (R131): it waits for the plan's open commands. -/
def execUnloadPlan (cid : Nat) (s : State) : Out :=
  .next (match waiting s cid with
    | some c =>
      if opcode c.entry = 0x51 && serving s && !planOpen s (le c.entry 40 4) then done (dropPlan s (le c.entry 40 4)) cid 0
      else s
    | none => runTurn s cid 0x51
        (fun c => firstErr [keeperOperands c (need 40 (decide (0x80000000 ≤ le c.entry 40 4))),
          require ((Map.get? s.eng.plans (le c.entry 40 4)).isSome) .planMissing 0])
        fun c =>
          if planOpen s (le c.entry 40 4) then modCmd s cid fun x => { x with phase := .effected }
          else done (dropPlan s (le c.entry 40 4)) cid 0)

/-! ### Plan memory (R204, R205) -/

/-- An accepted command uses a plan: it has taken it and has not finished. -/
def usesPlan (s : State) (id : Nat) : Bool := s.cmds.any fun c => c.planId == id && c.segs != [] && unfinished c && c.phase != .effected

/-- Bytes of working copies. -/
def copyBytes (m : Map (Nat × Nat)) : Nat := (m.map fun e => e.2.1).sum

/-- The PSET, ALG and KTYPE codes an opcode's operand takes, or the types of the key that fixes its work (R203). -/
def planCodes (op : Nat) : List Nat :=
  let types (f : Nat → Bool) := keyTypes.filter f
  let hashes (b : Nat) (f : Nat → Bool) := ((List.range 256).filter f).map (256 * b + ·)
  match op with
  | 0x0101 => types isKem
  | 0x0102 => types isKem
  | 0x0103 => types fun p => famOf p == .ecdh || famOf p == .xdh
  | 0x0104 => [0x1503]
  | 0x0105 => [0x1503]
  | 0x0110 => types fun p => famOf p == .mlkem
  | 0x0201 => types isSigFam
  | 0x0202 => types fun p => isSigFam p || famOf p == .hbs
  | 0x0301 => [0x3001, 0x3006]
  | 0x0302 => [0x3001, 0x3006]
  | 0x0303 => [0x3002, 0x3003]
  | 0x0304 => [0x3002, 0x3003]
  | 0x0310 => hashes 0x31 preHash
  | 0x0320 => hashes 0x32 fixedHash ++ [0x3241, 0x3242]
  | 0x0321 => hashes 0x32 fixedHash ++ [0x3241, 0x3242]
  | 0x0330 => (List.range 5).map (0x3301 + ·)
  | 0x0501 => [0]
  | 0x0610 => types fun p => famOf p == .hbs
  | 0x0801 => []
  | _ => 0 :: keyTypes

/-- The identifiers of the standard plans: an opcode with each code it serves, and the keeper commands that need an
engine with none (R203). -/
def stdPlanIds : List Nat :=
  (operationOps.flatMap fun op => (planCodes op).map (op * 65536 + ·))
    ++ [0x31, 0x50, 0x60, 0x61, 0x62].map (· * 65536)

/-- The least recently used working copy that no accepted command uses. -/
def lruCopy (s : State) (m : Map (Nat × Nat)) : Option (Nat × Nat × Nat) :=
  (m.filter fun e => !usesPlan s e.1).foldl (fun a e => match a with
    | none => some e
    | some x => if e.2.2 < x.2.2 then some e else some x) none

/-- Evict until `need` bytes fit; none when nothing more can be evicted. -/
def makeCopyRoom (s : State) (need : Nat) : Nat → Map (Nat × Nat) → Option (Map (Nat × Nat))
  | 0, m => if copyBytes m + need ≤ Config.planMemory then some m else none
  | n + 1, m =>
    if copyBytes m + need ≤ Config.planMemory then some m
    else (lruCopy s m).bind fun e => makeCopyRoom s need n (Map.del m e.1)

/-- The image of a plan whose last write failed is read for a command that waits for the copy: it fails its MAC check (R440). -/
def gmReadPlan (s : State) (id : Nat) : Option State :=
  (s.cmds.find? (awaitsPlan s id)).bind fun c => gmRead s (.planStore id c.id)

/-- PLAN_COPY_IN (R204). -/
def execPlanCopyIn (planId : Nat) (s : State) : Out :=
  .next (if serving s && planResident s planId && usesPlan s planId && (Map.get? s.eng.copies planId).isNone then
      (match gmReadPlan s planId, makeCopyRoom s (planBody s planId).length s.eng.copies.length s.eng.copies with
        | some t, _ => t
        | none, some m =>
          { s with
            stamp := s.stamp + 1,
            eng := { s.eng with copies := Map.put m planId ((planBody s planId).length, s.stamp + 1) } }
        | none, none => s)
    else s)

/-- PLAN_REWRITE (R205): a standard plan is resident again; a copy that commands still run on goes with the last of them
(R30). -/
def execPlanRewrite (planId : Nat) (s : State) : Out :=
  .next (if s.eng.missing.contains planId then
      gmFresh { s with eng := { s.eng with missing := s.eng.missing.filter (· != planId) } } (.planStore planId 0)
    else s)

end Sys2Proof.Machine
end

