-- ==== Sys2Proof/Machine/Pcie.lean ====
section
/-!
DEFINITION. PCIe configuration of a function and a port (R426 to R428, R432): what a function reports of itself, and what writes leave in
its control registers. Places of the registers and their bits are those of the PCIe Base Specification (log 11).
-/

namespace Sys2Proof.Machine

/-- Device ID of a function (R427). -/
def pciDevice (fn : Nat) : Nat := if vfOf fn = 0 then 0x8128 else 0x8129

/-- Dwords of a function's configuration header that the spec states: identification (R427) and the BARs (R428), of which BAR 4 is not
implemented and a VF has none of its own; none elsewhere in its 4 KiB. -/
def configWord (s : State) (fn off : Nat) : Option Word :=
  if !fnExists s fn then none
  else
    let x := (getFn s fn).pcie
    let pf := vfOf fn == 0
    match off with
    | 0x00 => some (packFields [(0, 0x1F9C), (16, pciDevice fn)])
    | 0x08 => some 0x108000A1
    | 0x10 => some (if pf then half x.bar0 false else 0)
    | 0x14 => some (if pf then half x.bar0 true else 0)
    | 0x18 => some (if pf then half x.bar2 false else 0)
    | 0x1C => some (if pf then half x.bar2 true else 0)
    | 0x20 => some 0
    | 0x24 => some 0
    | 0x2C => some 0x00001F9C
    | _ => none

/-- BAR 0 as a write leaves it: 64-bit, non-prefetchable, 128 KiB (R428). -/
def bar0Of (v : DWord) : DWord := (v &&& 0xFFFFFFFFFFFE0000) ||| 0x4

/-- BAR 2 as a write leaves it: 64-bit, prefetchable, 1 MiB. -/
def bar2Of (v : DWord) : DWord := (v &&& 0xFFFFFFFFFFF00000) ||| 0xC

/-- The control registers of a function after a write (Table 156): a VF has no BAR and no ACS capability of its own; AER status bits are
cleared by writing them 1; Initiate FLR reads 0. -/
def writePcie (pf : Bool) (w : PcieWrite) (x : PcieRegs) : PcieRegs :=
  { devCtl := w.devCtl &&& 0x7FFF, devCtl2 := w.devCtl2, aerUnc := x.aerUnc &&& ~~~w.uncClear, aerCor := x.aerCor &&& ~~~w.corClear,
    aerCtl := w.aerCtl, acsCtl := if pf then w.acsCtl else 0, bar0 := if pf then bar0Of w.bar0 else x.bar0,
    bar2 := if pf then bar2Of w.bar2 else x.bar2 }

/-- No_Soft_Reset as a function reports it (R432). -/
def noSoftReset : Bool := false

/-- A port's link may enter L1: every function of the port is in D3hot (Table 156). -/
def mayL1 (s : State) (p : Nat) : Bool := (portFns s p).all fun f => (getFn s f).d3hot

/-- Configuration requests reach a function: it exists, and its port has its link and answers (R435, R446, R473). -/
def configOpen (s : State) (fn : Nat) : Bool :=
  fnExists s fn && portUp s fn && s.sys.mode != .dormant && !s.sys.isolated

end Sys2Proof.Machine
end

