-- ==== Sys2Proof/Machine/Stateful.lean ====
section
/-!
DEFINITION. Counters (R171, R247, R248), stateful trees (R172, R173, R250 to R258), user NVM (R174), time, timestamps and
seals (R175 to R179, R301 to R308), and PLAN_RUN (R180).
-/

namespace Sys2Proof.Machine

/-! ### Counters -/

/-- A command on the same counter was accepted earlier and has not finished (R248). -/
def counterBusy (s : State) (c : Cmd) : Bool :=
  earlierOpen s c [0x0601, 0x0602] fun d => le d.entry 40 1 == le c.entry 40 1

/-- CTR_READ (R171, R244, R248). -/
def execCtrRead (cid fails : Nat) (s : State) : Out := .next (runOp s cid 0x0601 fun c _ =>
  if counterBusy s c then some s
  else match resolveRec s 3 (le c.entry 40 1) fails with
    | (s1, .error d) => bad s1 c .counterExhausted d
    | (s1, .ok v) => good s1 c 0 8 (leBytes 8 v.toNat))

/-- Commit one more than a counter's value (R241, R244 step 2); the committed value stands over a rerun (R214). -/
def increment (s : State) (c : Cmd) (v : DWord) (fails : Nat) : State :=
  match commitRec s 3 (le c.entry 40 1) 0 (v + 1) fails with
  | (s1, true) =>
    okOut (modCmd (holdValue s1 3 (le c.entry 40 1) (v + 1)) c.id fun x => { x with value := some (v + 1).toNat }) c.id 0
      (leBytes 8 (v + 1).toNat)
  | (s1, false) => fail s1 c.id .counterExhausted 3

/-- A counter at its greatest value stays unchanged (R171); reporting it resolves it first (R244). -/
def counterFull (s : State) (c : Cmd) (fails : Nat) : State :=
  match resolveRec s 3 (le c.entry 40 1) fails with
  | (s1, .error d) => fail s1 c.id .counterExhausted d
  | (s1, .ok _) => fail s1 c.id .counterExhausted 1

/-- CTR_INCREMENT (R171, R248). -/
def execCtrIncrement (cid fails : Nat) (s : State) : Out := .next (runOp s cid 0x0602 fun c _ =>
  let n := le c.entry 40 1
  if counterBusy s c then some s
  else match c.value with
    | some v => good s c 0 8 (leBytes 8 v)
    | none =>
      match Map.get? s.keys.held (heldKey 3 n), recVal s.nvm 3 n with
      | some v, _ => some (if v = BitVec.allOnes 64 then counterFull s c fails else increment s c v fails)
      | none, .corrupt => bad (reportCorrupt s 3 n) c .counterExhausted 2
      | none, .value _ v => some (if v = BitVec.allOnes 64 then counterFull s c fails else increment s c v fails))

/-! ### Stateful trees -/

/-- The tree key of a new tree (R251, R252). -/
def treeKey (s : State) (c : Cmd) (seed : Bytes) : Key := { nkdKey s c (le c.entry 40 2) 8 true seed with attr := BitVec.ofNat 8 (le c.entry 58 1) }

/-- The record of a new tree: its master seed sealed under the tree seed key, the whole under the key of the boot ROM, the two IVs free
values (R250, R276). -/
def treeRec (s : State) (c : Cmd) (t : Nat) (gen : BitVec 24) (params pub seed : Bytes) : TreeRec :=
  let k := treeKey s c seed
  let iv := freeBytes 12 s.free
  let r := aeadSeal 0x3001 16 (treeSeedKey s) iv (treeAad t gen) seed
  boxTree t (freeBytes 12 (s.free + 12))
    { gen := gen, pset := le c.entry 40 2, params := params, owner := c.fn, uses := k.uses, attr := k.attr, lcMask := k.lcMask,
      pub := pub, iv := iv, ct := r.1, tag := r.2, box := .blank, authentic := true }

/-- Next leaf and first unreserved leaf of a tree, resolving it at its first use with a settling copy (R244, R255). -/
def resolveTree (s : State) (t fails : Nat) : State × Except Nat (Nat × Nat) :=
  match Map.get? s.keys.trees t with
  | some x => (s, .ok x)
  | none =>
    match recVal s.nvm 4 t with
    | .corrupt => (reportCorrupt s 4 t, .error 2)
    | .value g v =>
      match commitRec s 4 t g v fails with
      | (s1, true) => ({ s1 with keys := { s1.keys with trees := Map.put s1.keys.trees t (v.toNat, v.toNat) } }, .ok (v.toNat, v.toNat))
      | (s1, false) => (s1, .error 3)

/-- Step 6 of R252: the key of the tree, whose record is written, is placed. While the draw of its mask waits the record stands (R361). -/
def placeTree (s : State) (c : Cmd) (t : Nat) (pub seed : Bytes) : Option State :=
  (drawMasks 1 s).bind fun r =>
    good (putKey r.2 (Config.treeBase + t) (Key.granuled (treeKey s c seed) r.1)) c (Config.treeBase + t) pub.length pub

/-- Steps 4 to 6 of R252 with the seed drawn and the public key made; a generation at its greatest value is settled before it is
reported (R244). -/
def keygenTree (s : State) (c : Cmd) (t : Nat) (fails : List Nat) (params pub seed : Bytes) : Option State :=
  match recVal s.nvm 4 t with
  | .corrupt => bad (reportCorrupt s 4 t) c .counterExhausted 2
  | .value g _ =>
    if g = BitVec.allOnes 24 then
      (match resolveTree s t (fails.getD 0 0) with
        | (s1, .error d) => bad s1 c .counterExhausted d
        | (s1, .ok _) => bad s1 c .counterExhausted 1)
    else match commitRec s 4 t (g + 1) 0 (fails.getD 0 0) with
      | (s1, false) => bad s1 c .counterExhausted 3
      | (s1, true) =>
        let s2 : State := { s1 with keys := { s1.keys with trees := Map.put s1.keys.trees t (0, 0) } }
        match wearWrite s2 2 treeWords (fails.getD 1 0) with
        | (s3, false) => bad s3 c .counterExhausted 3
        | (s3, true) =>
          let s4 : State := { s3 with
            nvm := { s3.nvm with trees := Map.put s3.nvm.trees t (treeRec s3 c t (g + 1) params pub seed) }, free := s3.free + 24 }
          match placeTree s4 c t pub seed with
          | some s5 => some s5
          | none => some (modCmd s4 c.id fun x => { x with value := some (g + 1).toNat, rnd := some seed, phase := .drawWait s.sys.tick })

/-- The public key of an HBS_KEYGEN's parameter block and seed. -/
def keygenPublic (c : Cmd) (d seed : Bytes) : Bytes :=
  padTo (((hbsParams (le c.entry 40 2) d).map (·.1)).getD 0) (Config.hbsPublic (le c.entry 40 2) d seed)

/-- An HBS_KEYGEN accepted earlier for the same tree has not finished (R252). -/
def keygenTurn (s : State) (c : Cmd) : Bool := !earlierOpen s c [0x0610] fun x => le x.entry 42 2 == le c.entry 42 2

/-- HBS_KEYGEN once its segments have ended (R172, R252): `fails` counts the write verifications that fail in the GEN commit and in the tree
record. A command whose record is written has only its key to place. -/
def keygenRun (cid : Nat) (fails : List Nat) (s : State) : State := runOp s cid 0x0610 fun c d =>
  let t := le c.entry 42 2
  match c.value with
  | some _ => withRnd s c fun seed s1 => placeTree s1 c t (keygenPublic c d seed) seed
  | none =>
    if !keygenTurn s c then some s
    else if treeActive s t then bad s c .busy 0x0B
    else match paramErr c d with
      | some (st, x) => bad s c st x
      | none => withRnd s c fun seed s1 => keygenTree s1 c t fails d (keygenPublic c d seed) seed

/-- The parameter block of an HBS_KEYGEN that fails its checks ends it before it dispatches or draws anything, in its turn (R252). -/
def keygenBlock (s : State) (cid : Nat) : Option (Cmd × Status × Nat) :=
  match getCmd s cid with
  | none => none
  | some c =>
    if running s && c.phase == .run && keygenTurn s c && !treeActive s (le c.entry 42 2) then
      (blockErr c).map fun e => (c, e.1, e.2)
    else none

/-- HBS_KEYGEN (R172, R252). -/
def execHbsKeygen (cid : Nat) (fails : List Nat) (s : State) : Out :=
  .next (match keygenBlock s cid with
    | some (c, st, x) => fail s c.id st x
    | none => keygenRun cid fails s)

/-- Reserve the next block of leaves and take its first (R255): the write is the tree's resolution if this is its first use. -/
def reserveBlock (s : State) (c : Cmd) (t r total fails : Nat) : State :=
  let r' := min (r + 64) total
  match commitRec s 4 t (genOf s 4 t) (BitVec.ofNat 64 r') fails with
  | (s1, true) =>
    modCmd { s1 with keys := { s1.keys with trees := Map.put s1.keys.trees t (r + 1, r') } } c.id fun x => { x with leaf := some r }
  | (s1, false) => fail s1 c.id .counterExhausted 3

/-- take_leaf of R255. -/
def takeLeaf (s : State) (c : Cmd) (t total fails : Nat) : State :=
  match Map.get? s.keys.trees t, recVal s.nvm 4 t with
  | none, .corrupt => fail (reportCorrupt s 4 t) c.id .counterExhausted 2
  | none, .value _ v =>
    if v.toNat < total then reserveBlock s c t v.toNat total fails
    else match resolveTree s t fails with
      | (s1, .error d) => fail s1 c.id .counterExhausted d
      | (s1, .ok _) => fail s1 c.id .counterExhausted 1
  | some (n, r), _ =>
    if total ≤ n then fail s c.id .counterExhausted 1
    else if n = r then reserveBlock s c t r total fails
    else modCmd { s with keys := { s.keys with trees := Map.put s.keys.trees t (n + 1, r) } } c.id fun x => { x with leaf := some n }

/-- Leaves T of a tree key (R254). -/
def treeLeaves (s : State) (g : Option Nat) : Nat := 2 ^ (treeParams s g).2.2

/-- LEAF_RESERVE (R255, R256): the reservation step of an HBS_SIGN, in acceptance order for the tree. -/
def execLeafReserve (cid fails : Nat) (s : State) : Out :=
  .next (match getCmd s cid with
    | none => s
    | some c =>
      match c.keyA with
      | some g =>
        if running s && opcode c.entry == 0x0611 && c.phase == .run && c.leaf.isNone
            && !earlierOpen s c [0x0611] (fun x => (x.keyA == some g || blocksKey s x g) && x.leaf.isNone) then
          takeLeaf s c (treeOf g) (treeLeaves s (some g)) fails
        else s
      | none => s)

/-- HBS_SIGN (R173, R253). -/
def execHbsSign (cid : Nat) (s : State) : Out := .next (runOp s cid 0x0611 fun c d =>
  match c.leaf, c.keyA.bind fun g => Map.get? s.nvm.trees (treeOf g) with
  | some leaf, some t =>
    good s c 0 (treeParams s c.keyA).2.1
      (Config.hbsSign t.pset t.params (keyBytes s c.keyA) (leafSplit ((hbsLevels t.pset t.params).getD []) leaf) d)
  | _, _ => some s)

/-- HBS_QUERY (R173, R257). -/
def execHbsQuery (cid fails : Nat) (s : State) : Out := .next (runOp s cid 0x0612 fun c _ =>
  match c.keyA with
  | none => bad s c .keyEmpty 0
  | some g =>
    match resolveTree s (treeOf g) fails with
    | (s1, .error d) => bad s1 c .counterExhausted d
    | (s1, .ok (n, r)) => good s1 c 0 24 (leBytes 8 n ++ leBytes 8 r ++ leBytes 8 (treeLeaves s (some g))))

/-! ### User NVM -/

/-- NVM_READ (R174). -/
def execNvmRead (cid : Nat) (s : State) : Out := .next (runOp s cid 0x0620 fun c _ =>
  good s c 0 (le c.entry 48 4) (memRead userBlank s.nvm.user (le c.entry 44 4) (le c.entry 48 4)))

/-- Ranges of two NVM_WRITE commands overlap. -/
def overlaps (a b : Bytes) : Bool :=
  decide (le a 44 4 < le b 44 4 + inLen b) && decide (le b 44 4 < le a 44 4 + inLen a)

/-- The pieces of a write that fall into each aligned 64-byte block, ascending: the length up to the block's end first. -/
def nvmBlocks : Nat → Nat → Bytes → List (Nat × Bytes)
  | 0, _, _ => []
  | n + 1, off, d => if d = [] then [] else (off, d.take (64 - off % 64)) :: nvmBlocks n (off + (64 - off % 64)) (d.drop (64 - off % 64))

/-- Commit block after block; a block that cannot be committed ends the write (R174, R262). `fails` counts the write verifications that fail in
each block. -/
def nvmCommit : State → List Nat → List (Nat × Bytes) → State × Bool
  | s, _, [] => (s, true)
  | s, fails, (off, d) :: rest =>
    match wearWrite s 1 8 (fails.headD 0) with
    | (s1, false) => (s1, false)
    | (s1, true) => nvmCommit { s1 with nvm := { s1.nvm with user := memWrite userBlank s1.nvm.user off d } } fails.tail rest

/-- NVM_WRITE (R174). -/
def execNvmWrite (cid : Nat) (fails : List Nat) (s : State) : Out := .next (runOp s cid 0x0621 fun c d =>
  if earlierOpen s c [0x0621] (fun x => overlaps x.entry c.entry) then some s
  else match nvmCommit s fails (nvmBlocks d.length (le c.entry 44 4) d) with
    | (s1, true) => good s1 c 0 0 []
    | (s1, false) => bad s1 c .counterExhausted 3)

/-! ### Time and seals -/

/-- TIME_READ (R175). -/
def execTimeRead (cid : Nat) (s : State) : Out := .next (runOp s cid 0x0701 fun c _ =>
  good s c 0 32 (leBytes 8 (time64Now s).toNat ++ leBytes 8 (tickNat s)
    ++ leBytes 1 (b2n s.backup.timeLost + 2 * b2n s.backup.timeUnset) ++ zeros 7 ++ leBytes 8 s.time.epoch.toNat))

/-- CHUNK_LEN of a supplied digest (Table 91). -/
def noChunk : Nat := 0xFFFFFFFFFFFFFFFF

/-- TIMESTAMP (R176, R179, R308). -/
def execTimestamp (cid : Nat) (s : State) : Out := .next (runOp s cid 0x0702 fun c d =>
  match c.berth.bind fun i => (Map.get? s.keys.berths i).map fun b => (i, b) with
  | none => bad s c .berthUnknown 0
  | some (i, b) =>
    if strictUntrusted s b then bad s c .timeUntrusted 0
    else sealOut s c (sealHeader s c i b 0x10 0 (le c.entry 40 2) true noChunk d (zeros 48)))

/-- The header a SEAL links and the berth after it (R305); none when the sequence is exhausted. -/
def linkSeal (s : State) (c : Cmd) (i : Nat) (b : Berth) (d : Bytes) : Option (Bytes × Berth) :=
  let supplied := bit (le c.entry 40 1) 0
  let genesis := b.lastEpoch == 0 && b.nextSeq == 0
  let kind := if b.resume then 2 else if genesis then 0 else 1
  if kind = 1 && b.nextSeq == BitVec.allOnes 64 then none
  else
    let seq : DWord := if kind = 1 then b.nextSeq else 0
    let dg := if supplied then d else digest 0x13 48 d
    let hdr := sealHeader s c i b kind seq.toNat 0x3113 supplied (if supplied then noChunk else inLen c.entry) dg b.chainHead
    some (hdr, { b with chainHead := digest 0x13 48 hdr, nextSeq := seq + 1, lastEpoch := s.time.epoch, resume := false })

/-- SEAL_LINK (R178, R179, R305): after the last read of its input, in acceptance order for the berth. -/
def execSealLink (cid : Nat) (s : State) : Out :=
  .next (match getCmd s cid with
    | none => s
    | some c =>
      match c.berth.bind fun i => (Map.get? s.keys.berths i).map fun b => (i, b), c.input with
      | some (i, b), some d =>
        if running s && opcode c.entry == 0x0710 && c.phase == .run && c.header.isNone && berthHere s c
            && !earlierOpen s c [0x0710] (fun x => namesBerth s x i && x.header.isNone) then
          (if strictUntrusted s b then fail s cid .timeUntrusted 0
           else match linkSeal s c i b d with
            | none => fail s cid .counterExhausted 1
            | some (hdr, b1) => modCmd (modBerth s i fun _ => b1) cid fun x => { x with header := some hdr })
        else s
      | _, _ => s)

/-- SEAL (R177): the linked header with its signatures. -/
def execSeal (cid : Nat) (s : State) : Out := .next (runOp s cid 0x0710 fun c _ =>
  match c.header with
  | some hdr => sealOut s c hdr
  | none => some s)

/-! ### Owner plans -/

/-- PLAN_RUN (R180, R235): the output is taken from OUT_OFF of the frame. -/
def execPlanRun (cid : Nat) (s : State) : Out := .next (runOp s cid 0x0801 fun c _ =>
  let n := le c.body 36 4 + le c.body 40 4 * (inLen c.entry / max 1 (le c.body 32 4))
  good s c 0 n (memRead 0 c.frame (le c.body 76 4) n))

end Sys2Proof.Machine
end

