-- ==== Sys2Proof/Machine/Power.lean ====
section
/-!
DEFINITION. Supplies, pins and resets: entry to Boot and to Dormant (R42 to R45, R58), function and port resets (R316,
R321), Bus Master Enable (R431) and SR-IOV (R311, R312).
-/

namespace Sys2Proof.Machine

/-- Entry to Boot by a cold start with the strap sampled (R37, R434). -/
def coldBoot (s : State) (keeperSel : BitVec 3) : State :=
  let s1 := bootState s true
  { s1 with sys := { s1.sys with mainGood := true, keeperSel := keeperSel, prev := .dormant, cause := 0 } }

/-- MAIN_POWER_GOOD (R43): Dormant ends in Boot while DEV_RESET_N is high, else when it rises (R473). -/
def execMainPowerGood (keeperSel : BitVec 3) (s : State) : Out :=
  .next (if s.sys.mode = .dormant && !s.sys.mainGood then
      (if s.sys.resetLow then { s with sys := { s.sys with mainGood := true, vio18Good := true } }
       else coldBoot { s with sys := { s.sys with vio18Good := true } } keeperSel)
    else s)

/-- DEV_RESET_N_RELEASE (R473): the ROM phase may start; the strap is sampled (R434). -/
def execDevResetNRelease (keeperSel : BitVec 3) (s : State) : Out :=
  .next (if !s.sys.resetLow then s
    else
      let s1 : State := { s with sys := { s.sys with resetLow := false }, lc := { s.lc with tapDrive := false } }
      if s.sys.mode = .dormant then (if s.sys.mainGood then coldBoot s1 keeperSel else s1)
      else { s1 with sys := { s1.sys with keeperSel := keeperSel } })

/-- TRST_N (R58): the test logic only; IDCODE is selected (R398). -/
def execTrstN (s : State) : Out :=
  .next { s with lc := { s.lc with tapIr := 1, tapData := 0x181280B7, tapDrive := false, bypass := false } }

/-- The first moment of a reset of a function of a port: its configuration returns to its values after reset, also where the clean-up of an
earlier reset goes on (R316, R321). -/
def portWrite (s : State) (fn : Nat) : State :=
  let f := (getFn s fn).flr
  modFn (flrWrite s fn) fn fun x => { x with flr := if f = .cleanup then .cleanup else .requested }

/-- A port's reset (R321): at the configuration's moment its functions issue nothing more; while sequencers run, the rest takes place at
the next dispatch boundary, else at once (R188, R38; log 101). -/
def resetPort (s : State) (p : Nat) : State :=
  if running s then
    let s1 := (portFns s p).foldl portWrite s
    if (portsWaiting s1).contains p then s1 else addChange s1 3 p
  else retryBerth (flushSignals (resetPortNow s p))

/-- A port's link is down: nothing reaches the port, and it issues no request, until it has trained again (R432, R446). -/
def linkDown (s : State) (p : Nat) : State := modPort s p fun x => { x with linkUp := false }

/-- A port's link has trained at a speed and a width (Table 156). -/
def linkTrains (s : State) (l : PortLink) : State :=
  modPort s l.port.val fun x => { x with linkUp := !x.perst && !s.sys.isolated, speed := l.speed, width := l.width }

/-- PERST_N (R321). -/
def execPerstN (port : Fin 8) (s : State) : Out :=
  .next (if s.sys.mode = .dormant || s.sys.resetLow then modPort s port.val fun x => { x with perst := true }
    else if (getPort s port.val).perst then s
    else modPort (linkDown (resetPort s port.val) port.val) port.val fun x => { x with perst := true })

/-- PERST_N_RELEASE (R321): the link trains again. -/
def execPerstNRelease (l : PortLink) (s : State) : Out :=
  .next (linkTrains (modPort s l.port.val fun x => { x with perst := false }) l)

/-- HOT_RESET (R432): a Hot Reset and a transition to DL_Down act on the port as PERST_N does, and its link is down until it has trained
again. The loss of a port's reference clock is such a transition (R437). -/
def execHotReset (ev : PortEvent) (s : State) : Out :=
  let down := fun p => if s.sys.mode = .dormant || s.sys.resetLow || (getPort s p).perst then s else linkDown (resetPort s p) p
  .next (match ev with
    | .hotReset p => down p.val
    | .dlDown p => down p.val
    | .trained l => if s.sys.mode = .dormant || s.sys.resetLow then s else linkTrains s l)

/-- The SR-IOV configuration of a port changes: the VFs that no longer exist undergo an FLR at one instant and cease to exist (R311,
R312, R283). -/
def setSriov (s : State) (p : Nat) (f : Port → Port) : State :=
  let after := modPort s p f
  let gone := ((portFns s p).filter fun g => vfOf g != 0).filter fun g => !fnExists after g
  let s1 := gone.foldl (fun t g => resetFn t g 0) (resetHoldings s gone s.topo.position)
  modPort (gone.foldl ceaseVf (retryBerth (flushSignals s1))) p f

/-- What an FLR of a PF clears in its port at the configuration write: SR-IOV and 10-Bit Tag Requester Enable (R316). -/
def flrPort (s : State) (fn : Nat) : State :=
  if isPf fn then
    setSriov s (portOf fn) fun x => { x with vfEnable := false, numVfs := 0, tag10 := false, vfBar0 := 0x4, vfBar2 := 0xC }
  else s

/-- The configuration write of an FLR (R316): at once in Held (R38), else due at the next dispatch boundary. -/
def startFlr (s : State) (fn : Nat) : State :=
  if !configOpen s fn then s
  else if (getFn s fn).flr = .cleanup then s
  else
    let s1 := flrWrite (flrPort s fn) fn
    if (getFn s fn).flr = .requested then s1
    else if s.sys.mode = .held then retryBerth (flushSignals (resetFn s1 fn 0))
    else addChange s1 1 fn

/-- FLR (R316, R320). -/
def execFlr (fn : Nat) (s : State) : Out := .next (startFlr s fn)

/-- D3HOT_TO_D0 (R432): the transition undergoes an FLR. -/
def execD3hotToD0 (fn : Nat) (s : State) : Out :=
  .next (if (getFn s fn).d3hot then startFlr (modFn s fn fun x => { x with d3hot := false }) fn else s)

/-- D0_TO_D3HOT (R432). -/
def execD0ToD3hot (fn : Nat) (s : State) : Out :=
  .next (if configOpen s fn then modFn s fn fun x => { x with d3hot := true } else s)

/-- FLR_TAKE_EFFECT (R316): at the next dispatch boundary; no sequencer runs outside Service and Maintenance. -/
def execFlrTakeEffect (fn : Nat) (s : State) : Out :=
  .next (if (getFn s fn).flr = .requested && (!running s || changeDue s 1 fn) then dropChange (retryBerth (flushSignals (resetFn s fn 0))) 1 fn else s)

/-- FLR_CLEANUP_DONE (R317): keys and berths are zeroised and held writes take effect. -/
def execFlrCleanupDone (fn : Nat) (s : State) : Out :=
  .next (if (getFn s fn).flr = .cleanup then
      applyHeld (modFn (cleanHoldings s fn s.topo.position) fn fun x => { x with flr := .none }) fn
    else s)

/-- Everything of a function that waited continues (R431), the read of an image in WAIT_HOST among it. -/
def resumeFn (s0 : State) (fn : Nat) : State :=
  let s := bootAsk s0
  let s1 := askAll (deliverAll (flushAllFast (issueStaged (flushLines s fn) fn) fn) fn) fn
  ((qidsOf s1.sqs fn).filter fun q => (getSq s1 fn q).any (·.lineDue)).foldl (fun t q => statusLine t fn q) s1

/-- 10-Bit Tag Requester Enable of a PF is its port's (R433; log 11). -/
def setTag10 (s : State) (fn : Nat) (tag10 : Bool) : State :=
  if isPf fn then modPort s (portOf fn) fun p => { p with tag10 := tag10 } else s

/-- BUS_MASTER_ENABLE_WRITE (R431, R433, Table 156; log 11): the Command register's Memory Space Enable (bit 1) and Bus Master Enable (bit
2), and the function's other control registers, among them Device Control 2 with 10-Bit Tag Requester Enable (bit 12). -/
def execBusMasterEnableWrite (fn : Nat) (command : BitVec 16) (control : PcieWrite) (s : State) : Out :=
  .next (if configOpen s fn then
      (let s1 := modFn (setTag10 s fn (control.devCtl2.getLsbD 12)) fn fun x =>
         { x with bme := command.getLsbD 2, mse := command.getLsbD 1, pcie := writePcie (vfOf fn == 0) control x.pcie }
       if command.getLsbD 2 then resumeFn s1 fn else s1)
    else s)

/-- SRIOV_CONFIG_WRITE (R311, R312, R428). -/
def execSriovConfigWrite (port : Fin 8) (vfEnable : Bool) (sriov : Sriov) (s : State) : Out :=
  .next (if configOpen s (128 * port.val) then
      setSriov s port.val fun x => { x with
        vfEnable := vfEnable, numVfs := sriov.numVfs, vfBar0 := bar0Of sriov.bar0, vfBar2 := bar2Of sriov.bar2 }
    else s)

/-- VIO18_GOOD (R45, R377). -/
def execVio18Good (s : State) : Out := .next { s with sys := { s.sys with vio18Good := true } }

/-- VIO18_LOST (R45). -/
def execVio18Lost (s : State) : Out := .next { s with sys := { s.sys with vio18Good := false } }

/-- TBCLK_START (R437): Boot may leave the ROM phase. -/
def execTbclkStart (s : State) : Out :=
  .next (if s.sys.tbclk || s.sys.mode = .dormant then s
    else { s with
      sys := { s.sys with tbclk := true },
      boot := if s.sys.mode = .boot && s.boot.romDone && s.boot.phase = 1 then { s.boot with phase := 2 } else s.boot })

end Sys2Proof.Machine
end

