-- ==== Sys2Proof/Machine/Boot.lean ====
section
/-!
DEFINITION. Boot (R47 to R57): the ROM phase with the recorder's mount, OTP_LC with the life-cycle moves (R387, R388, R394 to
R396), the microcode image (Tables 18, 19, R52 to R56), SELFTEST with the training result (R439), and INSTALL (R47, R245,
R277, R278, R300, R397).
-/

namespace Sys2Proof.Machine

/-- Go on to a phase (Table 17). -/
def toPhase (s : State) (n : Nat) : State := { s with boot := { s.boot with phase := n } }

/-! ### ROM -/

/-- Release of isolation and mount of NVM: the ports whose PERST_N is high train (R42, R49), here at the greatest speed and width of Table
156 (DESIGN CHOICE, log 109), and recording starts (R378). -/
def mount (s : State) : State :=
  { s with
    sys := { s.sys with isolated := false }, boot := { s.boot with romDone := true },
    recorder := { s.recorder with mounted := true },
    ports := s.ports.map fun p => { p with linkUp := !p.perst, speed := if p.perst then p.speed else 5, width := if p.perst then p.width else 8 } }

/-- ROM (R47): Boot leaves the phase once TBCLK runs (R437). -/
def execRom (integrity : Bool) (s : State) : Out :=
  .next (if inPhase s 1 && !s.boot.romDone then
      (if !integrity then bootFail (mount s) 0x01
       else if s.sys.tbclk then toPhase (mount s) 2 else mount s)
    else s)

/-! ### OTP_LC (R387, R388, R394 to R396) -/

/-- Write a code into a copy from a slot on (R387): a slot that fails its margin read holds a free value that is not the
code, and the next slot is tried. Returns the copy and the free counter. -/
def writeSlots (failed : Nat → Bool) (code : BitVec 16) : Nat → Nat → List (BitVec 16) → Nat → List (BitVec 16) × Nat
  | 0, _, c, k => (c, k)
  | n + 1, i, c, k =>
    if c.length ≤ i then (c, k)
    else if failed i then
      let v := BitVec.ofNat 16 (Config.freeNat k)
      writeSlots failed code n (i + 1) (c.set i (if v = code then ~~~v else v)) (k + 1)
    else (c.set i code, k)

/-- The lowest free slot above the highest slot that is not free. -/
def nextSlot (c : List (BitVec 16)) : Nat := match lastSlot c with
  | some (i, _) => i + 1
  | none => 0

/-- Write a copy that does not hold the target yet. -/
def moveCopy (failedSlots : List (Nat × Nat)) (dst : Lc) (copy : Nat) (c : List (BitVec 16)) (k : Nat) :
    List (BitVec 16) × Nat :=
  if lcCopy c = some dst then (c, k) else writeSlots (fun i => failedSlots.contains (copy, i)) dst.code 8 (nextSlot c) c k

/-- The three copies are written in order A, B, C. -/
def moveCopies (s : State) (failedSlots : List (Nat × Nat)) (dst : Lc) : State :=
  let a := moveCopy failedSlots dst 0 s.otp.lcA s.free
  let b := moveCopy failedSlots dst 1 s.otp.lcB a.2
  let c := moveCopy failedSlots dst 2 s.otp.lcC b.2
  { s with otp := { s.otp with lcA := a.1, lcB := b.1, lcC := c.1 }, free := c.2 }

/-- Every NVM region is erased but the two marks and the wear remapping, and the trims are burned (R396). -/
def scrapWipe (s : State) : State :=
  let marks := s.nvm.recs.filter fun e => e.1 == 5 * 65536 + 1 || e.1 == 5 * 65536 + 2
  { s with
    nvm := { Nvm.fresh with recs := marks, wear := s.nvm.wear.map fun w => { w with used := 0, window := 0 } },
    otp := { s.otp with trims := false }, recorder := { s.recorder with skip := 0 } }

/-- The wipe of a move (Table 139). -/
def runWipe (s : State) (frm dst : Lc) : State :=
  match frm, dst with
  | _, .scrap => scrapWipe s
  | .factory, .owned => (s.nvm.trees.map (·.1)).foldl eraseTree (eraseUser s)
  | .field, .ret => eraseUser (erasePersistent s)
  | _, _ => s

/-- The move wipes something beside what SCRAP wipes. -/
def hasWipe (frm dst : Lc) : Bool :=
  match frm, dst with
  | .factory, .owned => true
  | .field, .ret => true
  | _, _ => false

/-- Copies that decode to a state. -/
def holding (o : Otp) (l : Lc) : Nat :=
  b2n (lcCopy o.lcA == some l) + b2n (lcCopy o.lcB == some l) + b2n (lcCopy o.lcC == some l)

/-- Event of the record at the end of a move (R394 to R396, Table 143). -/
def moveEvent (o : Otp) (dst : Lc) (rolled : Bool) : Nat :=
  if holding o dst < 2 then 6 else if dst = .scrap then 3 else if rolled then 4 else 3

/-- Carry out a pending move (R394). -/
def carryMove (s : State) (failedSlots : List (Nat × Nat)) (frm dst : Lc) : State :=
  let rolled := wipeDone s.nvm
  let s1 := if rolled then s
    else
      let w := runWipe s frm dst
      let w1 := if hasWipe frm dst then recordLc w frm dst 2 else w
      writeMark w1 2 1
  let s2 := writeMark (writeMark (moveCopies s1 failedSlots dst) 2 0) 1 0
  recordLc { s2 with boot := { s2.boot with rolled := rolled, lcDone := true } } frm dst (moveEvent s2.otp dst rolled)

/-- The copies do not all decode alike. -/
def copiesDisagree (o : Otp) : Bool := lcCopy o.lcA != lcCopy o.lcB || lcCopy o.lcB != lcCopy o.lcC

/-- An erase of CLEAR_ALL that was cut short is done again (R376). -/
def resumeErase (s : State) : State :=
  if clearMark s.nvm then
    recordClear (writeMark (erasePersistent { s with alarm := { s.alarm with erased := true } }) 3 0) 4 3
  else s

/-- The start of UCODE at the flash (R441): QSPI_RESET_N high, reset-enable, reset, and the read of the SFDP table's basic header (log
110). -/
def startFlash (s : State) : State :=
  emit (emit (emit (emit s (.flashReset true)) (.flash 0x66 0 0)) (.flash 0x99 0 0)) (.flash 0x5A 0 16)

/-- The read of a slot: its header, and the length the header names where it carries the magic (R54, R441). -/
def readSlot (s : State) (base : Nat) (slot : Bytes) : State :=
  let s1 := emit s (.flash 0xEE base 64)
  if slice slot 0 4 = [0x54, 0x44, 0x58, 0x49] then emit s1 (.flash 0xEE base (le slot 12 4)) else s1

/-- The end of OTP_LC: SCRAP enters Lockdown, every other state goes on to UCODE (R47, R396). -/
def afterOtp (s : State) : State :=
  let s1 : State := { s with lc := { s.lc with
      state := (lcDecode s.otp).1, noMajor := (lcDecode s.otp).2, tapIr := tapAllowed (lcDecode s.otp).1 s.lc.tapIr } }
  if s1.lc.state = .scrap then (if opposed s1 8 then s1 else recordMode (recordBoot (noteTimeLost (enterLockdown s1 0xA))))
  else startFlash { toPhase s1 3 with sys := { s1.sys with qspiActive := true } }

/-- OTP_LC (R394): `failedSlots` are the (copy, slot) pairs whose write does not read back. -/
def execOtpLc (failedSlots : List (Nat × Nat)) (s : State) : Out :=
  .next (if !inPhase s 2 then s
    else
      let s1 := resumeErase s
      match pendingMove s1.nvm with
      | some (frm, dst) => afterOtp (carryMove s1 failedSlots frm dst)
      | none =>
        let l := (lcDecode s1.otp).1
        afterOtp (if copiesDisagree s1.otp then recordLc s1 l l 5 else s1))

/-! ### Microcode images (R52 to R56) -/

/-- A section of an image: type, patch identifier, first word, word count, and its offset. -/
structure Section where
  patch : Bool
  id    : Nat
  first : Nat
  count : Nat
  off   : Nat
  deriving DecidableEq, Repr

/-- Bytes of a section with its padding (R53). -/
def sectionBytes (count : Nat) : Nat := (64 + 32 * count + 16 + 4627 + 96 + 63) / 64 * 64

/-- The sections of an image from an offset, none where the layout breaks Table 19. -/
def readSections (b : Bytes) (total : Nat) : Nat → Nat → Nat → Option (List Section)
  | 0, _, off => if off = total then some [] else none
  | n + 1, i, off =>
    let x : Section := { patch := le b off 2 == 2, id := le b (off + 2) 2, first := le b (off + 4) 4,
                         count := le b (off + 8) 4, off := off }
    let size := 64 + 32 * x.count + 16 + 4627 + 96
    if (if i = 0 then le b off 2 == 1 && x.id == 0 else le b off 2 == 2) && decide (x.first ≤ 65535)
        && decide (1 ≤ x.count) && decide (x.first + x.count ≤ 65536) && allZero (slice b (off + 24) 40)
        && decide (off + sectionBytes x.count ≤ total) && allZero (slice b (off + size) (sectionBytes x.count - size)) then
      (readSections b total n (i + 1) (off + sectionBytes x.count)).map (x :: ·)
    else none

/-- The header of an image of `n` bytes keeps to Table 18, its stepping apart. -/
def imageHeaderOk (b : Bytes) (n : Nat) : Bool :=
  le b 4 2 == 1 && decide (1 ≤ le b 6 1) && decide (le b 6 1 ≤ 16) && decide (le b 7 1 ≤ 1)
    && decide (1 ≤ le b 8 1) && decide (le b 8 1 ≤ 64) && le b 9 1 == 0 && le b 12 4 % 64 == 0
    && decide (le b 12 4 ≤ 0x240000) && decide (le b 12 4 ≤ n) && allZero (slice b 18 46)

/-- Bytes a section's signatures cover (R53). -/
def signedPart (b : Bytes) (x : Section) : Bytes := slice b 0 64 ++ slice b x.off (64 + 32 * x.count + 16)

/-- Microwords of a section and the verdict of its tag (log 25). -/
def openSection (b : Bytes) (x : Section) : Bytes × Bool :=
  aeadOpen 0x3001 Config.familyKey (slice b (x.off + 12) 12) [] (slice b (x.off + 64) (32 * x.count))
    (slice b (x.off + 64 + 32 * x.count) 16)

/-- The ML-DSA-87 signature of a section verifies. -/
def mlDsaOk (b : Bytes) (x : Section) : Bool :=
  Config.verify (0x1003, 0, 0) Config.bootKeyMlDsa [] (signedPart b x) (slice b (x.off + 80 + 32 * x.count) 4627)

/-- The ECDSA-P384 signature of a section verifies (log 25). -/
def ecdsaOk (b : Bytes) (x : Section) : Bool :=
  Config.verify (0x1302, 1, 0x03) Config.bootKeyEcdsa [] (signedPart b x) (slice b (x.off + 80 + 32 * x.count + 4627) 96)

/-- An image is accepted with its sections, or rejected with a code of Table 26 (R54, R55; log 25). -/
def checkImage (minVer : Nat) (b : Bytes) : Except (BitVec 8) (List Section) :=
  if slice b 0 4 ≠ [0x54, 0x44, 0x58, 0x49] then .error 0x10
  else match if imageHeaderOk b b.length then readSections b (le b 12 4) (le b 6 1) 0 64 else none with
    | none => .error 0x11
    | some l =>
      if !(l.all (mlDsaOk b)) then .error 0x12
      else if !(l.all (ecdsaOk b)) then .error 0x13
      else if !(l.all fun x => (openSection b x).2) then .error 0x14
      else if le b 8 1 < minVer then .error 0x15
      else if slice b 16 2 ≠ [0x41, 0x31] then .error 0x16
      else .ok l

/-- Words of a section into the control store. -/
def storeWords (m : Map (BitVec 256)) (first : Nat) : Nat → Bytes → Map (BitVec 256)
  | 0, _ => m
  | n + 1, w => storeWords (Map.put m first (BitVec.ofNat 256 (le w 0 32))) (first + 1) n (w.drop 32)

/-- An accepted image is written in section order and reported (R56, Tables 25, 29, 30); SELFTEST follows. -/
def takeImage (s : State) (used : BitVec 2) (b : Bytes) (l : List Section) : State :=
  { s with
    sys := { s.sys with qspiActive := false },
    boot := { s.boot with
      used := used, secVer := le b 8 1, commit := bit (le b 7 1) 0, build := BitVec.ofNat 16 (le b 10 2),
      patches := l.length - 1, level := BitVec.ofNat 16 ((l.map (·.id)).foldl max 0), loading := false, phase := 5,
      store := l.foldl (fun m x => storeWords m x.first x.count (openSection b x).1) [] } }

/-- A source failed: its code stands in BOOT_SOURCE and BOOT_STATUS.ERROR (Tables 25, 26). -/
def sourceError (s : State) (src : Nat) (e : BitVec 8) : State :=
  { s with boot := { s.boot with
      error := e, errA := if src = 0 then e else s.boot.errA, errB := if src = 1 then e else s.boot.errB,
      errHost := if src = 2 then e else s.boot.errHost, loading := false } }

/-- Neither slot gave an image: WAIT_HOST (R54). -/
def waitHost (s : State) : State := toPhase { s with sys := { s.sys with qspiActive := false } } 4

/-- UCODE (R54, R55, R441): slot B is read where slot A gives no image. -/
def execUcode (slotA slotB : Bytes) (s : State) : Out :=
  let sA := readSlot s 0x00000000 slotA
  let sB := readSlot sA 0x00400000 slotB
  .next (if !inPhase s 3 then s
    else match checkImage s.otp.minVer slotA with
      | .ok l => takeImage sA 1 slotA l
      | .error e =>
        match checkImage s.otp.minVer slotB with
        | .ok l => takeImage (sourceError sB 0 e) 2 slotB l
        | .error e' => waitHost (sourceError (sourceError sB 0 e) 1 e'))

/-- A header can name no image: no magic, or a layout that breaks Table 18 (R54, R55). -/
def headerError (b : Bytes) (total : Nat) : Option (BitVec 8) :=
  if slice b 0 4 ≠ [0x54, 0x44, 0x58, 0x49] then some 0x10 else if imageHeaderOk b total then none else some 0x11

/-- The header has arrived: the device reads the total length it names, or rejects it at once (R54; log 72). -/
def headerArrived (s : State) (b : Bytes) : State :=
  match headerError b (le b 12 4) with
  | some e => sourceError s 2 e
  | none =>
    bootAsk { s with boot := { s.boot with header := some (b.take 64), asked := false } }

/-- The whole image has arrived. -/
def imageArrived (s : State) (b : Bytes) : State :=
  match checkImage s.otp.minVer b with
  | .ok l => takeImage s 3 b l
  | .error e => sourceError s 2 e

/-- HOST_IMAGE_LOADED (R54, R55): a read of the load returns, first the header's, then the whole image's; or it failed. -/
def execHostImageLoaded (image : Option Bytes) (s : State) : Out :=
  .next (if inPhase s 4 && s.boot.loading && s.boot.asked then
      (match image, s.boot.header with
        | none, _ => sourceError s 2 0x17
        | some b, none => headerArrived s b
        | some b, some _ => imageArrived s b)
    else s)

/-! ### Training and SELFTEST (R47, R439) -/

/-- DENSITY as training found it (Table 164); devices that differ leave it open. -/
def foundDensity (density32 : BitVec 8) (k : Nat) : BitVec 2 :=
  if density32 = 0xFF then 2 else if density32 = 0 then 1 else BitVec.ofNat 2 (Config.freeNat k)

/-- GM_TRAINING_DONE (R439): `trained` and `density32` have one bit for each memory device. -/
def execGmTrainingDone (trained density32 : BitVec 8) (s : State) : Out :=
  .next (if s.sys.mode = .boot && 3 ≤ s.boot.phase && s.boot.phase ≤ 5 && !s.boot.gmDone then
      (let want : BitVec 8 := if s.otp.variant32 then 0xFF else 0
       let failed := ~~~trained ||| (density32 ^^^ want)
       { s with free := s.free + 1, boot := { s.boot with
           gmDone := true, gmFail := failed, gmTrained := failed == 0, density := foundDensity density32 s.free } })
    else s)

/-- SELFTEST (R47, R183): the training result, the memories, then the known-answer tests. -/
def execSelftest (memoryOk katOk : Bool) (s : State) : Out :=
  .next (if !(inPhase s 5 && s.boot.gmDone) then s
    else if !s.boot.gmTrained then bootFail s 0x20
    else if !memoryOk then bootFail s 0x21
    else if !katOk then bootFail s 0x22
    else toPhase { s with eng := { s.eng with inService := true }, rng := { s.rng with start := s.sys.tick } } 6)

/-! ### INSTALL -/

/-- The PERSIST_FAIL record with its event (R278, Table 120). -/
def persistFail (s : State) (which tree : Nat) : State := alarmEvent (record s 0x1005 which (leBytes 2 tree)) 15 [3]

/-- A persistent record that is not blank fails authentication. -/
def persistBad (p : Persist) : Bool := p != .blank && (openPersist p).isNone

/-- Tree records that do not authenticate under the key of the boot ROM, or whose master seed does not under the tree seed key, are marked
(R250, R276). -/
def checkTrees (s : State) : State :=
  { s with nvm := { s.nvm with trees := Map.update s.nvm.trees fun t r =>
    { r with authentic := r.authentic && openPersist r.box == some (treeBytes t r) && ((swk s).isNone || (treeSeed s t r).isSome) } } }

/-- Persistent records that fail authentication are reported (R278). -/
def reportPersist (s : State) : State :=
  let s1 := if persistBad s.nvm.identity then persistFail s 1 0 else s
  let s2 := if persistBad s.nvm.ownerRoot then persistFail s1 2 0 else s1
  let s3 := if persistBad s.nvm.swk then persistFail s2 3 0 else s2
  let s4 := checkTrees s3
  (s4.nvm.trees.filter fun e => !e.2.authentic).foldl (fun t e => persistFail t 4 e.1) s4

/-- Identity keys from two seeds: public keys, then private keys (R397). -/
def makeIdentity (r0 r1 : Bytes) : Bytes :=
  let a := genPrivate 0x1003 0 r0
  let b := genPrivate 0x0103 0 r1
  publicPart 0x1003 a ++ publicPart 0x0103 b ++ a ++ b

/-- INSTALL generates an identity where its record is blank in FACTORY or RETURN (R397). -/
def installIdentity (s : State) (fails : Nat) : Option State :=
  if s.nvm.identity = .blank && (s.lc.state == .factory || s.lc.state == .ret) then
    withDraw s 32 fun r0 s1 => withDraw s1 64 fun r1 s2 =>
      match wearWrite s2 2 identityWords fails with
      | (s3, true) => some { s3 with nvm := { s3.nvm with identity := sealPersist (freeBytes 12 s3.free) (makeIdentity r0 r1) }, free := s3.free + 12 }
      | (s3, false) => some s3
  else some s

/-- INSTALL generates the storage wrapping key where its record is blank (R277). -/
def installSwk (s : State) (fails : Nat) : Option State :=
  if s.nvm.swk = .blank then
    withDraw s 32 fun k s1 =>
      match wearWrite s1 2 swkWords fails with
      | (s2, true) => some { s2 with nvm := { s2.nvm with swk := sealPersist (freeBytes 12 s2.free) k }, free := s2.free + 12 }
      | (s2, false) => some s2
  else some s

/-- The per-boot keys (R47, Table 87): the memory protection unit's AES-256-XTS and MAC keys (R28), the mask keys of both banks
and the scramble key (R267), the storage key (R277). -/
def installKeys (s : State) : Option State :=
  withDraw s 64 fun xts s1 => withDraw s1 32 fun mac s2 => withDraw s2 32 fun maskA s3 => withDraw s3 32 fun maskB s4 =>
    withDraw s4 32 fun scr s5 => withDraw s5 32 fun nonce s6 =>
      let storage := Config.kmac256 32 ((swk s6).getD (zeros 32)) (nonce ++ leBytes 8 s6.time.epoch.toNat) (ascii "TURUND SPILL")
      some { s6 with bkeys := { xts := xts, mac := mac, maskA := maskA, maskB := maskB, scramble := scr, storage := storage,
                                nonce := nonce } }

/-- The key of a stored tree in the tree range of the key register (R250, R263). -/
def treeKeyOf (s : State) (t : Nat) (r : TreeRec) : Key :=
  let seed := (treeSeed s t r).getD []
  { typ := r.pset, origin := 8, priv := true, destroyPending := false, markId := 0, len := seed.length, shareA := seed, shareB := zeros seed.length,
    attrMask := zeros 32, owner := r.owner, ownerPos := s.topo.position, share := List.replicate 4 0xFFFF, wholePort := false, attr := r.attr, uses := r.uses,
    lcMask := r.lcMask, tail := [], spilled := false, version := 0, used := 0 }

/-- INSTALL reads the reservation record of each tree with a record; a corrupt one is found there (R245, R250). -/
def readReservation (s : State) (t : Nat) : State :=
  match recVal s.nvm 4 t with
  | .corrupt => reportCorrupt s 4 t
  | .value _ _ => s

/-- The reservation records are read, and the ACTIVE trees take their granules. -/
def installTrees (s : State) : State :=
  let s1 := (s.nvm.trees.map (·.1)).foldl readReservation s
  (s1.nvm.trees.filter fun e => treeActive s1 e.1).foldl
    (fun t e => let m := (drawMasks 1 t).getD ([], t)
      putKey m.2 (Config.treeBase + e.1) (Key.granuled (treeKeyOf t e.1 e.2) m.1)) s1

/-- The standard plans' verified copies stand in plan memory, as far as it holds them (R47, R204; log 35). -/
def installPlans (s : State) : State :=
  { s with eng := { s.eng with copies := stdPlanIds.foldl (fun m id =>
      let n := (planBody s id).length
      if copyBytes m + n ≤ Config.planMemory then Map.put m id (n, s.stamp) else m) [] } }

/-- The calendar's first anchor is taken: at the first crystal edge since INSTALL started or, with the crystal stopped, from the held
value and the present tick (R300). -/
def anchorCalendar (s : State) : State :=
  if s.time.anchored then s else
  { s with time := { s.time with
      anchorSec := s.backup.sec, anchorFrac := s.backup.frac, anchorTick := s.sys.tick, anchored := true } }

/-- The OTP minimum rises to a committing image's version (R57). -/
def commitVersion (s : State) : State :=
  if s.boot.commit && s.otp.minVer < s.boot.secVer then
    { s with otp := { s.otp with minVer := s.boot.secVer }, boot := { s.boot with committed := true } }
  else s

/-- Boot ends in Service or Maintenance (R386, R111): the arbiter walks from slot 0 (R325), the writes held in Boot apply
before the first poll (R49), those of a function in clean-up when that ends (R317), and the BOOT record is written. -/
def enterService (s : State) : State :=
  let next : Mode := if s.lc.state == .owned || s.lc.state == .field then .service else .maintenance
  if opposed s (transRow .boot next) then s
  else
    let s1 := setMode s next 1
    let s2 : State := { s1 with eng := { s1.eng with walking := true, slot := 0 } }
    recordMode (recordBoot (((s2.fns.filter fun e => e.2.flr != .cleanup).map (·.1)).foldl applyHeld s2))

/-- The seal epoch is raised by one write (R51, R245); none where Boot must fail. -/
def raiseEpoch (s : State) (fails : Nat) : State × Bool :=
  match recVal s.nvm 5 0 with
  | .corrupt => (reportCorrupt s 5 0, false)
  | .value g v =>
    if v = BitVec.allOnes 64 then (s, false)
    else match commitRec s 5 0 g (v + 1) fails with
      | (s1, true) => ({ s1 with time := { s1.time with epoch := v + 1 } }, true)
      | (s1, false) => (s1, false)

/-- The records INSTALL needs in OWNED and FIELD are there (R397). -/
def recordsPresent (s : State) : Bool :=
  !(s.lc.state == .owned || s.lc.state == .field) ||
    ((identityRec s).isSome && (ownerRoot s).isSome)

/-- The digest of the control store is taken at the end of INSTALL (R368). -/
def takeDigest (s : State) : State := { s with boot := { s.boot with digest := storeDigest s.boot.store, checkFrom := s.sys.tick } }

/-- INSTALL once its draws can be served. -/
def install (s : State) (fails : List Nat) : Option State :=
  match raiseEpoch s (fails.getD 0 0) with
  | (s1, false) => some (bootFail s1 0x21)
  | (s1, true) =>
    let s2 := reportPersist s1
    if !recordsPresent s2 then some (bootFail s2 0x21)
    else
      (installIdentity s2 (fails.getD 1 0)).bind fun s3 => (installSwk s3 (fails.getD 2 0)).bind fun s4 => (installKeys s4).map fun s5 =>
        enterService (takeDigest (installPlans (installTrees (commitVersion (noteTimeLost (anchorCalendar s5))))))

/-- INSTALL (R47): `fails` counts the write verifications that fail in the epoch's copy, the identity record and the storage wrapping
key's record, in this order. It ends after the first crystal edge, unless the crystal is stopped (R300). -/
def execInstall (fails : List Nat) (s : State) : Out :=
  .next (if inPhase s 7 && (s.time.anchored || s.backup.stopped) then (install s fails).getD s else s)

end Sys2Proof.Machine
end

