-- ==== Sys2Proof/Machine/Cut.lean ====
section
/-!
DEFINITION. A loss of main power or a device reset, with the writes it cuts off (R44, R57, R59, R242, R243, R259, R383; log 7):
what may be in flight, what an earlier part of the same work has already written, and what the cut leaves.
-/

namespace Sys2Proof.Machine

/-! ### Copies of records (R241 to R243) -/

/-- The settling copy of a record that is not resolved yet. -/
def settles (g : BitVec 24) (v : DWord) (gen : BitVec 24) (value : DWord) : Bool := gen == g && value == v

/-- A commit to a counter that may be in flight (R244, R248). -/
def counterCommit (s : State) (n : Nat) (g : BitVec 24) (v value : DWord) (gen : BitVec 24) : Bool :=
  s.cmds.any fun c => le c.entry 40 1 == n && !counterBusy s c &&
    (((opReady s c.id 0x0601).isSome && (Map.get? s.keys.held (heldKey 3 n)).isNone && settles g v gen value)
      || ((opReady s c.id 0x0602).isSome && c.value.isNone && gen == 0 &&
        (if v = BitVec.allOnes 64 then value == v else value == v + 1)))

/-- An HBS_KEYGEN of a tree whose turn it is, whose parameter block passes, and whose record is not written yet (R252). -/
def keygenAt (s : State) (t : Nat) (c : Cmd) : Bool :=
  (opReady s c.id 0x0610).isSome && le c.entry 42 2 == t && keygenTurn s c && !treeActive s t && c.value.isNone && (blockErr c).isNone

/-- A commit to a tree's reservation record that may be in flight (R244, R252, R255). -/
def treeCommit (s : State) (t : Nat) (g : BitVec 24) (v value : DWord) (gen : BitVec 24) : Bool :=
  s.cmds.any fun c =>
    (opcode c.entry == 0x0611 && c.phase == .run && c.leaf.isNone && c.keyA == some (Config.treeBase + t) && gen == g &&
      (let total := treeLeaves s c.keyA
       match Map.get? s.keys.trees t with
       | none => value.toNat == (if v.toNat < total then min (v.toNat + 64) total else v.toNat)
       | some (n, r) => n == r && decide (n < total) && value.toNat == min (r + 64) total))
    || ((opReady s c.id 0x0612).isSome && c.keyA == some (Config.treeBase + t) && (Map.get? s.keys.trees t).isNone
        && settles g v gen value)
    || (keygenAt s t c && (if g = BitVec.allOnes 24 then (Map.get? s.keys.trees t).isNone && settles g v gen value
        else gen == g + 1 && value == 0))

/-- An LC_TRANSITION to a state that passes every check and has its token, so that its writes may be in flight (R391, R393). -/
def moveAt (s : State) (dst : Lc) (c : Cmd) : Bool :=
  (turnOf s c.id 0x60).isSome && running s && (lcErr s c).isNone && segsDone c && lcTarget c.entry == some dst
    && c.input.any (fun d => (lcTokenErr s dst d).isNone) && (dst != .owned || !(getWear s.nvm 2).worn)

/-- A commit to the seal epoch or a mark that may be in flight (R51, R376, R393, R394). -/
def markCommit (s : State) (n : Nat) (g : BitVec 24) (v value : DWord) (gen : BitVec 24) : Bool :=
  match n with
  | 0 => inPhase s 7 && gen == g && value == v + 1
  | 1 => gen == g + 1 && ((inPhase s 2 && (pendingMove s.nvm).isSome && value == 0)
      || s.cmds.any fun c => (lcTarget c.entry).any fun dst => moveAt s dst c && value.toNat == moveMark s.lc.state dst)
  | 2 => gen == g + 1 && inPhase s 2 && (pendingMove s.nvm).isSome && (value == 0 || (value == 1 && !wipeDone s.nvm))
  | 3 => gen == g + 1 && ((value == 0 && (s.alarm.clearing || (inPhase s 2 && clearMark s.nvm)))
      || (value == 1 && !s.alarm.erased && setDue s && strongest (firstSet s) == 4))
  | _ => false

/-- A commit of this copy may be in flight; none is in a worn region (R262). -/
def commitInFlight (s : State) (region index : Nat) (value : DWord) (gen : BitVec 24) : Bool :=
  !(getWear s.nvm region).worn && match recVal s.nvm region index with
  | .corrupt => false
  | .value g v =>
    match region with
    | 3 => counterCommit s index g v value gen
    | 4 => treeCommit s index g v value gen
    | 5 => markCommit s index g v value gen
    | _ => false

/-- Every copy of a record is blank. -/
def allBlank (s : State) (region index : Nat) : Bool := (copiesOf s.nvm region index).all fun e => copyBlank e.2

/-- A slot with the VALUE word of a copy and the second word it held before: the cut fell between the two words. -/
def halfCopy (s : State) (region index : Nat) (value : DWord) : Copy :=
  match Map.get? (copiesOf s.nvm region index) (commitSlot region index (copiesOf s.nvm region index)) with
  | some c => { c with value := value }
  | none => { value := value, gen := BitVec.allOnes 24, resv := 0xFF, check := BitVec.allOnes 32, margin := true }

/-! ### Other writes that may be in flight -/

/-- A slot after a recorder write was cut off: each of its eight words old or new, and, where the word in flight was cut, at
most one that mixes their bits (R383). -/
def tornSlotFits (flight : Bool) (old new b : Bytes) : Bool :=
  let odd := (List.range 8).filter fun j =>
    slice b (8 * j) 8 != slice old (8 * j) 8 && slice b (8 * j) 8 != slice new (8 * j) 8
  b.length == 64 && (odd == [] || (flight && odd.length == 1 && (List.range 64).all fun i =>
    (b.getD i 0 ^^^ old.getD i 0) &&& ~~~(old.getD i 0 ^^^ new.getD i 0) == 0))

/-- A slot's 64 bytes. -/
def slotOf (n : Nvm) (k : Nat) : Bytes := padTo 64 (Map.getD n.slots k [])

/-- The recorder write at the head of the queue is cut off (R383): a record in the slot it takes, which the next record then
passes over, or the repeat word of the newest record. -/
def tornRecord (flight : Bool) (s : State) (b : Bytes) : State :=
  match s.recorder.mounted, s.recorder.queue with
  | true, .record new _ _ :: _ =>
    let k := recorderSlot s
    if tornSlotFits flight (slotOf s.nvm k) new b && b != slotOf s.nvm k && b != new then
      { s with nvm := { s.nvm with slots := Map.put s.nvm.slots k b },
               recorder := { s.recorder with skip := s.recorder.skip + 1 } }
    else s
  | true, .repeatWord w :: _ =>
    match s.nvm.newest with
    | some k =>
      if tornSlotFits flight (slotOf s.nvm k) (overwrite (slotOf s.nvm k) 56 w) b then
        { s with nvm := { s.nvm with slots := Map.put s.nvm.slots k b } }
      else s
    | none => s
  | _, _ => s

/-- The first `n` blocks of an NVM_WRITE that was being committed (R174). -/
def tornBlocks (s : State) (cid n : Nat) : State :=
  match opReady s cid 0x0621 with
  | none => s
  | some (c, d) =>
    if earlierOpen s c [0x0621] (fun x => overlaps x.entry c.entry) || (getWear s.nvm 1).worn then s
    else ((nvmBlocks d.length (le c.entry 44 4) d).take n).foldl
      (fun t p => { t with nvm := { t.nvm with user := memWrite userBlank t.nvm.user p.1 p.2 } }) s

/-- The commands of a KEY_DESTROY of a tree key have begun to overwrite its record: it no longer authenticates (Table 79, R279). -/
def tornTree (s : State) (t : Nat) : State :=
  match Map.get? s.keys.keys (Config.treeBase + t) with
  | some k =>
    if k.destroyPending && !keyAwaited s (Config.treeBase + t) then
      { s with nvm := { s.nvm with trees := Map.modify s.nvm.trees t fun r => { r with box := .bad, authentic := false } } }
    else s
  | none => s

/-- The tree record of an HBS_KEYGEN is cut off after its GEN commit: the tree is EMPTY at GEN + 1 (Table 79). -/
def tornTreeRecord (s : State) (t : Nat) : State :=
  match s.cmds.find? (keygenAt s t), recVal s.nvm 4 t with
  | some c, .value g _ =>
    if g = BitVec.allOnes 24 || (getWear s.nvm 4).worn || (getWear s.nvm 2).worn then s
    else
      let s1 := (commitRec s 4 t (g + 1) 0 0).1
      let r : TreeRec := { treeRec s1 c t (g + 1) [] [] [] with box := .bad, authentic := false }
      { s1 with nvm := { s1.nvm with trees := Map.put s1.nvm.trees t r } }
  | _, _ => s

/-- A record of the persistent keys region is cut off in the middle of its first write: INSTALL's identity (1) and SWK (3), the
owner root (2) of a move to OWNED (R277, R393, R397). -/
def tornPersist (s : State) (which : Nat) : State :=
  if (getWear s.nvm 2).worn then s
  else match which with
  | 1 =>
    if inPhase s 7 && !(getWear s.nvm 5).worn && s.nvm.identity == .blank && (s.lc.state == .factory || s.lc.state == .ret) then
      (let s1 := (raiseEpoch s 0).1
       { s1 with nvm := { s1.nvm with identity := .bad } })
    else s
  | 2 =>
    if s.cmds.any (moveAt s .owned) then
      { s with nvm := { s.nvm with ownerRoot := .bad } }
    else s
  | _ =>
    if inPhase s 7 && !(getWear s.nvm 5).worn && s.nvm.swk == .blank then
      (let s1 := (raiseEpoch s 0).1
       let s2 := (installIdentity s1 0).getD s1
       { s2 with nvm := { s2.nvm with swk := .bad } })
    else s

/-- INSTALL's work before the anti-rollback commit. -/
def beforeCommit (s : State) : State :=
  let s1 := (raiseEpoch s 0).1
  let s2 := (installIdentity s1 0).getD s1
  (installSwk s2 0).getD s2

/-- A burn of the OTP minimum cut short leaves a value between the old and the new (R57). -/
def tornFuse (s : State) (level : Nat) : State :=
  if inPhase s 7 && s.boot.commit && decide (s.otp.minVer ≤ level) && decide (level ≤ s.boot.secVer) then
    (let s1 := beforeCommit s
     { s1 with otp := { s1.otp with minVer := level } })
  else s

/-- OTP_LC's work up to the write of a copy: an erase resumed, the wipe with its mark, and the copies before (R376, R394). -/
def beforeCopy (s0 : State) (frm dst : Lc) (copy : Nat) : State :=
  let s := resumeErase s0
  let s1 := if wipeDone s.nvm then s else writeMark (runWipe s frm dst) 2 1
  let a := if 0 < copy then moveCopy [] dst 0 s1.otp.lcA s1.free else (s1.otp.lcA, s1.free)
  let b := if 1 < copy then moveCopy [] dst 1 s1.otp.lcB a.2 else (s1.otp.lcB, a.2)
  let c := if 2 < copy then moveCopy [] dst 2 s1.otp.lcC b.2 else (s1.otp.lcC, b.2)
  { s1 with otp := { s1.otp with lcA := a.1, lcB := b.1, lcC := c.1 }, free := c.2 }

/-- A copy with its next slot cut off in the write of a code: some of the code's bits are burned. -/
def cutSlot (dst : Lc) (bits : BitVec 16) (c : List (BitVec 16)) : List (BitVec 16) :=
  if lcCopy c = some dst then c else c.set (nextSlot c) bits

/-- A life-cycle slot of an OTP copy is cut off in its write (R387, R394). -/
def tornSlot (s : State) (copy : Nat) (bits : BitVec 16) : State :=
  match inPhase s 2, pendingMove s.nvm with
  | true, some (frm, dst) =>
    if bits &&& ~~~dst.code = 0 && decide (copy < 3) then
      (let s1 := beforeCopy s frm dst copy
       { s1 with otp := { s1.otp with
           lcA := if copy = 0 then cutSlot dst bits s1.otp.lcA else s1.otp.lcA,
           lcB := if copy = 1 then cutSlot dst bits s1.otp.lcB else s1.otp.lcB,
           lcC := if copy = 2 then cutSlot dst bits s1.otp.lcC else s1.otp.lcC } })
    else s
  | _, _ => s

/-- A burn of MON_FUSE is cut off: of the pairs it burns each is burned or not (R370). -/
def tornMonFuse (s : State) (value : Word) (fuseA fuseB : BitVec 16) : State :=
  let t := fuseWrite s value
  if t.otp = s.otp then s
  else { s with otp := { s.otp with
    fuseA := s.otp.fuseA ||| (fuseA &&& t.otp.fuseA), fuseB := s.otp.fuseB ||| (fuseB &&& t.otp.fuseB) } }

/-! ### The cut -/

/-- What the work that a copy belongs to has written before that copy (R376, R393, R394). -/
def beforeRecord (s : State) (region index : Nat) (value : DWord) : State :=
  match region, index with
  | 5, 1 =>
    (match inPhase s 2, pendingMove s.nvm with
      | true, some (frm, dst) => writeMark (beforeCopy s frm dst 3) 2 0
      | _, _ =>
        match s.cmds.find? (moveAt s .owned) with
        | some c => putOwnerRoot s (c.input.getD [])
        | none => s)
  | 5, 2 =>
    (match pendingMove s.nvm with
      | some (frm, dst) => if value = 1 then runWipe (resumeErase s) frm dst else beforeCopy s frm dst 3
      | none => s)
  | 5, 3 => if value = 0 then erasePersistent s else s
  | _, _ => s

/-- One write cut off (log 7); `flight`: the NVM word in flight is cut too, which a device reset lets finish (R59). A record of
blank copies keeps its old value: the cut leaves no copy, or the whole one (R243; log 76). -/
def applyTorn (flight : Bool) (s : State) (t : Torn) : State :=
  match t with
  | .copy region index value gen margin =>
    if commitInFlight s region index value gen && (margin || (flight && !allBlank s region index)) then
      (let s1 := beforeRecord s region index value
       putCopy s1 region index (commitSlot region index (copiesOf s1.nvm region index))
        { value := value, gen := gen, resv := 0, check := copyCheck region index value gen 0, margin := margin })
    else s
  | .half region index value gen =>
    if commitInFlight s region index value gen && !allBlank s region index then
      (let s1 := beforeRecord s region index value
       putCopy s1 region index (commitSlot region index (copiesOf s1.nvm region index)) (halfCopy s1 region index value))
    else s
  | .record bytes => tornRecord flight s bytes
  | .blocks cid n => tornBlocks s cid n
  | .treeErase tree => tornTree s tree
  | .treeRecord tree => tornTreeRecord s tree
  | .persist which => tornPersist s which
  | .fuse level => tornFuse s level
  | .slot copy bits => tornSlot s copy bits
  | .monFuse value fuseA fuseB => if flight then tornMonFuse s value fuseA fuseB else s

/-- The work a cut write belongs to: what is written one after another, so that a cut falls into one of its writes at most (R242, R243,
R259). Of region 5 and the stores of Boot all is one work, of a tree its record and its reservation record. -/
def tornWork (t : Torn) : Nat × Nat :=
  match t with
  | .copy region index _ _ _ => if region = 5 then (5, 0) else (region, index)
  | .half region index _ _ => if region = 5 then (5, 0) else (region, index)
  | .record _ => (0, 0)
  | .blocks cid _ => (1, cid)
  | .treeErase tree => (4, tree)
  | .treeRecord tree => (4, tree)
  | .persist _ => (5, 0)
  | .fuse _ => (5, 0)
  | .slot _ _ => (5, 0)
  | .monFuse _ _ _ => (6, 0)

/-- The first cut of each work. -/
def oneEach : List Torn → List (Nat × Nat) → List Torn
  | [], _ => []
  | t :: r, seen => if seen.contains (tornWork t) then oneEach r seen else t :: oneEach r (tornWork t :: seen)

/-- Every write that was in flight is cut off. -/
def cut (flight : Bool) (s : State) (torn : List Torn) : State := (oneEach torn []).foldl (applyTorn flight) s

/-- MAIN_POWER_LOST (R44): Dormant, with every volatile content gone; TBCLK runs again from its first edge (R437). -/
def execMainPowerLost (torn : List Torn) (s : State) : Out :=
  .next (if s.sys.mode = .dormant then { s with sys := { s.sys with mainGood := false } }
    else
      let s1 := bootState (cut true s torn) true
      { s1 with sys := { s1.sys with mode := .dormant, mainGood := false, tbclk := false, isolated := true, prev := .dormant, cause := 0 } })

/-- DEV_RESET_N_ASSERT (R473): Boot, held before its ROM phase with every block isolated. -/
def execDevResetNAssert (torn : List Torn) (s : State) : Out :=
  .next (if s.sys.mode = .dormant || opposed s (if s.sys.mode = .lockdown then 11 else 10) then
      { s with sys := { s.sys with resetLow := true } }
    else
      let s0 := cut false s torn
      let s1 := warmBoot { s0 with sys := { s0.sys with resetLow := true } } 8
      { s1 with lc := { s1.lc with tapDrive := drives s1.lc.tapIr } })

/-- DEV_SOFT_RESET (R58): the key written by the keeper function in world S; a commit stops after its word (R242). -/
def execDevSoftReset (fn : Nat) (value : Word) (torn : List Torn) (s : State) : Out :=
  .next (if s.sys.mode ≠ .boot && (barWrite s fn 0x1008 value).sys.mode = .boot then
      barWrite (cut false s torn) fn 0x1008 value
    else barWrite s fn 0x1008 value)

end Sys2Proof.Machine
end

