-- ==== Sys2Proof/Machine/Lanes.lean ====
section
/-!
DEFINITION. Lanes, planes, predicates and scalars of a lattice vector engine (R217 to R224), the shapes in which a vector
instruction acts, its memory access (R231 to R235) and its precise faults (R237, R238).
-/

namespace Sys2Proof.Machine

/-! ### Registers -/

/-- Lane `e` of a plane (R219). -/
def laneOf (w : Bool) (r : BitVec 768) (e : Nat) : Nat := r.toNat / 2 ^ (ew w * e) % 2 ^ ew w

/-- A plane from its lanes. -/
def ofLanes (w : Bool) (f : Nat → Nat) : BitVec 768 :=
  BitVec.ofNat 768 ((List.range (laneCount w)).foldl (fun a e => a + f e % 2 ^ ew w * 2 ^ (ew w * e)) 0)

/-- A register with every plane zero. -/
def VReg.zero : VReg := { p0 := 0, p1 := 0, p2 := 0 }

/-- Plane `k` of a register. -/
def VReg.plane (r : VReg) (k : Nat) : BitVec 768 := if k = 0 then r.p0 else if k = 1 then r.p1 else r.p2

/-- A vector register. -/
def getV (l : Lve) (i : Nat) : VReg := l.v.toArray.getD i VReg.zero

/-- Replace a vector register. -/
def putV (l : Lve) (i : Nat) (r : VReg) : Lve := { l with v := l.v.mapIdx fun j x => if j = i then r else x }

/-- A predicate register: P0 reads as ones (R217). -/
def getP (l : Lve) (i : Nat) : DWord := if i = 0 then BitVec.allOnes 64 else l.p.toArray.getD i 0

/-- Write a predicate register: writes to P0 are ignored (R217). -/
def putP (l : Lve) (i : Nat) (v : DWord) : Lve := if i = 0 then l else { l with p := l.p.mapIdx fun j x => if j = i then v else x }

/-- A scalar register. -/
def getS (l : Lve) (i : Nat) : Word := l.s.toArray.getD i 0

/-- Write a scalar register. -/
def putS (l : Lve) (i : Nat) (v : Word) : Lve := { l with s := l.s.mapIdx fun j x => if j = i then v else x }

/-- The inverse of an odd number modulo 2^n: each of `k` steps doubles the bits that are right, of which there are three at the start. -/
def invPow2 (n q : Nat) : (k x : Nat) → Nat
  | 0, x => x % 2 ^ n
  | k + 1, x => invPow2 n q k (x * (2 + (2 ^ n - q * x % 2 ^ n)) % 2 ^ n)

/-- A modulus register's content: q and its derived constants (R221). -/
def modulusOf (v : BitVec 24) : Modulus :=
  let q := v.toNat
  { q := v, quo24 := 2 ^ 24 / q, quo48 := 2 ^ 48 / q, inv12 := (2 ^ 12 - invPow2 12 q 2 q) % 2 ^ 12,
    inv24 := (2 ^ 24 - invPow2 24 q 3 q) % 2 ^ 24, rem24 := 2 ^ 24 % q, rem48 := 2 ^ 48 % q }

/-- The modulus of a modulus register. -/
def getQ (l : Lve) (i : Nat) : Option (BitVec 24) := (l.q.toArray.getD i none).map (·.q)

/-- Write a modulus register (R221). -/
def putQ (l : Lve) (i : Nat) (v : BitVec 24) : Lve :=
  { l with q := l.q.mapIdx fun j x => if j = i then some (modulusOf v) else x }

/-- A lane is active (R220). -/
def active (l : Lve) (pg e : Nat) : Bool := (getP l pg).getLsbD e

/-! ### Results -/

/-- What an instruction answers: the engine, the command's frame and how many free values it took; or a precise fault at
an element and an address, with the engine and the frame as R238 leaves them. -/
inductive LveRes where
  | ok (l : Lve) (frame : List Host.Cell) (frees : Nat)
  | fault (element addr : Nat) (l : Lve) (frame : List Host.Cell)

/-- Zero a list of registers (R238). -/
def zeroV (l : Lve) (rs : List Nat) : Lve := rs.foldl (fun a r => putV a r VReg.zero) l

/-- A fault that leaves destination registers zero. -/
def faultV (c : Cmd) (l : Lve) (element addr : Nat) (rs : List Nat) : LveRes := .fault element addr (zeroV l rs) c.frame

/-- One plane of a destination: active lanes get the result, inactive lanes keep their value or become zero (R220). -/
def mergePlane (w : Bool) (act : Nat → Bool) (pz : Bool) (old : BitVec 768) (new : Nat → Nat) : BitVec 768 :=
  ofLanes w fun e => if act e then new e else if pz then 0 else laneOf w old e

/-- A destination register from the results of its planes: `none` keeps the plane's active lanes. -/
def destReg (w : Bool) (act : Nat → Bool) (pz : Bool) (old : VReg) (n0 n1 n2 : Option (Nat → Nat)) : VReg :=
  { p0 := mergePlane w act pz old.p0 (n0.getD (laneOf w old.p0)),
    p1 := mergePlane w act pz old.p1 (n1.getD (laneOf w old.p1)),
    p2 := mergePlane w act pz old.p2 (n2.getD (laneOf w old.p2)) }

/-- The guard of a Format A instruction. -/
def guardA (l : Lve) (f : FmtA) : Nat → Bool := active l f.pg.val

/-- A result for the planes up to the share order, from what it is in one plane. -/
def upTo (d k : Nat) (n : Nat → Nat) : Option (Nat → Nat) := if k ≤ d then some n else none

/-- A Lin (or No) instruction on one destination: plane k from plane k of the operands (R223). -/
def linReg (l : Lve) (f : FmtA) (old : VReg) (op : (plane lane : Nat) → Nat) : VReg :=
  destReg f.w (guardA l f) f.pz old (upTo l.d 0 (op 0)) (upTo l.d 1 (op 1)) (upTo l.d 2 (op 2))

/-- Lanes of VA, VB and VD in one plane. -/
def lanesIn (l : Lve) (f : FmtA) (r : Fin 32) (k e : Nat) : Nat := laneOf f.w ((getV l r.val).plane k) e

/-- VD from VA and VB, lane by lane and plane by plane. -/
def linAB (c : Cmd) (l : Lve) (f : FmtA) (op : Nat → Nat → Nat) : LveRes :=
  .ok (putV l f.vd.val (linReg l f (getV l f.vd.val) fun k e => op (lanesIn l f f.va k e) (lanesIn l f f.vb k e))) c.frame 0

/-- The modulus of an instruction, when it is set and below 2^EW (R237). -/
def modulus (l : Lve) (f : FmtA) : Option Nat :=
  match getQ l f.qm.val with
  | some q => if q.toNat < 2 ^ ew f.w then some q.toNat else none
  | none => none

/-- VD from VA and VB modulo q. -/
def linMod (c : Cmd) (l : Lve) (f : FmtA) (op : (q a b : Nat) → Nat) : LveRes :=
  match modulus l f with
  | some q => linAB c l f (op q)
  | none => faultV c l 0 0 [f.vd.val]

/-! ### Shares (R222, R224, R230) -/

/-- The unshared value of a lane (R222). -/
def unshared (w : Bool) (d : Nat) (bool : Bool) (q : Nat) (r : VReg) (e : Nat) : Nat :=
  let x := laneOf w r.p0 e
  let y := laneOf w r.p1 e
  let z := laneOf w r.p2 e
  if d = 0 then x
  else if bool then Nat.xor x (Nat.xor y (if d = 2 then z else 0))
  else (x + y + (if d = 2 then z else 0)) % q

/-- The seed the mask generator expands now: a new one after every 1,024 steps (R196). -/
def maskSeed (l : Lve) : Bytes := l.seeds.getD (l.steps / 1024) []

/-- The mask value of a lane of a plane, `pos` values on: four bytes of the SHAKE256 expansion of the seed (R196; which: log 96). -/
def maskAt (l : Lve) (pos k e : Nat) : Nat :=
  leVal ((List.range 4).map fun b => Config.xof 0x22 (maskSeed l) (4 * (l.maskPos + pos + 64 * k + e) + b))

/-- The mask generator has given `n` values. -/
def drew (l : Lve) (n : Nat) : Lve := { l with maskPos := l.maskPos + n }

/-- Steps go by: past a multiple of 1,024 the mask generator takes its next seed (R196). -/
def advance (l : Lve) (n : Nat) : Lve :=
  { l with steps := l.steps + n, maskPos := if (l.steps + n) / 1024 = l.steps / 1024 then l.maskPos else 0 }

/-- Share `k` of fresh shares over planes 0 to d of a value: planes above 0 are masks, plane 0 completes them. -/
def share (w : Bool) (d : Nat) (bool : Bool) (q : Nat) (mask : (plane lane : Nat) → Nat) (r : Nat → Nat) (k e : Nat) : Nat :=
  let m := fun j => if j ≤ d then (if bool then mask j e % 2 ^ ew w else mask j e % q) else 0
  if d = 0 then r e
  else if k != 0 then m k
  else if bool then Nat.xor (r e) (Nat.xor (m 1) (m 2)) else (r e + (q - m 1) + (q - m 2)) % q

/-- A destination of fresh shares. -/
def gadReg (l : Lve) (f : FmtA) (bool : Bool) (q pos : Nat) (old : VReg) (r : Nat → Nat) : VReg :=
  linReg l f old (share f.w l.d bool q (maskAt l pos) r)

/-- Mask values an instruction with `n` destinations draws. -/
def maskCount (l : Lve) (n : Nat) : Nat := if l.d = 0 then 0 else 192 * n

/-- A Gad instruction with one destination: `inB` and `outB` say which shares are Boolean. -/
def gad1 (c : Cmd) (l : Lve) (f : FmtA) (inB outB : Bool) (op : (q a b : Nat) → Nat) : LveRes :=
  match modulus l f with
  | none => faultV c l 0 0 [f.vd.val]
  | some q =>
    let x := fun (r : Fin 32) e => unshared f.w l.d inB q (getV l r.val) e
    .ok (putV (drew l (maskCount l 1)) f.vd.val (gadReg l f outB q 0 (getV l f.vd.val) fun e => op q (x f.va e) (x f.vb e))) c.frame 0

/-- A Gad instruction with VD and VD + 1 (VP2R, VDEC): arithmetic shares in and out. -/
def gad2 (c : Cmd) (l : Lve) (f : FmtA) (bad : Nat → Bool) (op : (q a : Nat) → Nat × Nat) : LveRes :=
  match (modulus l f).filter fun q => !bad q with
  | none => faultV c l 0 0 [f.vd.val, f.vd.val + 1]
  | some q =>
    let x := fun e => unshared f.w l.d false q (getV l f.va.val) e
    let hi := gadReg l f false q 0 (getV l f.vd.val) fun e => (op q (x e)).1
    let lo := gadReg l f false q 192 (getV l (f.vd.val + 1)) fun e => (op q (x e)).2
    .ok (putV (putV (drew l (maskCount l 2)) f.vd.val hi) (f.vd.val + 1) lo) c.frame 0

/-- A Pub instruction on a vector destination: plane 0 gets the value, planes 1 and 2 of active lanes zero (R223). -/
def pubV (c : Cmd) (l : Lve) (f : FmtA) (r : Nat → Nat) : LveRes :=
  .ok (putV l f.vd.val (destReg f.w (guardA l f) f.pz (getV l f.vd.val) (some r) (some fun _ => 0) (some fun _ => 0))) c.frame 0

/-- A predicate from bits of its lanes; W = 1 leaves bits 63 to 32 zero (R219). -/
def predOf (w : Bool) (b : Nat → Bool) : DWord :=
  BitVec.ofNat 64 ((List.range (laneCount w)).foldl (fun a e => a + if b e then 2 ^ e else 0) 0)

/-- A comparison's predicate: active lanes get the bit, inactive ones keep it or get zero (R226). -/
def pubP (c : Cmd) (l : Lve) (f : FmtA) (b : Nat → Bool) : LveRes :=
  let pd := f.vd.val % 8
  .ok (putP l pd (predOf f.w fun e => if guardA l f e then b e else !f.pz && (getP l pd).getLsbD e)) c.frame 0

/-! ### Element operations -/

/-- EW-bit two's complement. -/
def sx (w : Bool) (a : Nat) : Int := if a < 2 ^ (ew w - 1) then (a : Int) else (a : Int) - 2 ^ ew w

/-- x mod± α. -/
def centred (x α : Nat) : Int := if α / 2 < x % α then ((x % α : Nat) : Int) - α else ((x % α : Nat) : Int)

/-- An integer modulo 2^EW. -/
def wrap (w : Bool) (x : Int) : Nat := (x % (2 ^ ew w : Int)).toNat

/-- Clamp to the signed EW-bit range. -/
def clampS (w : Bool) (x : Int) : Nat := wrap w (max (-(2 ^ (ew w - 1) : Int)) (min (2 ^ (ew w - 1) - 1 : Int) x))

/-- vsadd. -/
def satAddLane (w signed : Bool) (a b : Nat) : Nat :=
  if signed then clampS w (sx w a + sx w b) else min (a + b) (2 ^ ew w - 1)

/-- VSSUB: b negated before the clamp. -/
def satSubLane (w signed : Bool) (a b : Nat) : Nat := if signed then clampS w (sx w a - sx w b) else a - b

/-- vrshr. -/
def roundShift (w signed : Bool) (k a : Nat) : Nat :=
  if k = 0 then a
  else if signed then wrap w ((sx w a + 2 ^ (k - 1)) / (2 ^ k : Int)) else (a + 2 ^ (k - 1)) / 2 ^ k % 2 ^ ew w

/-- vcmpr. -/
def compress (dd q a : Nat) : Nat := (2 ^ (dd + 1) * (a % q) + q) / (2 * q) % 2 ^ dd

/-- vdcmpr. -/
def decompress (dd q a : Nat) : Nat := (2 * q * (a % 2 ^ dd) + 2 ^ dd) / 2 ^ (dd + 1)

/-- vp2r. -/
def power2Round (D q a : Nat) : Nat × Nat :=
  let lo := centred (a % q) (2 ^ D)
  ((((a % q : Nat) : Int) - lo) / (2 ^ D : Int) |>.toNat, (lo % (q : Int)).toNat)

/-- vdec. -/
def decompose (g2 q a : Nat) : Nat × Nat :=
  let x : Int := ((a % q : Nat) : Int)
  let lo := centred (a % q) (2 * g2)
  if x - lo = (q : Int) - 1 then (0, ((lo - 1) % (q : Int)).toNat)
  else (((x - lo) / (2 * g2 : Int)).toNat, (lo % (q : Int)).toNat)

/-- 2^−EW mod q: the Montgomery factor, by halving EW times modulo the odd q (R221). -/
def halves (q : Nat) : Nat → Nat → Nat
  | 0, x => x
  | n + 1, x => halves q n (if x % 2 = 0 then x / 2 else (x + q) / 2)

/-- vmmulm. -/
def montMul (w : Bool) (q a b : Nat) : Nat := a * b % q * halves q (ew w) (1 % q) % q

/-- A comparison condition (0 EQ, 1 NE, 2 LTU, 3 GEU, 4 LTS, 5 GES). -/
def condHolds (w : Bool) (cond a b : Nat) : Bool :=
  match cond with
  | 0 => a == b
  | 1 => a != b
  | 2 => decide (a < b)
  | 3 => decide (b ≤ a)
  | 4 => decide (sx w a < sx w b)
  | _ => decide (sx w b ≤ sx w a)

/-- SALU (Table 75). -/
def saluOp (fn : Nat) (a y : Word) : Word :=
  match fn with
  | 0 => a + y
  | 1 => a - y
  | 2 => a &&& y
  | 3 => a ||| y
  | 4 => a ^^^ y
  | 5 => a <<< (y.toNat % 32)
  | 6 => a >>> (y.toNat % 32)
  | _ => a * y

/-! ### Memory (R231 to R234) -/

/-- Bytes of an element. -/
def elemBytes (w : Bool) : Nat := if w then 4 else 2

/-- LVE_FRAME: bytes of the frame the command holds on a lattice vector engine. -/
def lveFrame (c : Cmd) : Nat := ((c.hold.find? fun h => h.1 == 1).map fun h => h.2.2).getD 0

/-- Bytes of a space (R231). -/
def spaceSize (c : Cmd) (sp : Bool) : Nat := if sp then c.body.length else lveFrame c

/-- `n` bytes of a space as a number. -/
def readSpace (c : Cmd) (sp : Bool) (a n : Nat) : Nat := if sp then le c.body a n else leVal (memRead 0 c.frame a n)

/-- An element's access is aligned and inside its space (R232). -/
def elemOk (limit E a : Nat) : Bool := a % E == 0 && decide (a + E ≤ limit)

/-- The first active element with an access that fails, and the address of its field 0 (R232, R237). -/
def firstFault (n : Nat) (act : Nat → Bool) (limit E nf : Nat) (addr : (e f : Nat) → Nat) : Option (Nat × Nat) :=
  (List.range n).findSome? fun e =>
    if act e && (List.range nf).any (fun f => !elemOk limit E (addr e f)) then some (e, addr e 0) else none

/-- The base address of a memory form: S[SB] + DISP, modulo 2^32. -/
def baseAddr (l : Lve) (sb disp : Nat) : Nat := ((getS l sb).toNat + disp) % 2 ^ 32

/-- Element address (R232): contiguous, or by the index vector in plane 0 of VI. -/
def elemAddr (l : Lve) (f : FmtM) (indexed : Bool) (e k : Nat) : Nat :=
  let A := baseAddr l f.sb.val f.disp.toNat
  let E := elemBytes f.w
  let nf := f.nf.val + 1
  if indexed then A + (laneOf f.w (getV l f.vi.val).p0 e * nf + k) * E else A + (e * nf + k) * E

/-- PL exceeds d (R237). -/
def planeBad (l : Lve) (f : FmtM) : Bool := decide (l.d < f.pl.val)

/-- Registers VD to VD + NF − 1. -/
def fieldRegs (f : FmtM) : List Nat := (List.range (f.nf.val + 1)).map (f.vd.val + ·)

/-- A result for one plane only. -/
def onlyPlane (pl k : Nat) (n : Nat → Nat) : Option (Nat → Nat) := if pl = k then some n else none

/-- VLD and VGTH (R232). A PL above the engine's order is reported ahead of any address fault, at element 0 and with address 0, as a fault
that is no memory fault (R238; DESIGN CHOICE, log 49). -/
def loadM (c : Cmd) (l : Lve) (f : FmtM) (indexed : Bool) : LveRes :=
  let E := elemBytes f.w
  let act := active l f.pg.val
  if planeBad l f then faultV c l 0 0 (fieldRegs f)
  else match firstFault (laneCount f.w) act (spaceSize c f.sp) E (f.nf.val + 1) (elemAddr l f indexed) with
    | some (e, a) => faultV c l e a (fieldRegs f)
    | none =>
      let reg := fun k =>
        let n := fun e => readSpace c f.sp (elemAddr l f indexed e k) E % 2 ^ ew f.w
        destReg f.w act f.pz (getV l (f.vd.val + k)) (onlyPlane f.pl.val 0 n) (onlyPlane f.pl.val 1 n) (onlyPlane f.pl.val 2 n)
      .ok ((List.range (f.nf.val + 1)).foldl (fun a k => putV a (f.vd.val + k) (reg k)) l) c.frame 0

/-- The stores of the active elements below `n`, ascending (R233). -/
def storeElems (l : Lve) (f : FmtM) (indexed : Bool) (frame : List Host.Cell) (n : Nat) : List Host.Cell :=
  (List.range n).foldl (fun m e =>
    if active l f.pg.val e then
      (List.range (f.nf.val + 1)).foldl (fun m k => memWrite 0 m (elemAddr l f indexed e k)
        (leBytes (elemBytes f.w) (laneOf f.w ((getV l (f.vd.val + k)).plane f.pl.val) e))) m
    else m) frame

/-- VST and VSCT (R232, R233, R238). -/
def storeM (c : Cmd) (l : Lve) (f : FmtM) (indexed : Bool) : LveRes :=
  if planeBad l f then .fault 0 0 l c.frame
  else match firstFault (laneCount f.w) (active l f.pg.val) (lveFrame c) (elemBytes f.w) (f.nf.val + 1) (elemAddr l f indexed) with
    | some (e, a) => .fault e a l (storeElems l f indexed c.frame e)
    | none => .ok l (storeElems l f indexed c.frame (laneCount f.w)) 0

/-- Bytes of a packed string (R234). -/
def packedBytes (f : FmtM) : Nat := laneCount f.w * (f.vi.val + 1) / 8

/-- VLDP (R234). -/
def loadPacked (c : Cmd) (l : Lve) (f : FmtM) : LveRes :=
  let A := baseAddr l f.sb.val f.disp.toNat
  let dd := f.vi.val + 1
  if planeBad l f then faultV c l 0 0 [f.vd.val]
  else if spaceSize c f.sp < A + packedBytes f then faultV c l 0 A [f.vd.val]
  else
    let x := readSpace c f.sp A (packedBytes f)
    let n := fun e => x / 2 ^ (e * dd) % 2 ^ dd
    .ok (putV l f.vd.val (destReg f.w (active l f.pg.val) f.pz (getV l f.vd.val) (onlyPlane f.pl.val 0 n)
      (onlyPlane f.pl.val 1 n) (onlyPlane f.pl.val 2 n))) c.frame 0

/-- VSTP (R234). -/
def storePacked (c : Cmd) (l : Lve) (f : FmtM) : LveRes :=
  let A := baseAddr l f.sb.val f.disp.toNat
  let dd := f.vi.val + 1
  if planeBad l f then .fault 0 0 l c.frame
  else if lveFrame c < A + packedBytes f then .fault 0 A l c.frame
  else
    let x := (List.range (laneCount f.w)).foldl
      (fun a e => a + laneOf f.w ((getV l f.vd.val).plane f.pl.val) e % 2 ^ dd * 2 ^ (e * dd)) 0
    .ok l (memWrite 0 c.frame A (leBytes (packedBytes f) x)) 0

/-- The public vector at an IMM address: a one-field VLD read (R225, R233). -/
def publicVec (c : Cmd) (l : Lve) (f : FmtA) : Except (Nat × Nat) (Nat → Nat) :=
  let a := immAddr f.imm
  let A := baseAddr l a.1 a.2.2
  let E := elemBytes f.w
  match firstFault (laneCount f.w) (guardA l f) (spaceSize c a.2.1) E 1 (fun e _ => A + e * E) with
  | some x => .error x
  | none => .ok fun e => readSpace c a.2.1 (A + e * E) E % 2 ^ ew f.w

/-- Modulus and public vector of VMMULT, VBFLY and VIBFLY, or the fault that leaves `rs` zero. -/
def withTable (c : Cmd) (l : Lve) (f : FmtA) (rs : List Nat) (k : (q : Nat) → (t : Nat → Nat) → LveRes) : LveRes :=
  match modulus l f, publicVec c l f with
  | none, _ => faultV c l 0 0 rs
  | some _, .error (e, a) => faultV c l e a rs
  | some q, .ok t => k q t

/-- A butterfly writes VD and VA from VD, VA and the twiddle; with VD and VA one register the two results meet in it and
the spec does not say what it holds: free lanes (log 27). -/
def butterfly (c : Cmd) (l : Lve) (f : FmtA) (base : Nat) (op : (q a b w : Nat) → Nat × Nat) : LveRes :=
  withTable c l f [f.vd.val, f.va.val] fun q t =>
    let r := fun k e => op q (lanesIn l f f.vd k e) (lanesIn l f f.va k e) (t e)
    if f.vd = f.va then
      .ok (putV l f.vd.val (linReg l f (getV l f.vd.val) fun k e => Config.freeNat (base + 64 * k + e) % q)) c.frame 192
    else
      let d := linReg l f (getV l f.vd.val) fun k e => (r k e).1
      let a := linReg l f (getV l f.va.val) fun k e => (r k e).2
      .ok (putV (putV l f.vd.val d) f.va.val a) c.frame 0

/-- Frame word of SLD and SST (R225): S[SA] + IMM, modulo 2^32. -/
def scalarAddr (l : Lve) (f : FmtS) : Nat := ((getS l f.sa.val).toNat + f.imm.toNat) % 2 ^ 32

/-! ### A step of an engine -/

/-- What other engines have written to a command's frame four or more steps ago is in it (R235). -/
def landed (c : Cmd) (steps : Nat) : Cmd :=
  let old := c.xbar.filter fun w => decide (w.1 ≤ steps)
  { c with frame := old.foldl (fun m w => memWrite 0 m w.2.1 w.2.2) c.frame,
           xbar := c.xbar.filter fun w => !decide (w.1 ≤ steps) }

/-- The engine runs a segment whose next word is this instruction, valid under R236, and engines run; it is not halted (R399). -/
def lveReady (s : State) (e : Fin 32) (i : Instr) : Option (Cmd × Lve) :=
  match running s, Map.get? s.eng.lves e.val with
  | true, some l =>
    (match getCmd s l.cid with
      | some c =>
        (match c.segs[l.seg]?, lveForm i with
          | some g, some x =>
            if !l.halted && unitRuns s (engUnit 1 e.val) && c.running.contains (1, e.val) && decide (8 * l.pc < g.len)
              && formAt c.body (g.off + 8 * l.pc) == some x && lveValid x l.masked (lveFrame c) c.body.length then some (landed c l.steps, l)
            else none
          | _, _ => none)
      | none => none)
  | _, _ => none

/-- Replace an engine's registers. -/
def putLve (s : State) (e : Fin 32) (l : Lve) : State :=
  { s with eng := { s.eng with lves := Map.put s.eng.lves e.val l } }

/-- An instruction completes (R227): the next word follows and its steps are counted. -/
def lveDone (s : State) (e : Fin 32) (x : LveForm) (c : Cmd) (l : Lve) (frame : List Host.Cell) (frees : Nat) : State :=
  let s1 := putLve (noteStep s 1 e.val) e { advance l (lveSteps x l.d) with pc := l.pc + 1 }
  let s2 := modCmd s1 c.id fun y => { y with frame := frame, xbar := c.xbar }
  unitStep { s2 with free := s2.free + frees } (engUnit 1 e.val)

/-- A precise fault (R238): the segment stops, the fault is recorded and the command reruns. -/
def lveFault (s : State) (e : Fin 32) (c : Cmd) (l : Lve) (frame : List Host.Cell) (element addr : Nat) : State :=
  let s1 := modCmd (putLve s e { l with halted := true }) c.id fun y => { y with frame := frame }
  faultCmd (recordFault s1 1 1 e.val c.planId element addr) c.id 1 1 e.val

/-- One instruction on an engine. -/
def lveStep (s : State) (e : Fin 32) (i : Instr) (k : (c : Cmd) → (l : Lve) → (base : Nat) → LveRes) : State :=
  match lveReady s e i, lveForm i with
  | some (c, l), some x =>
    (match k c l s.free with
      | .ok l1 frame frees => lveDone s e x c l1 frame frees
      | .fault el a l1 frame => lveFault s e c l1 frame el a)
  | _, _ => s

end Sys2Proof.Machine
end

