-- ==== Sys2Proof/Machine/Engines.lean ====
section
/-!
DEFINITION. Frames (R185, Table 180), readiness and grants of the lock timetable (R323 to R326), the start and the end of
segments with their decisions (R184, R189 to R191, R196, R197, R235), dispatch boundaries (R188) and engine faults (R17,
R21, R56).
-/

namespace Sys2Proof.Machine

/-! ### Frames (R185, Table 180) -/

/-- KiB as bytes. -/
def kib (n : Nat) : Nat := n * 1024

/-- Level of a three-level family by its code: 0, 1 or 2. -/
def level3 (p : Nat) : Nat := p % 256 - 1

/-- A pair of figures for levels 0, 1 and 2. -/
def pick3 (a b c n : Nat) : Nat := if n = 0 then a else if n = 1 then b else c

/-- KiB of a Classic McEliece operation's frame (Table 180). -/
def mcelieceKib (p : Nat) : Nat :=
  if p ≤ 0x0202 then 256 else if p ≤ 0x0204 then 512 else if p ≤ 0x0208 then 1024 else 1344

/-- What an operation of a family does, as far as its frame depends on it. -/
inductive Work where
  | keygen | use | check
  deriving DecidableEq, Repr

/-- Frame of a family's operation on an engine kind (Table 180); 0 for none. -/
def famFrame (p : Nat) (w : Work) (kind : Nat) : Nat :=
  match famOf p, kind with
  | .mlkem, 1 => kib (pick3 16 20 24 (level3 p))
  | .mldsa, 1 => if w = .check then kib (pick3 32 48 64 (level3 p)) else kib (pick3 64 96 128 (level3 p))
  | .mceliece, 4 => if w = .keygen then kib 2048 else kib (mcelieceKib p)
  | .hqc, 4 => kib (pick3 64 128 192 (level3 p))
  | .bike, 4 => kib (pick3 64 128 192 (level3 p))
  | .ecdh, 5 => kib 8
  | .xdh, 5 => kib 8
  | .ecdsa, 5 => kib 8
  | .eddsa, 5 => kib 8
  | .rsaV15, 5 => kib 32
  | .rsaPss, 5 => kib 32
  | .rsaOaep, 5 => kib 32
  | _, _ => 0

/-- Type of a key by its granule; 0 for none. -/
def typeAt (s : State) (g : Option Nat) : Nat := ((keyAt s g).map (·.typ)).getD 0

/-- Frame of a command's standard plan on an engine kind (Table 180). -/
def stdFrame (s : State) (c : Cmd) (kind : Nat) : Nat :=
  let e := c.entry
  let p := le e 40 2
  match opcode e with
  | 0x50 => if kind = 1 then kib 64 else 0
  | 0x31 => if kind = 1 then kib 64 else 0
  | 0x60 => if kind = 1 then kib 64 else 0
  | 0x62 => if kind = 1 then kib 64 else 0
  | 0x0101 => famFrame p .use kind
  | 0x0102 => famFrame p .use kind
  | 0x0103 => famFrame p .use kind
  | 0x0104 => famFrame 0x1503 .use kind
  | 0x0105 => famFrame 0x1503 .use kind
  | 0x0110 => if kind = 5 then kib 8 else famFrame p .use kind
  | 0x0201 => famFrame p .use kind
  | 0x0202 => famFrame p .check kind
  | 0x0401 => famFrame p .keygen kind
  | 0x0402 => famFrame p .keygen kind
  | 0x0403 => famFrame p .keygen kind
  | 0x0404 => famFrame (typeAt s c.keyA) .keygen kind
  | 0x0410 => if le e 40 1 = 2 && kind = 1 then kib 24 else 0
  | 0x0411 => if le e 40 1 = 2 && kind = 1 then kib 24 else 0
  | 0x0702 => famFrame (typeAt s c.keyA) .use kind + famFrame (typeAt s c.keyB) .use kind
  | 0x0710 => famFrame (typeAt s c.keyA) .use kind + famFrame (typeAt s c.keyB) .use kind
  | _ => 0

/-- What a command takes on an engine of a kind: a frame's bytes, or one state slot (R185, R206). -/
def frameNeed (s : State) (c : Cmd) (kind : Nat) : Nat :=
  if !hasFrames kind then 1
  else if c.planId < 0x80000000 then stdFrame s c kind
  else if kind = 1 then le c.body 52 4 else if kind = 4 then le c.body 56 4 else le c.body 60 4

/-- Holds on an engine, by every accepted command. -/
def holdsOn (s : State) (kind i : Nat) : List (Nat × Nat × Nat) :=
  s.cmds.flatMap fun c => c.hold.filter fun h => h.1 == kind && h.2.1 == i

/-- An engine has room for a frame or slot. -/
def hasRoom (s : State) (kind i need : Nat) : Bool := decide (((holdsOn s kind i).map (·.2.2)).sum + need ≤ engRoom kind)

/-- The engine a command would be given: with room, holding the fewest, lowest index on a tie (R185, R213). -/
def chooseEngine (s : State) (c : Cmd) (kind : Nat) : Option Nat :=
  (((List.range (engCount kind)).filter fun i =>
      inService s kind i && !c.avoid.contains (kind, i) && hasRoom s kind i (frameNeed s c kind))).foldl
    (fun a i => match a with
      | none => some i
      | some j => if (holdsOn s kind i).length < (holdsOn s kind j).length then some i else some j) none

/-- The engine of a kind a command holds, while it is in service, or the one it would be given (R185, R21). -/
def engineFor (s : State) (c : Cmd) (kind : Nat) : Option Nat :=
  match c.hold.find? fun h => h.1 == kind with
  | some h => if inService s kind h.2.1 then some h.2.1 else none
  | none => chooseEngine s c kind

/-! ### Readiness (R323) -/

/-- The segments of a group from a position on, with their indices (R184). -/
def groupFrom : Nat → List Seg → Nat → List (Nat × Seg)
  | 0, _, _ => []
  | n + 1, l, p =>
    match l[p]? with
    | none => []
    | some g => (p, g) :: (if g.grouped then groupFrom n l (p + 1) else [])

/-- The next segment or group of a command. -/
def nextGroup (c : Cmd) : List (Nat × Seg) := groupFrom c.segs.length c.segs c.pos

/-- An engine is running a segment. -/
def engineBusy (s : State) (kind i : Nat) : Bool := s.cmds.any fun c => c.running.contains (kind, i)

/-- Seeds a masked segment uses (R196). -/
def seedsFor (g : Seg) : Nat := if g.masked && hasFrames g.kind then 1 + (g.steps - 1) / 1024 else 0

/-- Seeds queued at an engine (R197). -/
def seedsAt (s : State) (kind i : Nat) : Nat := (Map.getD s.eng.seedQ (kind * 256 + i) []).length

/-- The engines of the next group, each free and with room; none while one is not. -/
def groupEngines (s : State) (c : Cmd) : Option (List (Nat × Nat)) :=
  (nextGroup c).foldr (fun g a => match a, engineFor s c g.2.kind with
    | some l, some i => if engineBusy s g.2.kind i then none else some ((g.2.kind, i) :: l)
    | _, _ => none) (some [])

/-- A command may ask for a grant: it runs, nothing of it is running, and a segment is left. -/
def asks (c : Cmd) : Bool :=
  mayRun c && c.running == [] && decide (c.pos < c.segs.length) && c.input.isSome && (opcode c.entry != 0x0611 || c.leaf.isSome)
    && (blockErr c).isNone

/-- The plan's working copy is there (R204); one of a plan marked missing serves only commands that already run on it (R30). -/
def copyHere (s : State) (c : Cmd) : Bool :=
  (Map.get? s.eng.copies c.planId).isSome && (!s.eng.stale.contains c.planId || onCopyOf c c.planId)

/-- A request is ready but for its seeds and input randomness (R323); the sequencer that dispatches it is not halted (R399). -/
def readyButSeeds (s : State) (c : Cmd) : Bool :=
  asks c && !withdrawn s c && unitRuns s c.seqr && tailsHere s c && berthHere s c && copyHere s c && (groupEngines s c).isSome

/-! ### Seeds and input randomness (R196, R197) -/

/-- An engine's queue takes `n` more seeds while the generator can draw. -/
def queueSeeds (key : Nat) : Nat → State → State
  | 0, s => s
  | n + 1, s =>
    match draw s 32 with
    | some (b, s1) => queueSeeds key n { s1 with eng := { s1.eng with
        seedQ := Map.put s1.eng.seedQ key (Map.getD s1.eng.seedQ key [] ++ [b]) } }
    | none => s

/-- An engine's queue is filled to 64 seeds. -/
def refillSeeds (s : State) (kind i : Nat) : State :=
  if inService s kind i then queueSeeds (kind * 256 + i) (64 - seedsAt s kind i) s else s

/-- Every queue that is not full is refilled (R197): by kind, then by index (log 96). -/
def refillAll (s : State) : State :=
  if canDraw s then
    [1, 4, 5].foldl (fun t kind => (List.range (engCount kind)).foldl (fun u i => refillSeeds u kind i) t) s
  else s

/-- A segment's seeds pass from its engine's queue to its mask generator; none when the queue holds too few. -/
def takeSeeds (s : State) (g : Seg) (i : Nat) : Option State :=
  let n := seedsFor g
  let key := g.kind * 256 + i
  let q := Map.getD s.eng.seedQ key []
  if n = 0 then some s
  else if n ≤ q.length then some { s with eng := { s.eng with
    seedQ := Map.put s.eng.seedQ key (q.drop n), maskGen := Map.put s.eng.maskGen key (Map.getD s.eng.maskGen key [] ++ q.take n) } }
  else none

/-- The seeds of a whole group; a queue is refilled between two segments that use it. -/
def takeAll : List (Nat × Seg) → List (Nat × Nat) → State → Option State
  | g :: gs, e :: es, s => (takeSeeds s g.2 e.2).bind fun t => takeAll gs es (refillSeeds t e.1 e.2)
  | _, _, s => some s

/-- The input randomness and blinding values of the group's segments, and its seeds, are taken (R197). -/
def takeRandom (s : State) (c : Cmd) (es : List (Nat × Nat)) : Option (Option Bytes × State) :=
  let n := groupDraw s c (nextGroup c)
  (if n = 0 then some (c.rnd, s) else (draw s n).map fun r => (some (c.rnd.getD [] ++ r.1), r.2)).bind
    fun r => (takeAll (nextGroup c) es r.2).map fun t => (r.1, t)

/-- The randomness of the next group is there (R197, R323). -/
def seedsReady (s : State) (c : Cmd) : Bool := ((groupEngines s c).bind (takeRandom s c)).isSome

/-- A request is ready (R323). -/
def isReady (s : State) (c : Cmd) : Bool := readyButSeeds s c && seedsReady s c

/-! ### Dispatch -/

/-- Masking order of a command's next segments (R194): a seal signs with slot 0's key, then with slot 1's. Only an ML-DSA key's segments
are masked, and never at order 0 (R467): slot 1's order counts where its key is ML-DSA and slot 0's is not, or slot 0's candidate has been
chosen (log 97). -/
def segOrder (s : State) (c : Cmd) : Nat :=
  if isSealing (opcode c.entry) && famOf (typeAt s c.keyB) == .mldsa && (famOf (typeAt s c.keyA) != .mldsa || c.picks != []) then c.orderB
  else c.order

/-- Scalars at the start of a segment (R191). -/
def startScalars (s : State) (c : Cmd) : Vector Word 16 :=
  let args := decide (0x80000000 ≤ c.planId) && le c.body 48 1 == 1
  Vector.ofFn fun i => match i.val with
    | 0 => if args then BitVec.ofNat 32 (le c.entry 48 4) else 0
    | 1 => if args then BitVec.ofNat 32 (le c.entry 52 4) else 0
    | 2 => if args then BitVec.ofNat 32 (le c.entry 56 4) else 0
    | 3 => if args then BitVec.ofNat 32 (le c.entry 60 4) else 0
    | 4 => BitVec.ofNat 32 c.cand
    | 5 => BitVec.ofNat 32 c.rep
    | 6 => BitVec.ofNat 32 (inLen c.entry)
    | 7 => BitVec.ofNat 32 (segOrder s c)
    | _ => 0

/-- A vector engine at the start of a segment: registers zero, P0 ones, moduli unset, its seeds in its mask generator (R191, R196, R217,
R221). -/
def startLve (s : State) (c : Cmd) (seg : Nat) (g : Seg) (seeds : List Bytes) : Lve :=
  { cid := c.id, seg := seg, v := Vector.replicate 32 { p0 := 0, p1 := 0, p2 := 0 },
    p := Vector.ofFn fun i => if i.val = 0 then BitVec.allOnes 64 else 0, s := startScalars s c,
    q := Vector.replicate 4 none, d := if g.masked then segOrder s c else 0, masked := g.masked, limit := g.steps, steps := 0,
    pc := 0, halted := false, seeds := seeds, maskPos := 0 }

/-- Seeds an engine's mask generator has been handed. -/
def handed (s : State) (kind i : Nat) : List Bytes := Map.getD s.eng.maskGen (kind * 256 + i) []

/-- A segment's seeds leave the generator's stock: it runs on them, or has ended. -/
def usedSeeds (s : State) (kind i n : Nat) : State :=
  { s with eng := { s.eng with maskGen := match (handed s kind i).drop n with
      | [] => Map.del s.eng.maskGen (kind * 256 + i)
      | l => Map.put s.eng.maskGen (kind * 256 + i) l } }

/-- A segment starts on a vector engine. -/
def beginVector (s : State) (c : Cmd) (i seg : Nat) (g : Seg) : State :=
  let l := startLve s c seg g ((handed s 1 i).take (seedsFor g))
  let t := usedSeeds s 1 i (seedsFor g)
  { t with eng := { t.eng with lves := Map.put t.eng.lves i l } }

/-- An LVE frame at a command's first dispatch: its input, and the two Boolean shares of its key (R235). -/
def placeFrame (s : State) (c : Cmd) : List Host.Cell :=
  let f := memWrite 0 [] (le c.body 72 4) (c.input.getD [])
  match keyAt s c.keyA with
  | some k => memWrite 0 f (le c.body 80 4) (k.shareA ++ k.shareB)
  | none => f

/-- The shares a segment loads a key into (R195): at order 1 the register's two shares, refreshed with a fresh mask; at order 2 the same
two shares refreshed into three. `m` gives the masks. -/
def loadShares (k : Key) (order : Nat) (m : Bytes) : List Bytes :=
  let n := k.shareA.length
  let m0 := padTo n (m.take n)
  let m1 := padTo n (slice m n n)
  match order with
  | 0 => []
  | 1 => [underStream k.shareA m0, underStream k.shareB m0]
  | _ => [underStream k.shareA m0, underStream k.shareB m1, underStream m0 m1]

/-- The masked segments of a standard plan load the command's private key (R195), under masks of the first of them's generator (R196; which
bytes of its expansion: log 96); an owner plan's segments load it themselves, from the frame (R235). -/
def loadKey (s : State) (c : Cmd) (gs : List (Nat × Seg)) (es : List (Nat × Nat)) : State :=
  match (gs.zip es).find? fun p => p.1.2.masked && hasFrames p.1.2.kind, keyAt s (if segOrder s c = c.order then c.keyA else c.keyB) with
  | some p, some k =>
    if k.priv && decide (c.planId < 0x80000000) then
      (let seed := (Map.getD s.eng.maskGen (p.2.1 * 256 + p.2.2) []).headD []
       modCmd s c.id fun x => { x with
         shares := loadShares k (segOrder s c) ((List.range (2 * k.shareA.length)).map (Config.xof 0x22 seed)) })
    else s
  | _, _ => s

/-- What the first dispatch of a run does: the cache look-up (R200), the working copy's use, fresh shares of the keys it reads (R268),
and the LVE frame of a plan that has one. -/
def firstDispatch (s : State) (c : Cmd) : State :=
  if c.dispatched then s
  else
    let s1 := cacheLookup s c
    let s2 : State := { s1 with stamp := s1.stamp + 1, eng := { s1.eng with
      copies := Map.modify s1.eng.copies c.planId fun x => (x.1, s1.stamp + 1) } }
    let s3 := reshareKey (reshareKey s2 c.keyA) c.keyB
    if frameNeed s3 c 1 = 0 then s3 else modCmd s3 c.id fun x => { x with frame := placeFrame s3 c }

/-- Frames and slots a group adds to a command's. -/
def addHolds (s : State) (c : Cmd) : List (Nat × Nat) → List (Nat × Nat × Nat) → List (Nat × Nat × Nat)
  | [], h => h
  | e :: r, h => addHolds s c r (if (h.any fun x => x.1 == e.1) then h else h ++ [(e.1, e.2, frameNeed s c e.1)])

/-- The vector engine of a group starts its first segment there. -/
def startVector (s : State) (c : Cmd) (gs : List (Nat × Seg)) (es : List (Nat × Nat)) : State :=
  match gs.find? fun g => g.2.kind == 1, es.find? fun e => e.1 == 1 with
  | some g, some e => beginVector s c e.2 g.1 g.2
  | _, _ => s

/-- Grant a ready request: its randomness is drawn, its seeds are handed over and its group starts (R184, R187, R197). -/
def grant (s : State) (c : Cmd) : Option State :=
  let gs := nextGroup c
  (groupEngines s c).bind fun es => (takeRandom s c es).map fun r =>
    let s2 := loadKey (firstDispatch r.2 c) c gs es
    let hold := addHolds s c es c.hold
    let s3 := modCmd s2 c.id fun x => { x with
      phase := .run, hold := hold, running := es, runSegs := gs.map (·.1), pos := c.pos + gs.length, rnd := r.1, dispatched := true }
    unitStep (startVector (es.foldl (fun t e => noteStep t e.1 e.2) s3) c gs es) c.seqr

/-! ### The arbiter (R324 to R326) -/

/-- Round-robin key of a command: its function, those of other devices after this device's. -/
def fnKey (c : Cmd) : Nat := if c.origin.isNone then c.fn else 1024 * (1 + c.originPos) + c.fn

/-- The function to grant in a class: the first after the last granted, in ascending order. -/
def nextFn (ks : List Nat) (last : Option Nat) : Option Nat := nextAfter ks last

/-- The request a class would be granted: of its next function, the oldest. -/
def classPick (s : State) (cls : Nat) : Option Cmd :=
  let ready := s.cmds.filter fun c => c.cls.toNat == cls && isReady s c
  (nextFn (ready.map fnKey) (Map.get? s.eng.lastFn cls)).bind fun k => ready.find? fun c => fnKey c == k

/-- Entry of a slot of the timetable in force (R325). -/
def slotEntry (s : State) (slot : Nat) : Nat :=
  match s.eng.table with
  | some t => (t.getD slot 0).toNat
  | none => slot % 64

/-- Grant the class's request. -/
def grantClass (s : State) (cls : Nat) : Option State :=
  (classPick s cls).bind fun c => (grant s c).map fun s1 =>
    { s1 with eng := { s1.eng with lastFn := Map.put s1.eng.lastFn cls (fnKey c) } }

/-- A command whose remaining segments need a kind with no engine in service completes with cause 0x05 (R25, R213). -/
def failDead (s : State) (c : Cmd) : State :=
  match deadKind s (c.segs.drop c.pos) with
  | some k => fail s c.id .engineFault (faultDetail 5 k (lastRetired s k))
  | none => s

/-- Requests that only lack randomness begin the wait of R361, and end once it has lasted more than 2 ms. -/
def markSeedWait (s : State) (c : Cmd) : State :=
  if readyButSeeds s c && !seedsReady s c then (if drawLate s c then fail s c.id .rngFault 0 else waitDraw s c.id) else s

/-- The walk stands at the next slot. -/
def nextSlotOf (s : State) : State :=
  { s with eng := { s.eng with slot := (s.eng.slot + 1) % Config.timetableSlots, fresh := false } }

/-- The grant of one visit. -/
def visitGrant (s : State) : State :=
  let e := slotEntry s s.eng.slot
  match grantClass s (e % 64) with
  | some t => t
  | none => (grantClass s (e / 256 % 64)).getD s

/-- ARBITER_VISIT (R324): one visit; in Held no request is ready (R323). -/
def execArbiterVisit (s : State) : Out :=
  .next (if !(s.eng.walking && serving s) then s
    else
      let s0 := if s.eng.slot = 0 then replaceTable s else s
      if !running s0 then nextSlotOf s0
      else
        let s1 := refillAll ((s0.cmds.filter asks).foldl failDead s0)
        let s2 := s1.cmds.foldl markSeedWait s1
        nextSlotOf (visitGrant s2))

/-! ### The end of a segment (R184, R189, R190) -/

/-- Position of the lowest set bit of a flag byte. -/
def lowestBit (f : Nat) : Nat := ((List.range 8).find? fun i => bit f i).getD 0

/-- A repeat of a decision, or the end of the command at its limit (R190). -/
def repeatDec (c : Cmd) (seg : Nat) (d : Dec) (first : Bool) : Except Nat Cmd :=
  let n := Map.getD c.reps seg 0 + 1
  if d.limit < n then .error 6
  else .ok { c with reps := Map.put c.reps seg n, jump := some d.target, rep := if first then n else c.rep }

/-- What a decision segment decides (Table 64); the candidate of a FIRST_SET is noted by its place among all those tried (R192). A
standard plan's RESULT is the verdict its command computes (log 30). -/
def decide' (c : Cmd) (seg : Nat) (d : Dec) (flags : Nat) : Except Nat Cmd :=
  let f := Nat.land flags d.mask
  match d.rule with
  | 1 =>
    if f = 0 then repeatDec c seg d true
    else
      let j := Map.getD c.reps seg 0
      .ok { c with cand := lowestBit f, rep := j, picks := c.picks ++ [4 * j + lowestBit f] }
  | 2 => if f = d.mask then .ok c else repeatDec c seg d false
  | _ =>
    if f = d.mask || c.planId < 0x80000000 then .ok c
    else .ok { c with verdict := some (if d.fail = 1 then .sigInvalid else .badParam) }

/-- One segment of a command has ended on an engine; a next one of its kind in the group starts there. -/
def dropRun (c : Cmd) (j : Nat) : Cmd := { c with running := c.running.eraseIdx j, runSegs := c.runSegs.eraseIdx j }

/-- The vector engine ends a segment and starts the group's next one on it. -/
def endVector (s : State) (c : Cmd) (i : Nat) : State :=
  match c.running.findIdx? (· == (1, i)) with
  | some k =>
    let seg := c.runSegs.getD k 0
    (match c.segs[seg]? with
      | some g => beginVector s c i seg g
      | none => s)
  | none => { s with eng := { s.eng with lves := Map.del s.eng.lves i } }

/-- The end of a group: a verdict completes the command, which inserts what it built (R200), a repeat goes back (R184, R189). -/
def endGroup (s : State) (c : Cmd) : State :=
  if c.running ≠ [] then s
  else match c.verdict, c.jump with
    | some .sigInvalid, _ => fail (cacheBuild s c) c.id .sigInvalid 0
    | some st, _ => fail (cacheBuild s c) c.id st 0xFFFF
    | none, some t => modCmd s c.id fun x => { x with pos := t, jump := none }
    | none, none => s

/-- The segment's flag byte: S15 of a vector engine, else what the engine delivers (R189). -/
def flagByte (s : State) (kind i : Nat) (flags : Byte) : Nat :=
  if kind = 1 then ((Map.get? s.eng.lves i).map fun l => (getS l 15).toNat % 256).getD 0 else flags.toNat

/-- A vector engine has run its stream to the end. -/
def vectorDone (s : State) (cid i seg len : Nat) : Bool :=
  (Map.get? s.eng.lves i).any fun l => l.cid == cid && l.seg == seg && !l.halted && decide (len ≤ 8 * l.pc)

/-- What an engine has written to a command's LVE frame: at once where no vector engine runs for the command, else to be seen four steps
on (R235). -/
def crossWrites (s : State) (c : Cmd) (ws : List (Nat × Bytes)) : State :=
  let inside := ws.filter fun w => decide (w.1 + w.2.length ≤ lveFrame c)
  let l := (c.running.find? fun e => e.1 == 1).bind fun e => Map.get? s.eng.lves e.2
  modCmd s c.id fun x => match l with
    | some l => { x with xbar := x.xbar ++ inside.map fun w => (l.steps + 4, w.1, w.2) }
    | none => { x with frame := inside.foldl (fun m w => memWrite 0 m w.1 w.2) x.frame }

/-- The vector engine's segment has ended after `steps` steps: the group's next one counts its steps from 0, so what has not landed yet
lands that much earlier in it; with the group's last vector segment all is in the frame (R235). -/
def rebase (steps : Nat) (next : Bool) (c : Cmd) : Cmd :=
  if next then
    let c1 := landed c steps
    { c1 with xbar := c1.xbar.map fun w => (w.1 - steps, w.2) }
  else { c with frame := c.xbar.foldl (fun m w => memWrite 0 m w.2.1 w.2.2) c.frame, xbar := [] }

/-- Steps a vector engine has made in its segment. -/
def stepsMade (s : State) (i : Nat) : Nat := ((Map.get? s.eng.lves i).map (·.steps)).getD 0

/-- What the end of a segment leaves on its engine. -/
def leaveEngine (s : State) (c : Cmd) (kind i : Nat) (g : Seg) : State :=
  if kind = 1 then endVector (modCmd s c.id (rebase (stepsMade s i) (c.running.contains (1, i)))) c i else usedSeeds s kind i (seedsFor g)

/-- The end of the segment at place `j` of a command's running group. -/
def endSegment (s : State) (c : Cmd) (j kind i : Nat) (flags : Byte) : State :=
  let seg := c.runSegs.getD j 0
  match c.segs[seg]? with
  | none => s
  | some g =>
    if kind = 1 && !vectorDone s c.id i seg g.len then s
    else
      let c1 := dropRun c j
      match (match g.dec with
        | some d => decide' c1 seg d (flagByte s kind i flags)
        | none => .ok c1) with
      | .error cause => fail (cacheBuild s c) c.id .engineFault (faultDetail cause 0 0)
      | .ok c2 => endGroup (noteStep (leaveEngine (modCmd s c.id fun _ => c2) c2 kind i g) kind i) c2

/-- An operation at order 0 that uses a private key and whose results the BIE checks (R198). -/
def checksOutput (c : Cmd) (kind : Nat) : Bool :=
  kind == 5 && [0x0103, 0x0105, 0x0110, 0x0201, 0x0401, 0x0403, 0x0404, 0x0702, 0x0710].contains (opcode c.entry)

/-- Engines of a group of a standard plan other than the vector engine write the command's LVE frame (R235). -/
def crosses (c : Cmd) (kind : Nat) : Bool := kind != 1 && decide (c.planId < 0x80000000)

/-- SEGMENT_END (R184, R189): the first running segment of the kind ends, or has written to the command's LVE frame and goes on (R235); or
its output check fails, which faults the engine with cause 0x07 (R198, R212); a command whose working area had a failed write reads it, and
ends (R440). A segment whose engine has been faulted never ends (R21). -/
def execSegmentEnd (cid kind : Nat) (how : SegEnd) (s : State) : Out :=
  .next (if !running s then s
    else match getCmd s cid, gmRead s (.working cid) with
      | none, _ => s
      | some _, some t => gmFresh t (.working cid)
      | some c, none =>
        match c.running.findIdx? (fun r => r.1 == kind && inService s kind r.2 && unitRuns s (engUnit kind r.2)), how with
        | none, _ => s
        | some j, .checkFailed => if checksOutput c kind then faultEngine s kind (c.running.getD j (0, 0)).2 7 else s
        | some _, .wrote ws => if crosses c kind then crossWrites s c ws else s
        | some j, .done flags ws =>
          let s1 := if crosses c kind then crossWrites s c ws else s
          let i := (c.running.getD j (0, 0)).2
          unitStep (endSegment s1 ((getCmd s1 cid).getD c) j kind i flags) (engUnit kind i))

/-- A sequencer has passed a boundary after every change that has reached it, with one of its steps. -/
def passBoundary (s : State) (sequencer : Nat) : State :=
  { s with eng := { s.eng with
      changes := s.eng.changes.map fun e => (e.1, e.2.1, e.2.2 ||| BitVec.ofNat 16 (2 ^ sequencer)) } }

/-- DISPATCH_BOUNDARY (R188): a halted sequencer passes none (R399); with the last of the sixteen a change is due, and a port's reset
takes place (R321). -/
def execDispatchBoundary (sequencer : Fin 16) (s : State) : Out :=
  .next (if running s && unitRuns s sequencer.val then
      (let s1 := passBoundary (unitStep s sequencer.val) sequencer.val
       let due := (portsWaiting s1).filter (changeDue s1 3)
       if due = [] then s1 else retryBerth (flushSignals (due.foldl takePort s1)))
    else s)

/-! ### Faults -/

/-- An engine's stall timer has run for 4 µs since its last step (R17); of an engine without a vector stream the model sees the
first step of its segment only (log 75). -/
def stalled4us (s : State) (kind index : Nat) : Bool :=
  decide (400 ≤ tickNat s - ((Map.get? s.eng.lastStep (kind * 256 + index)).getD 0).toNat)

/-- ENGINE_STALL (R17, R212): an engine with work that has completed no step for 4 µs is faulted. -/
def execEngineStall (kind index : Nat) (s : State) : Out :=
  .next (if running s && inService s kind index && engineBusy s kind index && stalled4us s kind index then
      faultEngine s kind index 3
    else s)

/-- DUAL_RAIL_FAULT (R21): one state-code event is counted while the checkers run (R369), and the engine is faulted. Where that event
fires a response that clears the working keys, no command reruns, and the segment that runs there never ends; where it fires a HOLD, the
engine is retired at once, and the entry to Held deals with its commands (R215). Kinds above 6 stand for the blocks of R22 that are no
engines: they hold no command's frame, so the fault leaves the event and its record (log 70). -/
def execDualRailFault (kind index : Nat) (s : State) : Out :=
  .next (if s.sys.mode = .dormant then s
    else
      let s1 := monEvent s 12 ([5] ++ leBytes 1 index)
      let level := if s1.alarm.set.length = s.alarm.set.length then 0 else strongest (latestSet s1)
      if 6 < kind then recordFault s1 2 kind index 0 0 0
      else if !inService s kind index then s1
      else if 3 ≤ level then retireEngine s1 kind index 2
      else if level = 2 && running s then
        (let s2 := retireEngine s1 kind index 2
         { s2 with eng := { s2.eng with faulted := s2.eng.faulted ++ [(kind, index, 2)] } })
      else faultEngine s1 kind index 2)

/-- TRAP_MICROWORD (R56): one microcode integrity event; in Boot the checkers run once the boot ROM has ended (R369). -/
def execTrapMicroword (_sequencer : Fin 16) (s : State) : Out := .next (monEvent s 13 [1])

end Sys2Proof.Machine
end

