-- ==== Sys2Proof/Machine/Secrets.lean ====
section
/-!
DEFINITION. Operation commands of Table 53 up to KDF: key establishment (R147 to R151), signatures (R152 to R155), ciphers,
hashes, MACs and key derivation (R156 to R161).
-/

namespace Sys2Proof.Machine

/-! ### KEM and key agreement -/

/-- KEM_ENCAPS (R147). -/
def execKemEncaps (cid : Nat) (s : State) : Out := .next (runOp s cid 0x0101 fun c d =>
  let p := le c.entry 40 2
  let stored := le c.entry 42 1 == 1
  let pk := if stored then keyBytes s c.keyA else d
  if !stored && !Config.publicOk p pk then bad s c .badParam 0xFFFF
  else withRnd s c fun rnd s1 =>
    let r := Config.kemEncaps p pk rnd
    placeDerived s1 c (padTo (secretLen p) r.2) (sigLen p) r.1)

/-- KEM_DECAPS (R148): implicit rejection, whatever the ciphertext. -/
def execKemDecaps (cid : Nat) (s : State) : Out := .next (runOp s cid 0x0102 fun c d =>
  let p := le c.entry 40 2
  placeDerived s c (padTo (secretLen p) (Config.kemDecaps p (keyBytes s c.keyA) d)) 0 [])

/-- An all-zero result of X25519 or X448 (R149, R151). -/
def zeroResult (p : Nat) (ss : Bytes) : Bool := famOf p == .xdh && allZero ss

/-- DH_AGREE (R149): a point of a P-curve is checked, and of X25519 and X448 the result alone. -/
def execDhAgree (cid : Nat) (s : State) : Out := .next (runOp s cid 0x0103 fun c d =>
  let p := le c.entry 40 2
  let ss := padTo (secretLen p) (Config.agree p (keyBytes s c.keyA) d)
  withRnd s c fun _ s1 => if (famOf p == .ecdh && !Config.publicOk p d) || zeroResult p ss then bad s1 c .badParam 0xFFFF else placeDerived s1 c ss 0 [])

/-- RSA_OAEP_ENCAP (R150). -/
def execRsaOaepEncap (cid : Nat) (s : State) : Out := .next (runOp s cid 0x0104 fun c d =>
  let h := le c.entry 43 1
  if !Config.publicOk 0x1503 d then bad s c .badParam 0xFFFF
  else withRnd s c fun rnd s1 =>
    good s1 c 0 (oaepK c.entry) (Config.oaepEncrypt h d (keyBytes s c.keyA) rnd))

/-- RSA_OAEP_DECAP (R150): the decoded message becomes the new key. -/
def execRsaOaepDecap (cid : Nat) (s : State) : Out := .next (runOp s cid 0x0105 fun c d =>
  withRnd s c fun _ s1 => match Config.oaepDecrypt (le c.entry 43 1) (keyBytes s c.keyA) d with
    | none => bad s1 c .badParam 0xFFFF
    | some m =>
      if symLenOk (le c.entry 60 2) m.length then place s1 c (nkdKey s1 c (le c.entry 60 2) 6 true m) 0 []
      else bad s1 c .badParam 60)

/-- The derived key of R151. -/
def hybridKey (ssK ssX ek xI ct xR info : Bytes) (kdf len : Nat) : Bytes :=
  let salt := digest 0x12 32 (ek ++ xI ++ ct ++ xR)
  let ikm := ssK ++ ssX
  padTo len (match kdf with
    | 1 => hkdf 0x02 len salt ikm info
    | 2 => hkdf 0x03 len salt ikm info
    | _ => Config.kmac256 len salt ikm info)

/-- INITIATE: an ephemeral ML-KEM and X25519 pair (Table 59). -/
def hybridInitiate (s : State) (c : Cmd) (p : Nat) : Option State :=
  withRnd s c fun rnd s1 =>
    let sk := genPrivate p 0 (rnd.take 64)
    let x := genPrivate 0x0504 0 (slice rnd 64 32)
    place s1 c (nkdKey s1 c (0x7E00 + p) 9 true (sk ++ x)) (pubLen p + 32) (publicPart p sk ++ publicPart 0x0504 x)

/-- RESPOND (Table 59). -/
def hybridRespond (s : State) (c : Cmd) (p : Nat) (d : Bytes) : Option State :=
  let e := c.entry
  let ek := d.take (pubLen p)
  let xI := slice d (pubLen p) 32
  if !Config.publicOk p ek then bad s c .badParam 0xFFFF
  else withRnd s c fun rnd s1 =>
    let r := Config.kemEncaps p ek (rnd.take 32)
    let x := genPrivate 0x0504 0 (slice rnd 32 32)
    let ssX := padTo 32 (Config.agree 0x0504 x xI)
    let ct := padTo (sigLen p) r.1
    let xR := publicPart 0x0504 x
    if allZero ssX then bad s1 c .badParam 0xFFFF
    else placeDerived s1 c (hybridKey (padTo 32 r.2) ssX ek xI ct xR (d.drop (pubLen p + 32)) (le e 43 1) (le e 46 2))
      (sigLen p + 32) (ct ++ xR)

/-- The ephemeral key of a FINISH is destroyed, whatever the result (R151). -/
def consumeKey (s : State) (g : Option Nat) : State :=
  match g with
  | some g => zeroiseKey s g
  | none => s

/-- The ephemeral key a FINISH names still stands: it is marked as of a FINISH that passed step 9 no later than this one (R151). -/
def ephemeralHere (s : State) (c : Cmd) : Bool :=
  (keyAt s c.keyA).any fun k => famOf k.typ == .ephemeral && k.destroyPending && decide (k.markId ≤ c.id)

/-- FINISH (Table 59). Of several that passed step 9 the first that runs consumes the key, and the others find it gone; the derived key
may take the granules the ephemeral key leaves, and waits for a spill before that key goes. -/
def hybridFinish (s : State) (c : Cmd) (p : Nat) (d : Bytes) : Option State :=
  let e := c.entry
  let k := keyBytes s c.keyA
  let s0 := consumeKey (cacheBuild s c) c.keyA
  let sk := k.take (privLen p)
  let skX := slice k (privLen p) 32
  let ct := d.take (sigLen p)
  let xR := slice d (sigLen p) 32
  let ssX := padTo 32 (Config.agree 0x0504 skX xR)
  if !ephemeralHere s c then bad s c .keyEmpty 0
  else if roomFor s0 (le e 46 2) = .wait then some s
  else withRnd s0 c fun _ s1 =>
    if allZero ssX then bad s1 c .badParam 0xFFFF
    else placeDerived s1 c (hybridKey (padTo 32 (Config.kemDecaps p sk ct)) ssX (publicPart p sk) (publicPart 0x0504 skX) ct xR
      (d.drop (sigLen p + 32)) (le e 43 1) (le e 46 2)) 0 []

/-- HYBRID_KEX (R151). -/
def execHybridKex (cid : Nat) (s : State) : Out := .next (runOp s cid 0x0110 fun c d =>
  let p := le c.entry 40 2
  match le c.entry 42 1 with
  | 1 => hybridInitiate s c p
  | 2 => hybridRespond s c p d
  | _ => hybridFinish s c p d)

/-! ### Signatures -/

/-- SIGN (R153, R154, R192): the drawn randomness starts with the signature's own. -/
def execSign (cid : Nat) (s : State) : Out := .next (runOp s cid 0x0201 fun c d =>
  let e := c.entry
  let p := le e 40 2
  let det := bit (le e 45 1) 0
  let n := le e 44 1
  withRnd s c fun rnd s1 =>
    good s1 c 0 (sigOf p (keyAt s c.keyA))
      (signWith (p, le e 42 1, le e 43 1) det (keyBytes s c.keyA) (d.take n) (d.drop n) (rnd.take (signDraw p (le e 43 1) det))
        (c.picks.getD 0 0)))

/-- The verdict on a public key, a context, a message and a signature (R141). -/
def verdict (s : State) (c : Cmd) (pk sig rest : Bytes) : Option State :=
  let e := c.entry
  let n := le e 44 1
  if Config.verify (le e 40 2, le e 42 1, le e 43 1) pk (rest.take n) (rest.drop n) sig then good s c 0 0 []
  else bad s c .sigInvalid 0

/-- VERIFY with the key in the input: `pl` bytes of key and `sl` of signature (R155). -/
def verifyInput (s : State) (c : Cmd) (d : Bytes) (pl sl : Nat) : Option State :=
  if !Config.publicOk (le c.entry 40 2) (d.take pl) then bad s c .badParam 0xFFFF
  else verdict s c (d.take pl) (slice d pl sl) (d.drop (pl + sl))

/-- VERIFY (R155). -/
def execVerify (cid : Nat) (s : State) : Out := .next (runOp s cid 0x0202 fun c d =>
  let e := c.entry
  let p := le e 40 2
  let rest := le e 44 1 + le e 48 4
  if !bit (le e 45 1) 1 then
    let n := sigOf p (keyAt s c.keyA)
    verdict s c (keyBytes s c.keyA) (d.take n) (d.drop n)
  else if isRsa p then
    let k := (inLen e - rest - 8) / 2
    verifyInput s c d (k + 8) k
  else if famOf p = .hbs then
    match hbsVerifyLen p d with
    | none => bad s c .badParam 0xFFFF
    | some (pl, sl) => if inLen e = pl + sl + rest then verifyInput s c d pl sl
      else bad s c .badLength (lenDetail (inLen e) (pl + sl + rest))
  else verifyInput s c d (pubLen p) (sigLen p))

/-! ### Ciphers, hashes, MACs, KDFs -/

/-- AEAD_ENCRYPT (R156): nonce, ciphertext, tag. -/
def execAeadEncrypt (cid : Nat) (s : State) : Out := .next (runOp s cid 0x0301 fun c d =>
  let e := c.entry
  let a := le e 44 4
  withRnd s c fun nonce s1 =>
    let r := aeadSeal (le e 40 2) (le e 43 1) (keyBytes s c.keyA) nonce (d.take a) (d.drop a)
    good s1 c 0 (outLenOf s c c.keyA c.keyB) (nonce ++ padTo (d.length - a) r.1 ++ padTo (le e 43 1) r.2))

/-- Writes of a free number of early plaintext pieces, and their zeroing after a failed tag (R157, R69; log 21); a forwarded command
sends them to its origin, which zeroes them when DONE comes (R418). -/
def earlyPieces (s : State) (c : Cmd) (pt : Bytes) : State :=
  let n := (pt.length - 1) / 4096
  if n = 0 || (c.origin.isNone && !canReq s c.fn) then s
  else
    let f := takeFree s
    let k := Config.freeNat f.1 % (n + 1)
    match c.origin with
    | some (l, num) => (pieces packetData pt.length 0 (pt.take (4096 * k))).foldl (fun t p => linkSend t l (.outData num p.1 p.2)) f.2
    | none =>
      emitWrite (emitWrite f.2 c.fn (outIova c.entry) (pt.take (4096 * k))) c.fn (outIova c.entry) (zeros (4096 * k))

/-- AEAD_DECRYPT (R157). -/
def execAeadDecrypt (cid : Nat) (s : State) : Out := .next (runOp s cid 0x0302 fun c d =>
  let e := c.entry
  let a := le e 44 4
  let t := le e 43 1
  let n := outLenOf s c c.keyA c.keyB
  let r := aeadOpen (le e 40 2) (keyBytes s c.keyA) (d.take 12) (slice d 12 a) (slice d (12 + a) n) (slice d (12 + a + n) t)
  if r.2 then good s c 0 n r.1 else bad (earlyPieces s c (padTo n r.1)) c .sigInvalid 0)

/-- AES-XTS of every data unit (R158). -/
def xtsUnits (enc : Bool) (key : Bytes) (tweak du : Nat) (d : Bytes) : Bytes :=
  (pieces du d.length 0 d).flatMap fun p => padTo p.2.length (Config.xts enc key ((tweak + p.1 / du) % 2 ^ 128) p.2)

/-- CIPHER_ENCRYPT (R158). -/
def execCipherEncrypt (cid : Nat) (s : State) : Out := .next (runOp s cid 0x0303 fun c d =>
  let e := c.entry
  let k := keyBytes s c.keyA
  if le e 40 2 = 0x3002 then
    withRnd s c fun rnd s1 =>
      let block := rnd ++ zeros 4
      good s1 c 0 (d.length + 16) (block ++ ctr k block d)
  else good s c 0 d.length (xtsUnits true k (le e 48 16) (le e 44 4) d))

/-- CIPHER_DECRYPT (R158). -/
def execCipherDecrypt (cid : Nat) (s : State) : Out := .next (runOp s cid 0x0304 fun c d =>
  let e := c.entry
  let k := keyBytes s c.keyA
  if le e 40 2 = 0x3002 then good s c 0 (d.length - 16) (ctr k (d.take 16) (d.drop 16))
  else good s c 0 d.length (xtsUnits false k (le e 48 16) (le e 44 4) d))

/-- HASH (R159). -/
def execHash (cid : Nat) (s : State) : Out := .next (runOp s cid 0x0310 fun c d =>
  let n := outLenOf s c c.keyA c.keyB
  good s c 0 n (digest (le c.entry 40 2 % 256) n d))

/-- The MAC of a key over the input (R160). -/
def macOf (s : State) (c : Cmd) (msg : Bytes) : Bytes :=
  let e := c.entry
  macBytes (le e 40 2) (le e 44 4) (keyBytes s c.keyA) (msg.take (le e 48 2)) (msg.drop (le e 48 2))

/-- MAC_GENERATE (R160). -/
def execMacGenerate (cid : Nat) (s : State) : Out := .next (runOp s cid 0x0320 fun c d =>
  good s c 0 (le c.entry 44 4) (macOf s c d))

/-- MAC_VERIFY (R160, R141). -/
def execMacVerify (cid : Nat) (s : State) : Out := .next (runOp s cid 0x0321 fun c d =>
  let n := d.length - le c.entry 44 4
  if macOf s c (d.take n) = d.drop n then good s c 0 0 [] else bad s c .sigInvalid 0)

/-- KDF (R161). -/
def execKdf (cid : Nat) (s : State) : Out := .next (runOp s cid 0x0330 fun c d =>
  let e := c.entry
  let n := le e 46 2
  let len := le e 44 2
  placeDerived s c (padTo len (kdfBytes (le e 40 2) (le e 42 1) len (keyBytes s c.keyA) (d.take n) (d.drop n))) 0 [])

end Sys2Proof.Machine
end

