-- ==== Sys2Proof/WellFormed.lean ====
section
/-!
DEFINITION. Well-formed commands: each operand that names a thing of the device lies in the range of such names (functions
R103, queues R60, vectors R328, granules R263, engines R182, positions R404, slots of OTP R387). What a command does with an
operand the device itself judges stands in its meaning.
-/

namespace Sys2Proof

/-- An engine of a kind exists (Table 63). -/
def engineOk (kind index : Nat) : Bool :=
  match kind with
  | 1 => decide (index < 32)
  | 2 => decide (index < 96)
  | 3 => decide (index < 24)
  | 4 => decide (index < 4)
  | 5 => decide (index < 8)
  | 6 => decide (index < 16)
  | _ => false

/-- A block of R22 that is no engine: 7 the key register's paths, 8 the memory protection unit, 9 a towpath link's encryption
unit, 10 the path from the RNG (the model's numbers, log 70). -/
def blockOk (kind index : Nat) : Bool :=
  match kind with
  | 7 => index == 0
  | 8 => index == 0
  | 9 => decide (index < 8)
  | 10 => index == 0
  | _ => false

/-- 64-bit words of a row of Table 9; in the key register one share bank's (R24). -/
def sramWords (region : Nat) : Nat :=
  match region with
  | 0 => 1048576
  | 1 => 2097152
  | 2 => 2097152
  | 3 => 1048576
  | 4 => 262144
  | 5 => 1048576
  | 6 => 262144
  | 7 => 2097152
  | 8 => 524288
  | 9 => 1048576
  | _ => 0

/-- A word index lies in its region of Table 9 (R24). -/
def sramWordOk (region word : Nat) : Bool := decide (word < sramWords region)

/-- Row of Table 9 that holds a region of Table 10. -/
def sramRow (r : SramRegion) : Nat :=
  match r with
  | .keyRegister _ => 0
  | .berthTable _ => 1
  | .scratch kind _ => if kind = 1 then 2 else if kind = 4 then 3 else 4
  | .planMemory _ => 5
  | .controlStore => 6
  | .wharf _ => 7
  | .receiveBuffer => 8
  | .keccakState _ => 9
  | .dmaDescriptor _ => 9
  | .spillVersionKey _ => 9
  | .spillVersionBerth _ => 9

/-- A word index lies in its region, and in the granule, berth or engine scratch that the error names (R24, Table 9). -/
def sramFits (r : SramRegion) (word : Nat) : Bool :=
  sramWordOk (sramRow r) word &&
    (match r with
      | .keyRegister g => word / 8 == g
      | .berthTable i => word / 32 == i
      | .scratch kind i => engineOk kind i && (if kind = 1 then word / 65536 == i else if kind = 4 then word / 262144 == i
          else kind == 5 && word / 32768 == i)
      | .keccakState i => decide (i < 96)
      | _ => true)

/-- Data of a BAR write is at least one byte. -/
def barDataOk (d : BarData) : Bool :=
  match d with
  | .good b => decide (1 ≤ b.length)
  | _ => true

/-- A read request to BAR 0 lies in it and is no longer than 4,096 bytes, the largest request of PCIe. -/
def barReadOk (r : BarRead) : Bool :=
  decide (r.fn < 1024) && decide (1 ≤ r.len) && decide (r.len ≤ 4096) && decide (r.off + r.len ≤ 131072)

/-- A speed and a width of Table 156. -/
def portLinkOk (l : PortLink) : Bool := decide (1 ≤ l.speed) && decide (l.speed ≤ 5) && [1, 2, 4, 8].contains l.width

/-- An event of a host port's link. -/
def portEventOk (e : PortEvent) : Bool :=
  match e with
  | .trained l => portLinkOk l
  | _ => true

/-- How a segment of a kind may end: only a big-integer engine checks its output (R198), and only engines of other kinds write to a
lattice engine's frame, inside the largest one (R235, Table 67). -/
def segEndOk (kind : Nat) (how : SegEnd) : Bool :=
  match how with
  | .wrote ws => kind != 1 && ws.all fun w => decide (w.1 + w.2.length ≤ 524288)
  | .done _ ws => ws == [] || (kind != 1 && ws.all fun w => decide (w.1 + w.2.length ≤ 524288))
  | .checkFailed => kind == 5

/-- A command's operands lie in their ranges. -/
def Instr.wf (i : Instr) : Bool :=
  match i with
  | .nop _ _ => true
  | .vadd _ _ => true
  | .vsub _ _ => true
  | .vmadd _ _ => true
  | .vmsub _ _ => true
  | .vmmul _ _ => true
  | .vmmulm _ _ => true
  | .vmmult _ _ => true
  | .vbfly _ _ => true
  | .vibfly _ _ => true
  | .vsadd _ _ => true
  | .vssub _ _ => true
  | .vrshr _ _ => true
  | .vcmpr _ _ => true
  | .vdcmpr _ _ => true
  | .vp2r _ _ => true
  | .vdec _ _ => true
  | .vcacc _ _ => true
  | .vsel _ _ => true
  | .vand _ _ => true
  | .vor _ _ => true
  | .vxor _ _ => true
  | .vshl _ _ => true
  | .vshr _ _ => true
  | .vb2a _ _ => true
  | .va2b _ _ => true
  | .vref _ _ => true
  | .vunmask _ _ => true
  | .vmov _ _ => true
  | .vli _ _ => true
  | .viota _ _ => true
  | .vbcast _ _ => true
  | .vext _ _ => true
  | .vcmp _ _ => true
  | .vcmpi _ _ => true
  | .vnorm _ _ => true
  | .plog _ _ => true
  | .pfirst _ _ => true
  | .pcnt _ _ => true
  | .vld _ _ => true
  | .vst _ _ => true
  | .vgth _ _ => true
  | .vsct _ _ => true
  | .vldp _ _ => true
  | .vstp _ _ => true
  | .qset _ _ => true
  | .sli _ _ => true
  | .salu _ _ => true
  | .sld _ _ => true
  | .sst _ _ => true
  | .mainPowerGood _ => true
  | .mainPowerLost _ => true
  | .devResetNAssert _ => true
  | .devResetNRelease _ => true
  | .devSoftReset fn _ _ => decide (fn < 1024)
  | .perstN _ => true
  | .hotReset e => portEventOk e
  | .d3hotToD0 fn => decide (fn < 1024)
  | .trstN => true
  | .flr fn => decide (fn < 1024)
  | .flrTakeEffect fn => decide (fn < 1024)
  | .flrCleanupDone fn => decide (fn < 1024)
  | .busMasterEnableWrite fn _ _ => decide (fn < 1024)
  | .sriovConfigWrite _ _ _ => true
  | .rom _ => true
  | .otpLc failedSlots => failedSlots.all (fun p => decide (p.1 < 3) && decide (p.2 < 8))
  | .ucode _ _ => true
  | .bootImageLoad fn _ => decide (fn < 1024)
  | .hostImageLoaded _ => true
  | .selftest _ _ => true
  | .rngFill _ _ => true
  | .install _ => true
  | .pollPass fn => decide (fn < 1024)
  | .sqDoorbellRead fn qid line => decide (fn < 1024) && decide (qid < 4096) && decide (line.length = 64)
  | .cqDoorbellRead fn qid line => decide (fn < 1024) && decide (qid < 4096) && decide (line.length = 64)
  | .doorbellFail fn qid _ => decide (fn < 1024) && decide (qid < 4096)
  | .pushWrite fn offset data => decide (fn < 1024) && decide (offset < 1048576) && barDataOk data
  | .fetch fn qid => decide (fn < 1024) && decide (qid < 4096)
  | .entryReadDone fn qid _ => decide (fn < 1024) && decide (qid < 4096)
  | .accept fn qid _ => decide (fn < 1024) && decide (qid < 4096)
  | .inputReadDone _ _ _ => true
  | .completionWrite _ => true
  | .createSq _ => true
  | .createCq _ => true
  | .destroySq _ => true
  | .destroyCq _ => true
  | .disableSq _ => true
  | .enableSq _ => true
  | .funcEnable _ => true
  | .funcDisable _ => true
  | .funcDisableEffect _ => true
  | .funcQuench _ => true
  | .quenchDone _ => true
  | .funcDrained fn => decide (fn < 1024)
  | .funcSetLimits _ => true
  | .classGrantsChange fn => decide (fn < 1024)
  | .funcSetWorld _ => true
  | .loadTimetable _ => true
  | .timetableReplace => true
  | .setTargets _ => true
  | .setTargetState _ => true
  | .setModeration _ => true
  | .setTopology _ => true
  | .setCalendar _ => true
  | .setEnvironment _ => true
  | .berthAlloc _ => true
  | .berthFree _ => true
  | .berthFreeDone _ => true
  | .berthMove _ => true
  | .berthQuery _ => true
  | .loadPlan _ => true
  | .unloadPlan _ => true
  | .planCopyIn planId => decide (planId < 4294967296)
  | .planRewrite planId => decide (planId < 4294967296)
  | .lcTransition _ => true
  | .debugChallenge _ => true
  | .debugResponse _ => true
  | .recorderMark _ => true
  | .modeHold _ => true
  | .modeResume _ => true
  | .kemEncaps _ => true
  | .kemDecaps _ => true
  | .dhAgree _ => true
  | .rsaOaepEncap _ => true
  | .rsaOaepDecap _ => true
  | .hybridKex _ => true
  | .sign _ => true
  | .verify _ => true
  | .aeadEncrypt _ => true
  | .aeadDecrypt _ => true
  | .cipherEncrypt _ => true
  | .cipherDecrypt _ => true
  | .hash _ => true
  | .macGenerate _ => true
  | .macVerify _ => true
  | .kdf _ => true
  | .keyWrite _ => true
  | .keyWritePublic _ => true
  | .keyGenerate _ => true
  | .keyPublic _ => true
  | .keyDestroy _ => true
  | .keyDestroyZeroise granule => decide (granule < 131072)
  | .keyQuery _ => true
  | .keyShare _ => true
  | .keyBind _ => true
  | .wrapOut _ => true
  | .wrapIn _ => true
  | .kwWrap _ => true
  | .kwUnwrap _ => true
  | .random _ => true
  | .ctrRead _ _ => true
  | .ctrIncrement _ _ => true
  | .hbsKeygen _ _ => true
  | .hbsSign _ => true
  | .leafReserve _ _ => true
  | .hbsQuery _ _ => true
  | .nvmRead _ => true
  | .nvmWrite _ _ => true
  | .timeRead _ => true
  | .timestamp _ => true
  | .seal _ => true
  | .sealLink _ => true
  | .planRun _ => true
  | .arbiterVisit => true
  | .segmentEnd _ kind how => decide (1 ≤ kind) && decide (kind ≤ 6) && segEndOk kind how
  | .dispatchBoundary _ => true
  | .engineStall kind index => engineOk kind index
  | .dualRailFault kind index => engineOk kind index || blockOk kind index
  | .trapMicroword _ => true
  | .sramCorrected region word => sramWordOk region word
  | .sramUncorrectable region word => sramFits region word
  | .gmMacFail _ => true
  | .edcRetry _ _ _ => true
  | .gmRefresh => true
  | .gmRetrain => true
  | .tailSpill granule => decide (granule < 131072)
  | .tailRecall granule _ => decide (granule < 131072)
  | .berthSpill index => decide (index < 65536)
  | .berthRecall index _ => decide (index < 65536)
  | .keyReshare => true
  | .ucodeCheck changed => changed.all fun w => decide (w.1 < 65536)
  | .paceWindow _ => true
  | .wearWindow => true
  | .recordCommit _ => true
  | .glitchEvent _ _ => true
  | .slowExcursion _ _ => true
  | .stateCodeEvent _ _ => true
  | .alarmSetResponse => true
  | .clearAllErase => true
  | .vcoreBandSettle => true
  | .timebaseCheck _ => true
  | .vbakRetentionLoss => true
  | .backupPowerOn => true
  | .crystalStop => true
  | .timeLost => true
  | .noiseSample _ => true
  | .testWindowEnd => true
  | .refillComplete _ _ => true
  | .rngWaitTimeout _ => true
  | .rngDrawTimeout _ => true
  | .rngKatCtrlRun fn _ => decide (fn < 1024)
  | .moderationTimer fn qid => decide (fn < 1024) && decide (qid < 4096)
  | .wakeHoldExpire fn vec => decide (fn < 1024) && decide (vec < 2048)
  | .keeperStall fn => decide (fn < 1024)
  | .intSoftPend fn _ => decide (fn < 1024)
  | .maskClear fn _ _ => decide (fn < 1024)
  | .clearCount fn _ _ => decide (fn < 1024)
  | .msixUnmask fn _ => decide (fn < 1024)
  | .maintenanceEnter fn _ => decide (fn < 1024)
  | .maintenanceLeave fn _ => decide (fn < 1024)
  | .kqEnable fn _ => decide (fn < 1024)
  | .kqDisable fn _ => decide (fn < 1024)
  | .resetIdx fn _ => decide (fn < 1024)
  | .monWindowWrite fn _ _ => decide (fn < 1024)
  | .monThreshWrite fn _ _ => decide (fn < 1024)
  | .alarmCfgLock fn _ => decide (fn < 1024)
  | .monFuse fn _ => decide (fn < 1024)
  | .dbgCtrlClose fn _ => decide (fn < 1024)
  | .tbNowLoRead r => barReadOk r
  | .calNowLoRead r => barReadOk r
  | .registerWrite fn offset data => decide (fn < 1024) && decide (offset < 131072) && barDataOk data
  | .extest => true
  | .idcode => true
  | .samplePreload => true
  | .clamp => true
  | .highz => true
  | .bypass => true
  | .dbgAccess => true
  | .debugSpaceAccess _ => true
  | .linkTrained _ _ peerPosition peerDevices => decide (peerPosition < 8) && decide (1 ≤ peerDevices) && decide (peerDevices ≤ 8)
  | .linkKeyed _ => true
  | .hello _ _ => true
  | .kemSig _ _ _ => true
  | .rekey _ _ _ _ => true
  | .rekeyStart _ => true
  | .credit _ _ _ => true
  | .ack _ _ => true
  | .nak _ => true
  | .replayTimeout _ => true
  | .laneFailure _ _ => true
  | .retrainDone _ _ => true
  | .failedRetry _ => true
  | .peerTimeout _ => true
  | .cmd _ _ fn _ _ entry _ => decide (fn < 1024) && decide (entry.length = 64)
  | .inPull _ _ _ _ _ => true
  | .inData _ _ _ _ _ => true
  | .outData _ _ _ _ _ => true
  | .done _ _ status _ _ _ => decide (status < 65536)
  | .berthXfer _ _ _ _ => true
  | .xferAck _ _ _ => true
  | .xferCommit _ _ => true
  | .xferAbort _ _ => true
  | .endFunc _ fn kind => decide (fn < 1024) && decide (kind ≤ 2)
  | .vio18Good => true
  | .vio18Lost => true
  | .tbclkStart => true
  | .crystalEdge => true
  | .gmTrainingDone _ _ => true
  | .rngFillTimeout => true
  | .rngKatDone _ _ => true
  | .d0ToD3hot fn => decide (fn < 1024)
  | .perstNRelease l => portLinkOk l
  | .tprefLoss => true
  | .peerLost _ => true

end Sys2Proof
end

