-- ==== Sys2Proof/Machine/Memory.lean ====
section
/-!
DEFINITION. On-chip SRAM errors (R24, R25, Tables 9 and 10), graphics memory (R30, R439, R440), the spill of key tails and
berths (R280 to R282, R285), re-sharing (R268), the control store check (R368), pace (R15), wear windows (R261) and the
commit of recorder records (R378, R383 to R385).
-/

namespace Sys2Proof.Machine

/-! ### On-chip SRAM -/

/-- Bytes 4 to 7 of the record: granule index, berth index, or engine kind × 256 + index (Table 120). -/
def sramWhat (r : SramRegion) : Nat :=
  match r with
  | .keyRegister g => g
  | .berthTable i => i
  | .scratch kind i => kind * 256 + i
  | .keccakState i => 2 * 256 + i
  | .spillVersionKey g => g
  | .spillVersionBerth i => i
  | _ => 0

/-- The key whose head or tail granule this is. -/
def keyOfGranule (s : State) (g : Nat) : Option Nat :=
  (s.keys.keys.find? fun e => e.1 == g || (!e.2.spilled && e.2.tail.contains g)).map (·.1)

/-- The commands that run on a plan's working copy: dispatched from it and not finished. -/
def onCopy (s : State) (id : Nat) : List Nat := (s.cmds.filter fun c => onCopyOf c id).map (·.id)

/-- The cause byte of a rerun of Table 10 that no row of Table 71 names: a free value. -/
def freeCause (s : State) : Nat × State := (Config.freeNat s.free % 256, { s with free := s.free + 1 })

/-- A plan's copy in plan memory is lost (Table 10): where the plan is resident it is loaded again from its image, and the commands that ran
on it run again from their start; where its image is gone they complete ST_PLAN_MISSING (R30). A plan with no copy there loses nothing. -/
def loseCopy (s : State) (id : Nat) : State :=
  let f := freeCause s
  let s1 : State := { f.2 with eng := { f.2.eng with
    copies := Map.del f.2.eng.copies id, stale := f.2.eng.stale.filter (· != id) } }
  if (Map.get? s.eng.copies id).isNone then s
  else if planResident s id then (onCopy s id).foldl (fun t cid => rerunOnly t cid f.1) s1
  else (onCopy s id).foldl (fun t cid => fail t cid .planMissing 0) s1

/-- The response of Table 10. What a forwarded command had written at its origin's OUT_IOVA is overwritten with zeros as it ends (R69). -/
def sramResponse (s : State) (r : SramRegion) : State :=
  match r with
  | .keyRegister g =>
    match keyOfGranule s g with
    | some h => loseKey s h
    | none => s
  | .berthTable i =>
    let s1 := if (Map.get? s.keys.berths i).any (!·.spilled) then loseBerth s i else s
    { s1 with keys := { s1.keys with deadEntry := insertNat i s1.keys.deadEntry } }
  | .scratch kind i => if inService s kind i then faultEngine s kind i 4 else s
  | .planMemory id => loseCopy s id
  | .controlStore => monEvent s 13 [2]
  | .wharf cid => if (getCmd s cid).isSome then fail s cid .engineFault 8 else s
  | .receiveBuffer => s
  | .keccakState i => if inService s 2 i then faultEngine s 2 i 4 else s
  | .dmaDescriptor cid =>
    let f := freeCause s
    if (getCmd s cid).any unfinished then rerunOnly f.2 cid f.1 else s
  | .spillVersionKey g => if (Map.get? s.keys.keys g).any (·.spilled) then loseKey s g else s
  | .spillVersionBerth i => if (Map.get? s.keys.berths i).any (·.spilled) then loseBerth s i else s

/-- SRAM_CORRECTED (R24): the word is repaired; a record notes it. -/
def execSramCorrected (region word : Nat) (s : State) : Out :=
  .next (if s.sys.mode = .dormant || !sramWordOk region word then s else record s 0x1001 region (leBytes 4 word))

/-- SRAM_UNCORRECTABLE (R24, R25). -/
def execSramUncorrectable (region : SramRegion) (word : Nat) (s : State) : Out :=
  .next (if s.sys.mode = .dormant || !sramFits region word then s
    else sramResponse (record s 0x1002 (sramRow region) (leBytes 4 word ++ leBytes 4 (sramWhat region))) region)

/-! ### Graphics memory -/

/-- GM_MAC_FAIL (R30). -/
def execGmMacFail (region : GmRegion) (s : State) : Out := .next (gmFail s region)

/-- EDC retries counted in GM_STATUS (Table 164). -/
def countRetries (s : State) (retries retrains : Nat) : State :=
  { s with boot := { s.boot with retries := satAdd s.boot.retries retries 65535,
                                 retrains := satAdd s.boot.retrains retrains 255 } }

/-- A write failed every try: the item's next read fails its MAC check (R440). -/
def badWrite (s : State) (r : GmRegion) : State :=
  match r with
  | .cache _ e => { s with eng := { s.eng with cache := s.eng.cache.mapIdx fun i x => if i = e then { x with bad := true } else x } }
  | _ => if gmIsBad s r then s else { s with boot := { s.boot with gmBad := s.boot.gmBad ++ [gmItem r] } }

/-- EDC_RETRY (R440): `recovered` is the try that succeeds, 1 to 4 a retry, 5 the one after the retraining; any other
number stands for none. -/
def execEdcRetry (recovered : Nat) (write : Bool) (region : GmRegion) (s : State) : Out :=
  .next (if s.sys.mode = .dormant then s
    else if 1 ≤ recovered && recovered ≤ 4 then countRetries s recovered 0
    else if recovered = 5 then countRetries s 4 1
    else if write then badWrite (countRetries s 4 1) region
    else gmFail (countRetries s 4 1) region)

/-- GM_REFRESH (R439): no state of the model changes. -/
def execGmRefresh (s : State) : Out := .next s

/-- GM_RETRAIN (R439): no state of the model changes. -/
def execGmRetrain (s : State) : Out := .next s

/-! ### Spill of key tails (R280 to R282) -/

/-- Length of the key a command is about to place; RSA_OAEP_DECAP's is that of its decoded message. -/
def pendingLen (s : State) (c : Cmd) : Option Nat :=
  if opcode c.entry = 0x0105 then
    (Config.oaepDecrypt (le c.entry 43 1) (keyBytes s c.keyA) (c.input.getD [])).map (·.length)
  else newKeyLen c.entry

/-- A key a ready command would place now waits for a spill. -/
def placeWaits (s : State) (c : Cmd) : Bool :=
  mayRun c && c.input.isSome && segsDone c && (match pendingLen s c with
    | some l => roomFor s l == .wait
    | none => false)

/-- The unfinished commands that need a key on-chip, oldest first. -/
def needers (s : State) (g : Nat) : List Nat := (s.cmds.filter fun c => (namesKey c g || movesKey s c g) && unfinished c).map (·.id)

/-- An unfinished command needs a key. -/
def keyNeeded (s : State) (g : Nat) : Bool := needers s g != []

/-- A named tail that does not fit in the free granules waits to come back. -/
def tailWaits (s : State) : Bool :=
  s.keys.keys.any fun e => e.2.spilled && keyNeeded s e.1 && decide (freeGranules s < tailGranules e.2.len)

/-- The least recently used of a list of keys. -/
def lruKey (l : List (Nat × Key)) : Option Nat :=
  (l.foldl (fun a e => match a with
    | none => some e
    | some x => if e.2.used < x.2.used then some e else some x) (none : Option (Nat × Key))).map (·.1)

/-- A spill of this key's tail is due (R280). -/
def tailSpillDue (s : State) (g : Nat) : Bool :=
  serving s && lruKey (spillable s) == some g && (s.cmds.any (placeWaits s) || tailWaits s) &&
    decide (keySpillUsed s + spillSize (((Map.get? s.keys.keys g).map (·.len)).getD 0) ≤ keySpillBytes s)

/-- TAIL_SPILL (R280, R281). -/
def execTailSpill (granule : Nat) (s : State) : Out :=
  .next (match tailSpillDue s granule, Map.get? s.keys.keys granule with
    | true, some k => remask (spillTail s granule k) granule
    | _, _ => s)

/-- The tail in a whole spill record read back, if its tag passes under the key's current version; the associated data are those it was
sealed under (R281; log 71). -/
def tailPlain (s : State) (g : Nat) (k : Key) (record : Bytes) : Option Bytes :=
  let n := k.len - 32
  let o := aeadOpen 0x3001 s.bkeys.storage (spillIv g k.version) (Map.getD s.keys.tails g ([], [])).2 (padTo n record) (slice record n 16)
  if record.length == spillSize k.len && o.2 then some o.1 else none

/-- A tail that passed its check takes the lowest free granules; they and the head, whose TAIL_SPILLED flag changes, are written under fresh
masks, or while the RNG delivers no output under the masks in place, which of a free granule are free values (R267, R268). -/
def tailBack (s : State) (g : Nat) (k : Key) (pt : Bytes) : State :=
  let n := tailGranules k.len
  let gs := lowestFree s n
  let bytes := k.bytes ++ pt
  let whole : Key := { k with spilled := false, tail := gs, shareA := bytes, shareB := zeros bytes.length }
  let put := fun (t : State) (x : Key) =>
    { t with keys := { t.keys with keys := Map.put t.keys.keys g x, tails := Map.del t.keys.tails g } }
  if gs.length < n then s
  else match drawMasks (1 + n) s with
    | some (m, s1) => put s1 (whole.granuled m)
    | none => put { s with free := s.free + 64 * n } (whole.masked (k.shareB ++ freeBytes (64 * n) s.free))

/-- TAIL_RECALL (R280 to R282): `record` is what wrapped key spill delivers for the key. -/
def execTailRecall (granule : Nat) (record : Bytes) (s : State) : Out :=
  .next (if !serving s then s
    else match Map.get? s.keys.keys granule, needers s granule with
      | some k, cid :: _ =>
        if !k.spilled then s
        else match gmRead s (.keySpill granule cid), tailPlain s granule k record with
          | some t, _ => t
          | none, some pt => tailBack s granule k pt
          | none, none => loseTail (alarmEvent s 15 [4]) granule cid
      | _, _ => s)

/-! ### Spill of berths (R285) -/

/-- The least recently used resident berth that no accepted command names. -/
def lruBerth (s : State) : Option Nat :=
  ((s.keys.berths.filter fun e => !e.2.spilled && !(s.cmds.any fun c => namesBerth s c e.1)).foldl (fun a e => match a with
    | none => some e
    | some x => if e.2.used < x.2.used then some e else some x) (none : Option (Nat × Berth))).map (·.1)

/-- The unfinished commands that name a berth, oldest first. -/
def berthNeeders (s : State) (i : Nat) : List Nat := (s.cmds.filter fun c => c.berth == some i && unfinished c).map (·.id)

/-- A spilled berth is named and no entry is free. -/
def berthWaits (s : State) : Bool := !entryFree s && s.keys.berths.any fun e => e.2.spilled && berthNeeders s e.1 != []

/-- BERTH_SPILL (R285). -/
def execBerthSpill (index : Nat) (s : State) : Out :=
  .next (match serving s && lruBerth s == some index && berthWaits s, Map.get? s.keys.berths index with
    | true, some b => spillBerth s index b
    | _, _ => s)

/-- A berth whose record passed its check is resident again; its fields were held beside the record (log 66). -/
def berthBack (s : State) (i : Nat) : State :=
  let s1 := modBerth s i fun b => { b with spilled := false }
  { s1 with keys := { s1.keys with views := Map.del s1.keys.views i } }

/-- BERTH_RECALL (R285): `record` is what berth spill delivers for the berth. -/
def execBerthRecall (index : Nat) (record : Bytes) (s : State) : Out :=
  .next (if !serving s then s
    else match Map.get? s.keys.berths index, berthNeeders s index with
      | some b, cid :: _ =>
        if !b.spilled || !entryFree s then s
        else if gmIsBad s (.berthSpill index cid) then gmFail s (.berthSpill index cid)
        else if viewOk s index b record then berthBack s index
        else loseSpilled (alarmEvent s 15 [4]) index cid
      | _, _ => s)

/-! ### Background work -/

/-- The key a granule belongs to takes the mask for it. -/
def reshareAt (s : State) (g : Nat) (m : Bytes) : State :=
  match keyOfGranule s g with
  | some h => modKey s h fun k => reshareGranule k (g == h) (k.tail.findIdx (· == g)) m
  | none => s

/-- KEY_RESHARE (R268): the next granule of the fixed order is re-shared with a fresh mask, whether a key is held there or not; the pass
pauses while the RNG delivers no output. -/
def execKeyReshare (s : State) : Out :=
  .next (if serving s then
      (match drawMasks 1 s with
        | some r => reshareAt { r.2 with keys := { r.2.keys with reshare := (s.keys.reshare + 1) % 131072 } } s.keys.reshare r.1
        | none => s)
    else s)

/-- UCODE_CHECK (R368): once every 2^26 ticks from the end of INSTALL on, in every mode, the digest of the control store is compared with that
taken then, and a mismatch is one event. `changed` gives the words of the store that have changed since its last write. -/
def execUcodeCheck (changed : List (Nat × BitVec 256)) (s : State) : Out :=
  .next (if s.boot.digest = [] || tickNat s < s.boot.checkFrom.toNat + 2 ^ 26 || !monitorsRun s then s
    else
      let s1 : State := { s with boot := { s.boot with
        store := changed.foldl (fun m w => Map.put m (w.1 % 65536) w.2) s.boot.store, checkFrom := s.boot.checkFrom + 2 ^ 26 } }
      if storeDigest s1.boot.store = s.boot.digest then s1 else alarmEvent s1 13 [3])

/-- Index of the slowest quadrant, lowest on a tie. -/
def slowest (counts : Vector Nat 4) : Nat :=
  (List.range 4).foldl (fun a i => if counts.toArray.getD i 0 < counts.toArray.getD a 0 then i else a) 0

/-- Replica steps counted over a window of 655.36 µs as a pace in units of 1 M steps per s (R15), rounded down (DESIGN CHOICE, log 108: R15
names the unit alone). -/
def paceOf (count : Nat) : Nat := count * 100 / 65536

/-- PACE_WINDOW (R15, Table 175): the replica steps each quadrant has counted over a window of 65,536 ticks that has ended. The
next window begins at that end. -/
def execPaceWindow (counts : Vector Nat 4) (s : State) : Out :=
  .next (if s.sys.mode = .dormant || s.sys.isolated || tickNat s < s.alarm.paceFrom.toNat + 65536 then s
    else
      let q := slowest counts
      let r := min (paceOf (counts.toArray.getD q 0)) 65535
      { s with alarm := { s.alarm with rate := r, quadrant := BitVec.ofNat 2 q, paceFrom := s.alarm.paceFrom + 65536 } })

/-- A region's wear at the end of a window (R261). -/
def closeWindow (r : Nat) (w : Wear) : Wear :=
  { w with used := w.used + w.window, window := 0,
           life := BitVec.ofNat 24 (projDays (wearBudget r) (w.used + w.window) w.window) }

/-- WEAR_WINDOW (R261, R262): a window of 2^36 ticks ends; its counts go to the wear tables, a word for each region, of which a free number
fails its verification (log 38). -/
def execWearWindow (s : State) : Out :=
  .next (if s.sys.mode = .dormant || tickNat s < s.time.wearFrom.toNat + 2 ^ 36 then s
    else
      let s1 : State := { s with free := s.free + 1, nvm := { s.nvm with wear := s.nvm.wear.mapIdx closeWindow },
                                 time := { s.time with wearFrom := s.time.wearFrom + 2 ^ 36 } }
      (wearWrite s1 6 7 (Config.freeNat s.free % 8)).1)

/-! ### Recorder commits (R378, R383, R385) -/

/-- The record's eight words, or the repeat word, are written. -/
def writeItem (s : State) (i : RecItem) : State :=
  match i with
  | .record b _ pin =>
    let k := recorderSlot s
    { s with nvm := { s.nvm with slots := Map.put s.nvm.slots k b, newest := some k,
                                 pins := if pin then s.nvm.pins ++ [k] else s.nvm.pins },
             recorder := { s.recorder with skip := 0 } }
  | .repeatWord w =>
    match s.nvm.newest with
    | some k =>
      { s with nvm := { s.nvm with slots := Map.modify s.nvm.slots k fun b => overwrite b 56 w } }
    | none => s

/-- Words of a recorder write. -/
def itemWords (i : RecItem) : Nat :=
  match i with
  | .record _ _ _ => 8
  | .repeatWord _ => 1

/-- A recorder write is in progress: REC_WRITE_SEQ is odd (R385). -/
def recWriting (s : State) : Bool := s.recorder.seq.getLsbD 0

/-- REC_WRITE_SEQ is raised by one (R385). -/
def raiseSeq (s : State) : State := { s with recorder := { s.recorder with seq := s.recorder.seq + 1 } }

/-- The write under way ends: it has committed, or failed its verification in a region that is worn by it (R262, R384). -/
def endRecord (s : State) (i : RecItem) (rest : List RecItem) (fails : Nat) : State :=
  raiseSeq (match wearWrite { s with recorder := { s.recorder with queue := rest } } 0 (itemWords i) fails with
    | (s1, true) => writeItem s1 i
    | (s1, false) => dropRecord s1)

/-- RECORD_COMMIT (R383, R384, R385): the write of the oldest queued record or repeat word begins, and the next of these steps ends it. In a
worn region none begins. -/
def execRecordCommit (fails : Nat) (s : State) : Out :=
  .next (match s.sys.mode == .dormant || !s.recorder.mounted, s.recorder.queue with
    | false, i :: rest =>
      if recWriting s then endRecord s i rest fails
      else if (getWear s.nvm 0).worn then dropRecord { s with recorder := { s.recorder with queue := rest } }
      else raiseSeq s
    | _, _ => s)

end Sys2Proof.Machine
end

