-- ==== Sys2Proof/Machine/Monitors.lean ====
section
/-!
DEFINITION. The monitors (R46, R366 to R369), the response to a set of alarms (R373 to R376), and time: the timebase check
(R295), the backup domain's detectors (R296, R297) and the calendar's anchors (R299).
-/

namespace Sys2Proof.Machine

/-! ### Rails (R46, R366, R367) -/

/-- Reference of a rail in microvolts (R367); VCORE has bands of its own. -/
def railRef (rail : Nat) : Nat :=
  match rail with
  | 1 => 800000
  | 2 => 1800000
  | 3 => 900000
  | 4 => 1200000
  | _ => 1350000

/-- The 5 % band of VCORE in microvolts (R46). -/
def vcoreBand (s : State) : Nat × Nat :=
  if !s.alarm.reported then (570000, 945000)
  else
    let live := s.alarm.reports.filter fun r => decide (tickNat s < r.2.2.toNat)
    live.foldl (fun a r => (min a.1 r.1, max a.2 r.2.1)) (s.alarm.vcoreSet * 950, s.alarm.vcoreSet * 1050)

/-- Band of a slow-excursion comparator pair: ±5 %. -/
def slowBand (s : State) (rail : Nat) : Nat × Nat :=
  if rail = 0 then vcoreBand s else (railRef rail * 95 / 100, railRef rail * 105 / 100)

/-- Band of a glitch detector: ±8 %. -/
def glitchBand (s : State) (rail : Nat) : Nat × Nat :=
  if rail = 0 then ((vcoreBand s).1 * 92 / 95, (vcoreBand s).2 * 108 / 105)
  else (railRef rail * 92 / 100, railRef rail * 108 / 100)

/-- A reading lies outside a band: detail 1 above, 2 below (Table 120). -/
def outside (band : Nat × Nat) (uv : Nat) : Option Byte :=
  if band.2 < uv then some 1 else if uv < band.1 then some 2 else none

/-- GLITCH_EVENT (R366, R367): an excursion of 3 ns or more to `uv` microvolts. -/
def execGlitchEvent (rail : Fin 6) (uv : Nat) (s : State) : Out :=
  .next (match monitorsRun s, outside (glitchBand s rail.val) uv with
    | true, some d =>
      alarmEvent { s with alarm := { s.alarm with glitched := s.alarm.glitched ||| BitVec.ofNat 6 (2 ^ rail.val) } }
        rail.val [d]
    | _, _ => s)

/-- Bits BELOW and ABOVE of a rail (Table 163). -/
def setRail (s : State) (rail : Nat) (below above : Bool) : State :=
  let m := BitVec.ofNat 6 (2 ^ rail)
  let b := if below then s.alarm.below ||| m else s.alarm.below &&& ~~~m
  let a := if above then s.alarm.above ||| m else s.alarm.above &&& ~~~m
  { s with alarm := { s.alarm with below := b, above := a } }

/-- SLOW_EXCURSION (R366): 10 µs of a rail at `uv` microvolts; inside the band it only ends the excursion. -/
def execSlowExcursion (rail : Fin 6) (uv : Nat) (s : State) : Out :=
  .next (if !monitorsRun s then s
    else match outside (slowBand s rail.val) uv with
      | some d => alarmEvent (setRail s rail.val (d == 2) (d == 1)) (6 + rail.val) [d]
      | none => setRail s rail.val false false)

/-- VCORE_BAND_SETTLE (R46): reports whose 10 ms are over no longer widen the band. -/
def execVcoreBandSettle (s : State) : Out :=
  .next { s with alarm := { s.alarm with
    reports := s.alarm.reports.filter fun r => decide (tickNat s < r.2.2.toNat) } }

/-- STATE_CODE_EVENT (R368). -/
def execStateCodeEvent (checker : Fin 4) (unit : Nat) (s : State) : Out :=
  .next (monEvent s 12 ([BitVec.ofNat 8 (checker.val + 1)] ++ leBytes 1 unit))

/-! ### Alarm responses (R373 to R375) -/

/-- Insert by source, after those of the same source. -/
def insertFired (a : Fired) : List Fired → List Fired
  | [] => [a]
  | b :: r => if a.1 < b.1 then a :: b :: r else b :: insertFired a r

/-- A set in ascending source number. -/
def sortFired (l : List Fired) : List Fired := l.foldl (fun acc a => insertFired a acc) []

/-- The lowest source among the alarms at the strongest level (R374). -/
def infoOf (l : List Fired) : Nat := ((l.filter fun a => a.2.1 == strongest l).map (·.1)).min?.getD 0

/-- The level the device carries out for a set (R374, R375). -/
def carriedOut (s : State) (level : Nat) : Nat :=
  if s.sys.mode = .lockdown then (if level = 4 && !s.alarm.erased then 4 else 0) else level

/-- An ALARM record with the level carried out in PAYLOAD byte 1 and its CHECK afresh (Tables 119, 120). -/
def stampRecord (b : Bytes) (carried : Nat) : Bytes :=
  let b1 := overwrite b 25 [BitVec.ofNat 8 carried]
  overwrite b1 6 (leBytes 2 (crc32c (slice b1 0 6 ++ slice b1 8 48)))

/-- The ALARM records of a set, in ascending source number. -/
def writeAlarms (s : State) (l : List Fired) (carried : Nat) : State :=
  (sortFired l).foldl (fun t a => queueRecord t (stampRecord a.2.2 carried) true (bit (le a.2.2 2 1) 3)) s

/-- An ALARM signal on fast vector 0 of every PF (R329, Table 118). -/
def notifyAll (s : State) (info : Nat) : State := (List.range 8).foldl (fun t p => signalFast t (128 * p) 0 info) s

/-- What a Boot that ends in Lockdown also records (R297, Table 120). -/
def endBootLocked (was : Mode) (s : State) : State := if was = .boot then recordBoot (noteTimeLost s) else s

/-- A response of level 2 or above (Table 118, Table 15, R375). -/
def carryOut (s : State) (level : Nat) : State :=
  match s.sys.mode with
  | .dormant => s
  | .lockdown => if level = 4 && !s.alarm.erased then startErase (recordClear s 4 1) else s
  | .held =>
    if level = 2 then { s with sys := { s.sys with byAlarm := true } } else clearAndLock s level
  | .boot =>
    if level = 2 then endBootLocked .boot (recordMode (enterLockdown s 3)) else endBootLocked .boot (clearAndLock s level)
  | _ => if level = 2 then writeChanges (enterHeld s true) else clearAndLock s level

/-- The response of the set of one microsecond's alarms (R374). -/
def respond (s : State) : State :=
  let l := firstSet s
  let level := strongest l
  let carried := carriedOut s level
  let later := s.alarm.set.filter fun a => !l.contains a
  let s1 := writeAlarms { s with alarm := { s.alarm with set := later, maxLevel := max s.alarm.maxLevel carried } } l carried
  let s2 := if 1 ≤ level then notifyAll s1 (infoOf l) else s1
  if 2 ≤ level && !opposed s (alarmRow s) then carryOut s2 level else s2

/-- ALARM_SET_RESPONSE (R374): at the end of the microsecond. -/
def execAlarmSetResponse (s : State) : Out := .next (if setDue s then respond s else s)

/-- CLEAR_ALL_ERASE (R376): the region is blank, the mark cleared, the CLEAR record written. -/
def execClearAllErase (s : State) : Out :=
  .next (if s.alarm.clearing then
      (let s1 := writeMark (erasePersistent s) 3 0
       recordClear { s1 with alarm := { s1.alarm with clearing := false } } 4 2)
    else s)

/-! ### Time (R295 to R299) -/

/-- An advance of the timebase over a crystal second is within 0.1 % of 10^8 ticks (R295). -/
def advanceOk (ticks : Nat) : Bool := decide (99900000 ≤ ticks) && decide (ticks ≤ 100100000)

/-- TIMEBASE_CHECK (R295): the advance over the crystal second that has just ended is compared, once. VBAK is measured with it, while
main power is good (Table 96, CAL_STATUS.VBAK_LOW; log 99). -/
def execTimebaseCheck (vbakUv : Nat) (s : State) : Out :=
  .next (if s.sys.mode = .dormant then s
    else match s.time.measure with
      | none => s
      | some a =>
        let s1 : State := { s with
          time := { s.time with measure := none, vbakLow := s.sys.mainGood && decide (vbakUv < 2200000) } }
        if advanceOk a.toNat then s1
        else record { s1 with time := { s1.time with tbFault := true } } 0x1008 0 (leBytes 8 a.toNat))

/-- VBAK_RETENTION_LOSS (R297): the detector acts only while the domain draws from VBAK. -/
def execVbakRetentionLoss (s : State) : Out :=
  .next (if s.sys.vio18Good then s
    else { s with backup := { s.backup with timeLost := true, cause := s.backup.cause ||| 1 },
                  time := { s.time with noticed := s.time.noticed && s.backup.timeLost } })

/-- BACKUP_POWER_ON (R296, R297): the values of Table 90, with LOST_CAUSE bit 1 while the crystal is stopped. -/
def execBackupPowerOn (s : State) : Out :=
  .next { s with backup := { Backup.powerOn with
                    stopped := s.backup.stopped,
                    cause := Backup.powerOn.cause ||| (if s.backup.stopped then 2 else 0) },
                 time := { s.time with noticed := s.time.noticed && s.backup.timeLost, second := none } }

/-- CRYSTAL_STOP (R297): no edge has arrived for 2 ms. -/
def execCrystalStop (s : State) : Out :=
  .next { s with backup := { s.backup with stopped := true, timeLost := true, cause := s.backup.cause ||| 2 },
                 time := { s.time with noticed := s.time.noticed && s.backup.timeLost, second := none } }

/-- The core at a crystal edge that brings the calendar to a value: the anchor, which INSTALL also takes first at an edge (R299, R300),
and at a whole second the advance since the one before (R295). -/
def crystalTime (s : State) (sec : BitVec 40) (frac : BitVec 15) : TimeSt :=
  let t := { s.time with lastEdge := s.sys.tick }
  let t1 := if s.time.anchored || inPhase s 7 then
      { t with anchored := true, anchorSec := sec, anchorFrac := frac, anchorTick := s.sys.tick } else t
  if frac = 0 && s.sys.mode != .dormant then
    { t1 with second := some s.sys.tick, measure := (s.time.second.map (s.sys.tick - ·)).orElse fun _ => s.time.measure }
  else t1

/-- CRYSTAL_EDGE (R297, R299): the calendar counts one crystal period and the anchor is renewed. -/
def execCrystalEdge (s : State) : Out :=
  .next (
    let frac := s.backup.frac + 1
    let sec := if frac = 0 then s.backup.sec + 1 else s.backup.sec
    { s with backup := { s.backup with sec := sec, frac := frac, stopped := false }, time := crystalTime s sec frac })

/-- TIME_LOST (R297): the core notices the flag and writes its record once. -/
def execTimeLost (s : State) : Out :=
  .next (if (serving s || s.sys.mode == .lockdown) && s.backup.timeLost && !s.time.noticed then noteTimeLost s else s)

end Sys2Proof.Machine
end

