-- ==== Sys2Proof/Machine/Rng.lean ====
section
/-!
DEFINITION. The random number generator (R347 to R364): samples with their health tests, test windows, the fill of
Boot, recovery after a failure, known-answer tests and the waits for randomness.
-/

namespace Sys2Proof.Machine

/-! ### Conditioner (R348, R351) -/

/-- Sources in the order their raw bits enter the conditioner (R348). -/
def sourceOrder : List Nat :=
  [0, 16, 24, 1, 17, 25, 2, 18, 26, 3, 19, 27, 4, 20, 5, 21, 6, 22, 7, 23, 8, 9, 10, 11, 12, 13, 14, 15]

/-- One raw bit into the conditioner's register (R351). -/
def absorb (s : BitVec 256) (x : Bool) : BitVec 256 :=
  let b := s.getLsbD
  let fb := xor (xor (xor (xor (b 255) (b 253)) (xor (b 250) (b 245)))
    (xor (b 200 && b 129) (b 98 && b 61 && !b 14))) x
  (s <<< 1) ||| BitVec.ofNat 256 (b2n fb)

/-- One raw bit, and the block emitted after every 1,024 of them (R351, R352). -/
def absorbBit (r : RngSt) (x : Bool) : RngSt :=
  let c := absorb r.cond x
  if r.absorbed + 1 = 1024 then { r with cond := c, absorbed := 0, held := r.held ++ [c] }
  else { r with cond := c, absorbed := r.absorbed + 1 }

/-! ### Health tests (R349, R350) -/

/-- Cutoff of the repetition count test: 1 + ⌈20 / 0.5⌉ (R349). -/
def repCutoff : Nat := 41

/-- Cutoff of the adaptive proportion test by SP 800-90B section 4.4.2: one more than the least k whose cumulative binomial
probability for 1,024 bits at 2^−0.5 reaches 1 − 2^−20 (R349; log 28). -/
def propCutoff : Nat := 793

/-- A source's tests on one bit: the tests after it, and which failed (repetition, proportion). `fresh` starts a window,
with which each run of 1,024 bits coincides. -/
def testBit (h : Health) (x fresh : Bool) : Health × Bool × Bool :=
  let run := if h.run != 0 && h.last == x then min (h.run + 1) repCutoff else 1
  let first := if fresh then x else h.first
  let count := if fresh then 1 else if x == h.first then h.count + 1 else h.count
  ({ last := x, run := run, first := first, count := count }, run == repCutoff,
    count == propCutoff && (fresh || x == h.first))

/-- Failures of a sample event, ascending by source: source and whether it is the proportion test's. -/
def sampleFails (r : RngSt) (raw : BitVec 28) : List (Nat × Bool) :=
  (List.range 28).flatMap fun i =>
    let t := testBit (r.health.toArray.getD i Health.reset) (raw.getLsbD i) (r.samples == 0)
    (if t.2.1 then [(i, false)] else []) ++ (if t.2.2 then [(i, true)] else [])

/-- The generator after a sample event, apart from what its failures do. -/
def sampled (r : RngSt) (raw : BitVec 28) : RngSt :=
  let r1 := sourceOrder.foldl (fun a i => absorbBit a (raw.getLsbD i)) r
  { r1 with
    samples := r.samples + 1,
    health := r.health.mapIdx fun i h => (testBit h (raw.getLsbD i) (r.samples == 0)).1 }

/-! ### Health failures (R357, R358, R360, R362, R363) -/

/-- A RANDOM whose bytes are being generated (R362). -/
def generating (c : Cmd) : Bool :=
  opcode c.entry == 0x0501 && c.phase == .run && (c.running != [] || c.pos != 0 || segsDone c)

/-- A command that waits at step 9 of R138. -/
def atGate (c : Cmd) : Bool :=
  match c.phase with
  | .rngWait _ => true
  | _ => false

/-- Commands a health failure completes ST_RNG_FAULT (R360, R362). -/
def failWaiting (s : State) : State :=
  ((s.cmds.filter fun c => generating c || atGate c).map (·.id)).foldl (fun t cid => fail t cid .rngFault 0) s

/-- The RNG_HEALTH record (Table 120). -/
def recordHealth (s : State) (src : Nat) (test : Bool) : State := record s 0x1007 src [BitVec.ofNat 8 (b2n test)]

/-- A health failure in FILL: the window in progress fails, once, and counts one event (R357, R358). -/
def failFill (s : State) (src : Nat) (test : Bool) : State :=
  let s1 := recordHealth s src test
  if s.rng.bad then s1
  else alarmEvent { s1 with rng := { s1.rng with bad := true, passRun := 0, held := [] } } 14 [2]

/-- A health failure in READY, FAULT or REFILL (R358, R363). -/
def failReady (s : State) (src : Nat) (test : Bool) : State :=
  let s1 : State := { s with
    rng := { s.rng with state := .fault, bad := true, passRun := 0, held := [], pool := [] },
    eng := { s.eng with seedQ := [] } }
  let s2 := alarmEvent (recordHealth (failWaiting s1) src test) 14 [1]
  if s2.sys.mode = .boot then bootFail s2 0x30 else s2

/-- A health failure of a source, or of a known-answer test as source 31. -/
def healthFail (s : State) (src : Nat) (test : Bool) : State :=
  let s1 : State := { s with rng := { s.rng with
    failSrc := src, failTest := test, faults := satAdd s.rng.faults 1 255 } }
  if s1.rng.state = .fill then failFill s1 src test else failReady s1 src test

/-- A sample event falls due: on every 25th tick, one on each (R347; which ticks those are: log 62). -/
def sampleDue (s : State) : Bool := tickNat s % 25 == 0 && s.rng.sampledAt != some s.sys.tick

/-- NOISE_SAMPLE (R347 to R352): `raw` holds source i's bit at bit i. The window's end comes before its next sample. -/
def execNoiseSample (raw : BitVec 28) (s : State) : Out :=
  .next (if s.rng.sampling && decide (s.rng.samples < 1024) && s.sys.mode != .dormant && sampleDue s then
      (sampleFails s.rng raw).foldl (fun t f => healthFail t f.1 f.2)
        { s with rng := { sampled s.rng raw with sampledAt := some s.sys.tick } }
    else s)

/-! ### Waits for draws (R361) -/

/-- A command waits for a draw. -/
def waitsDraw (c : Cmd) : Bool :=
  match c.phase with
  | .drawWait _ => true
  | _ => false

/-- The generator serves draws again: a command that has waited for one at most 2 ms goes on, whatever else it may have to wait for then, and
one that has waited longer ends (R361). -/
def judgeDraws (s : State) : State :=
  if canDraw s then
    (s.cmds.filter waitsDraw).foldl (fun t c => if drawLate s c then fail t c.id .rngFault 0 else endDraw t c.id c.phase) s
  else s

/-! ### Windows (R350, R352, R356) -/

/-- Blocks into the pool, which keeps the newest 16 (R352). -/
def poolBlocks (pool blocks : List (BitVec 256)) : List (BitVec 256) :=
  (pool ++ blocks).drop ((pool ++ blocks).length - 16)

/-- A window passes: its blocks are pooled, and the second in a row ends FAULT (R352, Table 112). -/
def windowPassed (s : State) : State :=
  let r := s.rng
  let n := satAdd r.passRun 1 15
  let st := if r.state = .fault && decide (2 ≤ n) then .refill else r.state
  judgeDraws (retryRng { s with rng := { r with
    passRun := n, pool := poolBlocks r.pool r.held, held := [], samples := 0, state := st } })

/-- A window that failed ends: its blocks are discarded. -/
def windowFailed (s : State) : State := { s with rng := { s.rng with held := [], samples := 0, bad := false } }

/-- TEST_WINDOW_END (R350, R352). -/
def execTestWindowEnd (s : State) : Out :=
  .next (if s.rng.sampling && s.rng.samples == 1024 then (if s.rng.bad then windowFailed s else windowPassed s) else s)

/-! ### Instances and known-answer tests (R353, R357, R359, R364) -/

/-- Nonce of an instance: the timebase, then the first 8 bytes of its own block (R353). -/
def drbgNonce (s : State) (b : BitVec 256) : Bytes := leBytes 8 (tickNat s) ++ (leBytes 32 b.toNat).take 8

/-- Instantiate instance i from two pooled blocks (R353; log 18). -/
def newInstance (s : State) (i : Nat) : Bytes × Nat :=
  let e := s.rng.pool.getD (2 * i) 0
  let n := s.rng.pool.getD (2 * i + 1) 0
  (Config.drbgInstantiate (leBytes 32 e.toNat) (drbgNonce s n) (ascii "TURUND DRBG" ++ leBytes 1 i), 0)

/-- The eight instances are instantiated and take 16 blocks from the pool. -/
def instantiate (s : State) : State :=
  { s with rng := { s.rng with inst := (List.range 8).map (newInstance s), pool := s.rng.pool.drop 16, next := 0 } }

/-- A run of both known-answer tests has completed (Table 116); the conditioner's leaves it at zero, with no bit of a block (R351; log
62). -/
def katResult (s : State) (condOk expOk : Bool) : State :=
  { s with rng := { s.rng with
    cond := 0, absorbed := 0, katDone := true, condPass := condOk, expPass := expOk, katRuns := satAdd s.rng.katRuns 1 255 } }

/-- READY is entered, and the commands that waited for it go on (R360, R361). -/
def enterReady (s : State) : State := judgeDraws (retryRng { s with rng := { s.rng with state := .ready } })

/-- REFILL_COMPLETE (R359). -/
def execRefillComplete (condOk expOk : Bool) (s : State) : Out :=
  .next (if s.rng.state = .refill && decide (16 ≤ s.rng.pool.length) then
      (let s1 := katResult (instantiate s) condOk expOk
       if condOk && expOk then enterReady s1 else healthFail s1 31 false)
    else s)

/-- RNG_KAT_DONE (R364): the tests started by RNG_KAT_CTRL end. -/
def execRngKatDone (condOk expOk : Bool) (s : State) : Out :=
  .next (if s.rng.katRun then
      (let s1 := katResult { s with rng := { s.rng with katRun := false } } condOk expOk
       if condOk && expOk then judgeDraws (retryRng s1) else healthFail s1 31 false)
    else s)

/-! ### Fill (R357) -/

/-- The RNG_FILL phase runs. -/
def filling (s : State) : Bool := s.sys.mode == .boot && s.boot.phase == 6

/-- Steps 1 to 3 of R357: the known-answer tests, then sampling with the conditioner at zero. -/
def startFill (s : State) (condOk expOk : Bool) : State :=
  let s1 := katResult s condOk expOk
  if condOk && expOk then
    { s1 with rng := { s1.rng with sampling := true, samples := 0, bad := false } }
  else bootFail s1 0x30

/-- Step 4 of R357: the instances, READY, and the INSTALL phase. -/
def endFill (s : State) : State :=
  let s1 := instantiate s
  { s1 with rng := { s1.rng with state := .ready }, boot := { s1.boot with phase := 7 } }

/-- The 4 ms of the phase are over. -/
def fillLate (s : State) : Bool := decide (400000 ≤ tickNat s - s.rng.start.toNat)

/-- RNG_FILL (R357): at the start of the phase its tests and the start of sampling; once the fourth window in a row has passed, the
instances. -/
def execRngFill (condOk expOk : Bool) (s : State) : Out :=
  .next (if !filling s then s
    else if !s.rng.sampling then startFill s condOk expOk
    else if s.rng.passRun = 4 && 16 ≤ s.rng.pool.length && !fillLate s then endFill s else s)

/-- RNG_FILL_TIMEOUT (R357): 4 ms after the phase started. -/
def execRngFillTimeout (s : State) : Out :=
  .next (if filling s && fillLate s then bootFail s 0x30 else s)

/-! ### Waits (R360, R361) -/

/-- RNG_WAIT_TIMEOUT (R360): 4 ms at step 9. -/
def execRngWaitTimeout (cid : Nat) (s : State) : Out :=
  .next (match (getCmd s cid).map Cmd.phase with
    | some (.rngWait t) => if serving s && decide (400000 ≤ tickNat s - t.toNat) then fail s cid .rngNotReady 0 else s
    | _ => s)

/-- RNG_DRAW_TIMEOUT (R361): 2 ms at a draw. -/
def execRngDrawTimeout (cid : Nat) (s : State) : Out :=
  .next (match (getCmd s cid).map Cmd.phase with
    | some (.drawWait t) => if serving s && decide (200000 ≤ tickNat s - t.toNat) then fail s cid .rngFault 0 else s
    | _ => s)

end Sys2Proof.Machine
end

