-- ==== Sys2Proof/Machine/Towpath.lean ====
section
/-!
DEFINITION. Towpath links: training and keying (R406 to R410), the link layer (R411 to R414), lanes (R416), forwarded
commands (R417 to R420), moves as the peer sees them (R421, R422, Table 152), and peers that restart or vanish (R424,
R425).
-/

namespace Sys2Proof.Machine

/-! ### A link that fails (R424, Table 152) -/

/-- Commands received from a peer end without output (R424, R316); a move that one of them made is called off. -/
def endReceived (s : State) (p : Cmd → Bool) : State :=
  let ids := (s.cmds.filter fun c => c.origin.isSome && p c).map (·.id)
  ids.foldl endCmd (callOff s fun b => b.moving.any fun m => ids.contains m)

/-- Moves over a link that have not committed end ST_BUSY with DETAIL 0x09; their XFER_ABORT waits for the link. -/
def endMoves (s : State) (k : Nat) : State :=
  let hit := s.topo.moves.filter fun m => m.link == k && !m.committed && !m.aborted
  let moves := s.topo.moves.map fun m => if (hit.any fun h => h.id == m.id) then { m with aborted := true } else m
  hit.foldl (fun t m => endMove t m.cid m.index .busy 9) { s with topo := { s.topo with moves := moves } }

/-- The keys and packets of a link that went down are gone. -/
def downLink (s : State) (cause : Nat) (l : Link) : Link :=
  { l with
    st := .failed, cause := cause, failedAt := s.sys.tick, helloTx := none, helloRx := none, secretTx := [], ctTx := [],
    secretRx := [], kemDone := false, keyTx := [], keyRx := [], resend := [], replays := 0, rekeying := false,
    signed := false, newTx := [], newRx := [], back := [], inbox := [] }

/-- A link to a position carries traffic, or will again after retraining. -/
def peerReached (s : State) (pos : Nat) : Bool :=
  (linksTo s pos).any fun k => carrying (getLink s k) || (getLink s k).st == .retraining

/-- The tick at which the last link to a position became FAILED: attempts to train again that fail do not move it (R425; DEDUCED, log
111). -/
def noteDown (s : State) (pos : Nat) : State :=
  if peerReached s pos || (Map.get? s.topo.downSince pos).isSome then s
  else { s with topo := { s.topo with downSince := Map.put s.topo.downSince pos s.sys.tick } }

/-- A link becomes FAILED (R406, R424, R425). -/
def linkFail (s : State) (k cause : Nat) : State :=
  if (getLink s k).st = .failed || (getLink s k).st = .unused then s
  else
    let s0 := modLink s k (downLink s cause)
    let s1 := ((getLink s k).peer.map (noteDown s0)).getD s0
    let fwd := s1.cmds.filter fun c => c.phase == .forwarded k
    let s2 := fwd.foldl (fun t c => endForwarded t c .engineFault (0x0A + 65536 * k)) s1
    let s3 := endReceived s2 fun c => c.origin.any fun o => o.1 == k
    retryBerth (endMoves s3 k)

/-! ### Peers that restart (R413, R425) -/

/-- Functions of a peer are reset at one instant: their commands end, and their keys and berths here go (R283, R292, R425). -/
def endPeerFns (s : State) (pos : Nat) (fns : List Nat) : State :=
  let s1 := fns.foldl (fun t f => abortMoves t f pos) s
  let s2 := endReceived s1 fun c => c.originPos == pos && fns.contains c.fn
  retryBerth (fns.foldl (fun t f => cleanHoldings t f pos) (resetHoldings s2 fns pos))

/-- Functions of a position that own something here or run a command here. -/
def peerFns (s : State) (pos : Nat) : List Nat :=
  let ks := (s.keys.keys.filter fun e => e.2.ownerPos == pos).map (·.2.owner)
  let bs := (s.keys.berths.filter fun e => e.2.ownerPos == pos).map (·.2.owner)
  let cs := (s.cmds.filter fun c => c.origin.isSome && c.originPos == pos).map (·.fn)
  (ks ++ bs ++ cs).foldl (fun l f => insertNat f l) []

/-- An INCOMING berth and its keys are discarded (Table 152). -/
def discardIncoming (s : State) (i : Nat) (b : Berth) : State :=
  let s1 := (boundKeys b).foldl zeroiseKey s
  freeBerth { s1 with topo := { s1.topo with arrivals := Map.del s1.topo.arrivals (b.incoming.getD 0) } } i

/-- A peer restarted, or has been away for 1 s (R413, R425). -/
def peerRestart (s : State) (pos : Nat) : State :=
  let gone := s.keys.berths.filter fun e => e.2.incoming.any fun m => m % 8 == pos
  let s1 := gone.foldl (fun t e => discardIncoming t e.1 e.2) s
  endPeerFns s1 pos (peerFns s1 pos)

/-! ### Receiving a packet (R412, R414) -/

/-- A link takes packets of a channel now. -/
def takes (l : Link) (channel : Nat) : Bool := carrying l || (l.st == .keying && channel == 3)

/-- Credits of a packet that has left its buffer go back to the peer; those of the maintenance channel in lots of 64
(log 26). -/
def returnCredits (s : State) (k : Nat) (m : LinkMsg) : State :=
  if linkChannel m = 3 then
    let n := (getLink s k).owed + creditCost m
    if n < 64 then modLink s k fun l => { l with owed := n }
    else linkSend (modLink s k fun l => { l with owed := 0 }) k (.credit 3 n)
  else linkSend s k (.credit (linkChannel m) (creditCost m))

/-- The packets of a message that passed their checks in order: the link counts them and acknowledges the last (R412). -/
def counted (s : State) (k : Nat) (l : Link) : State := putOnLink (modLink s k fun _ => l) k (.ack (l.seqRx - 1))

/-- A packet that passed its checks out of order, a repeated one or one after a gap, is not passed on; what came in order is acknowledged
once more (R412; DESIGN CHOICE, log 26). -/
def outOfOrder (s : State) (k : Nat) : State :=
  if (getLink s k).seqRx = 0 then s else putOnLink s k (.ack ((getLink s k).seqRx - 1))

/-- The packets of a message arrive, the last with SEQ `seq`: good ones in order go to `f`, a failed CRC is answered NAK, a failed tag fails the
link (R412). A message that `f` cannot take yet stays with its sender, which replays it. -/
def onFrame (s : State) (k : Nat) (m : LinkMsg) (seq : DWord) (chk : PktCheck) (f : State → Option State) : State :=
  if !takes (getLink s k) (linkChannel m) then s
  else match chk with
    | .good =>
      match rollRx (getLink s k) (packetCount m) seq with
      | some l => (f (counted s k l)).getD s
      | none => outOfOrder s k
    | .badCrc => putOnLink (modLink s k fun l => { l with crcErr := satAdd l.crcErr 1 65535 }) k .nak
    | .badTag => linkFail (modLink s k fun l => { l with tagErr := satAdd l.tagErr 1 255 }) k 7

/-- A message passed on at once: its buffer is free, and its credits go back (R412, R414). -/
def onPacket (s : State) (k : Nat) (m : LinkMsg) (seq : DWord) (chk : PktCheck) (f : State → State) : State :=
  onFrame s k m seq chk fun t => some (f (returnCredits t k m))

/-- Replay every packet not yet acknowledged, as it was sent and in order. -/
def replayAll (s : State) (k : Nat) : State := (getLink s k).resend.foldl (fun t p => emit t (.link k p.msg p.packets)) s

/-- Entry to RETRAINING. -/
def startRetrain (s : State) (k : Nat) : State :=
  modLink s k fun l => { l with st := .retraining, retrains := satAdd l.retrains 1 255, replays := 0 }

/-- One replay; the fourth in a row of the same packet retrains the link, a second such episode within 1 s fails it
(R412). -/
def replay (s : State) (k : Nat) : State :=
  let l := getLink s k
  if !(carrying l || l.st == .keying) || l.resend == [] then s
  else
    let s1 := modLink (replayAll s k) k fun x => { x with replays := x.replays + 1 }
    if l.replays + 1 < 4 then s1
    else if l.episode.any fun t => decide (tickNat s - t.toNat < 100000000) then linkFail s1 k 6
    else if l.st = .keying then linkFail s1 k 6
    else startRetrain (modLink s1 k fun x => { x with episode := some s.sys.tick }) k

/-- What a sequence number acknowledges: everything up to the message whose last packet has it, or else the messages whose last packet lies
below it. -/
def acked (seq : DWord) (l : List Sent) : List Sent :=
  match l.findIdx? (fun p => p.seq == seq) with
  | some i => l.take (i + 1)
  | none => l.takeWhile fun p => decide (p.seq.toNat ≤ seq.toNat)

/-- The move whose XFER_COMMIT a packet carries. -/
def commitOf (m : LinkMsg) : Option Nat :=
  match m with
  | .xferCommit n => some n
  | _ => none

/-- ACK (R412): packets up to it are released; a move whose XFER_COMMIT arrived is over. -/
def execAck (link : Fin 8) (seq : DWord) (s : State) : Out :=
  .next (
    let k := link.val
    let out := acked seq (getLink s k).resend
    if (getLink s k).st = .failed || out = [] then s
    else
      let overs := out.filterMap fun p => commitOf p.msg
      let s1 := modLink s k fun l => { l with resend := l.resend.drop out.length, replays := 0 }
      { s1 with topo := { s1.topo with moves := s1.topo.moves.filter fun m => !(m.committed && overs.contains m.id) } })

/-- NAK (R412). -/
def execNak (link : Fin 8) (s : State) : Out := .next (replay s link.val)

/-- REPLAY_TIMEOUT (R412): 4 µs without an answer. -/
def execReplayTimeout (link : Fin 8) (s : State) : Out :=
  .next (replay s link.val)

/-- CREDIT (R414). -/
def execCredit (head : PktHead) (channel : Fin 4) (count : Nat) (s : State) : Out :=
  .next (onPacket s head.link.val (.credit channel.val count) head.seq head.check fun t =>
    drainBack (modLink t head.link.val fun l =>
      { l with
        credits := l.credits.mapIdx fun i c => if i = channel.val then min (c + count) Config.channelCredits else c }) head.link.val)

/-! ### Training (R406 to R408, R416) -/

/-- Half of the lanes. -/
def lowHalf : BitVec 8 := 0x0F

/-- The width a link reaches on the lanes that lock: eight, or four where a half is retired (R406, R416). -/
def widthOk (retired lanes : BitVec 8) : Bool :=
  if retired = 0 then lanes == 0xFF
  else if retired = lowHalf then lanes &&& 0xF0 == 0xF0
  else if retired = 0xF0 then lanes &&& lowHalf == lowHalf
  else false

/-- State of a link at its width. -/
def widthState (retired : BitVec 8) : LinkState := if retired = 0 then .up else .degraded

/-- This device's identity record; nothing where it has none (R397). -/
def identityBytes (s : State) : Bytes := (identityRec s).getD []

/-- This side's HELLO with a nonce (R409 step 1). -/
def myHello (s : State) (nonce : Bytes) : HelloMsg :=
  { nonce := nonce, epoch := s.time.epoch, deviceId := deviceId s,
    ownerDigest := padTo 32 (digest 0x12 32 ((ownerRoot s).getD [])), idKey := slice (identityBytes s) 0 2592,
    agreeKey := slice (identityBytes s) 2592 1568 }

/-- LINK_TRAINED (R406, R408): `lanes` are the lanes locked and deskewed. The nonce of the HELLO is drawn here. -/
def execLinkTrained (link : Fin 8) (lanes : BitVec 8) (peerPosition peerDevices : Nat) (s : State) : Out :=
  .next (
    let k := link.val
    let l := getLink s k
    if l.st ≠ .training || !linksMayTrain s then s
    else if lanes = 0 then linkFail s k 1
    else if !widthOk l.retired lanes then linkFail s k 5
    else if l.peer ≠ some peerPosition || s.topo.devices ≠ peerDevices then linkFail s k 2
    else match draw s 32 with
      | none => s
      | some (nonce, s1) =>
        let m := myHello s1 nonce
        linkSend (modLink s1 k fun x => { x with
          st := .keying, helloTx := some m, seqTx := 0, seqRx := 0, owed := 0,
          credits := Vector.replicate 4 Config.channelCredits }) k (.hello m))

/-! ### Keys (R409, R410, R413) -/

/-- This side is the initiator: its position is the lower (R409). -/
def initiator (s : State) (k : Nat) : Bool := decide (s.topo.position < (getLink s k).peer.getD 0)

/-- T of R409: both HELLOs and both ciphertexts, the initiator's first. -/
def transcript (s : State) (k : Nat) (peerCt : Bytes) : Bytes :=
  let l := getLink s k
  let mine := (l.helloTx.map helloBytes).getD []
  let theirs := (l.helloRx.map helloBytes).getD []
  padTo 48 (digest 0x13 48 (if initiator s k then mine ++ theirs ++ l.ctTx ++ peerCt else theirs ++ mine ++ peerCt ++ l.ctTx))

/-- This side's signature over T. -/
def linkSign (s : State) (t rnd : Bytes) : Bytes :=
  padTo 4627 (Config.sign (0x1003, 0, 0) (slice (identityBytes s) 4160 (privLen 0x1003)) [] t (some rnd) 0)

/-- The peer's signature over T is good. -/
def linkVerify (s : State) (k : Nat) (t sig : Bytes) : Bool :=
  Config.verify (0x1003, 0, 0) (((getLink s k).helloRx.map (·.idKey)).getD []) [] t sig

/-- The two keys of a link: the direction sent, then the direction received (R409 step 4). -/
def linkKeys (s : State) (k : Nat) (ssRx t : Bytes) : Bytes × Bytes :=
  let l := getLink s k
  let ss := if initiator s k then l.secretTx ++ ssRx else ssRx ++ l.secretTx
  let out := padTo 64 (Config.kmac256 64 ss t (ascii "TURUND TOWPATH"))
  if initiator s k then (out.take 32, out.drop 32) else (out.drop 32, out.take 32)

/-- The shared secret of a peer's ciphertext. -/
def linkDecaps (s : State) (ct : Bytes) : Bytes :=
  padTo 32 (Config.kemDecaps 0x0103 (slice (identityBytes s) (4160 + privLen 0x1003) (privLen 0x0103)) ct)

/-- What a HELLO fails: cause 3 another owner, cause 4 a DEVICE_ID that is not the digest of the key (R409). -/
def helloCause (s : State) (m : HelloMsg) : Option Nat :=
  if m.ownerDigest ≠ padTo 32 (digest 0x12 32 ((ownerRoot s).getD [])) then some 3
  else if m.deviceId ≠ padTo 32 (digest 0x12 32 m.idKey) then some 4
  else none

/-- Encapsulate to the peer's agreement key; none while the generator cannot serve it. -/
def linkEncaps (s : State) (k : Nat) (m : HelloMsg) : Option State :=
  (draw s 32).map fun r =>
    let e := Config.kemEncaps 0x0103 m.agreeKey r.1
    modLink r.2 k fun l => { l with helloRx := some m, ctTx := padTo 1568 e.1, secretTx := padTo 32 e.2 }

/-- A peer's epoch is noted; one that differs from the last is a restart of the peer (R413). -/
def noteEpoch (s : State) (pos : Nat) (epoch : DWord) : State :=
  let s1 := match Map.get? s.topo.peerEpoch pos with
    | some e => if e = epoch then s else peerRestart s pos
    | none => s
  { s1 with topo := { s1.topo with peerEpoch := Map.put s1.topo.peerEpoch pos epoch } }

/-- HELLO (R409, R413): the initiator sends its ciphertext at once. None while the generator cannot serve the encapsulation. -/
def onHello (s : State) (k : Nat) (msg : HelloMsg) : Option State :=
  let l := getLink s k
  if l.st ≠ .keying || l.helloRx.isSome then some s
  else match helloCause s msg with
    | some c => some (linkFail s k c)
    | none =>
      (linkEncaps s k msg).map fun s1 =>
        let s2 := noteEpoch s1 (l.peer.getD 0) msg.epoch
        if initiator s2 k then linkSend s2 k (.kemSig (getLink s2 k).ctTx []) else s2

/-- This side's signed message of the exchange is sent, once. -/
def sendSigned (s : State) (k : Nat) (t : Bytes) (mk : Bytes → LinkMsg) : Option State :=
  if (getLink s k).signed then some s
  else (draw s 32).map fun r =>
    linkSend (modLink r.2 k fun l => { l with signed := true }) k (mk (linkSign r.2 t r.1))

/-- KEM_SIG (R409): a signature needs both ciphertexts, so the initiator's first one comes without. -/
def onKemSig (s : State) (k : Nat) (ct sig : Bytes) : Option State :=
  let l := getLink s k
  if l.st ≠ .keying || l.helloRx.isNone || l.kemDone then some s
  else
    let t := transcript s k ct
    if (sig ≠ [] || initiator s k) && !linkVerify s k t sig then some (linkFail s k 4)
    else
      let ss := linkDecaps s ct
      (sendSigned s k t (.kemSig l.ctTx)).map fun s1 =>
        if sig = [] then s1
        else
          let keys := linkKeys s k ss t
          modLink s1 k fun x => { x with secretRx := ss, kemDone := true, keyTx := keys.1, keyRx := keys.2 }

/-- Moves of a link that comes back: those ended are called off, those committed are confirmed again (Table 152). -/
def resumeMoves (s : State) (k : Nat) : State :=
  let ms := s.topo.moves.filter fun m => m.link == k && (m.aborted || m.committed)
  let s1 : State := { s with topo := { s.topo with moves := s.topo.moves.filter fun m => !(m.link == k && m.aborted) } }
  ms.foldl (fun t m => linkSend t k (if m.aborted then .xferAbort m.id else .xferCommit m.id)) s1

/-- LINK_KEYED (R409): both signatures are good; sequences start at 0. -/
def execLinkKeyed (link : Fin 8) (s : State) : Out :=
  .next (
    let k := link.val
    let l := getLink s k
    if l.st ≠ .keying || !l.kemDone || !linksMayTrain s then s
    else
      let s1 := modLink s k fun x => { x with
        st := widthState x.retired, seqTx := 0, seqRx := 0, resend := [], replays := 0, signed := false,
        credits := Vector.replicate 4 Config.channelCredits, owed := 0 }
      let s2 : State := { s1 with
        topo := { s1.topo with
          ended := s1.topo.ended.filter fun p => l.peer != some p,
          downSince := Map.keep s1.topo.downSince fun p _ => l.peer != some p } }
      retryBerth (drainBack (resumeMoves s2 k) k))

/-- REKEY_START (R407, R410): 2^36 packets start a rekey, and 2^37 without one fail the link. -/
def execRekeyStart (link : Fin 8) (s : State) : Out :=
  .next (
    let k := link.val
    let l := getLink s k
    if !carrying l || l.seqTx.toNat < 2 ^ 36 then s
    else if 2 ^ 37 ≤ l.seqTx.toNat then linkFail s k 7
    else if l.rekeying || l.newTx ≠ [] || !linksMayTrain s then s
    else match draw s 32 with
      | none => s
      | some (nonce, s1) =>
        let m := myHello s1 nonce
        linkSend (modLink s1 k fun x => { x with
          rekeying := true, signed := false, helloTx := some m, helloRx := none, ctTx := [], secretTx := [] }) k
          (.rekey m [] []))

/-- This side's part of a rekey that the peer started, or goes on with (R410). -/
def rekeyPart (s : State) (k : Nat) (msg : HelloMsg) : Option State :=
  let s0 := if (getLink s k).rekeying then some s
    else (draw s 32).map fun r => modLink r.2 k fun x => { x with
      rekeying := true, signed := false, helloTx := some (myHello r.2 r.1), helloRx := none, ctTx := [], secretTx := [] }
  s0.bind fun s1 => if (getLink s1 k).helloRx.isSome then some s1 else linkEncaps s1 k msg

/-- Answer to a rekey message: its ciphertext, its signature, or the new keys (R410). -/
def rekeyAnswer (s : State) (k : Nat) (ct sig : Bytes) : Option State :=
  let l := getLink s k
  let hello := l.helloTx.getD (myHello s [])
  let t := transcript s k ct
  if ct = [] then some (linkSend s k (.rekey hello l.ctTx []))
  else if sig = [] then sendSigned s k t (.rekey hello l.ctTx)
  else if !linkVerify s k t sig then some (linkFail s k 4)
  else (sendSigned s k t (.rekey hello l.ctTx)).map fun s1 =>
    let keys := linkKeys s k (linkDecaps s ct) t
    modLink s1 k fun x => { x with rekeying := false, signed := false, newTx := keys.1, newRx := keys.2 }

/-- REKEY (R410): steps 1 to 4 of R409 again, while traffic flows. -/
def onRekey (s : State) (k : Nat) (msg : HelloMsg) (ct sig : Bytes) : Option State :=
  if !carrying (getLink s k) then some s
  else match helloCause s msg with
    | some c => some (linkFail s k c)
    | none => (rekeyPart s k msg).bind fun s1 => rekeyAnswer s1 k ct sig

/-- What a message of the keying exchange does. -/
def keyingEffect (s : State) (k : Nat) (m : LinkMsg) : Option State :=
  match m with
  | .hello h => onHello s k h
  | .kemSig ct sig => onKemSig s k ct sig
  | .rekey h ct sig => onRekey s k h ct sig
  | _ => some s

/-- Messages of the exchange that a link held are taken in order, up to the first that must wait longer. -/
def takeList (k : Nat) : List LinkMsg → State → State
  | [], s => s
  | m :: r, s =>
    match keyingEffect (returnCredits (modLink s k fun l => { l with inbox := r }) k m) k m with
    | some t => takeList k r t
    | none => s

/-- Take what a link's inbox holds, while links may key (R407). -/
def takeInbox (s : State) (k : Nat) : State := if linksMayTrain s then takeList k (getLink s k).inbox s else s

/-- A message of the keying exchange arrives. Where links may not key it is acknowledged and waits in its buffer, so that no exchange and no
rekey goes on there (R407, R412). -/
def onKeying (s : State) (head : PktHead) (m : LinkMsg) : State :=
  let k := head.link.val
  onFrame s k m head.seq head.check fun t =>
    if linksMayTrain t && (getLink t k).inbox == [] then keyingEffect (returnCredits t k m) k m
    else some (takeInbox (modLink t k fun l => { l with inbox := l.inbox ++ [m] }) k)

/-- HELLO (R409, R413). -/
def execHello (head : PktHead) (msg : HelloMsg) (s : State) : Out := .next (onKeying s head (.hello msg))

/-- KEM_SIG (R409). -/
def execKemSig (head : PktHead) (ct sig : Bytes) (s : State) : Out := .next (onKeying s head (.kemSig ct sig))

/-- REKEY (R410). -/
def execRekey (head : PktHead) (msg : HelloMsg) (ct sig : Bytes) (s : State) : Out := .next (onKeying s head (.rekey msg ct sig))

/-- What the links held while they might not key goes on (R407). -/
def takeInboxes (s : State) : State := (List.range 8).foldl takeInbox s

/-- MODE_RESUME (R39). -/
def execModeResume (cid : Nat) (s : State) : Out :=
  .next (runTurn s cid 0x72 (fun c => firstErr [keeperOperands c [], require (s.sys.mode == .held) .badParam 0]) fun _ =>
    let s1 : State := { setMode s s.sys.heldReturn 4 with sys := { (setMode s s.sys.heldReturn 4).sys with
      byAlarm := false, heldReturn := .dormant } }
    if opposed s 2 then s else takeInboxes (retryBerth (done (recordMode (resumeTimers s1)) cid 0)))

/-! ### Lanes, retraining and retries (R406, R416) -/

/-- Half of a lane. -/
def halfOf (lane : Nat) : BitVec 8 := if lane < 4 then lowHalf else 0xF0

/-- The LANE_RETIRED record. -/
def retireHalf (s : State) (k lane : Nat) : State :=
  record (modLink s k fun l => { l with retired := l.retired ||| halfOf lane }) 0x100C k (leBytes 1 lane)

/-- LANE_FAILURE (R416). -/
def execLaneFailure (link : Fin 8) (lane : Fin 8) (s : State) : Out :=
  .next (
    let k := link.val
    let l := getLink s k
    if l.retired.getLsbD lane.val || !(carrying l || l.st == .keying || l.st == .retraining) then s
    else if l.retired ≠ 0 then linkFail s k 5
    else if l.st = .keying then linkFail (retireHalf s k lane.val) k 5
    else if l.st = .retraining then retireHalf s k lane.val
    else startRetrain (retireHalf s k lane.val) k)

/-- RETRAIN_DONE (R406, R414): traffic resumes with a replay. -/
def execRetrainDone (link : Fin 8) (lanes : BitVec 8) (s : State) : Out :=
  .next (
    let k := link.val
    let l := getLink s k
    if l.st ≠ .retraining then s
    else if !widthOk l.retired lanes then linkFail s k 5
    else retryBerth (drainBack (replayAll (modLink s k fun x => { x with st := widthState x.retired }) k) k))

/-- FAILED_RETRY (R406, R407): 100 ms after its entry a FAILED link trains again; a named link that R407 kept UNUSED
trains once it may. -/
def execFailedRetry (link : Fin 8) (s : State) : Out :=
  .next (
    let k := link.val
    let l := getLink s k
    if !linksMayTrain s || l.peer.isNone then s
    else if l.st = .unused then startTraining s k
    else if l.st = .failed && 10000000 ≤ tickNat s - l.failedAt.toNat && l.retired ≠ 0xFF then startTraining s k
    else s)

/-- PEER_TIMEOUT (R425): 1 s after its last link became FAILED. -/
def execPeerTimeout (position : Fin 8) (s : State) : Out :=
  .next (
    let p := position.val
    if !s.topo.ended.contains p && !peerReached s p &&
        (Map.get? s.topo.downSince p).any (fun t => decide (100000000 ≤ tickNat s - t.toNat)) then
      (let s1 := peerRestart s p
       { s1 with topo := { s1.topo with ended := insertNat p s1.topo.ended } })
    else s)

/-- TPREF_LOSS (R437): every link goes down with cause 1. -/
def execTprefLoss (s : State) : Out := .next ((List.range 8).foldl (fun t k => linkFail t k 1) s)

/-- PEER_LOST (R407): cause 8. -/
def execPeerLost (link : Fin 8) (s : State) : Out := .next (linkFail s link.val 8)

/-! ### Forwarded commands (R418 to R420) -/

/-- A command of a peer as this device holds it; it has passed R65 on its own device. -/
def peerCmd (s : State) (k number fn : Nat) (worldS : Bool) (cls : BitVec 6) (entry : Bytes) : Cmd :=
  { newCmd s fn 0 0 (padTo 64 entry) with
    worldS := worldS, cls := cls, grants := 0, origin := some (k, number), originPos := (getLink s k).peer.getD 0 }

/-- CMD (R418): the owning device makes every check of R138. -/
def execCmd (head : PktFrom) (number fn : Nat) (worldS : Bool) (cls : BitVec 6) (entry : Bytes) (chk : PktCheck) (s : State) :
    Out :=
  .next (onPacket s head.link.val (.cmd ((getLink s head.link.val).peer.getD 0) number fn worldS cls entry) head.seq chk fun t =>
    let c := peerCmd t head.link.val number fn worldS cls entry
    startCmd { t with cmds := t.cmds ++ [c], nextId := t.nextId + 1 } c.id)

/-- The command of this device that a peer runs over a link. -/
def forwardedOn (s : State) (k number : Nat) : Option Cmd := (getCmd s number).filter fun c => c.phase == .forwarded k

/-- IN_PULL (R418): the input is read from host memory. -/
def execInPull (head : PktFrom) (number offset len : Nat) (chk : PktCheck) (s : State) : Out :=
  .next (onPacket s head.link.val (.inPull number offset len) head.seq chk fun t =>
    match forwardedOn t head.link.val number with
    | none => t
    | some _ => askPulls (modCmd t number fun x => { x with pulls := x.pulls ++ [(offset, len)] }) number)

/-- Bytes put at an offset of a buffer that may be shorter. -/
def bufAt (b : Bytes) (off : Nat) (d : Bytes) : Bytes := overwrite (padTo (max b.length off) b) off d

/-- IN_DATA (R418): the input is whole when its last byte has come. -/
def execInData (head : PktFrom) (number offset : Nat) (data : Bytes) (chk : PktCheck) (s : State) : Out :=
  .next (onPacket s head.link.val (.inData number offset data) head.seq chk fun t =>
    match t.cmds.find? fun c => c.origin == some (head.link.val, number) && c.asked && c.input.isNone with
    | none => t
    | some c =>
      modCmd t c.id fun x =>
        if (bufAt x.buf offset data).length < inLen x.entry then { x with buf := bufAt x.buf offset data }
        else { x with buf := [], input := some (padTo (inLen x.entry) (bufAt x.buf offset data)) })

/-- OUT_DATA (R418): output bytes go to OUT_IOVA in the order they come; what cannot be written waits for the completion. -/
def execOutData (head : PktFrom) (number offset : Nat) (data : Bytes) (chk : PktCheck) (s : State) : Out :=
  .next (onPacket s head.link.val (.outData number offset data) head.seq chk fun t =>
    match forwardedOn t head.link.val number with
    | none => t
    | some c =>
      let t1 := modCmd t number fun x => { x with buf := bufAt x.buf offset data }
      if offset = c.sent && canReq t c.fn then
        emitWrite (modCmd t1 number fun x => { x with sent := x.sent + data.length }) c.fn (outIova c.entry + BitVec.ofNat 64 offset) data
      else t1)

/-- Number of a granule of a device on the board. -/
def boardGranule (pos g : Nat) : Nat := pos * 131072 + g

/-- Bytes a created key is counted as; the length of an OAEP message is not in the command (log 45). -/
def remoteLen (e : Bytes) : Option Nat :=
  if opcode e = 0x0610 then some 32 else if opcode e = 0x0105 then some 256 else newKeyLen e

/-- Where a berth's charge stands: its position and index, which no other berth of the board has. -/
def boardBerth (h : Nat) : Nat := handlePos h * 65536 + handleIdx h

/-- A berth on another device, and where it is charged to, changed. -/
def modRemote (s : State) (h : Nat) (f : RemoteBerth → RemoteBerth) : State :=
  { s with fns := Map.update s.fns fun _ x => { x with remoteBerths := Map.modify x.remoteBerths (boardBerth h) f } }

/-- Charges of a function once a berth of the board has moved: under its new handle, or none here once it is home, nor its keys'. -/
def renameRemote (home old new : Nat) (x : Fn) : Fn :=
  match Map.get? x.remoteBerths (boardBerth old) with
  | none => x
  | some b =>
    let rest := Map.del x.remoteBerths (boardBerth old)
    if handlePos new = home then { x with remoteBerths := rest, remoteKeys := Map.keep x.remoteKeys fun g _ => !b.binds g }
    else { x with remoteBerths := Map.put rest (boardBerth new) b }

/-- The granule of the board that a command's key operand names: by 0x1_FFFF, slot 0 of the berth it names (R138, R419). -/
def remoteRef (s : State) (e : Bytes) : Option Nat :=
  let h := handleOf e
  if keyRef e = 0x1FFFF then (s.fns.findSome? fun x => Map.get? x.2.remoteBerths (boardBerth h)).bind (·.slot0)
  else some (boardGranule (handlePos h) (keyRef e))

/-- A key of the board is gone: no function is charged for it, and no berth's slot holds it. -/
def dischargeKey (s : State) (g : Option Nat) : State :=
  { s with fns := Map.update s.fns fun _ x => { x with
      remoteKeys := Map.keep x.remoteKeys fun i _ => some i != g,
      remoteBerths := Map.update x.remoteBerths fun _ b => { b with slot0 := b.slot0.filter (some · != g), slot1 := b.slot1.filter (some · != g) } } }

/-- What a DONE of ST_OK changes in the charges of berths: KEY_BIND the slots they hold, BERTH_FREE and
BERTH_MOVE the berths themselves (R419, R421). -/
def chargeBerths (s : State) (e : Bytes) (detail : Nat) : State :=
  let h := handleOf e
  let bound := if bit (le e 41 1) 0 then none else remoteRef s e
  match opcode e with
  | 0x0408 => modRemote s h fun b => if le e 40 1 = 0 then { b with slot0 := bound } else { b with slot1 := bound }
  | 0x41 => { s with fns := Map.update s.fns fun _ x => { x with remoteBerths := Map.del x.remoteBerths (boardBerth h) } }
  | 0x42 => { s with fns := Map.update s.fns fun _ x => renameRemote s.topo.position h detail x }
  | _ => s

/-- What a DONE of ST_OK changes in the charges of the issuer (R419; log 45). -/
def chargeRemote (s : State) (c : Cmd) (detail : Nat) : State :=
  let e := c.entry
  let pos := handlePos (handleOf e)
  let s1 := match remoteLen e with
    | some l =>
      let g := if opcode e = 0x0610 then Config.treeBase + le e 42 2 else detail
      modFn s c.fn fun x => { x with remoteKeys := Map.put x.remoteKeys (boardGranule pos g) (keyGranules l) }
    | none => s
  let s2 := chargeBerths s1 e detail
  if opcode e = 0x0405 || (opcode e = 0x0110 && le e 42 1 = 3) then dischargeKey s2 (remoteRef s e) else s2

/-- The status of a code (Table 179). -/
def statusOf (code : Nat) : Option Status := Status.all.find? fun st => st.code == code

/-- DONE of a command: sent on once where a forwarding entry of the peer answered (R423), else its result. -/
def onDone (s : State) (c : Cmd) (st : Status) (outLen detail : Nat) : State :=
  if st = .berthMoved && !c.again && handlePos detail != handlePos (handleOf c.entry) then redirect s c.id detail
  else if st = .ok then
    finish (modCmd (chargeRemote s c detail) c.id fun x => { x with buf := [], pulls := [] }) c.id
      { status := .ok, detail := detail, out := padTo outLen c.buf }
  else endForwarded s c st detail

/-- DONE (R418). -/
def execDone (head : PktFrom) (number status outLen detail : Nat) (chk : PktCheck) (s : State) : Out :=
  .next (onPacket s head.link.val (.done number status outLen detail) head.seq chk fun t =>
    match forwardedOn t head.link.val number, statusOf status with
    | some c, some st => onDone t c st outLen detail
    | _, _ => t)

/-! ### Moves (R421, Table 152) -/

/-- Place the keys of a berth that arrives: each old granule with its new one; none when granules are lacking. -/
def placeMoved : List (Nat × Key) → State → Option (State × List (Nat × Nat))
  | [], s => some (s, [])
  | (g, k) :: r, s =>
    match lowestFree s (keyGranules k.len) with
    | [] => none
    | h :: t =>
      if t.length < tailGranules k.len then none
      else
        let m := (drawMasks (1 + t.length) s).getD ([], s)
        let s1 := putKey m.2 h (Key.granuled { k with tail := t, spilled := false, version := 0 } m.1)
        (placeMoved r s1).map fun p => (p.1, (g, h) :: p.2)

/-- A slot's key after the move. -/
def movedSlot (m : List (Nat × Nat)) (g : Option Nat) : Option Nat := g.bind fun x => (m.find? fun p => p.1 == x).map (·.2)

/-- Step 3 of R421 at the target. -/
def arrive (s : State) (k move : Nat) (b : Berth) (keys : List (Nat × Key)) : State :=
  match nextIndex s, placeMoved keys s with
  | some i, some (s1, m) =>
    let b1 : Berth := { b with
      roleEpoch := b.roleEpoch + 1, slot0 := movedSlot m b.slot0, slot1 := movedSlot m b.slot1, incoming := some move,
      moving := none, freeing := false }
    let s2 := placeBerth s1 i b1
    let s3 : State := { s2 with topo := { s2.topo with arrivals := Map.put s2.topo.arrivals move (keys.map (·.1)) } }
    linkSend s3 k (.xferAck move (BitVec.ofNat 32 (mkHandle s3.topo.position b1.roleEpoch.toNat i)))
  | _, _ => linkSend s k (.xferAbort move)

/-- BERTH_XFER (R421 step 3). -/
def execBerthXfer (head : PktHead) (move : Nat) (berth : Berth) (keys : List (Nat × Key)) (s : State) : Out :=
  .next (onPacket s head.link.val (.berthXfer move 0 berth keys) head.seq head.check fun t =>
    if (t.keys.berths.any fun e => e.2.incoming == some move) then t else arrive t head.link.val move berth keys)

/-- Forwarding entries with one more; the oldest goes when there are 4,096 (R422). -/
def addForward (l : List Forward) (f : Forward) : List Forward :=
  (if Config.forwardTotal ≤ l.length then l.drop 1 else l) ++ [f]

/-- A berth of a function of this device now lies on another one: its charge, and its owner's keys that moved (R419;
log 45). -/
def chargeAway (s : State) (b : Berth) (h : Nat) (keys : List (Nat × Key)) : State :=
  if b.ownerPos ≠ s.topo.position then s
  else
    let pos := handlePos h
    let r : RemoteBerth :=
      { persistent := berthSurvives b, slot0 := b.slot0.map (boardGranule pos), slot1 := b.slot1.map (boardGranule pos) }
    let s1 := modFn s b.owner fun x => { x with remoteBerths := Map.put x.remoteBerths (boardBerth h) r }
    keys.foldl (fun t e => if e.2.ownerPos = t.topo.position then
        modFn t e.2.owner fun x => { x with
          remoteKeys := Map.put x.remoteKeys (boardGranule pos e.1) (keyGranules e.2.len) }
      else t) s1

/-- Step 4 of R421: the source commits the move. -/
def commitMove (s : State) (k : Nat) (m : Move) (b : Berth) (handle : Word) : State :=
  let f : Forward := { index := m.index, owner := b.owner, ownerPos := b.ownerPos, epoch := b.roleEpoch, handle := handle }
  let keys := (boundKeys b).filterMap fun g => (Map.get? s.keys.keys g).map fun x => (g, x)
  let s1 := (boundKeys b).foldl loseKey (freeBerth s m.index)
  let s2 := chargeAway s1 b handle.toNat keys
  let moves := s2.topo.moves.map fun x => if x.id = m.id then { x with committed := true, handle := handle } else x
  let s3 : State := { s2 with topo := { s2.topo with forwards := addForward s2.topo.forwards f, moves := moves } }
  retryBerth (done (linkSend s3 k (.xferCommit m.id)) m.cid handle.toNat)

/-- XFER_ACK (R421 step 4). -/
def execXferAck (head : PktHead) (move : Nat) (handle : Word) (s : State) : Out :=
  .next (onPacket s head.link.val (.xferAck move handle) head.seq head.check fun t =>
    match t.topo.moves.find? fun m => m.id == move && !m.committed && !m.aborted with
    | none => t
    | some m =>
      match Map.get? t.keys.berths m.index with
      | some b => commitMove t head.link.val m b handle
      | none => t)

/-- A berth of a function of this device has come home: the charges of its keys elsewhere end; its own ended with the DONE of its
BERTH_MOVE (R419; log 45). -/
def chargeHome (s : State) (b : Berth) (pos : Nat) (old : List Nat) : State :=
  if b.ownerPos ≠ s.topo.position then s
  else modFn s b.owner fun x => { x with
    remoteKeys := old.foldl (fun r g => Map.del r (boardGranule pos g)) x.remoteKeys }

/-- XFER_COMMIT (R421 step 5): the berth is active, and the commands that waited for it go on. -/
def execXferCommit (head : PktHead) (move : Nat) (s : State) : Out :=
  .next (onPacket s head.link.val (.xferCommit move) head.seq head.check fun t =>
    match t.keys.berths.find? fun e => e.2.incoming == some move with
    | none => t
    | some (i, b) =>
      let old := (Map.get? t.topo.arrivals move).getD []
      let t1 := chargeHome (modBerth t i fun x => { x with incoming := none }) b ((getLink t head.link.val).peer.getD 0) old
      retryBerth { t1 with topo := { t1.topo with arrivals := Map.del t1.topo.arrivals move } })

/-- XFER_ABORT (R421, Table 152): the target discards, or the source's move ends ST_BUSY with DETAIL 0x0A. -/
def execXferAbort (head : PktHead) (move : Nat) (s : State) : Out :=
  .next (onPacket s head.link.val (.xferAbort move) head.seq head.check fun t =>
    match t.keys.berths.find? fun e => e.2.incoming == some move with
    | some (i, b) => discardIncoming t i b
    | none =>
      match t.topo.moves.find? fun m => m.id == move && !m.committed with
      | none => t
      | some m =>
        let t1 : State := { t with topo := { t.topo with moves := t.topo.moves.filter fun x => x.id != move } }
        if m.aborted then t1 else endMove t1 m.cid m.index .busy 0x0A)

/-- END_FUNC (R425): kinds 0 FLR and 1 PERST_N name one function, kind 2 every function of the peer. -/
def execEndFunc (head : PktHead) (fn kind : Nat) (s : State) : Out :=
  .next (onPacket s head.link.val (.endFunc ((getLink s head.link.val).peer.getD 0) fn kind) head.seq head.check fun t =>
    let pos := (getLink t head.link.val).peer.getD 0
    if kind = 2 then peerRestart t pos else endPeerFns t pos [fn])

end Sys2Proof.Machine
end

