-- ==== Sys2Proof/Machine/Vector.lean ====
section
/-!
DEFINITION. The lattice vector instructions (Table 75, R217 to R238): one meaning for each, over the shapes of Lanes.
-/

namespace Sys2Proof.Machine

/-- NOP: nothing but its step. -/
def execNop (e : Fin 32) (f : FmtA) (s : State) : Out := .next (lveStep s e (.nop e f) fun c l _ =>
  .ok l c.frame 0)

/-- VADD: (a + b) mod 2^EW. -/
def execVadd (e : Fin 32) (f : FmtA) (s : State) : Out := .next (lveStep s e (.vadd e f) fun c l _ =>
  linAB c l f fun a b => (a + b) % 2 ^ ew f.w)

/-- VSUB: (a − b) mod 2^EW. -/
def execVsub (e : Fin 32) (f : FmtA) (s : State) : Out := .next (lveStep s e (.vsub e f) fun c l _ =>
  linAB c l f fun a b => (a + (2 ^ ew f.w - b)) % 2 ^ ew f.w)

/-- VMADD: (a + b) mod q. -/
def execVmadd (e : Fin 32) (f : FmtA) (s : State) : Out := .next (lveStep s e (.vmadd e f) fun c l _ =>
  linMod c l f fun q a b => (a + b) % q)

/-- VMSUB: (a − b) mod q. -/
def execVmsub (e : Fin 32) (f : FmtA) (s : State) : Out := .next (lveStep s e (.vmsub e f) fun c l _ =>
  linMod c l f fun q a b => (a + (q - b % q)) % q)

/-- VMMUL: (a · b) mod q, arithmetic shares. -/
def execVmmul (e : Fin 32) (f : FmtA) (s : State) : Out := .next (lveStep s e (.vmmul e f) fun c l _ =>
  gad1 c l f false false fun q a b => a * b % q)

/-- VMMULM: (a · b · 2^−EW) mod q, arithmetic shares. -/
def execVmmulm (e : Fin 32) (f : FmtA) (s : State) : Out := .next (lveStep s e (.vmmulm e f) fun c l _ =>
  gad1 c l f false false (montMul f.w))

/-- VMMULT: (a · t) mod q with the public vector at the IMM address. -/
def execVmmult (e : Fin 32) (f : FmtA) (s : State) : Out := .next (lveStep s e (.vmmult e f) fun c l _ =>
  withTable c l f [f.vd.val] fun q t =>
    .ok (putV l f.vd.val (linReg l f (getV l f.vd.val) fun k e => lanesIn l f f.va k e * t e % q)) c.frame 0)

/-- VBFLY: with tt = w · VA, VD becomes VD + tt and VA becomes VD − tt, mod q. -/
def execVbfly (e : Fin 32) (f : FmtA) (s : State) : Out := .next (lveStep s e (.vbfly e f) fun c l base =>
  butterfly c l f base fun q a b w => ((a + w * b) % q, (a + (q - w * b % q)) % q))

/-- VIBFLY: VD becomes VD + VA and VA becomes w · (VD − VA), mod q. -/
def execVibfly (e : Fin 32) (f : FmtA) (s : State) : Out := .next (lveStep s e (.vibfly e f) fun c l base =>
  butterfly c l f base fun q a b w => ((a + b) % q, w * (a + (q - b % q)) % q))

/-- VSADD: saturating add. -/
def execVsadd (e : Fin 32) (f : FmtA) (s : State) : Out := .next (lveStep s e (.vsadd e f) fun c l _ =>
  linAB c l f (satAddLane f.w (f.imm.getLsbD 0)))

/-- VSSUB: saturating subtract. -/
def execVssub (e : Fin 32) (f : FmtA) (s : State) : Out := .next (lveStep s e (.vssub e f) fun c l _ =>
  linAB c l f (satSubLane f.w (f.imm.getLsbD 0)))

/-- VRSHR: rounding right shift. -/
def execVrshr (e : Fin 32) (f : FmtA) (s : State) : Out := .next (lveStep s e (.vrshr e f) fun c l _ =>
  linAB c l f fun a _ => roundShift f.w (f.imm.getLsbD 8) (bits f.imm.toNat 0 5) a)

/-- VCMPR: compress; arithmetic shares in, Boolean shares out. -/
def execVcmpr (e : Fin 32) (f : FmtA) (s : State) : Out := .next (lveStep s e (.vcmpr e f) fun c l _ =>
  gad1 c l f false true fun q a _ => compress (bits f.imm.toNat 0 5) q a)

/-- VDCMPR: decompress; Boolean shares in, arithmetic shares out, in 0 to q − 1 (R229). -/
def execVdcmpr (e : Fin 32) (f : FmtA) (s : State) : Out := .next (lveStep s e (.vdcmpr e f) fun c l _ =>
  gad1 c l f true false fun q a _ => decompress (bits f.imm.toNat 0 5) q a % q)

/-- VP2R: Power2Round; high part to VD, low part to VD + 1. -/
def execVp2r (e : Fin 32) (f : FmtA) (s : State) : Out := .next (lveStep s e (.vp2r e f) fun c l _ =>
  gad2 c l f (fun _ => false) (power2Round (bits f.imm.toNat 0 5)))

/-- VDEC: Decompose; high part to VD, low part to VD + 1; 2 · γ2 at or above q faults (R237). -/
def execVdec (e : Fin 32) (f : FmtA) (s : State) : Out := .next (lveStep s e (.vdec e f) fun c l _ =>
  gad2 c l f (fun q => decide (q ≤ 2 * bits f.imm.toNat 0 24)) (decompose (bits f.imm.toNat 0 24)))

/-- VCACC: min(VD + a, SAT), unsigned (R229). -/
def execVcacc (e : Fin 32) (f : FmtA) (s : State) : Out := .next (lveStep s e (.vcacc e f) fun c l _ =>
  .ok (putV l f.vd.val (linReg l f (getV l f.vd.val) fun k e =>
    min (lanesIn l f f.vd k e + lanesIn l f f.va k e) (bits f.imm.toNat 0 24))) c.frame 0)

/-- VSEL: P[PG] bit e selects a or b in every lane (R220). -/
def execVsel (e : Fin 32) (f : FmtA) (s : State) : Out := .next (lveStep s e (.vsel e f) fun c l _ =>
  let r := fun k e => if active l f.pg.val e then lanesIn l f f.va k e else lanesIn l f f.vb k e
  .ok (putV l f.vd.val (destReg f.w (fun _ => true) false (getV l f.vd.val) (upTo l.d 0 (r 0)) (upTo l.d 1 (r 1))
    (upTo l.d 2 (r 2)))) c.frame 0)

/-- VAND. -/
def execVand (e : Fin 32) (f : FmtA) (s : State) : Out := .next (lveStep s e (.vand e f) fun c l _ =>
  linAB c l f fun a b => Nat.land a b)

/-- VOR. -/
def execVor (e : Fin 32) (f : FmtA) (s : State) : Out := .next (lveStep s e (.vor e f) fun c l _ =>
  linAB c l f fun a b => Nat.lor a b)

/-- VXOR: exact on Boolean shares. -/
def execVxor (e : Fin 32) (f : FmtA) (s : State) : Out := .next (lveStep s e (.vxor e f) fun c l _ =>
  linAB c l f fun a b => Nat.xor a b)

/-- VSHL: (a << s) mod 2^EW. -/
def execVshl (e : Fin 32) (f : FmtA) (s : State) : Out := .next (lveStep s e (.vshl e f) fun c l _ =>
  linAB c l f fun a _ => a * 2 ^ bits f.imm.toNat 0 5 % 2 ^ ew f.w)

/-- VSHR: a >> s. -/
def execVshr (e : Fin 32) (f : FmtA) (s : State) : Out := .next (lveStep s e (.vshr e f) fun c l _ =>
  linAB c l f fun a _ => a / 2 ^ bits f.imm.toNat 0 5)

/-- VB2A: Boolean shares of x to arithmetic shares of x mod q (R230). -/
def execVb2a (e : Fin 32) (f : FmtA) (s : State) : Out := .next (lveStep s e (.vb2a e f) fun c l _ =>
  gad1 c l f true false fun q a _ => a % q)

/-- VA2B: arithmetic shares to Boolean shares of the value in 0 to q − 1 (R230). -/
def execVa2b (e : Fin 32) (f : FmtA) (s : State) : Out := .next (lveStep s e (.va2b e f) fun c l _ =>
  gad1 c l f false true fun q a _ => a % q)

/-- VREF: fresh shares of the same value; a copy at order 0 (R230). -/
def execVref (e : Fin 32) (f : FmtA) (s : State) : Out := .next (lveStep s e (.vref e f) fun c l _ =>
  if f.imm.getLsbD 0 then
    .ok (putV (drew l (maskCount l 1)) f.vd.val
      (gadReg l f true 1 0 (getV l f.vd.val) fun e => unshared f.w l.d true 1 (getV l f.va.val) e)) c.frame 0
  else gad1 c l f false false fun _ a _ => a)

/-- VUNMASK: the unshared value into plane 0, planes 1 and 2 zero (R230). -/
def execVunmask (e : Fin 32) (f : FmtA) (s : State) : Out := .next (lveStep s e (.vunmask e f) fun c l _ =>
  if f.imm.getLsbD 0 then pubV c l f fun e => unshared f.w l.d true 1 (getV l f.va.val) e
  else match modulus l f with
    | none => faultV c l 0 0 [f.vd.val]
    | some q => pubV c l f fun e => unshared f.w l.d false q (getV l f.va.val) e)

/-- VMOV. -/
def execVmov (e : Fin 32) (f : FmtA) (s : State) : Out := .next (lveStep s e (.vmov e f) fun c l _ =>
  linAB c l f fun a _ => a)

/-- VLI: IMM in every active lane. -/
def execVli (e : Fin 32) (f : FmtA) (s : State) : Out := .next (lveStep s e (.vli e f) fun c l _ =>
  pubV c l f fun _ => bits f.imm.toNat 0 24)

/-- VIOTA: (IMM + e) mod 2^EW. -/
def execViota (e : Fin 32) (f : FmtA) (s : State) : Out := .next (lveStep s e (.viota e f) fun c l _ =>
  pubV c l f fun i => (bits f.imm.toNat 0 24 + i) % 2 ^ ew f.w)

/-- VBCAST: S[SA] mod 2^EW. -/
def execVbcast (e : Fin 32) (f : FmtA) (s : State) : Out := .next (lveStep s e (.vbcast e f) fun c l _ =>
  pubV c l f fun _ => (getS l (f.va.val % 16)).toNat % 2 ^ ew f.w)

/-- VEXT: S[SD] becomes lane IMM of VA, zero-extended. -/
def execVext (e : Fin 32) (f : FmtA) (s : State) : Out := .next (lveStep s e (.vext e f) fun c l _ =>
  .ok (putS l (f.vd.val % 16) (BitVec.ofNat 32 (lanesIn l f f.va 0 (bits f.imm.toNat 0 6)))) c.frame 0)

/-- VCMP: predicate from a comparison (R226). -/
def execVcmp (e : Fin 32) (f : FmtA) (s : State) : Out := .next (lveStep s e (.vcmp e f) fun c l _ =>
  pubP c l f fun i => condHolds f.w (bits f.imm.toNat 0 3) (lanesIn l f f.va 0 i) (lanesIn l f f.vb 0 i))

/-- VCMPI: predicate from a comparison with IMM[31:8]. -/
def execVcmpi (e : Fin 32) (f : FmtA) (s : State) : Out := .next (lveStep s e (.vcmpi e f) fun c l _ =>
  pubP c l f fun i => condHolds f.w (bits f.imm.toNat 0 3) (lanesIn l f f.va 0 i) (bits f.imm.toNat 8 24))

/-- VNORM: |centred(a, q)| ≥ bound. -/
def execVnorm (e : Fin 32) (f : FmtA) (s : State) : Out := .next (lveStep s e (.vnorm e f) fun c l _ =>
  match modulus l f with
    | none => .fault 0 0 (putP l (f.vd.val % 8) 0) c.frame
    | some q => pubP c l f fun i => decide (bits f.imm.toNat 0 24 ≤ (centred (lanesIn l f f.va 0 i) q).natAbs))

/-- PLOG: 0 AND, 1 OR, 2 XOR, 3 PA AND NOT PB. -/
def execPlog (e : Fin 32) (f : FmtA) (s : State) : Out := .next (lveStep s e (.plog e f) fun c l _ =>
  let x := getP l (f.va.val % 8)
  let y := getP l (f.vb.val % 8)
  let r := match bits f.imm.toNat 0 2 with
    | 0 => x &&& y
    | 1 => x ||| y
    | 2 => x ^^^ y
    | _ => x &&& ~~~y
  .ok (putP l (f.vd.val % 8) (if f.w then r &&& 0xFFFFFFFF else r)) c.frame 0)

/-- PFIRST: bits 0 to n − 1 set, the rest zero. -/
def execPfirst (e : Fin 32) (f : FmtA) (s : State) : Out := .next (lveStep s e (.pfirst e f) fun c l _ =>
  .ok (putP l (f.vd.val % 8) (BitVec.ofNat 64 (2 ^ bits f.imm.toNat 0 7 - 1))) c.frame 0)

/-- PCNT: the bits set among bits 0 to L − 1. -/
def execPcnt (e : Fin 32) (f : FmtA) (s : State) : Out := .next (lveStep s e (.pcnt e f) fun c l _ =>
  let n := ((List.range (laneCount f.w)).filter fun i => (getP l (f.va.val % 8)).getLsbD i).length
  .ok (putS l (f.vd.val % 16) (BitVec.ofNat 32 n)) c.frame 0)

/-- QSET: writes Q[QM] (R221). -/
def execQset (e : Fin 32) (f : FmtA) (s : State) : Out := .next (lveStep s e (.qset e f) fun c l _ =>
  .ok (putQ l f.qm.val (BitVec.ofNat 24 f.imm.toNat)) c.frame 0)

/-- VLD: contiguous load of NF fields. -/
def execVld (e : Fin 32) (f : FmtM) (s : State) : Out := .next (lveStep s e (.vld e f) fun c l _ => loadM c l f false)

/-- VST: contiguous store of NF fields. -/
def execVst (e : Fin 32) (f : FmtM) (s : State) : Out := .next (lveStep s e (.vst e f) fun c l _ => storeM c l f false)

/-- VGTH: gather of NF-field structures. -/
def execVgth (e : Fin 32) (f : FmtM) (s : State) : Out := .next (lveStep s e (.vgth e f) fun c l _ => loadM c l f true)

/-- VSCT: scatter of NF-field structures; the higher lane remains (R233). -/
def execVsct (e : Fin 32) (f : FmtM) (s : State) : Out := .next (lveStep s e (.vsct e f) fun c l _ => storeM c l f true)

/-- VLDP: packed load (R234). -/
def execVldp (e : Fin 32) (f : FmtM) (s : State) : Out := .next (lveStep s e (.vldp e f) fun c l _ => loadPacked c l f)

/-- VSTP: packed store (R234). -/
def execVstp (e : Fin 32) (f : FmtM) (s : State) : Out := .next (lveStep s e (.vstp e f) fun c l _ => storePacked c l f)

/-- SLI: S[SD] = IMM. -/
def execSli (e : Fin 32) (f : FmtS) (s : State) : Out := .next (lveStep s e (.sli e f) fun c l _ =>
  .ok (putS l f.sd.val f.imm) c.frame 0)

/-- SALU: S[SD] = S[SA] op y. -/
def execSalu (e : Fin 32) (f : FmtS) (s : State) : Out := .next (lveStep s e (.salu e f) fun c l _ =>
  .ok (putS l f.sd.val (saluOp f.fn.val (getS l f.sa.val) (if f.i then f.imm else getS l f.sb.val))) c.frame 0)

/-- SLD: S[SD] = the frame word; a fault leaves SD zero (R237, R238). -/
def execSld (e : Fin 32) (f : FmtS) (s : State) : Out := .next (lveStep s e (.sld e f) fun c l _ =>
  let a := scalarAddr l f
  if elemOk (lveFrame c) 4 a then .ok (putS l f.sd.val (BitVec.ofNat 32 (readSpace c false a 4))) c.frame 0
  else .fault 0 a (putS l f.sd.val 0) c.frame)

/-- SST: the frame word = S[SD]. -/
def execSst (e : Fin 32) (f : FmtS) (s : State) : Out := .next (lveStep s e (.sst e f) fun c l _ =>
  let a := scalarAddr l f
  if elemOk (lveFrame c) 4 a then .ok l (memWrite 0 c.frame a (leBytes 4 (getS l f.sd.val).toNat)) 0
  else .fault 0 a l c.frame)

end Sys2Proof.Machine
end

