-- ==== Sys2Proof/Machine/Dispatch.lean ====
section
/-!
DEFINITION. The dispatch of commands: one arm for each constructor, each a direct call of its meaning.
-/

namespace Sys2Proof.Machine

/-- The effect of a command on everything but the queue. -/
def exec (i : Instr) (s : State) : Host.Outcome State Fault Refusal :=
  match i with
  | .nop e f => Sys2Proof.Machine.execNop e f s
  | .vadd e f => Sys2Proof.Machine.execVadd e f s
  | .vsub e f => Sys2Proof.Machine.execVsub e f s
  | .vmadd e f => Sys2Proof.Machine.execVmadd e f s
  | .vmsub e f => Sys2Proof.Machine.execVmsub e f s
  | .vmmul e f => Sys2Proof.Machine.execVmmul e f s
  | .vmmulm e f => Sys2Proof.Machine.execVmmulm e f s
  | .vmmult e f => Sys2Proof.Machine.execVmmult e f s
  | .vbfly e f => Sys2Proof.Machine.execVbfly e f s
  | .vibfly e f => Sys2Proof.Machine.execVibfly e f s
  | .vsadd e f => Sys2Proof.Machine.execVsadd e f s
  | .vssub e f => Sys2Proof.Machine.execVssub e f s
  | .vrshr e f => Sys2Proof.Machine.execVrshr e f s
  | .vcmpr e f => Sys2Proof.Machine.execVcmpr e f s
  | .vdcmpr e f => Sys2Proof.Machine.execVdcmpr e f s
  | .vp2r e f => Sys2Proof.Machine.execVp2r e f s
  | .vdec e f => Sys2Proof.Machine.execVdec e f s
  | .vcacc e f => Sys2Proof.Machine.execVcacc e f s
  | .vsel e f => Sys2Proof.Machine.execVsel e f s
  | .vand e f => Sys2Proof.Machine.execVand e f s
  | .vor e f => Sys2Proof.Machine.execVor e f s
  | .vxor e f => Sys2Proof.Machine.execVxor e f s
  | .vshl e f => Sys2Proof.Machine.execVshl e f s
  | .vshr e f => Sys2Proof.Machine.execVshr e f s
  | .vb2a e f => Sys2Proof.Machine.execVb2a e f s
  | .va2b e f => Sys2Proof.Machine.execVa2b e f s
  | .vref e f => Sys2Proof.Machine.execVref e f s
  | .vunmask e f => Sys2Proof.Machine.execVunmask e f s
  | .vmov e f => Sys2Proof.Machine.execVmov e f s
  | .vli e f => Sys2Proof.Machine.execVli e f s
  | .viota e f => Sys2Proof.Machine.execViota e f s
  | .vbcast e f => Sys2Proof.Machine.execVbcast e f s
  | .vext e f => Sys2Proof.Machine.execVext e f s
  | .vcmp e f => Sys2Proof.Machine.execVcmp e f s
  | .vcmpi e f => Sys2Proof.Machine.execVcmpi e f s
  | .vnorm e f => Sys2Proof.Machine.execVnorm e f s
  | .plog e f => Sys2Proof.Machine.execPlog e f s
  | .pfirst e f => Sys2Proof.Machine.execPfirst e f s
  | .pcnt e f => Sys2Proof.Machine.execPcnt e f s
  | .vld e f => Sys2Proof.Machine.execVld e f s
  | .vst e f => Sys2Proof.Machine.execVst e f s
  | .vgth e f => Sys2Proof.Machine.execVgth e f s
  | .vsct e f => Sys2Proof.Machine.execVsct e f s
  | .vldp e f => Sys2Proof.Machine.execVldp e f s
  | .vstp e f => Sys2Proof.Machine.execVstp e f s
  | .qset e f => Sys2Proof.Machine.execQset e f s
  | .sli e f => Sys2Proof.Machine.execSli e f s
  | .salu e f => Sys2Proof.Machine.execSalu e f s
  | .sld e f => Sys2Proof.Machine.execSld e f s
  | .sst e f => Sys2Proof.Machine.execSst e f s
  | .mainPowerGood keeperSel => Sys2Proof.Machine.execMainPowerGood keeperSel s
  | .mainPowerLost torn => Sys2Proof.Machine.execMainPowerLost torn s
  | .devResetNAssert torn => Sys2Proof.Machine.execDevResetNAssert torn s
  | .devResetNRelease keeperSel => Sys2Proof.Machine.execDevResetNRelease keeperSel s
  | .devSoftReset fn value torn => Sys2Proof.Machine.execDevSoftReset fn value torn s
  | .perstN port => Sys2Proof.Machine.execPerstN port s
  | .hotReset port => Sys2Proof.Machine.execHotReset port s
  | .d3hotToD0 fn => Sys2Proof.Machine.execD3hotToD0 fn s
  | .trstN => Sys2Proof.Machine.execTrstN s
  | .flr fn => Sys2Proof.Machine.execFlr fn s
  | .flrTakeEffect fn => Sys2Proof.Machine.execFlrTakeEffect fn s
  | .flrCleanupDone fn => Sys2Proof.Machine.execFlrCleanupDone fn s
  | .busMasterEnableWrite fn command control2 => Sys2Proof.Machine.execBusMasterEnableWrite fn command control2 s
  | .sriovConfigWrite port vfEnable numVfs => Sys2Proof.Machine.execSriovConfigWrite port vfEnable numVfs s
  | .rom integrity => Sys2Proof.Machine.execRom integrity s
  | .otpLc failedSlots => Sys2Proof.Machine.execOtpLc failedSlots s
  | .ucode slotA slotB => Sys2Proof.Machine.execUcode slotA slotB s
  | .bootImageLoad fn value => Sys2Proof.Machine.execBootImageLoad fn value s
  | .hostImageLoaded image => Sys2Proof.Machine.execHostImageLoaded image s
  | .selftest memoryOk katOk => Sys2Proof.Machine.execSelftest memoryOk katOk s
  | .rngFill condOk expOk => Sys2Proof.Machine.execRngFill condOk expOk s
  | .install fails => Sys2Proof.Machine.execInstall fails s
  | .pollPass fn => Sys2Proof.Machine.execPollPass fn s
  | .sqDoorbellRead fn qid line => Sys2Proof.Machine.execSqDoorbellRead fn qid line s
  | .cqDoorbellRead fn qid line => Sys2Proof.Machine.execCqDoorbellRead fn qid line s
  | .doorbellFail fn qid cq => Sys2Proof.Machine.execDoorbellFail fn qid cq s
  | .pushWrite fn offset data => Sys2Proof.Machine.execPushWrite fn offset data s
  | .fetch fn qid => Sys2Proof.Machine.execFetch fn qid s
  | .entryReadDone fn qid data => Sys2Proof.Machine.execEntryReadDone fn qid data s
  | .accept fn qid sequencer => Sys2Proof.Machine.execAccept fn qid sequencer s
  | .inputReadDone cid data failed => Sys2Proof.Machine.execInputReadDone cid data failed s
  | .completionWrite cid => Sys2Proof.Machine.execCompletionWrite cid s
  | .createSq cid => Sys2Proof.Machine.execCreateSq cid s
  | .createCq cid => Sys2Proof.Machine.execCreateCq cid s
  | .destroySq cid => Sys2Proof.Machine.execDestroySq cid s
  | .destroyCq cid => Sys2Proof.Machine.execDestroyCq cid s
  | .disableSq cid => Sys2Proof.Machine.execDisableSq cid s
  | .enableSq cid => Sys2Proof.Machine.execEnableSq cid s
  | .funcEnable cid => Sys2Proof.Machine.execFuncEnable cid s
  | .funcDisable cid => Sys2Proof.Machine.execFuncDisable cid s
  | .funcDisableEffect cid => Sys2Proof.Machine.execFuncDisableEffect cid s
  | .funcQuench cid => Sys2Proof.Machine.execFuncQuench cid s
  | .quenchDone cid => Sys2Proof.Machine.execQuenchDone cid s
  | .funcDrained fn => Sys2Proof.Machine.execFuncDrained fn s
  | .funcSetLimits cid => Sys2Proof.Machine.execFuncSetLimits cid s
  | .classGrantsChange fn => Sys2Proof.Machine.execClassGrantsChange fn s
  | .funcSetWorld cid => Sys2Proof.Machine.execFuncSetWorld cid s
  | .loadTimetable cid => Sys2Proof.Machine.execLoadTimetable cid s
  | .timetableReplace => Sys2Proof.Machine.execTimetableReplace s
  | .setTargets cid => Sys2Proof.Machine.execSetTargets cid s
  | .setTargetState cid => Sys2Proof.Machine.execSetTargetState cid s
  | .setModeration cid => Sys2Proof.Machine.execSetModeration cid s
  | .setTopology cid => Sys2Proof.Machine.execSetTopology cid s
  | .setCalendar cid => Sys2Proof.Machine.execSetCalendar cid s
  | .setEnvironment cid => Sys2Proof.Machine.execSetEnvironment cid s
  | .berthAlloc cid => Sys2Proof.Machine.execBerthAlloc cid s
  | .berthFree cid => Sys2Proof.Machine.execBerthFree cid s
  | .berthFreeDone cid => Sys2Proof.Machine.execBerthFreeDone cid s
  | .berthMove cid => Sys2Proof.Machine.execBerthMove cid s
  | .berthQuery cid => Sys2Proof.Machine.execBerthQuery cid s
  | .loadPlan cid => Sys2Proof.Machine.execLoadPlan cid s
  | .unloadPlan cid => Sys2Proof.Machine.execUnloadPlan cid s
  | .planCopyIn planId => Sys2Proof.Machine.execPlanCopyIn planId s
  | .planRewrite planId => Sys2Proof.Machine.execPlanRewrite planId s
  | .lcTransition cidFails => Sys2Proof.Machine.execLcTransition cidFails s
  | .debugChallenge cid => Sys2Proof.Machine.execDebugChallenge cid s
  | .debugResponse cid => Sys2Proof.Machine.execDebugResponse cid s
  | .recorderMark cid => Sys2Proof.Machine.execRecorderMark cid s
  | .modeHold cid => Sys2Proof.Machine.execModeHold cid s
  | .modeResume cid => Sys2Proof.Machine.execModeResume cid s
  | .kemEncaps cid => Sys2Proof.Machine.execKemEncaps cid s
  | .kemDecaps cid => Sys2Proof.Machine.execKemDecaps cid s
  | .dhAgree cid => Sys2Proof.Machine.execDhAgree cid s
  | .rsaOaepEncap cid => Sys2Proof.Machine.execRsaOaepEncap cid s
  | .rsaOaepDecap cid => Sys2Proof.Machine.execRsaOaepDecap cid s
  | .hybridKex cid => Sys2Proof.Machine.execHybridKex cid s
  | .sign cid => Sys2Proof.Machine.execSign cid s
  | .verify cid => Sys2Proof.Machine.execVerify cid s
  | .aeadEncrypt cid => Sys2Proof.Machine.execAeadEncrypt cid s
  | .aeadDecrypt cid => Sys2Proof.Machine.execAeadDecrypt cid s
  | .cipherEncrypt cid => Sys2Proof.Machine.execCipherEncrypt cid s
  | .cipherDecrypt cid => Sys2Proof.Machine.execCipherDecrypt cid s
  | .hash cid => Sys2Proof.Machine.execHash cid s
  | .macGenerate cid => Sys2Proof.Machine.execMacGenerate cid s
  | .macVerify cid => Sys2Proof.Machine.execMacVerify cid s
  | .kdf cid => Sys2Proof.Machine.execKdf cid s
  | .keyWrite cid => Sys2Proof.Machine.execKeyWrite cid s
  | .keyWritePublic cid => Sys2Proof.Machine.execKeyWritePublic cid s
  | .keyGenerate cid => Sys2Proof.Machine.execKeyGenerate cid s
  | .keyPublic cid => Sys2Proof.Machine.execKeyPublic cid s
  | .keyDestroy cid => Sys2Proof.Machine.execKeyDestroy cid s
  | .keyDestroyZeroise granule => Sys2Proof.Machine.execKeyDestroyZeroise granule s
  | .keyQuery cid => Sys2Proof.Machine.execKeyQuery cid s
  | .keyShare cid => Sys2Proof.Machine.execKeyShare cid s
  | .keyBind cid => Sys2Proof.Machine.execKeyBind cid s
  | .wrapOut cid => Sys2Proof.Machine.execWrapOut cid s
  | .wrapIn cid => Sys2Proof.Machine.execWrapIn cid s
  | .kwWrap cid => Sys2Proof.Machine.execKwWrap cid s
  | .kwUnwrap cid => Sys2Proof.Machine.execKwUnwrap cid s
  | .random cid => Sys2Proof.Machine.execRandom cid s
  | .ctrRead cid fails => Sys2Proof.Machine.execCtrRead cid fails s
  | .ctrIncrement cid fails => Sys2Proof.Machine.execCtrIncrement cid fails s
  | .hbsKeygen cid fails => Sys2Proof.Machine.execHbsKeygen cid fails s
  | .hbsSign cid => Sys2Proof.Machine.execHbsSign cid s
  | .leafReserve cid fails => Sys2Proof.Machine.execLeafReserve cid fails s
  | .hbsQuery cid fails => Sys2Proof.Machine.execHbsQuery cid fails s
  | .nvmRead cid => Sys2Proof.Machine.execNvmRead cid s
  | .nvmWrite cid fails => Sys2Proof.Machine.execNvmWrite cid fails s
  | .timeRead cid => Sys2Proof.Machine.execTimeRead cid s
  | .timestamp cid => Sys2Proof.Machine.execTimestamp cid s
  | .seal cid => Sys2Proof.Machine.execSeal cid s
  | .sealLink cid => Sys2Proof.Machine.execSealLink cid s
  | .planRun cid => Sys2Proof.Machine.execPlanRun cid s
  | .arbiterVisit => Sys2Proof.Machine.execArbiterVisit s
  | .segmentEnd cid kind flags => Sys2Proof.Machine.execSegmentEnd cid kind flags s
  | .dispatchBoundary sequencer => Sys2Proof.Machine.execDispatchBoundary sequencer s
  | .engineStall kind index => Sys2Proof.Machine.execEngineStall kind index s
  | .dualRailFault kind index => Sys2Proof.Machine.execDualRailFault kind index s
  | .trapMicroword sequencer => Sys2Proof.Machine.execTrapMicroword sequencer s
  | .sramCorrected region word => Sys2Proof.Machine.execSramCorrected region word s
  | .sramUncorrectable region word => Sys2Proof.Machine.execSramUncorrectable region word s
  | .gmMacFail region => Sys2Proof.Machine.execGmMacFail region s
  | .edcRetry recovered write region => Sys2Proof.Machine.execEdcRetry recovered write region s
  | .gmRefresh => Sys2Proof.Machine.execGmRefresh s
  | .gmRetrain => Sys2Proof.Machine.execGmRetrain s
  | .tailSpill granule => Sys2Proof.Machine.execTailSpill granule s
  | .tailRecall granule record => Sys2Proof.Machine.execTailRecall granule record s
  | .berthSpill index => Sys2Proof.Machine.execBerthSpill index s
  | .berthRecall index record => Sys2Proof.Machine.execBerthRecall index record s
  | .keyReshare => Sys2Proof.Machine.execKeyReshare s
  | .ucodeCheck digestOk => Sys2Proof.Machine.execUcodeCheck digestOk s
  | .paceWindow rates => Sys2Proof.Machine.execPaceWindow rates s
  | .wearWindow => Sys2Proof.Machine.execWearWindow s
  | .recordCommit fails => Sys2Proof.Machine.execRecordCommit fails s
  | .glitchEvent rail uv => Sys2Proof.Machine.execGlitchEvent rail uv s
  | .slowExcursion rail uv => Sys2Proof.Machine.execSlowExcursion rail uv s
  | .stateCodeEvent checker unit => Sys2Proof.Machine.execStateCodeEvent checker unit s
  | .alarmSetResponse => Sys2Proof.Machine.execAlarmSetResponse s
  | .clearAllErase => Sys2Proof.Machine.execClearAllErase s
  | .vcoreBandSettle => Sys2Proof.Machine.execVcoreBandSettle s
  | .timebaseCheck vbakUv => Sys2Proof.Machine.execTimebaseCheck vbakUv s
  | .vbakRetentionLoss => Sys2Proof.Machine.execVbakRetentionLoss s
  | .backupPowerOn => Sys2Proof.Machine.execBackupPowerOn s
  | .crystalStop => Sys2Proof.Machine.execCrystalStop s
  | .timeLost => Sys2Proof.Machine.execTimeLost s
  | .noiseSample raw => Sys2Proof.Machine.execNoiseSample raw s
  | .testWindowEnd => Sys2Proof.Machine.execTestWindowEnd s
  | .refillComplete condOk expOk => Sys2Proof.Machine.execRefillComplete condOk expOk s
  | .rngWaitTimeout cid => Sys2Proof.Machine.execRngWaitTimeout cid s
  | .rngDrawTimeout cid => Sys2Proof.Machine.execRngDrawTimeout cid s
  | .rngKatCtrlRun fn value => Sys2Proof.Machine.execRngKatCtrlRun fn value s
  | .moderationTimer fn qid => Sys2Proof.Machine.execModerationTimer fn qid s
  | .wakeHoldExpire fn vec => Sys2Proof.Machine.execWakeHoldExpire fn vec s
  | .keeperStall fn => Sys2Proof.Machine.execKeeperStall fn s
  | .intSoftPend fn value => Sys2Proof.Machine.execIntSoftPend fn value s
  | .maskClear fn n value => Sys2Proof.Machine.execMaskClear fn n value s
  | .clearCount fn n value => Sys2Proof.Machine.execClearCount fn n value s
  | .msixUnmask fn w => Sys2Proof.Machine.execMsixUnmask fn w s
  | .maintenanceEnter fn value => Sys2Proof.Machine.execMaintenanceEnter fn value s
  | .maintenanceLeave fn value => Sys2Proof.Machine.execMaintenanceLeave fn value s
  | .kqEnable fn value => Sys2Proof.Machine.execKqEnable fn value s
  | .kqDisable fn value => Sys2Proof.Machine.execKqDisable fn value s
  | .resetIdx fn value => Sys2Proof.Machine.execResetIdx fn value s
  | .monWindowWrite fn n value => Sys2Proof.Machine.execMonWindowWrite fn n value s
  | .monThreshWrite fn n value => Sys2Proof.Machine.execMonThreshWrite fn n value s
  | .alarmCfgLock fn value => Sys2Proof.Machine.execAlarmCfgLock fn value s
  | .monFuse fn value => Sys2Proof.Machine.execMonFuse fn value s
  | .dbgCtrlClose fn value => Sys2Proof.Machine.execDbgCtrlClose fn value s
  | .tbNowLoRead fn => Sys2Proof.Machine.execTbNowLoRead fn s
  | .calNowLoRead fn => Sys2Proof.Machine.execCalNowLoRead fn s
  | .registerWrite fn offset data => Sys2Proof.Machine.execRegisterWrite fn offset data s
  | .extest => Sys2Proof.Machine.execExtest s
  | .idcode => Sys2Proof.Machine.execIdcode s
  | .samplePreload => Sys2Proof.Machine.execSamplePreload s
  | .clamp => Sys2Proof.Machine.execClamp s
  | .highz => Sys2Proof.Machine.execHighz s
  | .bypass => Sys2Proof.Machine.execBypass s
  | .dbgAccess => Sys2Proof.Machine.execDbgAccess s
  | .debugSpaceAccess dr => Sys2Proof.Machine.execDebugSpaceAccess dr s
  | .linkTrained link lanes peerPosition peerDevices => Sys2Proof.Machine.execLinkTrained link lanes peerPosition peerDevices s
  | .linkKeyed link => Sys2Proof.Machine.execLinkKeyed link s
  | .hello link msg => Sys2Proof.Machine.execHello link msg s
  | .kemSig link ct sig => Sys2Proof.Machine.execKemSig link ct sig s
  | .rekey link msg ct sig => Sys2Proof.Machine.execRekey link msg ct sig s
  | .rekeyStart link => Sys2Proof.Machine.execRekeyStart link s
  | .credit link channel count => Sys2Proof.Machine.execCredit link channel count s
  | .ack link seq => Sys2Proof.Machine.execAck link seq s
  | .nak link => Sys2Proof.Machine.execNak link s
  | .replayTimeout link => Sys2Proof.Machine.execReplayTimeout link s
  | .laneFailure link lane => Sys2Proof.Machine.execLaneFailure link lane s
  | .retrainDone link lanes => Sys2Proof.Machine.execRetrainDone link lanes s
  | .failedRetry link => Sys2Proof.Machine.execFailedRetry link s
  | .peerTimeout position => Sys2Proof.Machine.execPeerTimeout position s
  | .cmd link number fn worldS cls entry chk => Sys2Proof.Machine.execCmd link number fn worldS cls entry chk s
  | .inPull link number offset len chk => Sys2Proof.Machine.execInPull link number offset len chk s
  | .inData link number offset data chk => Sys2Proof.Machine.execInData link number offset data chk s
  | .outData link number offset data chk => Sys2Proof.Machine.execOutData link number offset data chk s
  | .done link number status outLen detail chk => Sys2Proof.Machine.execDone link number status outLen detail chk s
  | .berthXfer link move berth keys => Sys2Proof.Machine.execBerthXfer link move berth keys s
  | .xferAck link move handle => Sys2Proof.Machine.execXferAck link move handle s
  | .xferCommit link move => Sys2Proof.Machine.execXferCommit link move s
  | .xferAbort link move => Sys2Proof.Machine.execXferAbort link move s
  | .endFunc link fn kind => Sys2Proof.Machine.execEndFunc link fn kind s
  | .vio18Good => Sys2Proof.Machine.execVio18Good s
  | .vio18Lost => Sys2Proof.Machine.execVio18Lost s
  | .tbclkStart => Sys2Proof.Machine.execTbclkStart s
  | .crystalEdge => Sys2Proof.Machine.execCrystalEdge s
  | .gmTrainingDone trained density32 => Sys2Proof.Machine.execGmTrainingDone trained density32 s
  | .rngFillTimeout => Sys2Proof.Machine.execRngFillTimeout s
  | .rngKatDone condOk expOk => Sys2Proof.Machine.execRngKatDone condOk expOk s
  | .d0ToD3hot fn => Sys2Proof.Machine.execD0ToD3hot fn s
  | .perstNRelease port => Sys2Proof.Machine.execPerstNRelease port s
  | .tprefLoss => Sys2Proof.Machine.execTprefLoss s
  | .peerLost link => Sys2Proof.Machine.execPeerLost link s

end Sys2Proof.Machine
end

