-- ==== Sys2Proof/Machine/Step.lean ====
section
/-!
DEFINITION. The step: the command at the front of the queue, or one TBCLK tick when the queue is empty.
-/

namespace Sys2Proof.Machine

/-- An idle step: TBCLK advances the timebase by one while it runs (R294, R437; log 2), and seed queues are refilled (R197). -/
def idle (s : State) : State :=
  if s.sys.tbclk && s.sys.mode != .dormant then refillAll { s with sys := { s.sys with tick := s.sys.tick + 1 } } else s

/-- One step of the block: the front command acts on the state with the queue's rest (log 2). -/
def step (s : State) : Host.Outcome State Fault Refusal :=
  match s.pending with
  | [] => .next (idle s)
  | c :: r => exec c { s with pending := r }

/-- The state with the command a word spells in front of its queue; no row of the table gives bits. -/
def State.withFetchWord (s : State) (nbits w : Nat) : State :=
  match decodeTableWord nbits w with
  | some c => { s with pending := c :: s.pending }
  | none => s

end Sys2Proof.Machine
end

