-- ==== Sys2Proof/Safety.lean ====
section
/-!
DEFINITION. What counts as a safe step: it answers a next state. The only stop of the model is a refusal by name.
-/

namespace Sys2Proof.Machine

/-- The step from a state answers a next state. -/
def Safe (s : State) : Prop := ∃ t, step s = .next t

end Sys2Proof.Machine
end

