-- ==== Sys2Proof/Certificates/Slice0/Obligations.lean ====
section
/-!
DEFINITION. The statements for the provers, `Obligations.<Name> : Prop`, over the vocabulary of `Sys2Proof.Claims`.
Where a clause rests on a choice of the model, its docstring names the log entry.
-/

open Sys2Proof Sys2Proof.Machine

namespace Sys2Proof.Claims

/-! ### Vector instructions -/

/-- A destination register after an instruction that works in every plane up to the share order `d`: active lanes hold
the result, inactive lanes keep their value or are zero, and planes above `d` keep their active lanes (R220, R222). -/
def LaneWrite (w : Bool) (act : Nat → Bool) (pz : Bool) (d : Nat) (old new : VReg) (r : (plane lane : Nat) → Nat) : Prop :=
  ∀ k e, k < 3 → e < laneCount w → laneOf w (new.plane k) e =
    if act e then (if k ≤ d then r k e % 2 ^ ew w else laneOf w (old.plane k) e)
    else if pz then 0 else laneOf w (old.plane k) e

/-- Everything of an engine but the vector registers named is as before. -/
def KeepsBut (l l' : Lve) (rs : List Nat) : Prop :=
  { l' with v := l.v } = l ∧ ∀ j, j < 32 → j ∉ rs → getV l' j = getV l j

/-- The instruction completes: the next word follows, its steps are counted, and the engine is as `P` says. -/
def LveCompletes (e : Fin 32) (i : Instr) (s : State) (c : Cmd) (frame : List Host.Cell) (masks : Nat) (P : Lve → Prop) : Prop :=
  ∃ x l', lveForm i = some x ∧ exec i s = .next (lveDone s e x c l' frame masks) ∧ P l'

/-- VD holds, lane by lane and plane by plane, an operation of VA and VB. -/
def LinLaw (f : FmtA) (l l' : Lve) (op : (a b : Nat) → Nat) : Prop :=
  LaneWrite f.w (guardA l f) f.pz l.d (getV l f.vd.val) (getV l' f.vd.val)
    (fun k e => op (lanesIn l f f.va k e) (lanesIn l f f.vb k e)) ∧ KeepsBut l l' [f.vd.val]

/-- The unshared value of every active lane of a destination is `r`; inactive lanes follow R220. `bool` says which shares it
holds. -/
def ShareLaw (f : FmtA) (l : Lve) (bool : Bool) (q : Nat) (old new : VReg) (r : (lane : Nat) → Nat) : Prop :=
  ∀ e, e < laneCount f.w →
    if guardA l f e then unshared f.w l.d bool q new e = (if l.d = 0 || bool then r e % 2 ^ ew f.w else r e % q)
    else ∀ k, k < 3 → laneOf f.w (new.plane k) e = if f.pz then 0 else laneOf f.w (old.plane k) e

/-- The modulus of an instruction is set to a value that QSET can write and the width holds. -/
def ModulusIs (l : Lve) (f : FmtA) (q : Nat) : Prop := modulus l f = some q ∧ 3 ≤ q ∧ q % 2 = 1

/-- A public result: plane 0 of every active lane holds `r`, planes 1 and 2 of it zero (R223). -/
def PublicLaw (f : FmtA) (l l' : Lve) (r : (lane : Nat) → Nat) : Prop :=
  LaneWrite f.w (guardA l f) f.pz 2 (getV l f.vd.val) (getV l' f.vd.val) (fun k e => if k = 0 then r e else 0)
    ∧ KeepsBut l l' [f.vd.val]

/-- A predicate result (R219, R226): bits of active lanes are `b`, inactive ones keep their bit or are zero, bits at and
above L are zero; P0 reads as ones whatever is written (R217). -/
def PredicateLaw (f : FmtA) (l l' : Lve) (b : (lane : Nat) → Bool) : Prop :=
  (∀ e, e < 64 → (getP l' (f.vd.val % 8)).getLsbD e =
    if f.vd.val % 8 = 0 then true
    else decide (e < laneCount f.w) && (if guardA l f e then b e else !f.pz && (getP l (f.vd.val % 8)).getLsbD e))
  ∧ { l' with p := l.p } = l ∧ ∀ j, j < 8 → j ≠ f.vd.val % 8 → getP l' j = getP l j

/-- A scalar result, and nothing else of the engine. -/
def ScalarLaw (l l' : Lve) (d : Nat) (v : Word) : Prop :=
  getS l' d = v ∧ { l' with s := l.s } = l ∧ ∀ j, j < 16 → j ≠ d → getS l' j = getS l j

/-- No access of an active element fails (R232, R237). -/
def AccessOk (l : Lve) (f : FmtM) (indexed : Bool) (limit : Nat) : Prop :=
  f.pl.val ≤ l.d ∧ ∀ e k, e < laneCount f.w → active l f.pg.val e = true → k ≤ f.nf.val →
    elemAddr l f indexed e k % elemBytes f.w = 0 ∧ elemAddr l f indexed e k + elemBytes f.w ≤ limit

/-- Lanes of plane PL of a loaded register (R231, R232). -/
def LoadLaw (f : FmtM) (l : Lve) (old new : VReg) (r : (lane : Nat) → Nat) : Prop :=
  ∀ k e, k < 3 → e < laneCount f.w → laneOf f.w (new.plane k) e =
    if active l f.pg.val e then (if k = f.pl.val then r e % 2 ^ ew f.w else laneOf f.w (old.plane k) e)
    else if f.pz then 0 else laneOf f.w (old.plane k) e

/-- The instruction faults precisely at element 0 and leaves the destination registers zero (R237, R238). -/
def FaultsZero (e : Fin 32) (i : Instr) (s : State) (rs : List Nat) : Prop :=
  ∀ (c : Cmd) (l : Lve), lveReady s e i = some (c, l) → exec i s = .next (lveFault s e c (zeroV l rs) c.frame 0 0)

/-- The first access of an instruction that fails, elements and their fields taken in ascending order, is one of element `i` (R232, R237). -/
def FirstFails (l : Lve) (f : FmtM) (indexed : Bool) (limit i : Nat) : Prop :=
  i < laneCount f.w ∧ active l f.pg.val i = true ∧
  (∃ k, k ≤ f.nf.val ∧ ¬(elemAddr l f indexed i k % elemBytes f.w = 0 ∧ elemAddr l f indexed i k + elemBytes f.w ≤ limit)) ∧
  ∀ j k, j < i → active l f.pg.val j = true → k ≤ f.nf.val →
    elemAddr l f indexed j k % elemBytes f.w = 0 ∧ elemAddr l f indexed j k + elemBytes f.w ≤ limit

/-- A load that faults precisely at an element: its destination registers are zero, and the address of the element's field 0 is recorded
(R237, R238). -/
def LoadFaults (e : Fin 32) (i : Instr) (s : State) (c : Cmd) (l : Lve) (rs : List Nat) (element addr : Nat) : Prop :=
  exec i s = .next (lveFault s e c (zeroV l rs) c.frame element addr)

/-- A store that faults precisely at an element: the engine is as it was, and the frame holds what the elements below it store. -/
def StoreFaults (e : Fin 32) (i : Instr) (s : State) (c : Cmd) (l : Lve) (element addr : Nat) (P : List Host.Cell → Prop) : Prop :=
  ∃ frame, exec i s = .next (lveFault s e c l frame element addr) ∧ P frame

/-- The public vector that a table instruction reads (R225, R233), and that no active lane's read fails. -/
def TableOk (c : Cmd) (l : Lve) (f : FmtA) : Prop :=
  ∀ e, e < laneCount f.w → guardA l f e = true →
    elemOk (spaceSize c (immAddr f.imm).2.1) (elemBytes f.w)
      (baseAddr l (immAddr f.imm).1 (immAddr f.imm).2.2 + e * elemBytes f.w) = true

/-- Entry `e` of that vector. -/
def tableAt (c : Cmd) (l : Lve) (f : FmtA) (e : Nat) : Nat :=
  readSpace c (immAddr f.imm).2.1 (baseAddr l (immAddr f.imm).1 (immAddr f.imm).2.2 + e * elemBytes f.w) (elemBytes f.w)
    % 2 ^ ew f.w


/-- `r` is x mod± α. -/
def Centred (x : Nat) (α r : Int) : Prop := -α < 2 * r ∧ 2 * r ≤ α ∧ ((x : Int) - r) % α = 0

/-- The parts of every lane of VP2R or VDEC: high part `hi` in VD and low part `lo` in VD + 1, as fresh arithmetic shares. -/
def PartsLaw (f : FmtA) (l l' : Lve) (q : Nat) (hi lo : Nat → Nat) : Prop :=
  KeepsBut (drew l (maskCount l 2)) l' [f.vd.val, f.vd.val + 1] ∧
    ShareLaw f l false q (getV l f.vd.val) (getV l' f.vd.val) hi ∧
    ShareLaw f l false q (getV l (f.vd.val + 1)) (getV l' (f.vd.val + 1)) lo


/-! ### Frames -/

/-- The parts of the block's state a frame speaks of; `user` is user NVM, `nvm` the rest of the NVM. -/
inductive Part where
  | pending | sys | boot | otp | user | nvm | backup | time | fns | ports | sqs | cqs | cmds | eng | keys | rng | alarm
  | recorder | lc | bkeys | topo | bus | stamp | nextId | free
  deriving DecidableEq, Repr

/-- A part is the same in two states. -/
def Part.same (p : Part) (s t : State) : Prop :=
  match p with
  | .pending => t.pending = s.pending
  | .sys => t.sys = s.sys
  | .boot => t.boot = s.boot
  | .otp => t.otp = s.otp
  | .user => t.nvm.user = s.nvm.user
  | .nvm => { t.nvm with user := s.nvm.user } = s.nvm
  | .backup => t.backup = s.backup
  | .time => t.time = s.time
  | .fns => t.fns = s.fns
  | .ports => t.ports = s.ports
  | .sqs => t.sqs = s.sqs
  | .cqs => t.cqs = s.cqs
  | .cmds => t.cmds = s.cmds
  | .eng => t.eng = s.eng
  | .keys => t.keys = s.keys
  | .rng => t.rng = s.rng
  | .alarm => t.alarm = s.alarm
  | .recorder => t.recorder = s.recorder
  | .lc => t.lc = s.lc
  | .bkeys => t.bkeys = s.bkeys
  | .topo => t.topo = s.topo
  | .bus => t.bus = s.bus
  | .stamp => t.stamp = s.stamp
  | .nextId => t.nextId = s.nextId
  | .free => t.free = s.free

/-- Nothing outside the parts named changes. -/
def Only (s t : State) (ps : List Part) : Prop := ∀ p, p ∉ ps → p.same s t

/-- The command answers a next state that satisfies `P`. -/
def Completes (i : Instr) (s : State) (P : State → Prop) : Prop := ∃ t, exec i s = .next t ∧ P t

/-- BAR 0 of a function acts on a write now (R452, R455): it is open, no FLR clean-up runs, and the mode serves registers. -/
abbrev Writable (s : State) (fn : Nat) : Prop :=
  barOpen s fn = true ∧ (getFn s fn).flr ≠ .cleanup ∧ serving s = true

/-- The keeper block acts on a write of a function now. -/
abbrev KeeperWritable (s : State) (fn : Nat) : Prop := Writable s fn ∧ fn = keeperFn s


/-! ### Commands -/

/-- No input read of a command is outstanding, and nothing of its output stands at OUT_IOVA. -/
abbrev Settled (c : Cmd) : Prop := inputReads c = 0 ∧ c.zeroDue = 0 ∧ c.sent = 0

/-- It is a keeper command's turn (R106, R109), and its reserved inline bytes are zero. -/
abbrev Turn (s : State) (cid op : Nat) (c : Cmd) : Prop := turnOf s cid op = some c ∧ reservedBad c.entry = [] ∧ Settled c

/-- The commands are as they were, but for the input reads they have issued (R433). -/
abbrev AsksOnly (s t : State) : Prop :=
  t.cmds.map (fun c => { c with asked := false, pulled := 0 }) = s.cmds.map fun c => { c with asked := false, pulled := 0 }

/-- A command has ended with a result; its completion is still to be written. -/
def Ended (t : State) (cid : Nat) (st : Status) (detail : Nat) (out : Bytes) : Prop :=
  (getCmd t cid).map (·.phase) = some (.fin { status := st, detail, out })

/-- A keeper command on a berth of this device: its turn, and the berth it names is found and lets it act (R130, R291). -/
abbrev BerthTurn (s : State) (cid op : Nat) (c : Cmd) (may : Cmd → Nat → Nat → Bool) (i : Nat) (b : Berth) : Prop :=
  Turn s cid op c ∧ remote s c = false ∧ findBerth s c (may c) = .berth i b ∧ Map.get? s.keys.berths i = some b


/-- An operation command may act: its checks are passed, its input `d` is there, its segments have run, and no wait of its for the
generator has lasted too long (R361). -/
abbrev Acts (s : State) (cid op : Nat) (c : Cmd) (d : Bytes) : Prop :=
  opReady s cid op = some (c, d) ∧ drawLate s c = false ∧ inputReads c = 0

/-- The input randomness of a command (R197, R354): what its segments drew as they were dispatched, and what of it is still to be drawn. -/
def Drew (s : State) (c : Cmd) (rnd : Bytes) (s1 : State) : Prop :=
  let had := c.rnd.getD []
  let rest := rndNeed s c.entry c.keyA c.keyB - had.length
  if rest = 0 then rnd = had ∧ s1 = s else ∃ b, draw s rest = some (b, s1) ∧ rnd = had ++ b

/-- The generator can serve `n` draws from instances below their reseed count (R353, R355). -/
abbrev DrawsLeft (s : State) (n : Nat) : Prop :=
  s.rng.state = .ready ∧ s.rng.katRun = false ∧
  ∀ i, i < 8 → (s.rng.inst[i]?).any (fun e => decide (e.2 + n ≤ 2 ^ s.rng.reseed)) = true

/-- Key `k` stands at granule `h` with its tail beside it, in shares that stand for its bytes (R267), and every other key is as before;
the command has ended ST_OK with the granule in DETAIL (R139, R143). -/
def KeyPlaced (s t : State) (cid h : Nat) (k : Key) (out : Bytes) : Prop :=
  Ended t cid .ok h out ∧ (∃ k', Map.get? t.keys.keys h = some k' ∧ k'.bytes = k.bytes ∧
    { k' with tail := k.tail, used := k.used, shareA := k.shareA, shareB := k.shareB, attrMask := k.attrMask } = k) ∧
  t.keys.berths = s.keys.berths ∧ ∀ g, g ≠ h → Map.get? t.keys.keys g = Map.get? s.keys.keys g

/-- A new key of `l` bytes finds room at `h`, and the generator can mask its granules after `n` draws (R265, R267). -/
def RoomAt (s : State) (l h n : Nat) : Prop := ∃ tl, roomFor s l = .at h tl ∧ DrawsLeft s (n + 1 + tl.length)

/-- A commit of `words` words to a region of the NVM succeeds: the region is not worn and its spares cover the words that
fail (R262). -/
abbrev RegionTakes (s : State) (region fails : Nat) : Prop :=
  (getWear s.nvm region).worn = false ∧ fails + (getWear s.nvm region).spare ≤ spareWords region

/-- What a command that places a key may change. -/
abbrev placing : List Part := [.keys, .cmds, .eng, .stamp, .rng, .bus, .boot]

/-- What a command that only answers may change: itself, the cache and the engines it ran on; its output may go to its host (R92). -/
abbrev answering : List Part := [.cmds, .eng, .stamp, .bus]

/-- One event is counted on an alarm source that is not fused off (R371), and on no other. -/
def Counted (s t : State) (n : Nat) : Prop :=
  (getMon t n).total = min ((getMon s n).total + 1) 0xFFFFFF ∧ ∀ j, j ≠ n → getMon t j = getMon s j

/-- No command waits at a berth that is moving, and no move is under way: nothing follows the end of a link's state. -/
abbrev Quiet (s : State) : Prop := s.topo.moves = [] ∧ ∀ c ∈ s.cmds, c.phase ≠ .berthWait

/-- A link is FAILED with a cause, and holds no key and no packet (R406, Table 150). -/
def Down (t : State) (k cause : Nat) : Prop :=
  (getLink t k).st = .failed ∧ (getLink t k).cause = cause ∧ (getLink t k).failedAt = t.sys.tick ∧
  (getLink t k).keyTx = [] ∧ (getLink t k).keyRx = [] ∧ (getLink t k).resend = [] ∧ (getLink t k).back = []

/-- A message's packets are the next in order on a link, or those with which the sender's new keys have taken over (R410, R412). -/
def NextInOrder (l : Link) (m : LinkMsg) (seq : DWord) : Prop :=
  (rollRx l (packetCount m) seq).isSome = true

/-- A row that brings a link message: over which link, the SEQ of its last packet, the outcome of its checks, and the message, where the
peer's position is `p` (Table 151). -/
def Carries (i : Instr) (k : Fin 8) (seq : DWord) (chk : PktCheck) (p : Nat) (m : LinkMsg) : Prop :=
  match i with
  | .cmd h n fn w c e x => h = ⟨k, seq⟩ ∧ x = chk ∧ m = .cmd p n fn w c e
  | .inPull h n o l x => h = ⟨k, seq⟩ ∧ x = chk ∧ m = .inPull n o l
  | .inData h n o d x => h = ⟨k, seq⟩ ∧ x = chk ∧ m = .inData n o d
  | .outData h n o d x => h = ⟨k, seq⟩ ∧ x = chk ∧ m = .outData n o d
  | .done h n st l d x => h = ⟨k, seq⟩ ∧ x = chk ∧ m = .done n st l d
  | .hello h x => h = ⟨k, seq, chk⟩ ∧ m = .hello x
  | .kemSig h ct sig => h = ⟨k, seq, chk⟩ ∧ m = .kemSig ct sig
  | .rekey h x ct sig => h = ⟨k, seq, chk⟩ ∧ m = .rekey x ct sig
  | .credit h ch n => h = ⟨k, seq, chk⟩ ∧ m = .credit ch.val n
  | .berthXfer h v b ks => h = ⟨k, seq, chk⟩ ∧ m = .berthXfer v 0 b ks
  | .xferAck h v w => h = ⟨k, seq, chk⟩ ∧ m = .xferAck v w
  | .xferCommit h v => h = ⟨k, seq, chk⟩ ∧ m = .xferCommit v
  | .xferAbort h v => h = ⟨k, seq, chk⟩ ∧ m = .xferAbort v
  | .endFunc h fn kind => h = ⟨k, seq, chk⟩ ∧ m = .endFunc p fn kind
  | _ => False

/-- The keys that came with a berth stand where they were placed, each with the bytes and attributes it had, and every other granule holds
what it held (R421). -/
def KeysArrived (s t : State) (ks : List (Nat × Key)) (mp : List (Nat × Nat)) : Prop :=
  mp.map (·.1) = ks.map (·.1) ∧
  (∀ (j : Nat) (e : Nat × Key) (p : Nat × Nat), ks[j]? = some e → mp[j]? = some p →
    Map.get? s.keys.keys p.2 = none ∧ ∃ y, Map.get? t.keys.keys p.2 = some y ∧ y.bytes = e.2.bytes ∧ y.spilled = false ∧ y.version = 0 ∧
      { y with tail := e.2.tail, used := e.2.used, shareA := e.2.shareA, shareB := e.2.shareB, attrMask := e.2.attrMask,
               spilled := e.2.spilled, version := e.2.version } = e.2) ∧
  ∀ g, (∀ p ∈ mp, p.2 ≠ g) → Map.get? t.keys.keys g = Map.get? s.keys.keys g

/-- A link took a message whose last packet has a sequence number: it is acknowledged under it, and the receive sequence moves on
(R412). -/
def Took (s t : State) (k : Nat) (seq : DWord) : Prop :=
  (getLink t k).seqRx = seq + 1 ∧ Bus.link k (.ack seq) [bare (.ack seq)] ∈ t.bus

/-- No function of a port issues anything more, and the port's reset waits for the next dispatch boundary (R188, R321). -/
def PortStops (s t : State) (p : Nat) : Prop :=
  (∀ f ∈ portFns s p, (getFn t f).bme = false ∧ (getFn t f).flr = if (getFn s f).flr = .cleanup then .cleanup else .requested) ∧
  p ∈ portsWaiting t

/-- The reset of a function has taken effect (R316, Table 97). -/
def ResetTaken (s t : State) (fn : Nat) : Prop :=
  (getFn t fn).flr = .cleanup ∧ (getFn t fn).kq = Kq.reset ∧
  (getFn t fn).msix = [] ∧ (∀ h b, Map.get? (getFn t fn).remoteBerths h = some b → b.persistent = true) ∧
  (∀ q, q < 4096 → Map.get? t.sqs (qKey fn q) = none ∧ Map.get? t.cqs (qKey fn q) = none) ∧
  (∀ c ∈ t.cmds, ¬(c.fn = fn ∧ c.origin = none)) ∧
  t.sys = s.sys ∧ t.otp = s.otp ∧ t.nvm = s.nvm ∧ t.backup = s.backup ∧ t.time = s.time ∧ t.ports = s.ports

/-- Lengths of the public key and the signature at the start of a VERIFY's input (R155). -/
def InputKey (e d : Bytes) (a b : Nat) : Prop :=
  let rest := le e 44 1 + le e 48 4
  if isRsa (le e 40 2) then a = (inLen e - rest - 8) / 2 + 8 ∧ b = (inLen e - rest - 8) / 2
  else if famOf (le e 40 2) = .hbs then hbsVerifyLen (le e 40 2) d = some (a, b) ∧ inLen e = a + b + rest
  else a = pubLen (le e 40 2) ∧ b = sigLen (le e 40 2)

/-- A segment has ended on an engine that is no vector engine: besides the commands, only the engine's seeds and its stall timer
change (R17, R196); of an engine that a debugger steps, one step is used up (R399). -/
def SegmentOver (s t : State) (kind i : Nat) : Prop :=
  Only s t [.cmds, .eng, .lc] ∧ { t.lc with units := s.lc.units } = s.lc ∧ { t.eng with lastStep := s.eng.lastStep, maskGen := s.eng.maskGen } = s.eng ∧
  Map.get? t.eng.lastStep (kind * 256 + i) = some s.sys.tick

/-- OTP and NVM hold what they held. -/
def NonVolatileKept (s t : State) : Prop :=
  t.otp = s.otp ∧ t.nvm.user = s.nvm.user ∧ t.nvm.trees = s.nvm.trees ∧ t.nvm.recs = s.nvm.recs ∧
  t.nvm.slots = s.nvm.slots ∧ t.nvm.identity = s.nvm.identity ∧ t.nvm.ownerRoot = s.nvm.ownerRoot ∧ t.nvm.swk = s.nvm.swk

end Sys2Proof.Claims

open Sys2Proof.Claims

/-! ### Encoding -/

/-- Decoding the word of a vector instruction gives it back, on the engine it runs on, with every field at every value
(Tables 74, 75). -/
def Obligations.LveDecodeOfEncode : Prop :=
  ∀ (i : Instr) (w : Nat), lveEncode i = some w → w < 2 ^ 64 ∧ ∃ e, lveDecode e w = some i

/-- A 64-bit word that decodes is the word of the instruction it decodes to: no bit is dropped and no reserved bit is
set (R236). -/
def Obligations.LveEncodeOfDecode : Prop :=
  ∀ (e : Fin 32) (w : Nat) (i : Instr), w < 2 ^ 64 → lveDecode e w = some i → lveEncode i = some w

/-! ### Vector instructions -/

/-- The instructions of class Lin and No that work on lanes without a modulus: each active lane of each plane of VD,
and nothing else of the engine (Table 75). The saturating and rounding instructions (Table 75): the exact sum,
difference or quotient of the lanes as unsigned or two's complement numbers, clamped or narrowed. -/
def Obligations.LaneArithmetic : Prop :=
  (∀ (e : Fin 32) (f : FmtA) (s : State) (c : Cmd) (l : Lve),
      (lveReady s e (.nop e f) = some (c, l) → LveCompletes e (.nop e f) s c c.frame 0 fun l' => l' = l) ∧
      (lveReady s e (.vadd e f) = some (c, l) →
        LveCompletes e (.vadd e f) s c c.frame 0 fun l' => LinLaw f l l' fun a b => (a + b) % 2 ^ ew f.w) ∧
      (lveReady s e (.vsub e f) = some (c, l) →
        LveCompletes e (.vsub e f) s c c.frame 0 fun l' => LinLaw f l l' fun a b => (((a : Int) - b) % 2 ^ ew f.w).toNat) ∧
      (lveReady s e (.vand e f) = some (c, l) →
        LveCompletes e (.vand e f) s c c.frame 0 fun l' => LinLaw f l l' fun a b => Nat.land a b) ∧
      (lveReady s e (.vor e f) = some (c, l) →
        LveCompletes e (.vor e f) s c c.frame 0 fun l' => LinLaw f l l' fun a b => Nat.lor a b) ∧
      (lveReady s e (.vxor e f) = some (c, l) →
        LveCompletes e (.vxor e f) s c c.frame 0 fun l' => LinLaw f l l' fun a b => Nat.xor a b) ∧
      (lveReady s e (.vshl e f) = some (c, l) →
        LveCompletes e (.vshl e f) s c c.frame 0 fun l' => LinLaw f l l' fun a _ => a * 2 ^ bits f.imm.toNat 0 5) ∧
      (lveReady s e (.vshr e f) = some (c, l) →
        LveCompletes e (.vshr e f) s c c.frame 0 fun l' => LinLaw f l l' fun a _ => a / 2 ^ bits f.imm.toNat 0 5) ∧
      (lveReady s e (.vmov e f) = some (c, l) →
        LveCompletes e (.vmov e f) s c c.frame 0 fun l' => LinLaw f l l' fun a _ => a)) ∧
  (∀ (e : Fin 32) (f : FmtA) (s : State) (c : Cmd) (l : Lve),
      (lveReady s e (.vsadd e f) = some (c, l) → f.imm.getLsbD 0 = false →
        LveCompletes e (.vsadd e f) s c c.frame 0 fun l' => LinLaw f l l' fun a b => min (a + b) (2 ^ ew f.w - 1)) ∧
      (lveReady s e (.vsadd e f) = some (c, l) → f.imm.getLsbD 0 = true →
        LveCompletes e (.vsadd e f) s c c.frame 0 fun l' => LinLaw f l l' fun a b =>
          ((max (-(2 ^ (ew f.w - 1) : Int)) (min (2 ^ (ew f.w - 1) - 1) (sx f.w a + sx f.w b))) % 2 ^ ew f.w).toNat) ∧
      (lveReady s e (.vssub e f) = some (c, l) → f.imm.getLsbD 0 = false →
        LveCompletes e (.vssub e f) s c c.frame 0 fun l' => LinLaw f l l' fun a b => a - b) ∧
      (lveReady s e (.vssub e f) = some (c, l) → f.imm.getLsbD 0 = true →
        LveCompletes e (.vssub e f) s c c.frame 0 fun l' => LinLaw f l l' fun a b =>
          ((max (-(2 ^ (ew f.w - 1) : Int)) (min (2 ^ (ew f.w - 1) - 1) (sx f.w a - sx f.w b))) % 2 ^ ew f.w).toNat) ∧
      (lveReady s e (.vrshr e f) = some (c, l) → f.imm.getLsbD 8 = false → bits f.imm.toNat 0 5 ≠ 0 →
        LveCompletes e (.vrshr e f) s c c.frame 0 fun l' => LinLaw f l l' fun a _ =>
          (a + 2 ^ (bits f.imm.toNat 0 5 - 1)) / 2 ^ bits f.imm.toNat 0 5) ∧
      (lveReady s e (.vrshr e f) = some (c, l) → f.imm.getLsbD 8 = true → bits f.imm.toNat 0 5 ≠ 0 →
        LveCompletes e (.vrshr e f) s c c.frame 0 fun l' => LinLaw f l l' fun a _ =>
          (((sx f.w a + 2 ^ (bits f.imm.toNat 0 5 - 1)) / 2 ^ bits f.imm.toNat 0 5) % 2 ^ ew f.w).toNat) ∧
      (lveReady s e (.vrshr e f) = some (c, l) → bits f.imm.toNat 0 5 = 0 →
        LveCompletes e (.vrshr e f) s c c.frame 0 fun l' => LinLaw f l l' fun a _ => a) ∧
      (lveReady s e (.vcacc e f) = some (c, l) →
        LveCompletes e (.vcacc e f) s c c.frame 0 fun l' =>
          LaneWrite f.w (guardA l f) f.pz l.d (getV l f.vd.val) (getV l' f.vd.val)
            (fun k i => min (lanesIn l f f.vd k i + lanesIn l f f.va k i) (bits f.imm.toNat 0 24))
          ∧ KeepsBut l l' [f.vd.val]) ∧
      (lveReady s e (.vsel e f) = some (c, l) →
        LveCompletes e (.vsel e f) s c c.frame 0 fun l' =>
          LaneWrite f.w (fun _ => true) false l.d (getV l f.vd.val) (getV l' f.vd.val)
            (fun k i => if (getP l f.pg.val).getLsbD i then lanesIn l f f.va k i else lanesIn l f f.vb k i)
          ∧ KeepsBut l l' [f.vd.val]))

/-- The modular instructions of class Lin, with their modulus set (Table 75, R229): every result lies below q. Of
VBFLY and VIBFLY with VD and VA one register the spec states no result (log 27): only that nothing else changes. -/
def Obligations.ModularLanes : Prop :=
  ∀ (e : Fin 32) (f : FmtA) (s : State) (c : Cmd) (l : Lve) (q : Nat), ModulusIs l f q →
    (lveReady s e (.vmadd e f) = some (c, l) →
      LveCompletes e (.vmadd e f) s c c.frame 0 fun l' => LinLaw f l l' fun a b => (a + b) % q) ∧
    (lveReady s e (.vmsub e f) = some (c, l) →
      LveCompletes e (.vmsub e f) s c c.frame 0 fun l' => LinLaw f l l' fun a b => (((a : Int) - b) % q).toNat) ∧
    (lveReady s e (.vmmult e f) = some (c, l) → TableOk c l f →
      LveCompletes e (.vmmult e f) s c c.frame 0 fun l' =>
        LaneWrite f.w (guardA l f) f.pz l.d (getV l f.vd.val) (getV l' f.vd.val)
          (fun k i => lanesIn l f f.va k i * tableAt c l f i % q) ∧ KeepsBut l l' [f.vd.val]) ∧
    (lveReady s e (.vbfly e f) = some (c, l) → TableOk c l f → f.vd ≠ f.va →
      LveCompletes e (.vbfly e f) s c c.frame 0 fun l' =>
        LaneWrite f.w (guardA l f) f.pz l.d (getV l f.vd.val) (getV l' f.vd.val)
          (fun k i => (lanesIn l f f.vd k i + tableAt c l f i * lanesIn l f f.va k i) % q)
        ∧ LaneWrite f.w (guardA l f) f.pz l.d (getV l f.va.val) (getV l' f.va.val)
          (fun k i => (((lanesIn l f f.vd k i : Int) - tableAt c l f i * lanesIn l f f.va k i) % q).toNat)
        ∧ KeepsBut l l' [f.vd.val, f.va.val]) ∧
    (lveReady s e (.vibfly e f) = some (c, l) → TableOk c l f → f.vd ≠ f.va →
      LveCompletes e (.vibfly e f) s c c.frame 0 fun l' =>
        LaneWrite f.w (guardA l f) f.pz l.d (getV l f.vd.val) (getV l' f.vd.val)
          (fun k i => (lanesIn l f f.vd k i + lanesIn l f f.va k i) % q)
        ∧ LaneWrite f.w (guardA l f) f.pz l.d (getV l f.va.val) (getV l' f.va.val)
          (fun k i => ((tableAt c l f i * ((lanesIn l f f.vd k i : Int) - lanesIn l f f.va k i)) % q).toNat)
        ∧ KeepsBut l l' [f.vd.val, f.va.val]) ∧
    (lveReady s e (.vbfly e f) = some (c, l) → TableOk c l f → f.vd = f.va →
      LveCompletes e (.vbfly e f) s c c.frame 192 fun l' => KeepsBut l l' [f.vd.val]) ∧
    (lveReady s e (.vibfly e f) = some (c, l) → TableOk c l f → f.vd = f.va →
      LveCompletes e (.vibfly e f) s c c.frame 192 fun l' => KeepsBut l l' [f.vd.val])

/-- The instructions of class Gad with one destination: whatever the mask bits are, the shares they write unshare to
the operation of Table 75 on the unshared operands (R224, R230), and the mask generator has given its values (R196): 192 for a
destination, which the spec does not state (DESIGN CHOICE, log 96). VREF on Boolean shares needs no modulus (R230, R237). -/
def Obligations.GadgetsUnshare : Prop :=
  (∀ (e : Fin 32) (f : FmtA) (s : State) (c : Cmd) (l : Lve) (q : Nat), l.d ≤ 2 → ModulusIs l f q →
      (lveReady s e (.vmmul e f) = some (c, l) →
        LveCompletes e (.vmmul e f) s c c.frame 0 fun l' => KeepsBut (drew l (maskCount l 1)) l' [f.vd.val] ∧
          ShareLaw f l false q (getV l f.vd.val) (getV l' f.vd.val) fun i =>
            unshared f.w l.d false q (getV l f.va.val) i * unshared f.w l.d false q (getV l f.vb.val) i % q) ∧
      (lveReady s e (.vmmulm e f) = some (c, l) →
        LveCompletes e (.vmmulm e f) s c c.frame 0 fun l' => KeepsBut (drew l (maskCount l 1)) l' [f.vd.val] ∧
          ∃ r : Nat → Nat, ShareLaw f l false q (getV l f.vd.val) (getV l' f.vd.val) r ∧ ∀ i, r i < q ∧
            r i * 2 ^ ew f.w % q =
              unshared f.w l.d false q (getV l f.va.val) i * unshared f.w l.d false q (getV l f.vb.val) i % q) ∧
      (lveReady s e (.vcmpr e f) = some (c, l) →
        LveCompletes e (.vcmpr e f) s c c.frame 0 fun l' => KeepsBut (drew l (maskCount l 1)) l' [f.vd.val] ∧
          ShareLaw f l true q (getV l f.vd.val) (getV l' f.vd.val) fun i =>
            (2 ^ (f.imm.toNat % 32 + 1) * (unshared f.w l.d false q (getV l f.va.val) i % q) + q) / (2 * q) % 2 ^ (f.imm.toNat % 32)) ∧
      (lveReady s e (.vdcmpr e f) = some (c, l) →
        LveCompletes e (.vdcmpr e f) s c c.frame 0 fun l' => KeepsBut (drew l (maskCount l 1)) l' [f.vd.val] ∧
          ShareLaw f l false q (getV l f.vd.val) (getV l' f.vd.val) fun i =>
            (2 * q * (unshared f.w l.d true q (getV l f.va.val) i % 2 ^ (f.imm.toNat % 32)) + 2 ^ (f.imm.toNat % 32))
              / 2 ^ (f.imm.toNat % 32 + 1) % q) ∧
      (lveReady s e (.vb2a e f) = some (c, l) →
        LveCompletes e (.vb2a e f) s c c.frame 0 fun l' => KeepsBut (drew l (maskCount l 1)) l' [f.vd.val] ∧
          ShareLaw f l false q (getV l f.vd.val) (getV l' f.vd.val) fun i => unshared f.w l.d true q (getV l f.va.val) i % q) ∧
      (lveReady s e (.va2b e f) = some (c, l) →
        LveCompletes e (.va2b e f) s c c.frame 0 fun l' => KeepsBut (drew l (maskCount l 1)) l' [f.vd.val] ∧
          ShareLaw f l true q (getV l f.vd.val) (getV l' f.vd.val) fun i => unshared f.w l.d false q (getV l f.va.val) i % q) ∧
      (lveReady s e (.vref e f) = some (c, l) → f.imm.getLsbD 0 = false →
        LveCompletes e (.vref e f) s c c.frame 0 fun l' => KeepsBut (drew l (maskCount l 1)) l' [f.vd.val] ∧
          ShareLaw f l false q (getV l f.vd.val) (getV l' f.vd.val) fun i => unshared f.w l.d false q (getV l f.va.val) i)) ∧
  (∀ (e : Fin 32) (f : FmtA) (s : State) (c : Cmd) (l : Lve), l.d ≤ 2 → f.imm.getLsbD 0 = true →
      lveReady s e (.vref e f) = some (c, l) →
        LveCompletes e (.vref e f) s c c.frame 0 fun l' => KeepsBut (drew l (maskCount l 1)) l' [f.vd.val] ∧
          ShareLaw f l true 1 (getV l f.vd.val) (getV l' f.vd.val) fun i => unshared f.w l.d true 1 (getV l f.va.val) i)

/-- VP2R and VDEC (Table 75, R229): of the residue x of an unshared lane, VP2R answers r0 = x mod± 2^D modulo q and (x − r0) / 2^D;
VDEC r0 = x mod± 2γ2 modulo q and (x − r0) / 2γ2, or, where x − r0 is q − 1, the pair 0 and r0 − 1; VDEC with 2γ2 at or above q
faults (R237). A word whose γ2 is zero is no valid instruction (R236). That both act on arithmetic shares of one value is DEDUCED (log
49), and the number of masks drawn a DESIGN CHOICE (log 96). -/
def Obligations.DecompositionPairs : Prop :=
  ∀ (e : Fin 32) (f : FmtA) (s : State) (c : Cmd) (l : Lve) (q : Nat), l.d ≤ 2 → ModulusIs l f q →
    (lveReady s e (.vp2r e f) = some (c, l) →
      ∃ (hi lo : Nat → Nat) (r0 : Nat → Int),
        (LveCompletes e (.vp2r e f) s c c.frame 0 fun l' => PartsLaw f l l' q hi lo) ∧
        ∀ i, Centred (unshared f.w l.d false q (getV l f.va.val) i % q) (2 ^ (f.imm.toNat % 32)) (r0 i) ∧
          (lo i : Int) = r0 i % q ∧
          (hi i : Int) = ((unshared f.w l.d false q (getV l f.va.val) i % q : Nat) - r0 i) / 2 ^ (f.imm.toNat % 32)) ∧
    (lveReady s e (.vdec e f) = some (c, l) → 0 < f.imm.toNat % 2 ^ 24 → 2 * (f.imm.toNat % 2 ^ 24) < q →
      ∃ (hi lo : Nat → Nat) (r0 : Nat → Int),
        (LveCompletes e (.vdec e f) s c c.frame 0 fun l' => PartsLaw f l l' q hi lo) ∧
        ∀ i, Centred (unshared f.w l.d false q (getV l f.va.val) i % q) (2 * (f.imm.toNat % 2 ^ 24 : Nat)) (r0 i) ∧
          if ((unshared f.w l.d false q (getV l f.va.val) i % q : Nat) : Int) - r0 i = q - 1 then
            hi i = 0 ∧ (lo i : Int) = (r0 i - 1) % q
          else (lo i : Int) = r0 i % q ∧
            (hi i : Int) = ((unshared f.w l.d false q (getV l f.va.val) i % q : Nat) - r0 i) / (2 * (f.imm.toNat % 2 ^ 24 : Nat))) ∧
    (lveReady s e (.vdec e f) = some (c, l) → q ≤ 2 * (f.imm.toNat % 2 ^ 24) →
      exec (.vdec e f) s = .next (lveFault s e c (zeroV l [f.vd.val, f.vd.val + 1]) c.frame 0 0))

/-- The instructions of class Pub and Unmask on a vector register, and VEXT (Table 75, R223, R230). -/
def Obligations.PublicLanes : Prop :=
  ∀ (e : Fin 32) (f : FmtA) (s : State) (c : Cmd) (l : Lve),
    (lveReady s e (.vli e f) = some (c, l) →
      LveCompletes e (.vli e f) s c c.frame 0 fun l' => PublicLaw f l l' fun _ => f.imm.toNat) ∧
    (lveReady s e (.viota e f) = some (c, l) →
      LveCompletes e (.viota e f) s c c.frame 0 fun l' => PublicLaw f l l' fun i => f.imm.toNat + i) ∧
    (lveReady s e (.vbcast e f) = some (c, l) →
      LveCompletes e (.vbcast e f) s c c.frame 0 fun l' => PublicLaw f l l' fun _ => (getS l f.va.val).toNat) ∧
    (lveReady s e (.vunmask e f) = some (c, l) → f.imm.getLsbD 0 = true →
      LveCompletes e (.vunmask e f) s c c.frame 0 fun l' =>
        PublicLaw f l l' fun i => unshared f.w l.d true 1 (getV l f.va.val) i) ∧
    (∀ q, modulus l f = some q → lveReady s e (.vunmask e f) = some (c, l) → f.imm.getLsbD 0 = false →
      LveCompletes e (.vunmask e f) s c c.frame 0 fun l' =>
        PublicLaw f l l' fun i => unshared f.w l.d false q (getV l f.va.val) i) ∧
    (lveReady s e (.vext e f) = some (c, l) →
      LveCompletes e (.vext e f) s c c.frame 0 fun l' =>
        ScalarLaw l l' f.vd.val (BitVec.ofNat 32 (laneOf f.w (getV l f.va.val).p0 f.imm.toNat)))

/-- The predicate instructions (Table 75, R219, R226); P0 stays all ones (R217). -/
def Obligations.PredicateInstructions : Prop :=
  ∀ (e : Fin 32) (f : FmtA) (s : State) (c : Cmd) (l : Lve),
    (lveReady s e (.vcmp e f) = some (c, l) →
      LveCompletes e (.vcmp e f) s c c.frame 0 fun l' => PredicateLaw f l l' fun i =>
        let a := lanesIn l f f.va 0 i
        let b := lanesIn l f f.vb 0 i
        match f.imm.toNat with
        | 0 => decide (a = b)
        | 1 => decide (a ≠ b)
        | 2 => decide (a < b)
        | 3 => decide (b ≤ a)
        | 4 => decide (sx f.w a < sx f.w b)
        | _ => decide (sx f.w b ≤ sx f.w a)) ∧
    (lveReady s e (.vcmpi e f) = some (c, l) →
      LveCompletes e (.vcmpi e f) s c c.frame 0 fun l' => PredicateLaw f l l' fun i =>
        condHolds f.w (f.imm.toNat % 8) (lanesIn l f f.va 0 i) (f.imm.toNat / 256)) ∧
    (∀ q, modulus l f = some q → lveReady s e (.vnorm e f) = some (c, l) →
      LveCompletes e (.vnorm e f) s c c.frame 0 fun l' => PredicateLaw f l l' fun i =>
        decide (f.imm.toNat ≤ (centred (lanesIn l f f.va 0 i) q).natAbs)) ∧
    (lveReady s e (.plog e f) = some (c, l) →
      LveCompletes e (.plog e f) s c c.frame 0 fun l' => { l' with p := l.p } = l
        ∧ (∀ j, j < 8 → j ≠ f.vd.val → getP l' j = getP l j)
        ∧ ∀ b, b < 64 → (getP l' f.vd.val).getLsbD b = if f.vd.val = 0 then true else
          decide (b < laneCount f.w) &&
            (match f.imm.toNat with
             | 0 => (getP l f.va.val).getLsbD b && (getP l f.vb.val).getLsbD b
             | 1 => (getP l f.va.val).getLsbD b || (getP l f.vb.val).getLsbD b
             | 2 => Bool.xor ((getP l f.va.val).getLsbD b) ((getP l f.vb.val).getLsbD b)
             | _ => (getP l f.va.val).getLsbD b && !(getP l f.vb.val).getLsbD b)) ∧
    (lveReady s e (.pfirst e f) = some (c, l) →
      LveCompletes e (.pfirst e f) s c c.frame 0 fun l' => { l' with p := l.p } = l
        ∧ (∀ j, j < 8 → j ≠ f.vd.val → getP l' j = getP l j)
        ∧ ∀ b, b < 64 → (getP l' f.vd.val).getLsbD b = if f.vd.val = 0 then true else decide (b < f.imm.toNat)) ∧
    (lveReady s e (.pcnt e f) = some (c, l) →
      LveCompletes e (.pcnt e f) s c c.frame 0 fun l' => ScalarLaw l l' f.vd.val
        (BitVec.ofNat 32 ((List.range (laneCount f.w)).countP fun b => (getP l f.va.val).getLsbD b)))

/-- The scalar instructions, and QSET with the constants it derives (Table 75, R221); an SLD whose word is misaligned or outside the frame
faults at element 0 and leaves SD zero (R237, R238; its address modulo 2^32: DEDUCED, log 49). -/
def Obligations.ScalarInstructions : Prop :=
  ∀ (e : Fin 32) (a : FmtA) (f : FmtS) (s : State) (c : Cmd) (l : Lve),
    (lveReady s e (.qset e a) = some (c, l) →
      LveCompletes e (.qset e a) s c c.frame 0 fun l' => { l' with q := l.q } = l ∧ a.imm.toNat % 2 = 1 ∧
        (∀ j, j < 4 → getQ l' j = if j = a.qm.val then some (BitVec.ofNat 24 a.imm.toNat) else getQ l j) ∧
        ∀ m q, l'.q.toArray.getD a.qm.val none = some m → q = m.q.toNat →
          m.quo24 = 2 ^ 24 / q ∧ m.quo48 = 2 ^ 48 / q ∧ m.rem24 = 2 ^ 24 % q ∧ m.rem48 = 2 ^ 48 % q ∧
          m.inv12 < 2 ^ 12 ∧ (m.inv12 * q + 1) % 2 ^ 12 = 0 ∧ m.inv24 < 2 ^ 24 ∧ (m.inv24 * q + 1) % 2 ^ 24 = 0) ∧
    (lveReady s e (.sli e f) = some (c, l) →
      LveCompletes e (.sli e f) s c c.frame 0 fun l' => ScalarLaw l l' f.sd.val f.imm) ∧
    (lveReady s e (.salu e f) = some (c, l) →
      LveCompletes e (.salu e f) s c c.frame 0 fun l' => ScalarLaw l l' f.sd.val
        (let x := getS l f.sa.val
         let y := if f.i then f.imm else getS l f.sb.val
         match f.fn.val with
         | 0 => x + y
         | 1 => x - y
         | 2 => x &&& y
         | 3 => x ||| y
         | 4 => x ^^^ y
         | 5 => x <<< (y.toNat % 32)
         | 6 => x >>> (y.toNat % 32)
         | _ => x * y)) ∧
    (lveReady s e (.sld e f) = some (c, l) → scalarAddr l f % 4 = 0 → scalarAddr l f + 4 ≤ lveFrame c →
      LveCompletes e (.sld e f) s c c.frame 0 fun l' =>
        ScalarLaw l l' f.sd.val (BitVec.ofNat 32 (leVal (memRead 0 c.frame (scalarAddr l f) 4)))) ∧
    (lveReady s e (.sld e f) = some (c, l) → ¬(scalarAddr l f % 4 = 0 ∧ scalarAddr l f + 4 ≤ lveFrame c) →
      ∃ l', exec (.sld e f) s = .next (lveFault s e c l' c.frame 0 (scalarAddr l f)) ∧ ScalarLaw l l' f.sd.val 0)

/-- The loads (Table 75, R231 to R234): plane PL of the destination registers, each read before any is written. A misaligned access or one
outside its space faults precisely at the first element that has one, with the destinations zero (R237, R238); so does PL above d, which the
model reports at element 0 with address 0 and ahead of the accesses (DEDUCED, log 49). -/
def Obligations.VectorLoads : Prop :=
  ∀ (e : Fin 32) (f : FmtM) (s : State) (c : Cmd) (l : Lve),
    (lveReady s e (.vld e f) = some (c, l) → AccessOk l f false (spaceSize c f.sp) →
      LveCompletes e (.vld e f) s c c.frame 0 fun l' =>
        KeepsBut l l' ((List.range (f.nf.val + 1)).map (f.vd.val + ·)) ∧
        ∀ k, k ≤ f.nf.val → LoadLaw f l (getV l (f.vd.val + k)) (getV l' (f.vd.val + k)) fun i =>
          readSpace c f.sp (baseAddr l f.sb.val f.disp.toNat + (i * (f.nf.val + 1) + k) * elemBytes f.w) (elemBytes f.w)) ∧
    (lveReady s e (.vgth e f) = some (c, l) → AccessOk l f true (spaceSize c f.sp) →
      LveCompletes e (.vgth e f) s c c.frame 0 fun l' =>
        KeepsBut l l' ((List.range (f.nf.val + 1)).map (f.vd.val + ·)) ∧
        ∀ k, k ≤ f.nf.val → LoadLaw f l (getV l (f.vd.val + k)) (getV l' (f.vd.val + k)) fun i =>
          readSpace c f.sp (baseAddr l f.sb.val f.disp.toNat
            + (laneOf f.w (getV l f.vi.val).p0 i * (f.nf.val + 1) + k) * elemBytes f.w) (elemBytes f.w)) ∧
    (lveReady s e (.vldp e f) = some (c, l) → f.pl.val ≤ l.d →
      baseAddr l f.sb.val f.disp.toNat + laneCount f.w * (f.vi.val + 1) / 8 ≤ spaceSize c f.sp →
      LveCompletes e (.vldp e f) s c c.frame 0 fun l' => KeepsBut l l' [f.vd.val] ∧
        LoadLaw f l (getV l f.vd.val) (getV l' f.vd.val) fun i =>
          bits (readSpace c f.sp (baseAddr l f.sb.val f.disp.toNat) (laneCount f.w * (f.vi.val + 1) / 8))
            (i * (f.vi.val + 1)) (f.vi.val + 1)) ∧
    (∀ i, f.pl.val ≤ l.d → lveReady s e (.vld e f) = some (c, l) → FirstFails l f false (spaceSize c f.sp) i →
      LoadFaults e (.vld e f) s c l ((List.range (f.nf.val + 1)).map (f.vd.val + ·)) i (elemAddr l f false i 0)) ∧
    (∀ i, f.pl.val ≤ l.d → lveReady s e (.vgth e f) = some (c, l) → FirstFails l f true (spaceSize c f.sp) i →
      LoadFaults e (.vgth e f) s c l ((List.range (f.nf.val + 1)).map (f.vd.val + ·)) i (elemAddr l f true i 0)) ∧
    (lveReady s e (.vldp e f) = some (c, l) → f.pl.val ≤ l.d →
      spaceSize c f.sp < baseAddr l f.sb.val f.disp.toNat + laneCount f.w * (f.vi.val + 1) / 8 →
      LoadFaults e (.vldp e f) s c l [f.vd.val] 0 (baseAddr l f.sb.val f.disp.toNat)) ∧
    (l.d < f.pl.val →
      (lveReady s e (.vld e f) = some (c, l) →
        LoadFaults e (.vld e f) s c l ((List.range (f.nf.val + 1)).map (f.vd.val + ·)) 0 0) ∧
      (lveReady s e (.vgth e f) = some (c, l) →
        LoadFaults e (.vgth e f) s c l ((List.range (f.nf.val + 1)).map (f.vd.val + ·)) 0 0) ∧
      (lveReady s e (.vldp e f) = some (c, l) → LoadFaults e (.vldp e f) s c l [f.vd.val] 0 0))

/-- The stores (Table 75, R231 to R234): the frame bytes stored, for VSCT the higher of two lanes that name one
address, and every other byte of the frame; no register of the engine changes. A misaligned access or one outside the frame faults precisely
at the first element that has one, with the elements below it stored (R237, R238); so does PL above d, which the model reports at element 0
with address 0 and ahead of the accesses (DEDUCED, log 49). -/
def Obligations.VectorStores : Prop :=
  ∀ (e : Fin 32) (f : FmtM) (g : FmtS) (s : State) (c : Cmd) (l : Lve),
    (lveReady s e (.vst e f) = some (c, l) → AccessOk l f false (lveFrame c) →
      ∃ frame, LveCompletes e (.vst e f) s c frame 0 (fun l' => l' = l) ∧
        (∀ i k, i < laneCount f.w → active l f.pg.val i = true → k ≤ f.nf.val →
          leVal (memRead 0 frame (elemAddr l f false i k) (elemBytes f.w))
            = laneOf f.w ((getV l (f.vd.val + k)).plane f.pl.val) i) ∧
        ∀ a, (∀ i k, i < laneCount f.w → active l f.pg.val i = true → k ≤ f.nf.val →
            a < elemAddr l f false i k ∨ elemAddr l f false i k + elemBytes f.w ≤ a) →
          memGet 0 frame a = memGet 0 c.frame a) ∧
    (lveReady s e (.vsct e f) = some (c, l) → AccessOk l f true (lveFrame c) →
      ∃ frame, LveCompletes e (.vsct e f) s c frame 0 (fun l' => l' = l) ∧
        (∀ i k, i < laneCount f.w → active l f.pg.val i = true → k ≤ f.nf.val →
          (∀ j, i < j → j < laneCount f.w → active l f.pg.val j = true →
            laneOf f.w (getV l f.vi.val).p0 j ≠ laneOf f.w (getV l f.vi.val).p0 i) →
          leVal (memRead 0 frame (elemAddr l f true i k) (elemBytes f.w))
            = laneOf f.w ((getV l (f.vd.val + k)).plane f.pl.val) i) ∧
        ∀ a, (∀ i k, i < laneCount f.w → active l f.pg.val i = true → k ≤ f.nf.val →
            a < elemAddr l f true i k ∨ elemAddr l f true i k + elemBytes f.w ≤ a) →
          memGet 0 frame a = memGet 0 c.frame a) ∧
    (lveReady s e (.vstp e f) = some (c, l) → f.pl.val ≤ l.d →
      baseAddr l f.sb.val f.disp.toNat + laneCount f.w * (f.vi.val + 1) / 8 ≤ lveFrame c →
      ∃ frame, LveCompletes e (.vstp e f) s c frame 0 (fun l' => l' = l) ∧
        (∀ i, i < laneCount f.w →
          bits (leVal (memRead 0 frame (baseAddr l f.sb.val f.disp.toNat) (laneCount f.w * (f.vi.val + 1) / 8)))
            (i * (f.vi.val + 1)) (f.vi.val + 1) = laneOf f.w ((getV l f.vd.val).plane f.pl.val) i % 2 ^ (f.vi.val + 1)) ∧
        ∀ a, (a < baseAddr l f.sb.val f.disp.toNat ∨
            baseAddr l f.sb.val f.disp.toNat + laneCount f.w * (f.vi.val + 1) / 8 ≤ a) →
          memGet 0 frame a = memGet 0 c.frame a) ∧
    (lveReady s e (.sst e g) = some (c, l) → scalarAddr l g % 4 = 0 → scalarAddr l g + 4 ≤ lveFrame c →
      ∃ frame, LveCompletes e (.sst e g) s c frame 0 (fun l' => l' = l) ∧
        memRead 0 frame (scalarAddr l g) 4 = leBytes 4 (getS l g.sd.val).toNat ∧
        ∀ a, (a < scalarAddr l g ∨ scalarAddr l g + 4 ≤ a) → memGet 0 frame a = memGet 0 c.frame a) ∧
    (∀ i, f.pl.val ≤ l.d → lveReady s e (.vst e f) = some (c, l) → FirstFails l f false (lveFrame c) i →
      StoreFaults e (.vst e f) s c l i (elemAddr l f false i 0) fun frame =>
        (∀ j k, j < i → active l f.pg.val j = true → k ≤ f.nf.val →
          leVal (memRead 0 frame (elemAddr l f false j k) (elemBytes f.w))
            = laneOf f.w ((getV l (f.vd.val + k)).plane f.pl.val) j) ∧
        ∀ a, (∀ j k, j < i → active l f.pg.val j = true → k ≤ f.nf.val →
            a < elemAddr l f false j k ∨ elemAddr l f false j k + elemBytes f.w ≤ a) →
          memGet 0 frame a = memGet 0 c.frame a) ∧
    (∀ i, f.pl.val ≤ l.d → lveReady s e (.vsct e f) = some (c, l) → FirstFails l f true (lveFrame c) i →
      StoreFaults e (.vsct e f) s c l i (elemAddr l f true i 0) fun frame =>
        (∀ j k, j < i → active l f.pg.val j = true → k ≤ f.nf.val →
          (∀ m, j < m → m < i → active l f.pg.val m = true →
            laneOf f.w (getV l f.vi.val).p0 m ≠ laneOf f.w (getV l f.vi.val).p0 j) →
          leVal (memRead 0 frame (elemAddr l f true j k) (elemBytes f.w))
            = laneOf f.w ((getV l (f.vd.val + k)).plane f.pl.val) j) ∧
        ∀ a, (∀ j k, j < i → active l f.pg.val j = true → k ≤ f.nf.val →
            a < elemAddr l f true j k ∨ elemAddr l f true j k + elemBytes f.w ≤ a) →
          memGet 0 frame a = memGet 0 c.frame a) ∧
    (lveReady s e (.vstp e f) = some (c, l) → f.pl.val ≤ l.d →
      lveFrame c < baseAddr l f.sb.val f.disp.toNat + laneCount f.w * (f.vi.val + 1) / 8 →
      StoreFaults e (.vstp e f) s c l 0 (baseAddr l f.sb.val f.disp.toNat) fun frame => frame = c.frame) ∧
    (lveReady s e (.sst e g) = some (c, l) → ¬(scalarAddr l g % 4 = 0 ∧ scalarAddr l g + 4 ≤ lveFrame c) →
      StoreFaults e (.sst e g) s c l 0 (scalarAddr l g) fun frame => frame = c.frame) ∧
    (l.d < f.pl.val →
      (lveReady s e (.vst e f) = some (c, l) → StoreFaults e (.vst e f) s c l 0 0 fun frame => frame = c.frame) ∧
      (lveReady s e (.vsct e f) = some (c, l) → StoreFaults e (.vsct e f) s c l 0 0 fun frame => frame = c.frame) ∧
      (lveReady s e (.vstp e f) = some (c, l) → StoreFaults e (.vstp e f) s c l 0 0 fun frame => frame = c.frame))

/-- A modular instruction on a modulus register that is unset, or that names a modulus of 2^EW or more, faults at
element 0 (R237) and leaves its destinations zero (R238). Of VMMULT, VBFLY and VIBFLY this holds also where the access to the table fails: the
order of the two faults is DEDUCED (log 49). -/
def Obligations.UnsetModulusFaults : Prop :=
  ∀ (e : Fin 32) (f : FmtA) (s : State) (l : Lve), Map.get? s.eng.lves e.val = some l → modulus l f = none →
    FaultsZero e (.vmadd e f) s [f.vd.val] ∧ FaultsZero e (.vmsub e f) s [f.vd.val] ∧
    FaultsZero e (.vmmul e f) s [f.vd.val] ∧ FaultsZero e (.vmmulm e f) s [f.vd.val] ∧
    FaultsZero e (.vmmult e f) s [f.vd.val] ∧ FaultsZero e (.vbfly e f) s [f.vd.val, f.va.val] ∧
    FaultsZero e (.vibfly e f) s [f.vd.val, f.va.val] ∧ FaultsZero e (.vcmpr e f) s [f.vd.val] ∧
    FaultsZero e (.vdcmpr e f) s [f.vd.val] ∧ FaultsZero e (.vp2r e f) s [f.vd.val, f.vd.val + 1] ∧
    FaultsZero e (.vdec e f) s [f.vd.val, f.vd.val + 1] ∧ FaultsZero e (.vb2a e f) s [f.vd.val] ∧
    FaultsZero e (.va2b e f) s [f.vd.val] ∧
    (f.imm.getLsbD 0 = false → FaultsZero e (.vref e f) s [f.vd.val] ∧ FaultsZero e (.vunmask e f) s [f.vd.val]) ∧
    ∀ (c : Cmd), lveReady s e (.vnorm e f) = some (c, l) →
      exec (.vnorm e f) s = .next (lveFault s e c (putP l f.vd.val 0) c.frame 0 0)

/-- A completed instruction moves its engine to the next word, counts its steps, and leaves every other engine, every
other command and everything else of the block alone (R227); past a multiple of 1,024 steps the mask generator goes on to its next
seed (R196). An engine that CONTROL scope has halted has one step less left (R399; DESIGN CHOICE, log 105). -/
def Obligations.InstructionFrame : Prop :=
  ∀ (s : State) (e : Fin 32) (x : LveForm) (c : Cmd) (l' : Lve) (frame : List Host.Cell) (frees : Nat) (t : State),
    t = lveDone s e x c l' frame frees →
    (∃ l, Map.get? t.eng.lves e.val = some l ∧
      { l with maskPos := l'.maskPos } = { l' with pc := l'.pc + 1, steps := l'.steps + lveSteps x l'.d } ∧
      l.maskPos = if (l'.steps + lveSteps x l'.d) / 1024 = l'.steps / 1024 then l'.maskPos else 0) ∧
    (∀ j, j ≠ e.val → Map.get? t.eng.lves j = Map.get? s.eng.lves j) ∧
    (∀ d, getCmd s d = none → getCmd t d = none) ∧
    (∀ d k, d ≠ c.id → getCmd s d = some k → getCmd t d = some k) ∧
    (∀ k, getCmd s c.id = some k → getCmd t c.id = some { k with frame := frame, xbar := c.xbar }) ∧
    { t with eng := s.eng, cmds := s.cmds, free := s.free, lc := s.lc } = s ∧ t.free = s.free + frees ∧
    { t.lc with units := s.lc.units } = s.lc ∧
    (∀ u, Map.get? t.lc.units u =
      if u = 272 + e.val then (Map.get? s.lc.units u).map (· - 1) else Map.get? s.lc.units u) ∧
    { t.eng with lves := s.eng.lves, lastStep := s.eng.lastStep } = s.eng ∧
    Map.get? t.eng.lastStep (256 + e.val) = some s.sys.tick

/-! ### Steps -/

/-- A step takes the command at the front of the queue and answers what exec answers with the queue's rest. -/
def Obligations.StepRunsFrontCommand : Prop :=
  ∀ (c : Instr) (rest : List Instr) (s : State), s.pending = c :: rest →
    step s = exec c { s with pending := rest }

/-- On an empty queue one TBCLK tick passes: the timebase counts by one while TBCLK runs (the model's choice, log 2), and the engines'
seed queues fill, one seed's draw after another (R197); while nothing can be drawn, nothing else changes. -/
def Obligations.IdleStepTicks : Prop :=
  ∀ (s : State), s.pending = [] →
    ∃ t, step s = .next t ∧ Only s t [.sys, .eng, .rng] ∧ { t.sys with tick := s.sys.tick } = s.sys ∧
      { t.eng with seedQ := s.eng.seedQ } = s.eng ∧
      (s.sys.tbclk = true → s.sys.mode ≠ .dormant → t.sys.tick = s.sys.tick + 1) ∧
      (s.sys.tbclk = false ∨ s.sys.mode = .dormant → t = s) ∧
      (canDraw s = false → Only s t [.sys])

/-! ### Reset and supplies -/

/-- Registers after reset, read as BAR 0 reads them (Tables 21, 22, 25 to 30, 113, 114, 117, 127, 147, 174, 175). The
calendar, OTP and NVM behind them are those of a part as made (the model's choice, log 3). -/
def Obligations.ResetRegisters : Prop :=
  let s := State.reset
  s.sys.mode = .boot ∧ s.pending = [] ∧ memWf userBlank s.nvm.user = true ∧
  regValue s 0 0x0010 = 0x00000011 ∧ regValue s 0 0x1000 = 0x00000001 ∧ regValue s 0 0x1100 = 0 ∧
  regValue s 0 0x1104 = 0x00000001 ∧ regValue s 0 0x1110 = 0 ∧ regValue s 0 0x1114 = 0 ∧
  regValue s 0 0x0818 = 4 ∧ regValue s 0 0x081C = 0 ∧ regValue s 0 0x2400 = 0 ∧ regValue s 0 0x2404 = 0x00001000 ∧
  regValue s 0 0x2200 = 0 ∧ regValue s 0 0x2204 = 0 ∧ regValue s 0 0x2810 = 0 ∧ regValue s 0 0x4000 = 0 ∧
  (∀ n, n < 6 → regValue s 0 (0x2004 + 16 * n) = 1000 ∧ regValue s 0 (0x2008 + 16 * n) = 4) ∧
  regValue s 0 0x2130 = 3 ∧ regValue s 0 0x2134 = 3 ∧ regValue s 0 0x2100 = 1 ∧
  ∀ g, Map.get? s.keys.keys g = none

/-- The supplies, the clock and the end of DEV_RESET_N (R42, R43, R45, R434, R437, R473). Loss of main power,
DEV_RESET_N and DEV_SOFT_RESET: every volatile content goes, and OTP, the backup domain and NVM stay, but for what a write
that was cut off leaves in OTP or NVM (R44, R58, R472, R473, Table 20); the queue holds no record but those of the entry to Boot, the
MODE record and that of a debug scope that closes (R380, R403). Where another cause of the same tick stands lower in
Table 15, that one is carried out (R37), so the resets are stated where none does. -/
def Obligations.SuppliesAndResets : Prop :=
  (∀ (s : State) (k : BitVec 3),
      (s.sys.mode = .dormant → s.sys.mainGood = false → s.sys.resetLow = false →
        Completes (.mainPowerGood k) s fun t =>
          t.sys.mode = .boot ∧ t.sys.prev = .dormant ∧ t.sys.cause = 0 ∧ t.sys.keeperSel = k ∧ t.sys.isolated = true ∧
          t.boot = BootSt.reset ∧ t.keys = KeySt.reset ∧ t.cmds = [] ∧ t.fns = [] ∧
          t.otp = s.otp ∧ t.backup = s.backup ∧ t.nvm.user = s.nvm.user ∧ t.nvm.recs = s.nvm.recs ∧ t.pending = s.pending) ∧
      (s.sys.mode = .dormant → s.sys.mainGood = false → s.sys.resetLow = true →
        Completes (.mainPowerGood k) s fun t => Only s t [.sys] ∧ t.sys.mode = .dormant ∧ t.sys.mainGood = true) ∧
      (s.sys.resetLow = true → s.sys.mode ≠ .dormant →
        Completes (.devResetNRelease k) s fun t => Only s t [.sys, .lc] ∧
          t.sys.resetLow = false ∧ t.sys.keeperSel = k ∧ t.sys.mode = s.sys.mode) ∧
      (s.sys.resetLow = true → s.sys.mode = .dormant → s.sys.mainGood = true →
        Completes (.devResetNRelease k) s fun t => t.sys.mode = .boot ∧ t.sys.resetLow = false ∧ t.boot.phase = 1) ∧
      (s.sys.tbclk = false → s.sys.mode ≠ .dormant →
        Completes .tbclkStart s fun t => Only s t [.sys, .boot] ∧ t.sys.tbclk = true ∧
          t.boot.phase = if s.sys.mode = .boot ∧ s.boot.romDone = true ∧ s.boot.phase = 1 then 2 else s.boot.phase) ∧
      (Completes .vio18Good s fun t => Only s t [.sys] ∧ t.sys = { s.sys with vio18Good := true }) ∧
      (Completes .vio18Lost s fun t => Only s t [.sys] ∧ t.sys = { s.sys with vio18Good := false }) ∧
      (Completes .trstN s fun t => Only s t [.lc] ∧ t.lc = { s.lc with tapIr := 1, tapData := 0x181280B7, tapDrive := false, bypass := false })) ∧
  (∀ (s : State) (torn : List Torn) (fn : Nat) (v : Word),
      (s.sys.mode ≠ .dormant →
        Completes (.mainPowerLost torn) s fun t =>
          t.sys.mode = .dormant ∧ t.sys.mainGood = false ∧ t.sys.isolated = true ∧ t.sys.tbclk = false ∧
          t.keys = KeySt.reset ∧ t.bkeys = BootKeys.reset ∧ t.cmds = [] ∧ t.sqs = [] ∧ t.cqs = [] ∧ t.fns = [] ∧
          t.rng = RngSt.reset ∧ t.alarm = AlarmSt.reset ∧ t.topo = Topo.reset ∧ t.eng = Eng.reset ∧
          t.recorder.queue = [] ∧ t.backup = s.backup ∧ (torn = [] → NonVolatileKept s t)) ∧
      (s.sys.mode ≠ .dormant → opposed s (if s.sys.mode = .lockdown then 11 else 10) = false →
        Completes (.devResetNAssert torn) s fun t =>
          t.sys.mode = .boot ∧ t.sys.prev = s.sys.mode ∧ t.sys.cause = 8 ∧ t.sys.resetLow = true ∧ t.sys.isolated = true ∧
          t.boot = BootSt.reset ∧ t.keys = KeySt.reset ∧ t.bkeys = BootKeys.reset ∧ t.cmds = [] ∧ t.fns = [] ∧
          t.recorder.queue.length ≤ 2 ∧ (s.lc.scope = 0 → t.recorder.queue.length ≤ 1) ∧ t.backup = s.backup ∧
          (torn = [] → NonVolatileKept s t)) ∧
      (KeeperWritable s fn → v.toNat % 65536 = 0x5A5A → opposed s 10 = false →
        Completes (.devSoftReset fn v torn) s fun t =>
          t.sys.mode = .boot ∧ t.sys.prev = s.sys.mode ∧ t.sys.cause = 9 ∧ t.sys.resetLow = s.sys.resetLow ∧
          t.boot = BootSt.reset ∧ t.keys = KeySt.reset ∧ t.bkeys = BootKeys.reset ∧ t.cmds = [] ∧ t.fns = [] ∧
          t.recorder.queue.length ≤ 2 ∧ (s.lc.scope = 0 → t.recorder.queue.length ≤ 1) ∧ t.backup = s.backup ∧
          (torn = [] → NonVolatileKept s t)))

/-- Resets of a port and of a function up to their taking effect (R311, R312, R316, R317, R321, R426, R428, R431, R432, R433): while
sequencers run, a port's functions stop issuing at once and its reset waits for the next dispatch boundary (R188; that a port's reset waits
for it is DEDUCED, log 101). The bit places of Command and Device Control 2 are those of the PCIe specification (PRESUMED, log 11); the writes
that a reset finds held are held through the clean-up and apply at its end (`applyHeld`, DESIGN CHOICE, log 82). -/
def Obligations.PortAndFunctionResets : Prop :=
  ∀ (s : State) (p : Fin 8) (fn : Nat) (b : Bool) (l : PortLink) (x : BitVec 16) (v : Sriov) (w : PcieWrite),
    s.sys.mode ≠ .dormant → s.sys.isolated = false →
    (s.sys.resetLow = false → (getPort s p.val).perst = false → running s = false →
      Completes (.perstN p) s fun t => (getPort t p.val).perst = true ∧ (getPort t p.val).linkUp = false ∧
        (getPort t p.val).vfEnable = false ∧ (getPort t p.val).targets = [] ∧ (getPort t p.val).sets = []) ∧
    (s.sys.resetLow = false → (getPort s p.val).perst = false → running s = false → ∀ ev, ev = .hotReset p ∨ ev = .dlDown p →
      Completes (.hotReset ev) s fun t => (getPort t p.val).perst = false ∧ (getPort t p.val).linkUp = false ∧
        (getPort t p.val).vfEnable = false ∧ (getPort t p.val).numVfs = 0 ∧ (getPort t p.val).targets = [] ∧
        (getPort t p.val).sets = []) ∧
    (s.sys.resetLow = false → (getPort s p.val).perst = false → running s = true →
      Completes (.perstN p) s fun t => Only s t [.fns, .ports, .eng] ∧ PortStops s t p.val ∧
        getPort t p.val = { getPort s p.val with perst := true, linkUp := false }) ∧
    (s.sys.resetLow = false → (getPort s p.val).perst = false → running s = true → ∀ ev, ev = .hotReset p ∨ ev = .dlDown p →
      Completes (.hotReset ev) s fun t => Only s t [.fns, .ports, .eng] ∧ PortStops s t p.val ∧
        getPort t p.val = { getPort s p.val with linkUp := false }) ∧
    (Completes (.perstNRelease l) s fun t => Only s t [.ports] ∧
        getPort t l.port.val = { getPort s l.port.val with perst := false, linkUp := true, speed := l.speed, width := l.width }) ∧
    (s.sys.resetLow = false →
      Completes (.hotReset (.trained l)) s fun t => Only s t [.ports] ∧
        getPort t l.port.val =
          { getPort s l.port.val with linkUp := !(getPort s l.port.val).perst, speed := l.speed, width := l.width }) ∧
    (configOpen s (128 * p.val) = true →
      Completes (.sriovConfigWrite p b v) s fun t => (getPort t p.val).vfEnable = b ∧ (getPort t p.val).numVfs = v.numVfs ∧
        (getPort t p.val).vfBar0.toNat % 2 ^ 17 = 4 ∧ (getPort t p.val).vfBar2.toNat % 2 ^ 20 = 12 ∧
        (∀ k, 20 ≤ k → k < 64 →
          (getPort t p.val).vfBar0.getLsbD k = v.bar0.getLsbD k ∧ (getPort t p.val).vfBar2.getLsbD k = v.bar2.getLsbD k)) ∧
    (configOpen s (128 * p.val) = false → exec (.sriovConfigWrite p b v) s = .next s) ∧
    (configOpen s fn = true → isPf fn = false → (getFn s fn).flr = .none → s.sys.mode ≠ .held →
      Completes (.flr fn) s fun t => Only s t [.fns, .eng] ∧ (getFn t fn).flr = .requested ∧
        (getFn t fn).bme = false ∧ (getFn t fn).mse = false ∧ (getFn t fn).msixEnable = false ∧ (getFn t fn).pcie = PcieRegs.reset ∧
        t.eng.changes = s.eng.changes ++ [(1, fn, 0)] ∧ ∀ g, g ≠ fn → Map.get? t.fns g = Map.get? s.fns g) ∧
    (configOpen s fn = true → isPf fn = true → (getFn s fn).flr = .none → s.sys.mode ≠ .held →
      ∃ u : State, exec (.flr fn) s = .next (addChange (flrWrite u fn) 1 fn) ∧ (getPort u (portOf fn)).vfEnable = false ∧
        (getPort u (portOf fn)).numVfs = 0 ∧ (getPort u (portOf fn)).tag10 = false) ∧
    (configOpen s fn = true → isPf fn = false → (getFn s fn).d3hot = true → (getFn s fn).flr = .none → s.sys.mode ≠ .held →
      Completes (.d3hotToD0 fn) s fun t => Only s t [.fns, .eng] ∧ (getFn t fn).d3hot = false ∧
        (getFn t fn).flr = .requested ∧ t.eng.changes = s.eng.changes ++ [(1, fn, 0)]) ∧
    (configOpen s fn = true →
      Completes (.d0ToD3hot fn) s fun t => Only s t [.fns] ∧ getFn t fn = { getFn s fn with d3hot := true }) ∧
    ((getFn s fn).flr = .cleanup →
      ∃ u : State, exec (.flrCleanupDone fn) s = .next (applyHeld u fn) ∧ (getFn u fn).flr = .none ∧
        (∀ i k, Map.get? u.keys.berths i = some k → ¬(k.owner = fn ∧ k.ownerPos = s.topo.position ∧ k.freeing = true)) ∧
        u.sys = s.sys ∧ u.cmds = s.cmds) ∧
    (configOpen s fn = true →
      ∃ u : State, exec (.busMasterEnableWrite fn x w) s = .next (if x.getLsbD 2 then resumeFn u fn else u) ∧
        Only s u [.fns, .ports] ∧
        getFn u fn = { getFn s fn with bme := x.getLsbD 2, mse := x.getLsbD 1, pcie := writePcie (vfOf fn == 0) w (getFn s fn).pcie } ∧
        (isPf fn = true → getPort u (portOf fn) = { getPort s (portOf fn) with tag10 := w.devCtl2.getLsbD 12 }) ∧
        (isPf fn = false → u.ports = s.ports)) ∧
    (fnExists s fn = true → configWord s fn 0x00 = some (if vfOf fn = 0 then 0x81281F9C else 0x81291F9C) ∧
      configWord s fn 0x08 = some 0x108000A1 ∧ configWord s fn 0x2C = some 0x00001F9C)

/-- What the reset of a function does when it takes effect, at FLR_TAKE_EFFECT, or at once in Held (R38, R316, Table 97): its queues and its
commands are gone, its registers hold their reset values, only its persistent berths on other devices stay charged to it (R425), and its
clean-up begins; the mode, OTP, user NVM and the calendar do not change. The signals of the instant go out after it, in ascending order
(R332), and commands that waited for a berth go on. That an FLR waits for a boundary while sequencers run is R188's. -/
def Obligations.FunctionResetEffect : Prop :=
  ∀ (s : State) (fn : Nat),
    ((getFn s fn).flr = .requested → running s = false ∨ changeDue s 1 fn = true →
      ∃ t, exec (.flrTakeEffect fn) s = .next (dropChange (retryBerth (flushSignals t)) 1 fn) ∧ ResetTaken s t fn ∧
        (getFn t fn).bme = (getFn s fn).bme ∧ (getFn t fn).mse = (getFn s fn).mse) ∧
    (configOpen s fn = true → (getFn s fn).flr = .none → s.sys.mode = .held →
      ∃ t, exec (.flr fn) s = .next (retryBerth (flushSignals t)) ∧ ResetTaken (flrPort s fn) t fn ∧
        (getFn t fn).bme = false ∧ (getFn t fn).mse = false) ∧
    ∀ kind, ResetTaken s (resetFn (flrWrite s fn) fn kind) fn ∧ (getFn (resetFn (flrWrite s fn) fn kind) fn).bme = false ∧
      (getFn (resetFn (flrWrite s fn) fn kind) fn).mse = false

/-! ### Boot -/

/-- The boot phases up to WAIT_HOST, with the commands to the flash (R47, R54, R55, R387, R394, R437, R441; that the SFDP read is of its 16
bytes of header is a DESIGN CHOICE, log 110). A failure enters Lockdown where no cause that stands lower in
Table 15 comes in the same tick (R37). -/
def Obligations.BootPhasesToImage : Prop :=
  ∀ (s : State) (failed : List (Nat × Nat)) (a b : Bytes),
    (inPhase s 1 = true → s.boot.romDone = false →
      Completes (.rom true) s fun t => t.boot.romDone = true ∧ t.sys.isolated = false ∧ t.recorder.mounted = true ∧
        t.boot.phase = (if s.sys.tbclk then 2 else 1) ∧ (∀ p, p < 8 → (getPort t p).linkUp = !(getPort s p).perst) ∧
        Only s t [.sys, .boot, .recorder, .ports]) ∧
    (inPhase s 1 = true → s.boot.romDone = false → opposed s 8 = false →
      Completes (.rom false) s fun t => t.sys.mode = .lockdown ∧ t.sys.cause = 0xB ∧ t.boot.error = 0x01) ∧
    (inPhase s 2 = true → clearMark s.nvm = false → pendingMove s.nvm = none → copiesDisagree s.otp = false →
      (lcDecode s.otp).1 ≠ .scrap →
      Completes (.otpLc failed) s fun t => t.boot.phase = 3 ∧ t.lc.state = (lcDecode s.otp).1 ∧
        t.sys = { s.sys with qspiActive := true } ∧ Only s t [.sys, .boot, .lc, .bus] ∧
        t.bus = s.bus ++ [.flashReset true, .flash 0x66 0 0, .flash 0x99 0 0, .flash 0x5A 0 16]) ∧
    (inPhase s 2 = true → clearMark s.nvm = false → pendingMove s.nvm = none → (lcDecode s.otp).1 = .scrap →
      opposed s 8 = false → Completes (.otpLc failed) s fun t => t.sys.mode = .lockdown ∧ t.sys.cause = 0xA) ∧
    (inPhase s 3 = true →
      Completes (.ucode a b) s fun t => Only s t [.sys, .boot, .bus] ∧
        (∀ l, checkImage s.otp.minVer a = .ok l → t.boot.phase = 5 ∧ t.boot.used = 1 ∧ t.boot.secVer = le a 8 1 ∧
          t.sys = { s.sys with qspiActive := false } ∧
          t.bus = s.bus ++ [.flash 0xEE 0 64, .flash 0xEE 0 (le a 12 4)]) ∧
        (∀ x l, checkImage s.otp.minVer a = .error x → checkImage s.otp.minVer b = .ok l →
          t.boot.phase = 5 ∧ t.boot.used = 2 ∧ t.boot.errA = x ∧ t.boot.error = x) ∧
        ∀ x y, checkImage s.otp.minVer a = .error x → checkImage s.otp.minVer b = .error y →
          t.boot.phase = 4 ∧ t.boot.errA = x ∧ t.boot.errB = y ∧ t.boot.error = y)

/-- A pending move is carried out in OTP_LC: each copy that has a free slot left decodes to the move's target (R387,
R394). An accepted LC_TRANSITION leaves the move pending, ready for the next Boot, and changes no life-cycle state yet
(R391, R393): the mark in VALUE of its record, behind the owner root of a move to OWNED. -/
def Obligations.LifeCycleMoves : Prop :=
  (∀ (s : State) (frm dst : Lc), inPhase s 2 = true → clearMark s.nvm = false →
      pendingMove s.nvm = some (frm, dst) → dst ≠ .blank →
      nextSlot s.otp.lcA < s.otp.lcA.length → nextSlot s.otp.lcB < s.otp.lcB.length → nextSlot s.otp.lcC < s.otp.lcC.length →
      Completes (.otpLc []) s fun t =>
        lcCopy t.otp.lcA = some dst ∧ lcCopy t.otp.lcB = some dst ∧ lcCopy t.otp.lcC = some dst ∧ t.lc.state = dst) ∧
  (∀ (s : State) (cid fails : Nat) (c : Cmd) (d : Bytes) (dst : Lc) (g : BitVec 24) (v : DWord), Turn s cid 0x60 c →
      c.input = some d → segsDone c = true → running s = true → lcTarget c.entry = some dst →
      (dst = .owned → RegionTakes s 2 fails) → moveAllowed s.lc.state dst = true →
      (pendingMove s.nvm = none ∨ dst = .scrap) → inLen c.entry = lcTokenLen dst →
      recVal s.nvm 5 1 = .value g v → g ≠ BitVec.allOnes 24 → (getWear s.nvm 5).worn = false →
      Completes (.lcTransition (cid, fails)) s fun t => Only s t [.nvm, .lc, .recorder, .cmds, .eng, .free] ∧
        t.lc.state = s.lc.state ∧
        match lcTokenErr s dst d with
        | none => Ended t cid .ok 0 [] ∧ pendingMove t.nvm = some (s.lc.state, dst) ∧ t.lc.scope = 0 ∧
            (dst ≠ .owned → t.nvm.ownerRoot = s.nvm.ownerRoot) ∧
            (dst = .owned → t.nvm.ownerRoot = sealPersist (freeBytes 12 s.free) (slice d 4723 2592))
        | some (st, x) => Ended t cid st x [] ∧ t.nvm = s.nvm ∧ t.lc = s.lc)

/-- The boot phases from WAIT_HOST to SELFTEST, with graphics-memory training (R54, R55, R431, R439, Table 26). A write of
BOOT_IMAGE_ADDR_HI while a load runs starts it over (DESIGN CHOICE, log 72), and a header that can name no image ends the load without a second
read (DEDUCED, log 72). -/
def Obligations.BootPhasesToSelftest : Prop :=
  ∀ (s : State) (fn : Nat) (v : Word) (b : Bytes) (tr de : BitVec 8),
    (s.sys.mode = .boot → s.boot.phase = 4 → barOpen s fn = true → (getFn s fn).flr ≠ .cleanup → fn = keeperFn s →
      Completes (.bootImageLoad fn v) s fun t => Only s t [.boot, .bus] ∧
        t.boot = { s.boot with addrHi := v, loading := true, header := none, asked := bootReq s } ∧
        t.bus = if bootReq s then (emitRead s fn (v ++ s.boot.addrLo : BitVec 64) 64).bus else s.bus) ∧
    (inPhase s 4 = true → s.boot.loading = true → s.boot.asked = true → s.boot.header = none →
      Completes (.hostImageLoaded (some b)) s fun t => Only s t [.boot, .bus] ∧
        (∀ x, headerError b (le b 12 4) = some x →
          t.boot = { s.boot with error := x, errHost := x, loading := false } ∧ t.bus = s.bus) ∧
        (headerError b (le b 12 4) = none → t.boot = { s.boot with header := some (b.take 64), asked := bootReq s } ∧
          t.bus = if bootReq s then
            (emitRead s (keeperFn s) (s.boot.addrHi ++ s.boot.addrLo : BitVec 64) (le (b.take 64) 12 4)).bus else s.bus)) ∧
    (inPhase s 4 = true → s.boot.loading = true → s.boot.asked = true → s.boot.header ≠ none →
      Completes (.hostImageLoaded (some b)) s fun t => Only s t [.sys, .boot] ∧
        (∀ l, checkImage s.otp.minVer b = .ok l → t.boot.phase = 5 ∧ t.boot.used = 3) ∧
        ∀ x, checkImage s.otp.minVer b = .error x → t.sys = s.sys ∧
          t.boot = { s.boot with error := x, errHost := x, loading := false }) ∧
    (inPhase s 4 = true → s.boot.loading = true → s.boot.asked = true →
      Completes (.hostImageLoaded none) s fun t => Only s t [.boot] ∧
        t.boot = { s.boot with error := 0x17, errHost := 0x17, loading := false }) ∧
    (s.sys.mode = .boot → 3 ≤ s.boot.phase → s.boot.phase ≤ 5 → s.boot.gmDone = false →
      Completes (.gmTrainingDone tr de) s fun t => Only s t [.boot, .free] ∧ t.boot.gmDone = true ∧
        t.boot.gmTrained = decide (tr = 0xFF ∧ de = if s.otp.variant32 then 0xFF else 0) ∧
        (de = 0 → t.boot.density = 1) ∧ (de = 0xFF → t.boot.density = 2)) ∧
    (inPhase s 5 = true → s.boot.gmDone = true → s.boot.gmTrained = true →
      (Completes (.selftest true true) s fun t => Only s t [.boot, .eng, .rng] ∧ t.boot.phase = 6 ∧
        t.eng = { s.eng with inService := true } ∧ t.rng = { s.rng with start := s.sys.tick }) ∧
      (opposed s 8 = false → Completes (.selftest true false) s fun t => t.sys.mode = .lockdown ∧ t.boot.error = 0x22) ∧
      (opposed s 8 = false → ∀ k, Completes (.selftest false k) s fun t => t.sys.mode = .lockdown ∧ t.boot.error = 0x21)) ∧
    (inPhase s 5 = true → s.boot.gmDone = true → s.boot.gmTrained = false → opposed s 8 = false → ∀ m k,
      Completes (.selftest m k) s fun t => t.sys.mode = .lockdown ∧ t.boot.error = 0x20)

/-- INSTALL with its records in place: the seal epoch rises by one, the calendar is anchored, with the crystal stopped at the
backup domain's time, the per-boot keys are drawn, and Boot ends in Service in OWNED and FIELD and in Maintenance in the other
states (R47, R51, R300, R386); the digest of the control store is taken (R368), and the writes held in Boot then apply (R49), of a
function in clean-up at its end (R317). The seal epoch's record holds no value: Boot fails with
code 0x21 (R51, R245). INSTALL waits for the first crystal edge (R300). -/
def Obligations.InstallEndsBoot : Prop :=
  (∀ (s : State) (fails : List Nat) (g : BitVec 24) (v : DWord), inPhase s 7 = true →
      (s.time.anchored = true ∨ s.backup.stopped = true) →
      opposed s (if s.lc.state = .owned ∨ s.lc.state = .field then 5 else 6) = false → Instr.alarmSetResponse ∉ s.pending →
      recVal s.nvm 5 0 = .value g v → v ≠ BitVec.allOnes 64 → RegionTakes s 5 (fails.getD 0 0) →
      s.nvm.identity ≠ .blank → s.nvm.swk ≠ .blank →
      (s.lc.state = .owned ∨ s.lc.state = .field → identityRec s ≠ none ∧ ownerRoot s ≠ none) → DrawsLeft s 6 →
      ∃ u : State, exec (.install fails) s =
          .next (recordMode (recordBoot (((u.fns.filter fun e => e.2.flr != .cleanup).map (·.1)).foldl applyHeld u))) ∧
        u.boot.digest = storeDigest s.boot.store ∧
        u.sys.mode = (if s.lc.state = .owned ∨ s.lc.state = .field then .service else .maintenance) ∧
        u.sys.prev = .boot ∧ u.sys.cause = 1 ∧ u.time.epoch = v + 1 ∧ recVal u.nvm 5 0 = .value g (v + 1) ∧
        u.time.anchored = true ∧
        (s.time.anchored = true → u.time.anchorSec = s.time.anchorSec ∧ u.time.anchorFrac = s.time.anchorFrac ∧
          u.time.anchorTick = s.time.anchorTick) ∧
        (s.time.anchored = false → u.time.anchorSec = s.backup.sec ∧ u.time.anchorFrac = s.backup.frac ∧
          u.time.anchorTick = s.sys.tick) ∧
        u.bkeys.xts.length = 64 ∧ u.bkeys.mac.length = 32 ∧ u.bkeys.maskA.length = 32 ∧ u.bkeys.maskB.length = 32 ∧
        u.bkeys.scramble.length = 32 ∧ u.bkeys.nonce.length = 32 ∧
        u.eng.walking = true ∧ u.eng.slot = 0 ∧ u.nvm.user = s.nvm.user ∧ u.fns = s.fns) ∧
  (∀ (s : State) (fails : List Nat), inPhase s 7 = true → (s.time.anchored = true ∨ s.backup.stopped = true) →
      opposed s 8 = false → recVal s.nvm 5 0 = .corrupt →
      Completes (.install fails) s fun t => t.sys.mode = .lockdown ∧ t.sys.cause = 0xB ∧ t.boot.error = 0x21) ∧
  (∀ (s : State) (fails : List Nat), inPhase s 7 = true → s.time.anchored = false → s.backup.stopped = false →
      exec (.install fails) s = .next s)

/-! ### Rings -/

/-- Ring indices (R70): the count of entries runs from 0 to n, one more entry raises it by one, and one less lowers
it; a phase bit differs between two passes over a slot. -/
def Obligations.RingIndexArithmetic : Prop :=
  ∀ (tail head n : Nat), 0 < n → tail < 2 * n → head < 2 * n →
    (ringCount tail head n : Int) = ((tail : Int) - head) % (2 * n) ∧ (ringCount tail head n = 0 ↔ tail = head) ∧
    (ringValid tail head n = true ↔ ringCount tail head n ≤ n) ∧ ringNext tail n = (tail + 1) % (2 * n) ∧
    ringPhase tail n = (if tail < n then 1 else 0) ∧ ringNext tail n < 2 * n ∧
    (ringCount tail head n < n → ringCount (ringNext tail n) head n = ringCount tail head n + 1 ∧
      ringValid (ringNext tail n) head n = true) ∧
    (0 < ringCount tail head n → ringCount tail (ringNext head n) n = ringCount tail head n - 1) ∧
    ringPhase ((tail + n) % (2 * n)) n = 1 - ringPhase tail n

/-- A polling pass reads the doorbell line of every ENABLED SQ, in order and as far as there are read tags (R80, R433), and the
next pass is due after the interval (R81). What a doorbell line read back does to its queue (R74, R78, R79, R82); that the interval
returns to active where the tail differs from the last one read and taken is the model's reading of R81 (DEDUCED, log 69). The answer of a
read that was in flight when its queue stopped is ignored (R99), and one that comes after the write of an FLR is discarded (R316); either
frees its tag, which other reads may take (R433). -/
def Obligations.PollingAndDoorbells : Prop :=
  (∀ (s : State) (fn : Nat), fnExists s fn = true → canReq s fn = true → (getFn s fn).power ≠ .off →
      (getFn s fn).dbTodo = [] → (getFn s fn).dbReads = [] → (∀ e ∈ (getFn s fn).late, 2 ≤ e.1) →
      (getFn s fn).nextPass.toNat ≤ s.sys.tick.toNat →
      Completes (.pollPass fn) s fun t => Only s t [.fns, .bus] ∧
        (getFn t fn).nextPass = s.sys.tick + BitVec.ofNat 64 (25 * (getFn t fn).interval) ∧
        ((getFn s fn).kq.noBackoff = true → (getFn t fn).interval = (getFn s fn).kq.active.toNat) ∧
        (∀ q, (q, false) ∈ (getFn t fn).dbReads ++ (getFn t fn).dbTodo ↔
          q ∈ pollIds s fn ∧ (getSq s fn q).any (fun x => x.st == .enabled) = true) ∧
        t.bus = s.bus ++ (getFn t fn).dbReads.map fun r =>
          Bus.read fn (dbBlock s fn r.1 + (if r.2 then 0x40 else 0)) 64) ∧
  (∀ (s : State) (fn qid : Nat) (line : Bytes) (v : Word), v = BitVec.ofNat 32 (le line 0 4) →
      (awaited s fn qid false = true →
        (∀ q, getSq s fn qid = some q → q.st = .enabled → ringValid v.toNat q.head q.n = true →
          Completes (.sqDoorbellRead fn qid line) s fun t => Only s t [.sqs, .fns, .bus, .cmds] ∧ AsksOnly s t ∧
            getSq t fn qid = some { q with tail := v.toNat, seen := v.toNat, dbFail := false } ∧
            (v.toNat ≠ q.seen → (getFn t fn).interval = (getFn s fn).kq.active.toNat)) ∧
        (∀ q, getSq s fn qid = some q → q.st = .enabled → ringValid v.toNat q.head q.n = false →
          Completes (.sqDoorbellRead fn qid line) s fun t => Only s t [.sqs, .cqs, .fns, .bus, .cmds] ∧ AsksOnly s t ∧
            ∃ x, getSq t fn qid = some x ∧ x.st = .doorbellError ∧ x.errInfo = v ∧ x.head = q.head ∧ x.ready = [] ∧
              x.reads = []) ∧
        (∀ q, getSq s fn qid = some q → q.st = .enabled → q.dbFail = false →
          Completes (.doorbellFail fn qid false) s fun t => Only s t [.sqs, .recorder, .fns, .bus, .cmds] ∧ AsksOnly s t ∧
            getSq t fn qid = some { q with dbFail := true })) ∧
      (awaited s fn qid true = true →
        (∀ q, getCq s fn qid = some q → (getFn s fn).power ≠ .off → v.toNat < 2 * q.n →
          ringCount q.tail v.toNat q.n ≤ q.n → q.waiting = [] →
          (ringCount q.tail q.head q.n ≠ q.n ∨ finishedOn s fn qid = []) →
          Completes (.cqDoorbellRead fn qid line) s fun t => Only s t [.cqs, .fns, .bus, .cmds] ∧ AsksOnly s t ∧
            getCq t fn qid = some { q with head := v.toNat, badHead := false, dbFail := false }) ∧
        (∀ q, getCq s fn qid = some q → (getFn s fn).power ≠ .off →
          (2 * q.n ≤ v.toNat ∨ q.n < ringCount q.tail v.toNat q.n) →
          Completes (.cqDoorbellRead fn qid line) s fun t => Only s t [.cqs, .recorder, .fns, .bus, .cmds] ∧ AsksOnly s t ∧
            getCq t fn qid = some { q with badHead := true, dbFail := false }) ∧
        (∀ q, getCq s fn qid = some q → q.dbFail = false →
          Completes (.doorbellFail fn qid true) s fun t => Only s t [.cqs, .recorder, .fns, .bus, .cmds] ∧ AsksOnly s t ∧
            getCq t fn qid = some { q with dbFail := true })) ∧
      ((getFn s fn).flr = .requested →
        (Completes (.sqDoorbellRead fn qid line) s fun t => Only s t [.fns, .bus, .cmds] ∧ AsksOnly s t) ∧
        (Completes (.cqDoorbellRead fn qid line) s fun t => Only s t [.fns, .bus, .cmds] ∧ AsksOnly s t)) ∧
      (∀ e, serving s = true → lateRead s fn 0 qid = some e →
        Completes (.sqDoorbellRead fn qid line) s fun t => Only s t [.fns, .bus, .cmds] ∧ AsksOnly s t ∧
          (getFn t fn).late = (getFn s fn).late.erase e) ∧
      (∀ e, serving s = true → lateRead s fn 1 qid = some e →
        Completes (.cqDoorbellRead fn qid line) s fun t => Only s t [.fns, .bus, .cmds] ∧ AsksOnly s t ∧
          (getFn t fn).late = (getFn s fn).late.erase e))

/-- Pushes, fetches in the turn of the port's round robin and the reads of entries (R83 to R89, R101); that the failed index is the
first of the read is the model's choice (log 81). The input buffer's read ends (R101): its bytes, cut
or filled to IN_LEN, or ST_DMA_ERROR with the offset. A poisoned write, or one with a bad ECRC, is discarded and logged in the function's
AER status (R430), in the bits 12 and 19 of PCI Express (PRESUMED, log 11). -/
def Obligations.FetchesAndReads : Prop :=
  (∀ (s : State) (fn qid : Nat) (q : Sq) (c : Cq) (d : Bytes), serving s = true → getSq s fn qid = some q →
      (∀ off, fnExists s fn = true → (getFn s fn).mse = true → portUp s fn = true → (getFn s fn).flr ≠ .cleanup → off < 0x100000 →
        (Completes (.pushWrite fn off .poisoned) s fun t => Only s t [.fns, .bus] ∧
          (getFn t fn).pcie.aerUnc = (getFn s fn).pcie.aerUnc ||| 0x1000) ∧
        (Completes (.pushWrite fn off .badEcrc) s fun t => Only s t [.fns, .bus] ∧
          (getFn t fn).pcie.aerUnc = (getFn s fn).pcie.aerUnc ||| 0x80000)) ∧
      (∀ off, fnExists s fn = true → (getFn s fn).mse = true → portUp s fn = true → (getFn s fn).flr ≠ .cleanup → off < 0x100000 →
        off % 4 = 0 → d.length = 4 → qid = off / 256 → q.st = .enabled →
        Completes (.pushWrite fn off (.good d)) s fun t => Only s t [.sqs, .fns] ∧
          getSq t fn qid = some (pushDword (restartSlots q [off / 64 % 4]) (off / 64 % 4) (off / 4 % 16)
            (BitVec.ofNat 32 (leVal d)))) ∧
      (nextFetch s (portOf fn) = some (fn, qid) → getCq s fn q.cq = some c →
        ∀ b, pushTaken q = some b →
        Completes (.fetch fn qid) s fun t => Only s t [.sqs, .cqs, .fns, .ports] ∧
          getCq t fn q.cq = some { c with reserved := c.reserved + 1 } ∧
          ∃ x, getSq t fn qid = some x ∧ x.ready = q.ready ++ [(q.fetch, b)] ∧ x.fetch = ringNext q.fetch q.n ∧ x.head = q.head) ∧
      (nextFetch s (portOf fn) = some (fn, qid) → getCq s fn q.cq = some c → pushTaken q = none →
        0 < fetchCount q (c.allow - c.reserved) →
        Completes (.fetch fn qid) s fun t => Only s t [.sqs, .cqs, .bus, .fns, .ports] ∧
          ∃ k, 1 ≤ k ∧ k ≤ 8 ∧ k ≤ c.allow - c.reserved ∧ unaccepted q + k ≤ 16 ∧ q.fetch % q.n + k ≤ q.n ∧
            getCq t fn q.cq = some { c with reserved := c.reserved + k } ∧
            t.bus = (emitRead s fn (sqBase s fn qid q + BitVec.ofNat 64 (64 * (q.fetch % q.n))) (64 * k)).bus ∧
            ∃ x, getSq t fn qid = some x ∧ x.reads = q.reads ++ [(q.fetch, k)] ∧ x.fetch = (q.fetch + k) % (2 * q.n)) ∧
      (∀ e, lateRead s fn 2 qid = some e → ∀ x,
        Completes (.entryReadDone fn qid x) s fun t => Only s t [.fns, .bus, .cmds] ∧ AsksOnly s t ∧
          (getFn t fn).late = (getFn s fn).late.erase e) ∧
      ((getFn s fn).flr ≠ .requested → lateRead s fn 2 qid = none → ∀ i k rest, q.reads = (i, k) :: rest →
        Completes (.entryReadDone fn qid (some d)) s fun t => Only s t [.sqs, .fns, .bus, .cmds] ∧ AsksOnly s t ∧
          ∃ x, getSq t fn qid = some x ∧ x.reads = rest ∧ x.head = q.head ∧
            x.ready = q.ready ++ (List.range k).map fun j => ((i + j) % (2 * q.n), padTo 64 (slice d (64 * j) 64))) ∧
      ((getFn s fn).flr ≠ .requested → lateRead s fn 2 qid = none → ∀ i k rest, q.reads = (i, k) :: rest →
        Completes (.entryReadDone fn qid none) s fun t => Only s t [.sqs, .cqs, .fns, .bus, .cmds] ∧ AsksOnly s t ∧
          ∃ x, getSq t fn qid = some x ∧ x.st = .fetchError ∧ x.errInfo = BitVec.ofNat 32 i ∧ x.ready = [] ∧ x.reads = [])) ∧
  (∀ (s : State) (cid : Nat) (c : Cmd) (d : Bytes) (o : Nat), takesReads s c.fn = true → getCmd s cid = some c →
      c.origin = none → c.phase = .run → c.asked = true → c.input = none → c.pulls = [] → lateInput s cid = none →
      (Completes (.inputReadDone cid d none) s fun t => Only s t [.cmds, .bus] ∧
        getCmd t cid = some { c with input := some (padTo (inLen c.entry) d) }) ∧
      (Completes (.inputReadDone cid d (some o)) s fun t => Only s t [.cmds, .eng, .bus] ∧
        (getCmd t cid).map (·.phase) = some (.fin { status := .dmaError, detail := o, out := [] })))

/-- An entry is accepted (R90): the published head passes it, OPEN rises by one, and a command of the SQ's function
comes to the sequencer with the next number. Its checks then run, or it waits for its chain (R98). That the tail held
goes along with the head is the model's reading of R85 (log 69). A sequencer that a debugger has halted takes nothing (R399), and neither
does one for a function that is not ON (Table 50). -/
def Obligations.AcceptTakesTheHead : Prop :=
  ∀ (s : State) (fn qid i : Nat) (q : Sq) (r : Fin 16) (e : Bytes), serving s = true → getSq s fn qid = some q →
    unitRuns s r.val = true → (getFn s fn).power = .on → q.st = .enabled → q.ready.find? (fun x => x.1 == q.head) = some (i, e) →
    closedTo s r.val fn qid = false → positionFree s r.val (isKeeperOp e) = true → fenceOk s fn qid q e = true →
    Completes (.accept fn qid r) s fun t =>
      Only s t [.sqs, .cmds, .nextId, .eng, .keys, .stamp, .topo, .bus, .alarm, .recorder, .rng, .lc] ∧
      { t.lc with units := s.lc.units } = s.lc ∧ t.nextId = s.nextId + 1 ∧
      (∃ x, getSq t fn qid = some x ∧ x.head = ringNext q.head q.n ∧ x.opened = q.opened + 1 ∧ x.st = .enabled ∧
        x.tail = (if q.tail = q.head then ringNext q.head q.n else q.tail)) ∧
      t.cmds.length = s.cmds.length + 1 ∧ (∃ c ∈ t.cmds, c.id = s.nextId) ∧
      (q.chainLen ≠ 0 → q.chainOk = none → ∃ c, t.cmds = s.cmds ++ [c] ∧ c.id = s.nextId ∧ c.fn = fn ∧ c.sq = qid ∧
        c.seqr = r.val ∧ c.entry = e ∧ c.origin = none ∧ c.worldS = (getFn s fn).worldS ∧ c.phase = .chainWait ∧
        c.after = some q.chainId)

/-- A completion is written where its CQ has room (R93): the entry's 32 bytes at the tail, after any output, and the
command is gone; with the ring full, or behind another, it joins those that wait, and so does every other that has ended, in the
order in which they ended (R94). -/
def Obligations.CompletionWritten : Prop :=
  ∀ (s : State) (cid cq : Nat) (c : Cmd) (r : Result) (x : Sq) (q : Cq), serving s = true → getCmd s cid = some c →
    c.phase = .fin r → c.origin = none → getSq s c.fn c.sq = some x → x.cq = cq → getCq s c.fn cq = some q →
    canReq s c.fn = true →
    (ringCount q.tail q.head q.n ≠ q.n → q.waiting = [] ∨ q.waiting.head? = some cid →
      Completes (.completionWrite cid) s fun t => getCmd t cid = none ∧
        Bus.write c.fn (cqBase s c.fn cq q + BitVec.ofNat 64 (32 * (q.tail % q.n)))
          (completionBytes s c r (ringPhase q.tail q.n) x.head) ∈ t.bus ∧
        (∃ y, getCq t c.fn cq = some y ∧ y.tail = ringNext q.tail q.n ∧ y.reserved = q.reserved - 1 ∧ y.head = q.head) ∧
        ∃ y, getSq t c.fn c.sq = some y ∧ y.opened = x.opened - 1) ∧
    (ringCount q.tail q.head q.n = q.n ∨ (q.waiting ≠ [] ∧ q.waiting.head? ≠ some cid) → q.waiting.contains cid = false →
      Completes (.completionWrite cid) s fun t => Only s t [.cmds, .cqs, .fns, .bus] ∧
        ∃ (y : Cq) (l : List Cmd), getCq t c.fn cq = some y ∧ y.tail = q.tail ∧ y.head = q.head ∧ y.reserved = q.reserved ∧
          y.waiting = q.waiting ++ l.map (·.id) ∧ (∃ d ∈ l, d.id = cid) ∧ (∀ d ∈ l, d ∈ s.cmds) ∧
          l.Pairwise fun a b => a.finAt ≤ b.finAt)

/-! ### Keeper commands -/

/-- The queue commands with their operands right and room left (R119 to R121): what queue there is after them. An
operand of a queue command that fails its check completes it at once, with the lowest failing offset (R106), and no
queue changes. ENABLE_SQ keeps the tail last read (log 69), and enables nothing of a QUENCHED function (R111). Model's choices: an SQ
that is created or enabled while its function is DRAINING does not become ENABLED (DESIGN CHOICE, log 104), MODE_RESUME outside Held
completes with DETAIL 0 (DEDUCED, log 48), and a command out of turn changes nothing (DESIGN CHOICE, log 1). -/
def Obligations.QueueCommands : Prop :=
  (∀ (s : State) (cid : Nat) (c : Cmd) (n q : Nat),
      (Turn s cid 0x01 c → q = le c.entry 48 2 → n = le c.entry 50 2 → le c.entry 40 8 % 4096 = 0 → 1 ≤ q → q ≤ 4095 →
        hasQueue s.sqs c.fn q = false → n ≤ 4095 → hasQueue s.cqs c.fn n = true → ringSize (le c.entry 52 4) = true →
        createdOf s.sqs c.fn < (getFn s c.fn).sqLim → createdAll s.sqs < Config.queueTotal →
        Completes (.createSq cid) s fun t => Only s t [.sqs, .bus, .cmds, .eng] ∧ Ended t cid .ok 0 [] ∧
          ∃ x, getSq t c.fn q = some x ∧ x.st = (if (getFn s c.fn).power = .draining then .disabled else .enabled) ∧
            x.base = BitVec.ofNat 64 (le c.entry 40 8) ∧ x.n = le c.entry 52 4 ∧ x.cq = n ∧ x.head = 0 ∧ x.tail = 0 ∧ x.opened = 0) ∧
      (Turn s cid 0x02 c → q = le c.entry 48 2 → n = (if le c.entry 56 2 = 0 then 64 else le c.entry 56 2) →
        le c.entry 40 8 % 4096 = 0 → 1 ≤ q → q ≤ 4095 → hasQueue s.cqs c.fn q = false → ringSize (le c.entry 52 4) = true →
        16 ≤ n → n ≤ 4096 → le c.entry 58 2 < 2048 → createdOf s.cqs c.fn < (getFn s c.fn).cqLim →
        createdAll s.cqs < Config.queueTotal → allowances s + n ≤ Config.wharfSlots →
        Completes (.createCq cid) s fun t => Only s t [.cqs, .cmds, .eng] ∧ Ended t cid .ok 0 [] ∧
          ∃ x, getCq t c.fn q = some x ∧ x.base = BitVec.ofNat 64 (le c.entry 40 8) ∧ x.n = le c.entry 52 4 ∧ x.allow = n ∧
            x.vector = le c.entry 58 2 ∧ x.modCount = 1 ∧ x.modTime = 0 ∧ x.tail = 0 ∧ x.head = 0) ∧
      (Turn s cid 0x03 c → q = le c.entry 48 2 → hasQueue s.sqs c.fn q = true → sqIdle s c.fn q = true →
        Completes (.destroySq cid) s fun t => Only s t [.sqs, .cqs, .fns, .bus, .cmds, .eng] ∧ Ended t cid .ok 0 [] ∧
          Map.get? t.sqs (qKey c.fn q) = none ∧ ∀ k, k ≠ qKey c.fn q → Map.get? t.sqs k = Map.get? s.sqs k) ∧
      (Turn s cid 0x04 c → q = le c.entry 48 2 → hasQueue s.cqs c.fn q = true → cqWaits s c.fn q = false →
        (∀ i, i ∈ qidsOf s.sqs c.fn → i ≠ 0 → (getSq s c.fn i).any (fun x => x.cq == q) = false) →
        Completes (.destroyCq cid) s fun t => Only s t [.cqs, .cmds, .eng] ∧ Ended t cid .ok 0 [] ∧
          Map.get? t.cqs (qKey c.fn q) = none ∧ ∀ k, k ≠ qKey c.fn q → Map.get? t.cqs k = Map.get? s.cqs k) ∧
      (Turn s cid 0x05 c → q = le c.entry 48 2 → hasQueue s.sqs c.fn q = true → ∀ x, getSq s c.fn q = some x →
        Completes (.disableSq cid) s fun t => Only s t [.sqs, .cqs, .fns, .bus, .cmds, .eng] ∧ Ended t cid .ok x.head [] ∧
          ∃ y, getSq t c.fn q = some y ∧ y.head = x.head ∧ y.opened = x.opened ∧
            y.st = if x.st = .enabled then (if x.opened = 0 then .disabled else .draining) else x.st) ∧
      (Turn s cid 0x06 c → q = le c.entry 48 2 → hasQueue s.sqs c.fn q = true → ∀ x, getSq s c.fn q = some x →
        x.st ≠ .draining → x.st ≠ .enabled → (getFn s c.fn).quenched = false → (getFn s c.fn).power ≠ .draining →
        Completes (.enableSq cid) s fun t => Only s t [.sqs, .fns, .bus, .cmds, .eng] ∧ Ended t cid .ok 0 [] ∧
          ∃ y, getSq t c.fn q = some y ∧ y.st = .enabled ∧ y.head = x.head ∧ y.fetch = x.head ∧ y.tail = x.tail ∧
            y.errInfo = 0) ∧
      (Turn s cid 0x06 c → q = le c.entry 48 2 → hasQueue s.sqs c.fn q = true → ∀ x, getSq s c.fn q = some x →
        x.st ≠ .draining → (getFn s c.fn).quenched = false → (getFn s c.fn).power = .draining →
        Completes (.enableSq cid) s fun t => Only s t [.cmds, .eng] ∧ Ended t cid .ok 0 []) ∧
      (Turn s cid 0x06 c → (getFn s c.fn).quenched = true →
        Completes (.enableSq cid) s fun t => Only s t [.cmds, .eng] ∧ Ended t cid .held 0 [])) ∧
  (∀ (s : State) (cid : Nat) (c : Cmd),
      (turnOf s cid 0x03 = some c → Settled c → ∀ d, firstBad (reservedBad c.entry ++ need 48 (hasQueue s.sqs c.fn (le c.entry 48 2))) = some d →
        Completes (.destroySq cid) s fun t => Only s t [.cmds, .eng] ∧ Ended t cid .badParam d []) ∧
      (Turn s cid 0x03 c → hasQueue s.sqs c.fn (le c.entry 48 2) = true → sqIdle s c.fn (le c.entry 48 2) = false →
        Completes (.destroySq cid) s fun t => Only s t [.cmds, .eng] ∧ Ended t cid .busy 4 []) ∧
      (Turn s cid 0x72 c → s.sys.mode ≠ .held →
        Completes (.modeResume cid) s fun t => Only s t [.cmds, .eng] ∧ Ended t cid .badParam 0 []) ∧
      (turnOf s cid 0x01 = none → exec (.createSq cid) s = .next s))

/-- The commands on functions (R111 to R118): power, quench, limits, class and world. A change of
CLASS and GRANTS waits for a boundary; a later FUNC_SET_LIMITS takes the place of one that waits (DESIGN CHOICE, log 44). -/
def Obligations.FunctionCommands : Prop :=
  ∀ (s : State) (cid f : Nat) (c : Cmd), f = le c.entry 40 2 →
    (Turn s cid 0x10 c → mayAct s c.fn f = true → (getFn s f).heldEnable = none → (getFn s f).power ≠ .draining →
      ((getFn s f).quenched = false ∨ openOf s f = 0 ∨ (getFn s f).power = .off) →
      Completes (.funcEnable cid) s fun t => Only s t [.fns, .cmds, .eng] ∧ Ended t cid .ok 0 [] ∧
        getFn t f = { getFn s f with power := .on, quenched := false }) ∧
    (Turn s cid 0x10 c → mayAct s c.fn f = true → (getFn s f).heldEnable = none → (getFn s f).power = .draining →
      Completes (.funcEnable cid) s fun t => Only s t [.fns, .cmds] ∧
        getFn t f = { getFn s f with heldEnable := some cid } ∧ (getCmd t cid).map (·.phase) = some .effected) ∧
    (Turn s cid 0x11 c → mayAct s c.fn f = true → (getFn s f).power = .on → s.sys.mode ≠ .held →
      Completes (.funcDisable cid) s fun t => Only s t [.cmds, .eng] ∧ t.eng.changes = s.eng.changes ++ [(0, cid, 0)] ∧
        (getCmd t cid).map (·.phase) = some .effected) ∧
    (Turn s cid 0x12 c → mayAct s c.fn f = true → (getFn s f).power = .on → (getFn s f).quenched = false → s.sys.mode ≠ .held →
      Completes (.funcQuench cid) s fun t => Only s t [.cmds, .eng] ∧ t.eng.changes = s.eng.changes ++ [(0, cid, 0)] ∧
        (getCmd t cid).map (·.phase) = some .effected) ∧
    (getCmd s cid = some c → opcode c.entry = 0x11 → c.phase = .effected → serving s = true → changeDue s 0 cid = true →
      (getFn s f).power = .on → (getFn s f).heldEnable = none →
      Completes (.funcDisableEffect cid) s fun t => (getFn t f).power = if openOf s f = 0 then .off else .draining) ∧
    (getCmd s cid = some c → opcode c.entry = 0x12 → c.phase = .effected → serving s = true → changeDue s 0 cid = true →
      (getFn s f).power = .on → (getFn s f).quenched = false → (getFn s f).heldEnable = none →
      Completes (.quenchDone cid) s fun t => (getFn t f).quenched = true ∧ (getFn t f).power = .on) ∧
    (∀ w, serving s = true → openOf s f = 0 → (getFn s f).power = .draining → (getFn s f).waiters = [w] → w ≠ f →
      (getFn s f).heldEnable = none →
      Completes (.funcDrained f) s fun t => (getFn t f).power = .off ∧ (getFn t f).waiters = [] ∧
        (getFast t w 3).info = BitVec.ofNat 16 f ∧ (getFast t w 3).count = min ((getFast s w 3).count + 1) 255) ∧
    (Turn s cid 0x13 c → mayAct s c.fn f = true → le c.entry 42 2 ≤ 4095 → le c.entry 44 2 ≤ 4095 → le c.entry 46 1 ≤ 63 →
      le c.entry 47 1 ≤ 1 → le c.entry 48 4 ≤ 65536 → le c.entry 52 4 ≤ 131072 → s.sys.mode ≠ .held →
      Completes (.funcSetLimits cid) s fun t => Only s t [.fns, .cmds, .eng] ∧ Ended t cid .ok 0 [] ∧
        getFn t f = { getFn s f with
          sqLim := le c.entry 42 2, cqLim := le c.entry 44 2, berthLim := le c.entry 48 4, granLim := le c.entry 52 4,
          nextCls := some (BitVec.ofNat 6 (le c.entry 46 1), BitVec.ofNat 8 (le c.entry 47 1)) } ∧
        (2, f, 0) ∈ t.eng.changes) ∧
    (∀ k g, (getFn s f).nextCls = some (k, g) → serving s = true → changeDue s 2 f = true →
      Completes (.classGrantsChange f) s fun t => Only s t [.fns, .eng] ∧
        getFn t f = { getFn s f with cls := k, grants := g, nextCls := none }) ∧
    (Turn s cid 0x14 c → mayAct s c.fn f = true → le c.entry 42 1 ≤ 1 → (getFn s f).power = .off →
      Completes (.funcSetWorld cid) s fun t => Only s t [.fns, .cmds, .eng] ∧ Ended t cid .ok 0 [] ∧
        getFn t f = { getFn s f with worldS := decide (le c.entry 42 1 = 1) })

/-- The timetable, interrupt targets, moderation and topology (R122 to R126, R336 to R340, R404). Of the records of a SET_TARGETS the last
one that names a target or a vector decides: an address of zero removes the target, any other registers it, and its sleep state stays
(R123, R337); one that was removed and comes again is awake (DESIGN CHOICE, log 84). The states of SET_TARGET_STATE and the values of
SET_MODERATION apply when its completion is written (R122, R336, R340). -/
def Obligations.SurroundingsCommands : Prop :=
  ∀ (s : State) (cid : Nat) (c : Cmd) (d : Bytes),
    (Turn s cid 0x20 c → c.input = some d → inLen c.entry = 8192 →
      (∀ i, i < Config.timetableSlots → BitVec.ofNat 16 (le d (2 * i) 2) &&& 0xC0C0 = 0) →
      Completes (.loadTimetable cid) s fun t => Only s t [.eng, .cmds] ∧ t.eng = { s.eng with nextTable := some (cid, tableOf d) } ∧
        (getCmd t cid).map (·.phase) = some .effected) ∧
    (∀ tt, s.eng.walking = true → s.eng.slot = 0 → s.eng.fresh = false → s.eng.nextTable = some (cid, tt) → getCmd s cid = some c →
      Completes .timetableReplace s fun t => Only s t [.eng, .cmds] ∧ t.eng.table = some tt ∧ t.eng.nextTable = none ∧
        Ended t cid .ok 0 []) ∧
    (∀ rs, Turn s cid 0x21 c → c.input = some d → le c.entry 40 1 = 1 → inLen c.entry = le c.entry 42 2 * 16 →
      rs = records d (le c.entry 42 2) 16 → rs.all targetOk = true →
      Completes (.setTargets cid) s fun t => Only s t [.ports, .fns, .bus, .cmds, .eng] ∧ Ended t cid .ok 0 [] ∧
        ∀ i, ((∀ r ∈ rs, le r 0 2 ≠ i) → getTarget (getPort t (portOf c.fn)) i = getTarget (getPort s (portOf c.fn)) i) ∧
          ∀ before r after, rs = before ++ r :: after → le r 0 2 = i → (∀ x ∈ after, le x 0 2 ≠ i) →
            (le r 8 8 = 0 → getTarget (getPort t (portOf c.fn)) i = none) ∧
            (le r 8 8 ≠ 0 → ∃ y, getTarget (getPort t (portOf c.fn)) i = some y ∧ y.addr = BitVec.ofNat 64 (le r 8 8) ∧
              y.data = BitVec.ofNat 32 (le r 4 4) ∧
              ((∀ x ∈ before, le x 0 2 = i → le x 8 8 ≠ 0) →
                y.asleep = ((getTarget (getPort s (portOf c.fn)) i).map (·.asleep)).getD false))) ∧
    (∀ rs, Turn s cid 0x21 c → c.input = some d → le c.entry 40 1 = 2 → inLen c.entry = le c.entry 42 2 * 48 →
      rs = records d (le c.entry 42 2) 48 → rs.all (vecSetOk s c.fn) = true →
      Completes (.setTargets cid) s fun t => Only s t [.ports, .fns, .bus, .cmds, .eng] ∧ Ended t cid .ok 0 [] ∧
        ∀ k, ((∀ r ∈ rs, setKey (le r 0 2) (le r 2 2) ≠ k) →
            (Map.get? (getPort t (portOf c.fn)).sets k).map (fun v => (v.members, v.wake, v.hold))
              = (Map.get? (getPort s (portOf c.fn)).sets k).map fun v => (v.members, v.wake, v.hold)) ∧
          ∀ before r after, rs = before ++ r :: after → setKey (le r 0 2) (le r 2 2) = k →
            (∀ x ∈ after, setKey (le x 0 2) (le x 2 2) ≠ k) →
            (Map.get? (getPort t (portOf c.fn)).sets k).map (fun v => (v.members, v.wake, v.hold))
              = some ((List.range (le r 4 1)).map fun i => le r (8 + 2 * i) 2, le r 5 1, le r 6 2)) ∧
    (Turn s cid 0x22 c → le c.entry 40 2 % 64 = 0 → le c.entry 40 2 < 1024 →
      Completes (.setTargetState cid) s fun t => Only s t [.cmds, .eng] ∧ Ended t cid .ok 0 []) ∧
    (∀ r q x, serving s = true → getCmd s cid = some c → opcode c.entry = 0x22 → c.phase = .fin r → r.status = .ok →
      c.origin = none → canReq s c.fn = true → getSq s c.fn c.sq = some x → getCq s c.fn x.cq = some q →
      ringCount q.tail q.head q.n ≠ q.n → q.waiting = [] ∨ q.waiting.head? = some cid →
      Completes (.completionWrite cid) s fun t => ∀ i y, Map.get? (getPort s (portOf c.fn)).targets i = some y →
        Map.get? (getPort t (portOf c.fn)).targets i =
          some (if le c.entry 40 2 ≤ i ∧ i < le c.entry 40 2 + 64 ∧ bit (le c.entry 56 8) (i - le c.entry 40 2) = true then
            { y with asleep := bit (le c.entry 48 8) (i - le c.entry 40 2) } else y)) ∧
    (Turn s cid 0x23 c → hasQueue s.cqs c.fn (le c.entry 48 2) = true → 1 ≤ le c.entry 50 2 → le c.entry 50 2 ≤ 4096 →
      le c.entry 54 2 ≤ 2047 →
      Completes (.setModeration cid) s fun t => Only s t [.cmds, .eng] ∧ Ended t cid .ok 0 []) ∧
    (∀ r q x m, serving s = true → getCmd s cid = some c → opcode c.entry = 0x23 → c.phase = .fin r → r.status = .ok →
      c.origin = none → canReq s c.fn = true → getSq s c.fn c.sq = some x → getCq s c.fn x.cq = some q →
      ringCount q.tail q.head q.n ≠ q.n → q.waiting = [] ∨ q.waiting.head? = some cid → le c.entry 48 2 ≠ x.cq →
      getCq s c.fn (le c.entry 48 2) = some m →
      Completes (.completionWrite cid) s fun t => getCq t c.fn (le c.entry 48 2) =
        some { m with modCount := le c.entry 50 2, modTime := le c.entry 52 2, vector := le c.entry 54 2,
                      count := if le c.entry 50 2 ≤ m.count then 0 else m.count }) ∧
    (Turn s cid 0x30 c → topologyBad c.entry = [] → s.topo.set = false →
      (le c.entry 40 1 = 0 ∨ s.keys.berths = []) →
      Completes (.setTopology cid) s fun t => Only s t [.topo, .keys, .bus, .cmds, .eng] ∧ Ended t cid .ok 0 [] ∧
        t.topo.set = true ∧ t.topo.position = le c.entry 40 1 ∧ t.topo.devices = le c.entry 41 1 ∧
        ∀ k, k < 8 → le c.entry (48 + k) 1 ≠ 0xFF → (getLink t k).peer = some (le c.entry (48 + k) 1)) ∧
    (Turn s cid 0x30 c → topologyBad c.entry = [] → s.topo.set = true → sameTopology s c.entry = false →
      Completes (.setTopology cid) s fun t => Only s t [.cmds, .eng] ∧ Ended t cid .busy 8 [])

/-- SET_ENVIRONMENT, RECORDER_MARK, MODE_HOLD and MODE_RESUME (R38, R39, R46, R128, R132). SET_CALENDAR sets the time,
to 2^−15 s (R127, R298, R301): TIME64 reads as the operand with its low nine bits zero, the time is no longer unset,
and the change is counted and recorded. Outside FIELD no token is read; in FIELD the time is set only under a token of the owner for this
device, this boot and a later time than the last one (R127). -/
def Obligations.CalendarEnvironmentAndMode : Prop :=
  (∀ (s : State) (cid : Nat) (c : Cmd) (d : Bytes),
      (Turn s cid 0x32 c → le c.entry 40 1 = 1 → 600 ≤ le c.entry 42 2 → le c.entry 42 2 ≤ 900 → le c.entry 44 4 = 0 →
        inLen c.entry = 0 →
        Completes (.setEnvironment cid) s fun t => Only s t [.alarm, .cmds, .eng] ∧ Ended t cid .ok 0 [] ∧
          t.alarm.vcoreSet = le c.entry 42 2 ∧ t.alarm.reported = true) ∧
      (Turn s cid 0x32 c → c.input = some d → le c.entry 40 1 = 2 → le c.entry 42 2 = 0 → le c.entry 44 4 = 0 →
        inLen c.entry = 64 →
        Completes (.setEnvironment cid) s fun t => Only s t [.lc, .recorder, .cmds, .eng] ∧ Ended t cid .ok 0 [] ∧
          t.lc.boardId = some d) ∧
      (∀ i b, Turn s cid 0x32 c → c.input = some d → le c.entry 40 1 = 3 → le c.entry 42 2 = 0 → le c.entry 44 4 = 1 →
        inLen c.entry = 64 → i = le d 0 2 → allZero (slice d 2 14) = true → Map.get? s.keys.berths i = some b →
        berthVisible s c i b = true → b.bflags.getLsbD 1 = true → b.lastEpoch ≠ s.time.epoch → d.length = 64 →
        Completes (.setEnvironment cid) s fun t => Only s t [.keys, .cmds, .eng] ∧ Ended t cid .ok 0 [] ∧
          Map.get? t.keys.berths i = some { b with chainHead := slice d 16 48, resume := true }) ∧
      (Turn s cid 0x70 c → Completes (.recorderMark cid) s fun t => Only s t [.recorder, .cmds, .eng] ∧ Ended t cid .ok 0 [] ∧
        (s.recorder.mounted = true → (getWear s.nvm 0).worn = false →
          s.recorder.queue.length + Config.recorderKept < Config.recorderQueue →
          t.recorder.queue.length = s.recorder.queue.length + 1)) ∧
      (Turn s cid 0x71 c → s.sys.mode ≠ .held → opposed s 7 = false →
        Completes (.modeHold cid) s fun t => t.sys.mode = .held ∧ t.sys.prev = s.sys.mode ∧ t.sys.heldReturn = s.sys.mode ∧
          t.sys.byAlarm = false ∧ t.sys.cause = 2 ∧ ∀ x ∈ t.eng.changes, x.1 = 0 ∧ x.2.2 = 0xFFFF) ∧
      (Turn s cid 0x71 c → s.sys.mode = .held →
        Completes (.modeHold cid) s fun t => Only s t [.cmds, .eng] ∧ Ended t cid .ok 0 []) ∧
      (Turn s cid 0x72 c → s.sys.mode = .held → opposed s 2 = false →
        Completes (.modeResume cid) s fun t => t.sys.mode = s.sys.heldReturn ∧ t.sys.prev = .held ∧ t.sys.cause = 4 ∧
          t.sys.byAlarm = false ∧ t.sys.heldReturn = .dormant) ∧
      (Turn s cid 0x72 c → s.sys.mode ≠ .held →
        Completes (.modeResume cid) s fun t => Only s t [.cmds, .eng] ∧ ∃ x, Ended t cid .badParam x [])) ∧
  (∀ (s : State) (cid : Nat) (c : Cmd), Turn s cid 0x31 c → s.lc.state ≠ .field → segsDone c = true → running s = true →
      inLen c.entry = 0 → planResident s c.planId = true →
      Completes (.setCalendar cid) s fun t => Only s t [.backup, .time, .recorder, .cmds, .eng] ∧ Ended t cid .ok 0 [] ∧
        time64Now t = BitVec.ofNat 64 (le c.entry 40 8 / 512 * 512) ∧ t.backup.timeUnset = false ∧
        t.backup.timeLost = s.backup.stopped ∧ t.time.calSets = min (s.time.calSets + 1) 255) ∧
  (∀ (s : State) (cid : Nat) (c : Cmd) (d : Bytes), Turn s cid 0x31 c → s.lc.state = .field → c.input = some d → segsDone c = true →
      running s = true →
      Completes (.setCalendar cid) s fun t =>
        match tokenErr s (le c.entry 40 8) d with
        | some (st, x) => Only s t [.cmds, .eng] ∧ Ended t cid st x []
        | none => Only s t [.backup, .time, .recorder, .cmds, .eng] ∧ Ended t cid .ok 0 [] ∧
            time64Now t = BitVec.ofNat 64 (le c.entry 40 8 / 512 * 512) ∧ t.backup.timeUnset = false ∧
            t.time.lastToken = some (BitVec.ofNat 64 (le c.entry 40 8)) ∧ t.time.calSets = min (s.time.calSets + 1) 255) ∧
  (∀ (s : State) (v : Nat) (d : Bytes), tokenErr s v d = none ↔
      (∃ pk, ownerRoot s = some pk ∧ Config.verify (0x1003, 0, 0) pk [] (slice d 0 64) (slice d 64 4627) = true) ∧
      slice (slice d 0 64) 0 4 = [0x54, 0x43, 0x41, 0x4C] ∧ le (slice d 0 64) 4 4 = 0 ∧ le (slice d 0 64) 8 8 = v ∧
      allZero (slice (slice d 0 64) 56 8) = true ∧ le (slice d 0 64) 16 8 = s.time.epoch.toNat ∧
      slice (slice d 0 64) 24 32 = deviceId s ∧ ∀ l, s.time.lastToken = some l → l.toNat < v)

/-- The berth commands on this device (R129, R130, R284 to R287, R292, R421). -/
def Obligations.BerthCommands : Prop :=
  ∀ (s : State) (cid i : Nat) (c : Cmd) (b : Berth),
    (Turn s cid 0x40 c → allocBad s c = [] → inLen c.entry = 0 → c.input = none →
      berthCharge s (allocOwner c) < (getFn s (allocOwner c)).berthLim → nextIndex s = some i →
      Completes (.berthAlloc cid) s fun t => Only s t [.keys, .stamp, .cmds, .eng, .free, .boot] ∧
        Ended t cid .ok (mkHandle s.topo.position 0 i) [] ∧ t.keys.lastBerth = i ∧ t.keys.keys = s.keys.keys ∧
        (∀ j, j ≠ i → Map.get? t.keys.berths j = Map.get? s.keys.berths j) ∧
        ∃ x, Map.get? t.keys.berths i = some x ∧ x.owner = allocOwner c ∧ x.bflags = BitVec.ofNat 8 (le c.entry 42 1) ∧
          x.slot0 = none ∧ x.slot1 = none ∧ x.opAllow = BitVec.ofNat 64 (2 ^ 40 - 1) ∧ x.nextSeq = 0 ∧ x.done = 0) ∧
    (BerthTurn s cid 0x41 c (ownerOrPf s) i b →
      Completes (.berthFree cid) s fun t => Only s t [.keys, .cmds] ∧ (getCmd t cid).map (·.phase) = some .effected ∧
        Map.get? t.keys.berths i = some { b with freeing := true } ∧
        ∀ j, j ≠ i → Map.get? t.keys.berths j = Map.get? s.keys.berths j) ∧
    (getCmd s cid = some c → Settled c → serving s = true → opcode c.entry = 0x41 → c.phase = .effected → c.berth = some i →
      (∀ x ∈ s.cmds, x.id ≠ cid → x.berth ≠ some i ∧ (x.id < cid → namesBerth s x i = false)) →
      Completes (.berthFreeDone cid) s fun t => Only s t [.keys, .cmds, .eng] ∧ Ended t cid .ok 0 [] ∧
        Map.get? t.keys.berths i = none ∧ ∀ j, j ≠ i → Map.get? t.keys.berths j = Map.get? s.keys.berths j) ∧
    (BerthTurn s cid 0x43 c (ownerOrPf s) i b → 128 ≤ outCap c.entry →
      Completes (.berthQuery cid) s fun t => Only s t [.cmds, .eng, .bus] ∧
        ∃ out, Ended t cid .ok 0 out ∧ out.length = 128 ∧ le out 0 4 = berthHandle s i b ∧ le out 4 2 = b.owner % 65536 ∧
          slice out 12 4 = leBytes 4 (b.slot1.getD 0xFFFFFFFF)) ∧
    (BerthTurn s cid 0x43 c (ownerOrPf s) i b → outCap c.entry < 128 →
      Completes (.berthQuery cid) s fun t => Only s t [.cmds, .eng] ∧ Ended t cid .badLength 128 []) ∧
    (BerthTurn s cid 0x42 c (moverOf s) i b → c.phase = .run → le c.entry 40 1 = s.topo.position →
      Completes (.berthMove cid) s fun t => Only s t [.cmds, .eng] ∧ Ended t cid .ok (berthHandle s i b) []) ∧
    (BerthTurn s cid 0x42 c (moverOf s) i b → c.phase = .run → le c.entry 40 1 ≠ s.topo.position →
      linksTo s (le c.entry 40 1) ≠ [] → moveErr s i b = none → b.spilled = false →
      (∀ g ∈ boundKeys b, (Map.get? s.keys.keys g).any (·.spilled) = false) →
      (∀ x ∈ s.cmds, x.id < cid → namesBerth s x i = false ∧ ∀ g ∈ boundKeys b, blocksKey s x g = false) →
      (∃ k, linkFor s (le c.entry 40 1) i = some k) →
      Completes (.berthMove cid) s fun t => (∃ x, Map.get? t.keys.berths i = some x ∧ x.moving = some cid) ∧
        (getCmd t cid).map (·.phase) = some .effected ∧
        ∃ m, t.topo.moves = s.topo.moves ++ [m] ∧ m.index = i ∧ m.target = le c.entry 40 1 ∧ m.committed = false)

/-- Owner plans: what LOAD_PLAN stores, at a dispatch boundary where it replaces a plan (R188), and UNLOAD_PLAN drops, the copies
in plan memory and the rewrite of a standard plan (R131, R204, R205, R209). -/
def Obligations.PlanStore : Prop :=
  ∀ (s : State) (cid id : Nat) (c : Cmd) (d b : Bytes),
    (Turn s cid 0x50 c → c.input = some d → waiting s cid = none → inLen c.entry = le d 16 4 + 4627 → 256 ≤ inLen c.entry →
      segsDone c = true → running s = true → b = slice d 0 (le d 16 4) → id = le b 8 4 →
      bodyOk b = true → storeFull s id b.length = false → planOpen s id = false → Map.get? s.eng.plans id = none →
      Completes (.loadPlan cid) s fun t => Only s t [.eng, .cmds, .boot] ∧
        if (ownerRoot s).any (fun pk => Config.verify (0x1003, 0, 0) pk [] b (slice d (le d 16 4) 4627)) = true then
          Ended t cid .ok 0 [] ∧ Map.get? t.eng.plans id = some b ∧ Map.get? t.eng.copies id = none ∧
          ∀ k, k ≠ id → Map.get? t.eng.plans k = Map.get? s.eng.plans k
        else Ended t cid .keyDenied 1 [] ∧ t.eng.plans = s.eng.plans) ∧
    (waiting s cid = some c → Settled c → opcode c.entry = 0x50 → running s = true → c.input = some d → b = slice d 0 (le d 16 4) →
      id = le b 8 4 → planOpen s id = false → changeDue s 0 cid = true → storeFull s id b.length = false →
      Completes (.loadPlan cid) s fun t => Only s t [.eng, .cmds, .boot] ∧ Ended t cid .ok 0 [] ∧
        Map.get? t.eng.plans id = some b ∧ Map.get? t.eng.copies id = none ∧
        ∀ k, k ≠ id → Map.get? t.eng.plans k = Map.get? s.eng.plans k) ∧
    (Turn s cid 0x50 c → c.input = some d → waiting s cid = none → inLen c.entry = le d 16 4 + 4627 → 256 ≤ inLen c.entry →
      segsDone c = true → running s = true → b = slice d 0 (le d 16 4) → id = le b 8 4 → bodyOk b = true →
      storeFull s id b.length = false → (planOpen s id = true ∨ (Map.get? s.eng.plans id).isSome = true) →
      (ownerRoot s).any (fun pk => Config.verify (0x1003, 0, 0) pk [] b (slice d (le d 16 4) 4627)) = true →
      Completes (.loadPlan cid) s fun t => Only s t [.eng, .cmds] ∧ t.eng.plans = s.eng.plans ∧
        (getCmd t cid).map (·.phase) = some .effected) ∧
    (waiting s cid = some c → opcode c.entry = 0x50 → c.input = some d → planOpen s (le (slice d 0 (le d 16 4)) 8 4) = true →
      exec (.loadPlan cid) s = .next s) ∧
    (Turn s cid 0x51 c → waiting s cid = none → id = le c.entry 40 4 → 0x80000000 ≤ id →
      (Map.get? s.eng.plans id).isSome = true → planOpen s id = false →
      Completes (.unloadPlan cid) s fun t => Only s t [.eng, .cmds] ∧ Ended t cid .ok 0 [] ∧
        Map.get? t.eng.plans id = none ∧ ∀ k, k ≠ id → Map.get? t.eng.plans k = Map.get? s.eng.plans k) ∧
    (serving s = true → planResident s id = true → usesPlan s id = true → Map.get? s.eng.copies id = none →
      copyBytes s.eng.copies + (planBody s id).length ≤ Config.planMemory → gmReadPlan s id = none →
      Completes (.planCopyIn id) s fun t => Only s t [.eng, .stamp] ∧
        (Map.get? t.eng.copies id).map (·.1) = some (planBody s id).length ∧
        { t.eng with copies := s.eng.copies } = s.eng) ∧
    (s.eng.missing.contains id = true →
      Completes (.planRewrite id) s fun t => Only s t [.eng, .boot] ∧ t.eng.missing.contains id = false ∧
        (∀ k, k ≠ id → t.eng.missing.contains k = s.eng.missing.contains k) ∧ { t.eng with missing := s.eng.missing } = s.eng)

/-- Debug authorisation (R400, R401): a challenge is outstanding until a response consumes it, and a response that is
the challenge, signed by the authority of the state, opens its scope; any other is refused. That a response of the right length consumes
the challenge before its input is read is the model's reading (DEDUCED, log 56). -/
def Obligations.DebugAuthorisation : Prop :=
  ∀ (s : State) (cid : Nat) (c : Cmd) (d n : Bytes) (s1 : State),
    (Turn s cid 0x61 c → c.input.isSome = true → segsDone c = true → running s = true → 1 ≤ le c.entry 40 1 →
      le c.entry 40 1 ≤ 2 → 4288 ≤ outCap c.entry → scopeAllowed s.lc.state (le c.entry 40 1) = true → s.lc.state ≠ .blank →
      Drew s c n s1 →
      Completes (.debugChallenge cid) s fun t => ∃ out, Ended t cid .ok 0 out ∧ out.length = 4288 ∧
        t.lc.challenge = some (slice out 0 128) ∧ le out 4 1 = le c.entry 40 1 ∧ slice out 48 32 = padTo 32 n ∧
        t.lc.scope = s.lc.scope) ∧
    (turnOf s cid 0x62 = some c → reservedBad c.entry = [] → inLen c.entry = 4755 → c.input = none → c.again = false →
      Completes (.debugResponse cid) s fun t => Only s t [.lc, .cmds, .eng, .bus, .fns] ∧ t.lc.challenge = none ∧
        (getCmd t cid).map (·.header) = some s.lc.challenge) ∧
    (∀ ch pk, Turn s cid 0x62 c → inLen c.entry = 4755 → c.input = some d → c.again = true → segsDone c = true →
      running s = true → c.header = some ch → ch = slice d 0 128 → le ch 4 1 = 1 → signerKey s = some pk →
      Completes (.debugResponse cid) s fun t => Only s t [.lc, .recorder, .cmds, .eng] ∧ t.lc.challenge = s.lc.challenge ∧
        if Config.verify (0x1003, 0, 0) pk [] (slice d 0 128) (slice d 128 4627) = true then
          Ended t cid .ok 0 [] ∧ t.lc.scope = 1 ∧ t.lc.byOwner = ownerSigns s
        else Ended t cid .keyDenied 1 [] ∧ t.lc.scope = s.lc.scope) ∧
    (Turn s cid 0x62 c → inLen c.entry = 4755 → c.input = some d → c.again = true → segsDone c = true → running s = true →
      c.header ≠ some (slice d 0 128) →
      Completes (.debugResponse cid) s fun t => Only s t [.recorder, .cmds, .eng] ∧ Ended t cid .keyDenied 1 [])

/-! ### Operation commands -/

/-- Key establishment (R147 to R151): the secret becomes a derived key of the issuer, the ciphertext or public part
the output; what the standards compute is opaque (log 4). The model's readings: an RSA-OAEP message
of no valid length fails with DETAIL 60 (DEDUCED, log 37), an ephemeral key is the ML-KEM private key and then that of X25519 (DEDUCED,
log 39), and the sizes of the draws (DEDUCED, log 50). Of two FINISHes of one ephemeral key the first that runs consumes it (R151). -/
def Obligations.KeyEstablishment : Prop :=
  ∀ (s s1 : State) (cid h p : Nat) (c : Cmd) (d rnd : Bytes), p = le c.entry 40 2 →
    (∀ pk, Acts s cid 0x0101 c d → pk = (if le c.entry 42 1 = 1 then keyBytes s c.keyA else d) → Drew s c rnd s1 →
      RoomAt s (secretLen p) h 1 →
      Completes (.kemEncaps cid) s fun t => Only s t placing ∧
        (le c.entry 42 1 = 1 ∨ Config.publicOk p d = true →
          KeyPlaced s t cid h (nkdKey s c (le c.entry 60 2) 3 true (padTo (secretLen p) (Config.kemEncaps p pk rnd).2))
            (padTo (sigLen p) (Config.kemEncaps p pk rnd).1)) ∧
        (le c.entry 42 1 ≠ 1 → Config.publicOk p d = false → Ended t cid .badParam 0xFFFF [] ∧ t.keys = s.keys)) ∧
    (Acts s cid 0x0102 c d → RoomAt s (secretLen p) h 0 →
      Completes (.kemDecaps cid) s fun t => Only s t placing ∧
        KeyPlaced s t cid h
          (nkdKey s c (le c.entry 60 2) 3 true (padTo (secretLen p) (Config.kemDecaps p (keyBytes s c.keyA) d))) []) ∧
    (∀ z, Acts s cid 0x0103 c d → z = padTo (secretLen p) (Config.agree p (keyBytes s c.keyA) d) → Drew s c rnd s1 →
      RoomAt s (secretLen p) h 1 →
      Completes (.dhAgree cid) s fun t => Only s t placing ∧
        if (famOf p = .ecdh → Config.publicOk p d = true) ∧ zeroResult p z = false then KeyPlaced s t cid h (nkdKey s c (le c.entry 60 2) 3 true z) []
        else Ended t cid .badParam 0xFFFF [] ∧ t.keys = s.keys) ∧
    (Acts s cid 0x0104 c d → Drew s c rnd s1 →
      Completes (.rsaOaepEncap cid) s fun t => Only s t (.rng :: answering) ∧
        (Config.publicOk 0x1503 d = true →
          Ended t cid .ok 0 (padTo (oaepK c.entry) (Config.oaepEncrypt (le c.entry 43 1) d (keyBytes s c.keyA) rnd))) ∧
        (Config.publicOk 0x1503 d = false → Ended t cid .badParam 0xFFFF [])) ∧
    (Acts s cid 0x0105 c d → Drew s c rnd s1 →
      Completes (.rsaOaepDecap cid) s fun t => Only s t placing ∧
        match Config.oaepDecrypt (le c.entry 43 1) (keyBytes s c.keyA) d with
        | none => Ended t cid .badParam 0xFFFF [] ∧ t.keys = s.keys
        | some m =>
          if symLenOk (le c.entry 60 2) m.length = true then
            (limitAllows s c (keyGranules m.length) = true → RoomAt s m.length h 1 →
              KeyPlaced s t cid h (nkdKey s c (le c.entry 60 2) 6 true m) []) ∧
            (limitAllows s c (keyGranules m.length) = false → Ended t cid .busy 1 [] ∧ t.keys = s.keys)
          else Ended t cid .badParam 60 [] ∧ t.keys = s.keys) ∧
    (∀ a x, Acts s cid 0x0110 c d → le c.entry 42 1 = 1 → Drew s c rnd s1 → RoomAt s (a ++ x).length h 1 →
      a = genPrivate p 0 (rnd.take 64) → x = genPrivate 0x0504 0 (slice rnd 64 32) →
      Completes (.hybridKex cid) s fun t => Only s t placing ∧
        KeyPlaced s t cid h (nkdKey s c (0x7E00 + p) 9 true (a ++ x))
          (padTo (pubLen p + 32) (publicPart p a ++ publicPart 0x0504 x))) ∧
    (∀ ek xI ct r x z, Acts s cid 0x0110 c d → le c.entry 42 1 = 2 → ek = d.take (pubLen p) → xI = slice d (pubLen p) 32 →
      Drew s c rnd s1 → r = Config.kemEncaps p ek (rnd.take 32) → ct = padTo (sigLen p) r.1 →
      x = genPrivate 0x0504 0 (slice rnd 32 32) → z = padTo 32 (Config.agree 0x0504 x xI) → RoomAt s (le c.entry 46 2) h 1 →
      Completes (.hybridKex cid) s fun t => Only s t placing ∧
        if Config.publicOk p ek = false ∨ allZero z = true then Ended t cid .badParam 0xFFFF [] ∧ t.keys = s.keys
        else KeyPlaced s t cid h (nkdKey s c (le c.entry 60 2) 3 true (hybridKey (padTo 32 r.2) z ek xI ct
            (publicPart 0x0504 x) (d.drop (pubLen p + 32)) (le c.entry 43 1) (le c.entry 46 2)))
          (padTo (sigLen p + 32) (ct ++ publicPart 0x0504 x))) ∧
    (Acts s cid 0x0110 c d → le c.entry 42 1 = 3 → ephemeralHere s c = false →
      Completes (.hybridKex cid) s fun t => Only s t answering ∧ Ended t cid .keyEmpty 0 []) ∧
    (∀ u z, Acts s cid 0x0110 c d → le c.entry 42 1 = 3 → ephemeralHere s c = true → u = consumeKey (cacheBuild s c) c.keyA → Drew u c rnd s1 →
      z = padTo 32 (Config.agree 0x0504 (slice (keyBytes s c.keyA) (privLen p) 32) (slice d (sigLen p) 32)) →
      RoomAt u (le c.entry 46 2) h 1 →
      Completes (.hybridKex cid) s fun t => Only s t placing ∧ (∀ g, c.keyA = some g → g ≠ h → Map.get? t.keys.keys g = none) ∧
        if allZero z = true then Ended t cid .badParam 0xFFFF [] ∧ t.keys = u.keys
        else KeyPlaced u t cid h (nkdKey s c (le c.entry 60 2) 3 true
          (hybridKey (padTo 32 (Config.kemDecaps p ((keyBytes s c.keyA).take (privLen p)) (d.take (sigLen p)))) z
            (publicPart p ((keyBytes s c.keyA).take (privLen p)))
            (publicPart 0x0504 (slice (keyBytes s c.keyA) (privLen p) 32)) (d.take (sigLen p)) (slice d (sigLen p) 32)
            (d.drop (sigLen p + 32)) (le c.entry 43 1) (le c.entry 46 2))) [])

/-- Signatures (R152 to R155, R141): a signature of the set's length over the context and the message, and a verdict that is ST_OK
or ST_SIG_INVALID; the public key of a VERIFY may stand in the input before the signature. The model's readings: the codes and lengths of the
stateful sets (PRESUMED, log 88), the levels of an HSS key in the input (DEDUCED, log 89), the sizes of the draws (DEDUCED, log 90), and
the place of the candidate a decision chose (DEDUCED, log 30). -/
def Obligations.Signatures : Prop :=
  ∀ (s s1 : State) (cid p n m : Nat) (c : Cmd) (d rnd : Bytes) (det : Bool), p = le c.entry 40 2 → n = le c.entry 44 1 →
    det = bit (le c.entry 45 1) 0 → m = sigOf p (keyAt s c.keyA) →
    (Acts s cid 0x0201 c d → Drew s c rnd s1 →
      Completes (.sign cid) s fun t => Only s t (.rng :: answering) ∧
        Ended t cid .ok 0 (padTo m (signWith (p, le c.entry 42 1, le c.entry 43 1) det (keyBytes s c.keyA) (d.take n)
          (d.drop n) (rnd.take (signDraw p (le c.entry 43 1) det)) (c.picks.getD 0 0)))) ∧
    (Acts s cid 0x0202 c d → bit (le c.entry 45 1) 1 = false →
      Completes (.verify cid) s fun t => Only s t answering ∧
        Ended t cid (if Config.verify (p, le c.entry 42 1, le c.entry 43 1) (keyBytes s c.keyA) ((d.drop m).take n)
          ((d.drop m).drop n) (d.take m) then .ok else .sigInvalid) 0 []) ∧
    (∀ a b, Acts s cid 0x0202 c d → bit (le c.entry 45 1) 1 = true → InputKey c.entry d a b →
      Completes (.verify cid) s fun t => Only s t answering ∧
        (Config.publicOk p (d.take a) = true →
          Ended t cid (if Config.verify (p, le c.entry 42 1, le c.entry 43 1) (d.take a) ((d.drop (a + b)).take n)
            ((d.drop (a + b)).drop n) (slice d a b) then .ok else .sigInvalid) 0 []) ∧
        (Config.publicOk p (d.take a) = false → Ended t cid .badParam 0xFFFF [])) ∧
    (Acts s cid 0x0202 c d → bit (le c.entry 45 1) 1 = true → isRsa p = false → famOf p = .hbs → hbsVerifyLen p d = none →
      Completes (.verify cid) s fun t => Only s t answering ∧ Ended t cid .badParam 0xFFFF [])

/-- Ciphers, hashes, MACs and key derivation (R156 to R161). -/
def Obligations.CiphersHashesMacs : Prop :=
  ∀ (s s1 : State) (cid a tl h n : Nat) (c : Cmd) (d rnd k : Bytes), k = keyBytes s c.keyA → a = le c.entry 44 4 →
    tl = le c.entry 43 1 → n = outLenOf s c c.keyA c.keyB →
    (Acts s cid 0x0301 c d → Drew s c rnd s1 →
      Completes (.aeadEncrypt cid) s fun t => Only s t (.rng :: answering) ∧
        Ended t cid .ok 0 (padTo n (rnd ++ padTo (d.length - a) (aeadSeal (le c.entry 40 2) tl k rnd (d.take a) (d.drop a)).1
          ++ padTo tl (aeadSeal (le c.entry 40 2) tl k rnd (d.take a) (d.drop a)).2))) ∧
    (∀ r, Acts s cid 0x0302 c d → r = aeadOpen (le c.entry 40 2) k (d.take 12) (slice d 12 a) (slice d (12 + a) n)
        (slice d (12 + a + n) tl) →
      Completes (.aeadDecrypt cid) s fun t =>
        if r.2 = true then Only s t answering ∧ Ended t cid .ok 0 (padTo n r.1)
        else Only s t (.free :: .topo :: answering) ∧ Ended t cid .sigInvalid 0 []) ∧
    (Acts s cid 0x0303 c d → le c.entry 40 2 = 0x3002 → Drew s c rnd s1 →
      Completes (.cipherEncrypt cid) s fun t => Only s t (.rng :: answering) ∧
        Ended t cid .ok 0 (padTo (d.length + 16) (rnd ++ zeros 4 ++ ctr k (rnd ++ zeros 4) d))) ∧
    (Acts s cid 0x0303 c d → le c.entry 40 2 ≠ 0x3002 →
      Completes (.cipherEncrypt cid) s fun t => Only s t answering ∧
        Ended t cid .ok 0 (padTo d.length (xtsUnits true k (le c.entry 48 16) a d))) ∧
    (Acts s cid 0x0304 c d → le c.entry 40 2 = 0x3002 →
      Completes (.cipherDecrypt cid) s fun t => Only s t answering ∧
        Ended t cid .ok 0 (padTo (d.length - 16) (ctr k (d.take 16) (d.drop 16)))) ∧
    (Acts s cid 0x0304 c d → le c.entry 40 2 ≠ 0x3002 →
      Completes (.cipherDecrypt cid) s fun t => Only s t answering ∧
        Ended t cid .ok 0 (padTo d.length (xtsUnits false k (le c.entry 48 16) a d))) ∧
    (Acts s cid 0x0310 c d →
      Completes (.hash cid) s fun t => Only s t answering ∧
        Ended t cid .ok 0 (padTo n (digest (le c.entry 40 2 % 256) n d))) ∧
    (Acts s cid 0x0320 c d →
      Completes (.macGenerate cid) s fun t => Only s t answering ∧ Ended t cid .ok 0 (macOf s c d)) ∧
    (Acts s cid 0x0321 c d →
      Completes (.macVerify cid) s fun t => Only s t answering ∧
        Ended t cid (if macOf s c (d.take (d.length - a)) = d.drop (d.length - a) then .ok else .sigInvalid) 0 []) ∧
    (Acts s cid 0x0330 c d → RoomAt s (le c.entry 44 2) h 0 →
      Completes (.kdf cid) s fun t => Only s t placing ∧
        KeyPlaced s t cid h (nkdKey s c (le c.entry 60 2) 3 true (padTo (le c.entry 44 2)
          (kdfBytes (le c.entry 40 2) (le c.entry 42 1) (le c.entry 44 2) k (d.take (le c.entry 46 2)) (d.drop (le c.entry 46 2))))) [])

/-- Key management (R162 to R166, R269, R270, R273, R274, R290): keys that come, and the key that goes with its
bindings; sharing and binding take effect with the completion, and a locked slot keeps its key (R289). The input of a KEY_WRITE
is overwritten (R275). -/
def Obligations.KeyManagement : Prop :=
  ∀ (s s1 : State) (cid h p g : Nat) (c : Cmd) (d rnd : Bytes) (k : Key), p = le c.entry 40 2 →
    (∀ x, Acts s cid 0x0401 c d → x = (if le c.entry 42 1 = 1 then padTo (privLen p) (Config.expandSeed p d) else d) →
      Drew s c rnd s1 → RoomAt s x.length h 1 →
      Completes (.keyWrite cid) s fun t => Only s t placing ∧ (getCmd t cid).map (·.input) = some (some (zeros d.length)) ∧
        if xtsEqual p x = false ∧ (famOf p = .sym ∨ privateOk p x = true) then KeyPlaced s t cid h (nkdKey s c p 1 true x) []
        else Ended t cid .badParam 0xFFFF [] ∧ t.keys = s.keys) ∧
    (Acts s cid 0x0402 c d → RoomAt s d.length h 0 →
      Completes (.keyWritePublic cid) s fun t => Only s t placing ∧
        if famOf p = .xdh ∨ Config.publicOk p d = true then KeyPlaced s t cid h (nkdKey s c p 7 false d) []
        else Ended t cid .badParam 0xFFFF [] ∧ t.keys = s.keys) ∧
    (Acts s cid 0x0403 c d → famOf p = .sym → Drew s c rnd s1 → xtsEqual p rnd = false → RoomAt s rnd.length h 1 →
      Completes (.keyGenerate cid) s fun t => Only s t placing ∧ KeyPlaced s t cid h (nkdKey s c p 2 true rnd) []) ∧
    (∀ x, Acts s cid 0x0403 c d → famOf p ≠ .sym → Drew s c rnd s1 → x = genPrivate p (le c.entry 44 2) (rnd.take (genDraw p)) →
      RoomAt s x.length h 1 →
      Completes (.keyGenerate cid) s fun t => Only s t placing ∧
        KeyPlaced s t cid h (nkdKey s c p 2 true x) (padTo (outLenOf s c c.keyA c.keyB) (publicPart p x))) ∧
    (Acts s cid 0x0404 c d → c.keyA = some g → Map.get? s.keys.keys g = some k →
      Completes (.keyPublic cid) s fun t => Only s t answering ∧
        Ended t cid .ok 0 (padTo (publicOutLen s c.keyA) (publicOfKey s g k))) ∧
    (Acts s cid 0x0406 c d → c.keyA = some g → Map.get? s.keys.keys g = some k →
      Completes (.keyQuery cid) s fun t => Only s t answering ∧
        ∃ out, Ended t cid .ok 0 out ∧ out.length = 32 ∧ le out 0 2 = k.typ % 65536 ∧ le out 4 4 = k.len % 2 ^ 32 ∧
          le out 8 2 = k.owner % 65536) ∧
    (Acts s cid 0x0405 c d →
      Completes (.keyDestroy cid) s fun t => Only s t [.cmds] ∧ (getCmd t cid).map (·.phase) = some .effected) ∧
    (Map.get? s.keys.keys g = some k → k.destroyPending = true → keyAwaited s g = false →
      Completes (.keyDestroyZeroise g) s fun t => Only s t [.keys, .nvm, .cmds, .eng, .fns, .bus] ∧ Map.get? t.keys.keys g = none ∧
        (∀ i b, Map.get? t.keys.berths i = some b → b.slot0 ≠ some g ∧ b.slot1 ≠ some g) ∧
        (∀ x, x ≠ g → Map.get? t.keys.keys x = Map.get? s.keys.keys x) ∧
        ∀ x ∈ t.cmds, destroys x g = true → x.phase ≠ .effected) ∧
    (Map.get? s.keys.keys g = none →
      Completes (.keyDestroyZeroise g) s fun t => Only s t [.cmds, .eng, .fns, .bus] ∧
        ∀ x ∈ t.cmds, destroys x g = true → x.phase ≠ .effected) ∧
    (Acts s cid 0x0407 c d →
      Completes (.keyShare cid) s fun t => Only s t answering ∧ Ended t cid .ok 0 []) ∧
    (Acts s cid 0x0408 c d →
      Completes (.keyBind cid) s fun t => Only s t answering ∧ Ended t cid .ok 0 []) ∧
    (∀ r, opcode c.entry = 0x0407 → r.status = Status.ok → c.keyA = some g → Map.get? s.keys.keys g = some k →
      ∃ k', Map.get? (completionEffect s c r).keys.keys g = some k' ∧ k'.bytes = k.bytes ∧
        { k' with shareA := k.shareA, shareB := k.shareB, attrMask := k.attrMask } = { k with
          share := [le c.entry 40 2, le c.entry 42 2, le c.entry 44 2, le c.entry 46 2], wholePort := decide (le c.entry 48 1 = 1) }) ∧
    (∀ r b i, opcode c.entry = 0x0408 → r.status = Status.ok → c.keyA = some g → c.berth = some i →
      Map.get? s.keys.berths i = some b → le c.entry 40 1 = 0 → le c.entry 41 1 = 0 →
      Map.get? (completionEffect s c r).keys.berths i =
        some (if b.lock0 then b else { b with slot0 := some g, lock0 := b.pflags.getLsbD 1 }))

/-- Wrapped keys and random numbers (R167 to R170): a blob opens to a key of the issuer, and any fault in it is
refused; that one whose type is not supported, or whose length is none of its type, is refused with DETAIL 0xFFFF is the model's reading
(DEDUCED, log 92). -/
def Obligations.WrappedKeysAndRandom : Prop :=
  ∀ (s s1 : State) (cid h n : Nat) (c : Cmd) (d rnd iv kek : Bytes) (k : Key), n = outLenOf s c c.keyA c.keyB →
    (Acts s cid 0x0410 c d → le c.entry 40 1 = 1 → keyAt s c.keyB = some k → Drew s c rnd s1 →
      Completes (.wrapOut cid) s fun t => Only s t (.rng :: answering) ∧
        Ended t cid .ok 0 (padTo n (blobOf k (blobHeader 1 k rnd) [] (keyBytes s c.keyA)))) ∧
    (∀ r, Acts s cid 0x0410 c d → le c.entry 40 1 = 2 → keyAt s c.keyB = some k → Drew s c rnd s1 → iv = slice rnd 32 12 →
      r = Config.kemEncaps 0x0103 d (rnd.take 32) →
      Completes (.wrapOut cid) s fun t => Only s t (.rng :: answering) ∧
        (Config.publicOk 0x0103 d = true → Ended t cid .ok 0 (padTo n (blobOf k (blobHeader 2 k iv) (padTo 1568 r.1)
          (Config.kmac256 32 (padTo 32 r.2) (blobHeader 2 k iv) (ascii "TURUND WRAP"))))) ∧
        (Config.publicOk 0x0103 d = false → Ended t cid .badParam 0xFFFF [])) ∧
    (Acts s cid 0x0410 c d → le c.entry 40 1 = 3 → keyAt s c.keyB = some k → Drew s c rnd s1 →
      Completes (.wrapOut cid) s fun t => Only s t (.rng :: answering) ∧
        Ended t cid .ok 0 (padTo n (blobOf k (blobHeader 3 k rnd) [] (storeKey s)))) ∧
    (∀ r, Acts s cid 0x0411 c d → le c.entry 40 1 = 1 → kek = keyBytes s c.keyA → blobOk d 1 = true →
      inLen c.entry = 80 + le d 12 4 →
      r = aeadOpen 0x3001 kek (slice d 48 12) (d.take 64) (slice d 64 (le d 12 4)) (slice d (64 + le d 12 4) 16) →
      bit (le d 35 1) (if c.worldS then 1 else 0) = true → RoomAt s (le d 12 4) h 0 →
      Completes (.wrapIn cid) s fun t => Only s t placing ∧
        if r.2 = true then
          if blobTypeOk (blobKey s c d (padTo (le d 12 4) r.1)) = true then
            KeyPlaced s t cid h (blobKey s c d (padTo (le d 12 4) r.1)) []
          else Ended t cid .badParam 0xFFFF [] ∧ t.keys = s.keys
        else Ended t cid .keyDenied 1 [] ∧ t.keys = s.keys) ∧
    (Acts s cid 0x0411 c d → blobOk d (le c.entry 40 1) = false →
      Completes (.wrapIn cid) s fun t => Only s t answering ∧ Ended t cid .keyDenied 1 []) ∧
    (Acts s cid 0x0412 c d →
      Completes (.kwWrap cid) s fun t => Only s t answering ∧
        Ended t cid .ok 0 (padTo (keyLen s c.keyB + 8) (Config.kwWrap (keyBytes s c.keyA) (keyBytes s c.keyB)))) ∧
    (Acts s cid 0x0413 c d → RoomAt s (inLen c.entry - 8) h 0 →
      Completes (.kwUnwrap cid) s fun t => Only s t placing ∧
        match Config.kwUnwrap (keyBytes s c.keyA) d with
        | some x => KeyPlaced s t cid h (nkdKey s c (le c.entry 40 2) 5 true (padTo (inLen c.entry - 8) x)) []
        | none => Ended t cid .keyDenied 1 [] ∧ t.keys = s.keys) ∧
    (Acts s cid 0x0501 c d → wantsReseed s c.entry = false → draw s (le c.entry 44 4) = some (rnd, s1) →
      Completes (.random cid) s fun t => Only s t (.rng :: answering) ∧ Ended t cid .ok 0 rnd) ∧
    (Acts s cid 0x0501 c d → canDraw s = false →
      Completes (.random cid) s fun t => Only s t [.cmds] ∧
        ((∃ w, c.phase = .drawWait w) ∨ (getCmd t cid).map (·.phase) = some (.drawWait s.sys.tick)))

/-! ### Counters, trees, user NVM, time and seals -/

/-- Counters (R171, R241, R244, R247): CTR_INCREMENT raises the stored value by one and answers it, and no other
record changes; a counter at its greatest value stays there. -/
def Obligations.CountersRise : Prop :=
  ∀ (s : State) (cid fails n : Nat) (c : Cmd) (d : Bytes) (v : DWord), n = le c.entry 40 1 → counterBusy s c = false →
    (Acts s cid 0x0602 c d → c.value = none → Map.get? s.keys.held (heldKey 3 n) = none → recVal s.nvm 3 n = .value 0 v →
      v ≠ BitVec.allOnes 64 → RegionTakes s 3 fails →
      Completes (.ctrIncrement cid fails) s fun t => Only s t [.nvm, .keys, .cmds, .eng, .bus] ∧
        Ended t cid .ok 0 (leBytes 8 (v.toNat + 1)) ∧ recVal t.nvm 3 n = .value 0 (v + 1) ∧
        Map.get? t.keys.held (heldKey 3 n) = some (v + 1) ∧
        ∀ r i, i < 65536 → (r ≠ 3 ∨ i ≠ n) → recVal t.nvm r i = recVal s.nvm r i) ∧
    (Acts s cid 0x0602 c d → c.value = none → Map.get? s.keys.held (heldKey 3 n) = some (BitVec.allOnes 64) →
      Completes (.ctrIncrement cid fails) s fun t => Only s t answering ∧ Ended t cid .counterExhausted 1 []) ∧
    (Acts s cid 0x0601 c d → Map.get? s.keys.held (heldKey 3 n) = some v →
      Completes (.ctrRead cid fails) s fun t => Only s t answering ∧ Ended t cid .ok 0 (leBytes 8 v.toNat)) ∧
    (Acts s cid 0x0601 c d → Map.get? s.keys.held (heldKey 3 n) = none → recVal s.nvm 3 n = .corrupt →
      Completes (.ctrRead cid fails) s fun t => Ended t cid .counterExhausted 2 [] ∧ t.nvm = s.nvm)

/-- Stateful trees (R172, R173, R250 to R257): a new tree starts at leaf 0; a leaf that is taken was not taken before,
and a block is committed before its first leaf is used. A tree record holds its master seed sealed under the tree seed key (R250). An
HBS_KEYGEN whose record is written and whose key waits for the mask of its granule has only that key to place (R361). -/
def Obligations.StatefulTrees : Prop :=
  ∀ (s s1 : State) (cid fails tn g n r pl : Nat) (c : Cmd) (d seed : Bytes) (v : DWord) (gen : BitVec 24) (tr : TreeRec),
    (∀ fs : List Nat, Acts s cid 0x0610 c d → c.value = none → tn = le c.entry 42 2 → treeActive s tn = false →
      earlierOpen s c [0x0610] (fun x => le x.entry 42 2 == tn) = false → Drew s c seed s1 → DrawsLeft s 2 →
      recVal s.nvm 4 tn = .value gen v → gen ≠ BitVec.allOnes 24 → RegionTakes s 4 (fs.getD 0 0) → RegionTakes s 2 (fs.getD 1 0) →
      Completes (.hbsKeygen cid fs) s fun t => Only s t (.nvm :: .free :: placing) ∧
        match paramErr c d with
        | some (st, x) => Ended t cid st x [] ∧ t.nvm = s.nvm ∧ t.keys = s.keys
        | none => ∀ a b, hbsParams (le c.entry 40 2) d = some (pl, a, b) →
          Ended t cid .ok (Config.treeBase + tn) (padTo pl (Config.hbsPublic (le c.entry 40 2) d seed)) ∧
          recVal t.nvm 4 tn = .value (gen + 1) 0 ∧ Map.get? t.keys.trees tn = some (0, 0) ∧
          (∃ x, Map.get? t.nvm.trees tn = some x ∧ treeSeed t tn x = some seed ∧ x.owner = c.fn ∧ x.gen = gen + 1 ∧ x.params = d) ∧
          ∃ k, Map.get? t.keys.keys (Config.treeBase + tn) = some k ∧ k.typ = le c.entry 40 2 ∧ k.origin = 8) ∧
    (∀ (fs : List Nat) (w a b : Nat), Acts s cid 0x0610 c d → c.value = some w → tn = le c.entry 42 2 → paramErr c d = none →
      Drew s c seed s1 → DrawsLeft s 2 → hbsParams (le c.entry 40 2) d = some (pl, a, b) →
      Completes (.hbsKeygen cid fs) s fun t => Only s t placing ∧
        Ended t cid .ok (Config.treeBase + tn) (padTo pl (Config.hbsPublic (le c.entry 40 2) d seed)) ∧
        ∃ k, Map.get? t.keys.keys (Config.treeBase + tn) = some k ∧ k.typ = le c.entry 40 2 ∧ k.origin = 8 ∧ k.bytes = seed) ∧
    (getCmd s cid = some c → c.keyA = some g → tn = treeOf g → running s = true → opcode c.entry = 0x0611 → c.phase = .run →
      c.leaf = none → earlierOpen s c [0x0611] (fun x => (x.keyA == some g || blocksKey s x g) && x.leaf.isNone) = false →
      Map.get? s.keys.trees tn = some (n, r) → n < r → n < treeLeaves s (some g) →
      Completes (.leafReserve cid fails) s fun t => Only s t [.keys, .cmds] ∧
        getCmd t cid = some { c with leaf := some n } ∧ Map.get? t.keys.trees tn = some (n + 1, r)) ∧
    (getCmd s cid = some c → c.keyA = some g → tn = treeOf g → running s = true → opcode c.entry = 0x0611 → c.phase = .run →
      c.leaf = none → earlierOpen s c [0x0611] (fun x => (x.keyA == some g || blocksKey s x g) && x.leaf.isNone) = false →
      Map.get? s.keys.trees tn = some (n, n) → n < treeLeaves s (some g) → min (n + 64) (treeLeaves s (some g)) < 2 ^ 64 →
      recVal s.nvm 4 tn = .value gen (BitVec.ofNat 64 n) → RegionTakes s 4 fails →
      Completes (.leafReserve cid fails) s fun t => Only s t [.nvm, .keys, .cmds] ∧
        getCmd t cid = some { c with leaf := some n } ∧
        Map.get? t.keys.trees tn = some (n + 1, min (n + 64) (treeLeaves s (some g))) ∧
        recVal t.nvm 4 tn = .value gen (BitVec.ofNat 64 (min (n + 64) (treeLeaves s (some g))))) ∧
    (getCmd s cid = some c → c.keyA = some g → tn = treeOf g → running s = true → opcode c.entry = 0x0611 → c.phase = .run →
      c.leaf = none → Settled c →
      earlierOpen s c [0x0611] (fun x => (x.keyA == some g || blocksKey s x g) && x.leaf.isNone) = false →
      Map.get? s.keys.trees tn = some (n, r) → treeLeaves s (some g) ≤ n →
      Completes (.leafReserve cid fails) s fun t => Only s t [.cmds, .eng] ∧ Ended t cid .counterExhausted 1 []) ∧
    (Acts s cid 0x0611 c d → c.leaf = some n → c.keyA = some g → Map.get? s.nvm.trees (treeOf g) = some tr →
      Completes (.hbsSign cid) s fun t => Only s t answering ∧
        Ended t cid .ok 0 (padTo (treeParams s c.keyA).2.1 (Config.hbsSign tr.pset tr.params (keyBytes s c.keyA)
          (leafSplit ((hbsLevels tr.pset tr.params).getD []) n) d))) ∧
    (Acts s cid 0x0612 c d → c.keyA = some g → Map.get? s.keys.trees (treeOf g) = some (n, r) →
      Completes (.hbsQuery cid fails) s fun t => Only s t answering ∧
        Ended t cid .ok 0 (leBytes 8 n ++ leBytes 8 r ++ leBytes 8 (treeLeaves s (some g))))

/-- User NVM (R174): a write stores its bytes at its address and no others, in the canonical form of the store; a read
answers what is stored, and an unwritten byte reads 0xFF (log 12). A block whose write fails and for which the region has no spare words
ends the write (R262). -/
def Obligations.UserNvmReadsBack : Prop :=
  ∀ (s : State) (cid : Nat) (fails : List Nat) (c : Cmd) (d : Bytes),
    (Acts s cid 0x0621 c d → earlierOpen s c [0x0621] (fun x => overlaps x.entry c.entry) = false → RegionTakes s 1 fails.sum →
      Completes (.nvmWrite cid fails) s fun t => Only s t (.user :: .nvm :: answering) ∧ Ended t cid .ok 0 [] ∧
        memRead userBlank t.nvm.user (le c.entry 44 4) d.length = d ∧
        (∀ a, (a < le c.entry 44 4 ∨ le c.entry 44 4 + d.length ≤ a) →
          memGet userBlank t.nvm.user a = memGet userBlank s.nvm.user a) ∧
        (memWf userBlank s.nvm.user = true → memWf userBlank t.nvm.user = true)) ∧
    (Acts s cid 0x0621 c d → earlierOpen s c [0x0621] (fun x => overlaps x.entry c.entry) = false →
      (getWear s.nvm 1).worn = true → d ≠ [] →
      Completes (.nvmWrite cid fails) s fun t => Only s t answering ∧ Ended t cid .counterExhausted 3 []) ∧
    (Acts s cid 0x0621 c d → earlierOpen s c [0x0621] (fun x => overlaps x.entry c.entry) = false →
      spareWords 1 - (getWear s.nvm 1).spare < fails.headD 0 → d ≠ [] →
      Completes (.nvmWrite cid fails) s fun t => Only s t (.nvm :: answering) ∧ Ended t cid .counterExhausted 3 []) ∧
    (Acts s cid 0x0620 c d →
      Completes (.nvmRead cid) s fun t => Only s t answering ∧
        ∃ out, Ended t cid .ok 0 out ∧ out.length = le c.entry 48 4 ∧
          ∀ i, i < le c.entry 48 4 → out.getD i 0 = memGet userBlank s.nvm.user (le c.entry 44 4 + i))

/-- Time and seals (R175 to R179, R305, R307): what TIME_READ answers; a seal links to the berth's chain head, which
becomes the digest of the new header; with the time untrusted a strict berth seals nothing. -/
def Obligations.TimeAndSeals : Prop :=
  ∀ (s s1 : State) (cid i : Nat) (c : Cmd) (b : Berth) (d hdr rnd : Bytes),
    (Acts s cid 0x0701 c d →
      Completes (.timeRead cid) s fun t => Only s t answering ∧ ∃ out, Ended t cid .ok 0 out ∧ out.length = 32 ∧
        le out 0 8 = (time64Now s).toNat ∧ le out 8 8 = s.sys.tick.toNat ∧ le out 24 8 = s.time.epoch.toNat) ∧
    (Acts s cid 0x0702 c d → c.berth = some i → Map.get? s.keys.berths i = some b → strictUntrusted s b = true →
      Completes (.timestamp cid) s fun t => Only s t answering ∧ Ended t cid .timeUntrusted 0 []) ∧
    (Acts s cid 0x0702 c d → c.berth = some i → Map.get? s.keys.berths i = some b → strictUntrusted s b = false →
      Drew s c rnd s1 →
      Completes (.timestamp cid) s fun t => Only s t (.rng :: answering) ∧
        Ended t cid .ok 0 (padTo (outLenOf s c c.keyA c.keyB)
          (sealSigned s c (sealHeader s c i b 0x10 0 (le c.entry 40 2) true noChunk d (zeros 48)) rnd))) ∧
    (getCmd s cid = some c → c.berth = some i → Map.get? s.keys.berths i = some b → c.input = some d → running s = true →
      opcode c.entry = 0x0710 → c.phase = .run → c.header = none →
      berthHere s c = true → earlierOpen s c [0x0710] (fun x => namesBerth s x i && x.header.isNone) = false → strictUntrusted s b = false →
      b.resume = false → b.lastEpoch ≠ 0 → b.nextSeq ≠ BitVec.allOnes 64 →
      Completes (.sealLink cid) s fun t => Only s t [.keys, .cmds] ∧ ∃ hd, (getCmd t cid).map (·.header) = some (some hd) ∧
        le hd 16 8 = s.time.epoch.toNat ∧ le hd 24 8 = b.nextSeq.toNat ∧
        Map.get? t.keys.berths i = some { b with
          chainHead := digest 0x13 48 hd, nextSeq := b.nextSeq + 1, lastEpoch := s.time.epoch }) ∧
    (getCmd s cid = some c → c.berth = some i → Map.get? s.keys.berths i = some b → c.input = some d → running s = true →
      opcode c.entry = 0x0710 → c.phase = .run → c.header = none → Settled c →
      berthHere s c = true → earlierOpen s c [0x0710] (fun x => namesBerth s x i && x.header.isNone) = false → strictUntrusted s b = true →
      Completes (.sealLink cid) s fun t => Only s t [.cmds, .eng] ∧ Ended t cid .timeUntrusted 0 []) ∧
    (Acts s cid 0x0710 c d → c.header = some hdr → Drew s c rnd s1 →
      Completes (.seal cid) s fun t => Only s t (.rng :: answering) ∧
        Ended t cid .ok 0 (padTo (outLenOf s c c.keyA c.keyB) (sealSigned s c hdr rnd)))

/-! ### Engines and the arbiter -/

/-- PLAN_RUN, and the end of segments (R180, R184, R189, R190, R192, R235): a segment that decides nothing just ends; a FIRST_SET
decision notes the lowest set flag, goes back to its target while none is set, and one repeat too many is an engine fault of
cause 6. What an engine of a standard plan writes to the LVE frame stands there at once while no vector engine runs for the
command; how a row carries such a write (DESIGN CHOICE, log 98) and how a candidate that a decision chose is noted (DEDUCED, log 30) are
the model's. -/
def Obligations.PlansAndSegments : Prop :=
  ∀ (s : State) (cid kind i j n : Nat) (c : Cmd) (g : Seg) (dec : Dec) (d : Bytes) (flags : Byte),
    (Acts s cid 0x0801 c d → n = le c.body 36 4 + le c.body 40 4 * (inLen c.entry / max 1 (le c.body 32 4)) →
      Completes (.planRun cid) s fun t => Only s t answering ∧
        Ended t cid .ok 0 (memRead 0 c.frame (le c.body 76 4) n)) ∧
    (running s = true → getCmd s cid = some c → gmRead s (.working cid) = none → c.running = [(kind, i)] → c.runSegs = [j] →
      inService s kind i = true → unitRuns s (engUnit kind i) = true → c.segs[j]? = some g → kind ≠ 1 → c.verdict = none →
      (g.dec = none → c.jump = none →
        Completes (.segmentEnd cid kind (.done flags [])) s fun t => SegmentOver s t kind i ∧
          getCmd t cid = some { c with running := [], runSegs := [] }) ∧
      (∀ a b, c.planId < 0x80000000 → a + b.length ≤ lveFrame c →
        Completes (.segmentEnd cid kind (.wrote [(a, b)])) s fun t => Only s t [.cmds] ∧
          getCmd t cid = some { c with frame := memWrite 0 c.frame a b }) ∧
      (∀ a b, g.dec = none → c.jump = none → c.planId < 0x80000000 → a + b.length ≤ lveFrame c →
        Completes (.segmentEnd cid kind (.done flags [(a, b)])) s fun t => SegmentOver s t kind i ∧
          getCmd t cid = some { c with running := [], runSegs := [], frame := memWrite 0 c.frame a b }) ∧
      (g.dec = some dec → dec.rule = 1 → Nat.land flags.toNat dec.mask = 0 → Map.getD c.reps j 0 + 1 ≤ dec.limit →
        Completes (.segmentEnd cid kind (.done flags [])) s fun t => SegmentOver s t kind i ∧
          ∃ x, getCmd t cid = some x ∧ x.running = [] ∧ x.pos = dec.target ∧ x.rep = Map.getD c.reps j 0 + 1 ∧
            Map.get? x.reps j = some (Map.getD c.reps j 0 + 1)) ∧
      (g.dec = some dec → dec.rule = 1 → c.jump = none → Nat.land flags.toNat dec.mask ≠ 0 →
        Completes (.segmentEnd cid kind (.done flags [])) s fun t => SegmentOver s t kind i ∧
          ∃ x, getCmd t cid = some x ∧ x.running = [] ∧ x.pos = c.pos ∧ x.cand < 8 ∧
            (Nat.land flags.toNat dec.mask).testBit x.cand = true ∧
            (∀ b, b < x.cand → (Nat.land flags.toNat dec.mask).testBit b = false) ∧
            x.picks = c.picks ++ [4 * Map.getD c.reps j 0 + x.cand]) ∧
      (g.dec = some dec → dec.rule = 1 → Nat.land flags.toNat dec.mask = 0 → dec.limit < Map.getD c.reps j 0 + 1 →
        Completes (.segmentEnd cid kind (.done flags [])) s fun t => Only s t (.fns :: .lc :: answering) ∧
          Ended t cid .engineFault 6 []))

/-- The arbiter (R323 to R326): a visit moves to the next slot; a slot whose class has a ready request grants it, else
its alternate's. A grant gives the command an engine for each segment of its next group, none of which is running. -/
def Obligations.ArbiterVisits : Prop :=
  (∀ (s : State), s.eng.walking = true → s.eng.slot ≠ 0 →
    (s.sys.mode = .held →
      Completes .arbiterVisit s fun t => Only s t [.eng] ∧
        t.eng = { s.eng with slot := (s.eng.slot + 1) % Config.timetableSlots, fresh := false }) ∧
    (running s = true → (∀ c ∈ s.cmds, asks c = false) →
      Completes .arbiterVisit s fun t => Only s t [.eng, .rng] ∧
        { t.eng with seedQ := s.eng.seedQ } = { s.eng with slot := (s.eng.slot + 1) % Config.timetableSlots, fresh := false }) ∧
    (∀ u cls alt, running s = true → u = refillAll s → cls = slotEntry s s.eng.slot % 64 → alt = slotEntry s s.eng.slot / 256 % 64 →
      (∀ c ∈ s.cmds, asks c = true → deadKind s (c.segs.drop c.pos) = none ∧ drawLate u c = false) →
      (∀ c ∈ u.cmds, readyButSeeds u c = true → seedsReady u c = true) →
      (∀ t, grantClass u cls = some t → exec .arbiterVisit s = .next (nextSlotOf t)) ∧
      (∀ t, grantClass u cls = none → grantClass u alt = some t → exec .arbiterVisit s = .next (nextSlotOf t)) ∧
      (grantClass u cls = none → grantClass u alt = none → exec .arbiterVisit s = .next (nextSlotOf u)))) ∧
  (∀ (s : State) (cls : Nat) (t : State), grantClass s cls = some t → ∃ c ∈ s.cmds, c.cls.toNat = cls ∧ isReady s c = true ∧
      ∃ es, groupEngines s c = some es ∧ es.length = (nextGroup c).length ∧
        (∀ e ∈ es, engineBusy s e.1 e.2 = false) ∧ (getCmd s c.id = some c → (getCmd t c.id).map (·.running) = some es))

/-- Dispatch boundaries and the faults of engines (R17, R21, R56, R188, R198, R212, R213, R321, Table 70): every sequencer's passing
is noted, and with the last one a port's reset takes place. An engine that has made no step for 4 µs, whose state code or whose
output check fails, is retired, and a command that has been rerun completes with ST_ENGINE_FAULT. The model's choices: the blocks of R22
that are no engines (DESIGN CHOICE, log 70), what counts as a step of an engine without a vector stream (DEDUCED, log 75), and that a port's
reset waits for the boundary (DEDUCED, log 101). -/
def Obligations.BoundariesAndEngineFaults : Prop :=
  ∀ (s : State) (kind i : Nat) (q : Fin 16) (c : Cmd),
    (running s = true → unitRuns s q.val = true → (∀ p ∈ portsWaiting s, changeDue (passBoundary s q.val) 3 p = false) →
      Completes (.dispatchBoundary q) s fun t => Only s t [.eng, .lc] ∧ { t.lc with units := s.lc.units } = s.lc ∧
        t.eng = { s.eng with changes := s.eng.changes.map fun e => (e.1, e.2.1, e.2.2 ||| BitVec.ofNat 16 (2 ^ q.val)) }) ∧
    (running s = true → unitRuns s q.val = false → exec (.dispatchBoundary q) s = .next s) ∧
    (∀ p, running s = true → unitRuns s q.val = true → p < 8 → portsWaiting s = [p] → changeDue (passBoundary s q.val) 3 p = true →
      Completes (.dispatchBoundary q) s fun t => p ∉ portsWaiting t ∧ (getPort t p).vfEnable = false ∧
        (getPort t p).targets = [] ∧ (getPort t p).sets = [] ∧ ∀ f ∈ portFns s p, (getFn t f).flr = .cleanup) ∧
    (running s = true → inService s kind i = true → engineBusy s kind i = true → stalled4us s kind i = true →
      Completes (.engineStall kind i) s fun t => inService t kind i = false ∧ Only s t [.eng, .cmds, .recorder, .fns, .bus] ∧
        (∀ k j, (k, j) ≠ (kind, i) → inService t k j = inService s k j) ∧
        (holders s kind i = [c] → getCmd s c.id = some c → c.reran = true →
          Ended t c.id .engineFault (faultDetail 3 kind i) [])) ∧
    (running s = true → stalled4us s kind i = false → exec (.engineStall kind i) s = .next s) ∧
    (∀ cid x, running s = true → inService s kind i = true → unitRuns s (engUnit kind i) = true → getCmd s cid = some x →
      x.running = [(kind, i)] → gmRead s (.working cid) = none → checksOutput x kind = true →
      Completes (.segmentEnd cid kind .checkFailed) s fun t => inService t kind i = false ∧
        Only s t [.eng, .cmds, .recorder, .fns, .bus] ∧
        (holders s kind i = [c] → getCmd s c.id = some c → c.reran = true →
          Ended t c.id .engineFault (faultDetail 7 kind i) [])) ∧
    (s.sys.mode ≠ .dormant → kind ≤ 6 → inService s kind i = true →
      Completes (.dualRailFault kind i) s fun t => inService t kind i = false ∧
        Only s t [.eng, .cmds, .recorder, .alarm, .fns, .bus] ∧
        (monitorsRun s = true → (getMon t 12).total = min ((getMon s 12).total + 1) 0xFFFFFF)) ∧
    (s.sys.mode ≠ .dormant → 6 < kind →
      Completes (.dualRailFault kind i) s fun t => Only s t [.recorder, .alarm] ∧
        (monitorsRun s = true → (getMon t 12).total = min ((getMon s 12).total + 1) 0xFFFFFF)) ∧
    (monitorsRun s = false → exec (.trapMicroword q) s = .next s) ∧
    (monitorsRun s = true → fused s 13 = false →
      Completes (.trapMicroword q) s fun t => Only s t [.alarm, .recorder] ∧
        (getMon t 13).total = min ((getMon s 13).total + 1) 0xFFFFFF ∧
        ∀ n, n ≠ 13 → getMon t n = getMon s n)

/-! ### The random number generator -/

/-- The generator (R347 to R364): the fill of Boot, a sample, the end of a window, REFILL, the known-answer tests and
the two waits. Which ticks are sample events, and that a test of the conditioner leaves it at zero, is the model's choice (log 62). -/
def Obligations.RandomGenerator : Prop :=
  ∀ (s : State) (fn cid : Nat) (v : Word) (raw : BitVec 28) (t0 : DWord) (a b : Bool),
    (filling s = true → s.rng.sampling = false →
      Completes (.rngFill true true) s fun t => Only s t [.rng] ∧ t.rng.sampling = true ∧ t.rng.cond = 0 ∧
        t.rng.absorbed = 0 ∧ t.rng.samples = 0 ∧ t.rng.state = s.rng.state ∧ t.rng.katDone = true ∧ t.rng.condPass = true ∧
        t.rng.expPass = true) ∧
    (filling s = true → s.rng.sampling = false → (a && b) = false → opposed s 8 = false →
      Completes (.rngFill a b) s fun t => t.sys.mode = .lockdown ∧ t.sys.cause = 0xB ∧ t.boot.error = 0x30) ∧
    (filling s = true → s.rng.sampling = true → s.rng.passRun = 4 → 16 ≤ s.rng.pool.length → fillLate s = false →
      Completes (.rngFill a b) s fun t => Only s t [.rng, .boot] ∧ t.rng.state = .ready ∧ t.rng.inst.length = 8 ∧
        t.rng.pool = s.rng.pool.drop 16 ∧ t.boot = { s.boot with phase := 7 }) ∧
    (filling s = true → 400000 ≤ s.sys.tick.toNat - s.rng.start.toNat → opposed s 8 = false →
      Completes .rngFillTimeout s fun t => t.sys.mode = .lockdown ∧ t.sys.cause = 0xB ∧ t.boot.error = 0x30) ∧
    (s.rng.sampling = true → s.rng.samples < 1024 → s.sys.mode ≠ .dormant → s.sys.tick.toNat % 25 = 0 →
      s.rng.sampledAt ≠ some s.sys.tick → sampleFails s.rng raw = [] →
      Completes (.noiseSample raw) s fun t => Only s t [.rng] ∧ t.rng.samples = s.rng.samples + 1 ∧
        t.rng.sampledAt = some s.sys.tick ∧
        t.rng.state = s.rng.state ∧ t.rng.pool = s.rng.pool ∧
        (s.rng.absorbed < 1024 → t.rng.absorbed = (s.rng.absorbed + 28) % 1024)) ∧
    (s.rng.sampling = true → s.rng.samples = 1024 → s.rng.bad = true →
      Completes .testWindowEnd s fun t => Only s t [.rng] ∧
        t.rng = { s.rng with held := [], samples := 0, bad := false }) ∧
    (s.rng.sampling = true → s.rng.samples = 1024 → s.rng.bad = false →
      ∃ u : State, exec .testWindowEnd s = .next (judgeDraws (retryRng u)) ∧ Only s u [.rng] ∧ u.rng.held = [] ∧ u.rng.samples = 0 ∧
        u.rng.passRun = min (s.rng.passRun + 1) 15 ∧ u.rng.pool.length = min 16 (s.rng.pool.length + s.rng.held.length) ∧
        u.rng.state = if s.rng.state = .fault ∧ 1 ≤ s.rng.passRun then .refill else s.rng.state) ∧
    (s.rng.state = .refill → 16 ≤ s.rng.pool.length →
      ∃ u : State, exec (.refillComplete true true) s = .next (judgeDraws (retryRng u)) ∧ Only s u [.rng] ∧ u.rng.state = .ready ∧
        u.rng.inst.length = 8 ∧ u.rng.pool = s.rng.pool.drop 16 ∧ u.rng.cond = 0 ∧ u.rng.absorbed = 0 ∧
        u.rng.katRuns = min (s.rng.katRuns + 1) 255) ∧
    ((getCmd s cid).map (·.phase) = some (.rngWait t0) → serving s = true → 400000 ≤ s.sys.tick.toNat - t0.toNat →
      Completes (.rngWaitTimeout cid) s fun t => Only s t [.cmds, .eng, .fns, .bus] ∧ Ended t cid .rngNotReady 0 []) ∧
    ((getCmd s cid).map (·.phase) = some (.drawWait t0) → serving s = true → 200000 ≤ s.sys.tick.toNat - t0.toNat →
      Completes (.rngDrawTimeout cid) s fun t => Only s t [.cmds, .eng, .fns, .bus] ∧ Ended t cid .rngFault 0 []) ∧
    (KeeperWritable s fn → v.getLsbD 0 = true → s.rng.state = .ready → s.rng.katRun = false →
      Completes (.rngKatCtrlRun fn v) s fun t => Only s t [.rng] ∧ t.rng = { s.rng with katRun := true }) ∧
    (s.rng.katRun = true →
      ∃ u : State, exec (.rngKatDone true true) s = .next (judgeDraws (retryRng u)) ∧ Only s u [.rng] ∧
        u.rng = { s.rng with katRun := false, cond := 0, absorbed := 0, katDone := true, condPass := true, expPass := true,
                             katRuns := min (s.rng.katRuns + 1) 255 }) ∧
    (s.rng.katRun = true → (a && b) = false → s.rng.state = .ready → s.sys.mode ≠ .boot →
      Completes (.rngKatDone a b) s fun t => t.rng.state = .fault ∧ t.rng.pool = [] ∧ t.rng.failSrc = 31 ∧
        t.rng.faults = min (s.rng.faults + 1) 255 ∧ t.rng.passRun = 0 ∧ t.eng.seedQ = [])

/-! ### Registers, interrupts, the debug port -/

/-- Writes of registers in the modes that serve them (R5, R6, R72, R99, R100, R310, R370, R372, R402, R454, R459):
what is written, and nothing else; a write of part of a dword outside the MSI-X table is discarded, and a locked field
keeps its value. MODE_REQ (R37, R41, Table 23): Maintenance from Service, and back where the life-cycle state and the
pending move allow it and no other cause of the same tick stands lower in Table 15; any other request is rejected and noted.
ENABLE keeps the tail last read (log 69). A poisoned write, or one that fails its ECRC, changes no register and is noted in the
function's AER status (R430; bit places: log 11). A read is answered with the register's value (R454), and one of TB_NOW_LO or CAL_NOW_LO
latches the high half (R310); of a BAR that is not decoded the answer is no data (R431). That a whole request is discarded where its
start or its length is no multiple of a dword is log 36, and that KQ_ENABLE leaves the queue of a DRAINING function as it is log 104. -/
def Obligations.RegisterWrites : Prop :=
  (∀ (s : State) (fn off : Nat) (v : Word) (n : Fin 16) (d d' : Bytes) (q : Sq) (c : Cq) (r : BarRead),
      (off % 4 ≠ 0 ∨ d.length % 4 ≠ 0 → off < 0x10000 ∨ 0x18000 ≤ off → exec (.registerWrite fn off (.good d)) s = .next s) ∧
      (∀ x w, (x, w) ∈ [(BarData.poisoned, (0x1000 : Word)), (.badEcrc, 0x80000)] → barOpen s fn = true →
        Completes (.registerWrite fn off x) s fun t => Only s t [.fns, .bus] ∧ getFn t fn =
          { getFn s fn with pcie := { (getFn s fn).pcie with aerUnc := (getFn s fn).pcie.aerUnc ||| w } } ∧
          t.bus = s.bus ++ if (getFn s fn).pcie.devCtl.getLsbD 1 then [.errorMsg fn] else []) ∧
      (barOpen s fn = false → ∀ x, exec (.registerWrite fn off x) s = .next s) ∧
      (Writable s fn → d.length = 4 →
        Completes (.registerWrite fn 0x0818 (.good d)) s fun t => Only s t [.fns] ∧
          (getFn t fn).kq = { (getFn s fn).kq with
            active := BitVec.ofNat 9 (max 1 (min 256 (le d 0 4 % 512))), noBackoff := bit (le d 0 4) 9 }) ∧
      (off % 4 = 0 → d.length = 4 → d'.length % 4 = 0 →
        ∃ u : State, exec (.registerWrite fn off (.good d)) s = .next u ∧
          exec (.registerWrite fn off (.good (d ++ d'))) s = exec (.registerWrite fn (off + 4) (.good d')) u) ∧
      (KeeperWritable s fn → s.alarm.lock = false →
        Completes (.monWindowWrite fn n v) s fun t => Only s t [.alarm] ∧
          getMon t n.val = { getMon s n.val with w := max 1 (min 1000000 (v.toNat % 2 ^ 20)), hist := [], inWin := 0 } ∧
          ∀ j, j ≠ n.val → getMon t j = getMon s j) ∧
      (KeeperWritable s fn → s.alarm.lock = false →
        Completes (.monThreshWrite fn n v) s fun t => Only s t [.alarm] ∧
          getMon t n.val = { getMon s n.val with n := max 1 (v.toNat % 2 ^ 8), hist := [], inWin := 0 } ∧
          ∀ j, j ≠ n.val → getMon t j = getMon s j) ∧
      (KeeperWritable s fn → s.alarm.lock = true →
        exec (.monWindowWrite fn n v) s = .next s ∧ exec (.monThreshWrite fn n v) s = .next s) ∧
      (KeeperWritable s fn → v.getLsbD 0 = true →
        Completes (.alarmCfgLock fn v) s fun t => Only s t [.alarm] ∧ t.alarm = { s.alarm with lock := true }) ∧
      (KeeperWritable s fn → v.toNat / 65536 = 0xD15A → s.sys.mode = .maintenance → s.lc.state = .factory →
        Completes (.monFuse fn v) s fun t => Only s t [.otp] ∧ ∀ i, i < 16 → i ≠ 12 → i ≠ 13 →
          t.otp.fuseA.getLsbD i = (s.otp.fuseA.getLsbD i || v.getLsbD i) ∧
          t.otp.fuseB.getLsbD i = (s.otp.fuseB.getLsbD i || v.getLsbD i)) ∧
      (KeeperWritable s fn → v.toNat / 65536 ≠ 0xD15A ∨ s.sys.mode ≠ .maintenance ∨ s.lc.state ≠ .factory →
        exec (.monFuse fn v) s = .next s) ∧
      (KeeperWritable s fn → v.getLsbD 2 = true → s.lc.scope ≠ 0 →
        Completes (.dbgCtrlClose fn v) s fun t => Only s t [.lc, .recorder] ∧
          t.lc = { s.lc with scope := 0, byOwner := false }) ∧
      (timeReadable s r.fn = true → r.off = 0x1800 → r.len = 4 →
        Completes (.tbNowLoRead r) s fun t => Only s t [.fns, .bus] ∧
          getFn t r.fn = { getFn s r.fn with tbLatch := (s.sys.tick >>> 32).setWidth 32 } ∧
          t.bus = s.bus ++ [.reply r.fn r.off (some (leBytes 4 (s.sys.tick.toNat % 2 ^ 32)))]) ∧
      (timeReadable s r.fn = true → r.off = 0x1808 → r.len = 4 →
        Completes (.calNowLoRead r) s fun t => Only s t [.fns, .bus] ∧
          getFn t r.fn = { getFn s r.fn with calLatch := (time64Now s >>> 32).setWidth 32 } ∧
          t.bus = s.bus ++ [.reply r.fn r.off (some (leBytes 4 ((time64Now s).toNat % 2 ^ 32)))]) ∧
      (∀ i, i = Instr.tbNowLoRead r ∨ i = Instr.calNowLoRead r →
        (barOpen s r.fn = true → r.off % 4 = 0 → r.len = 4 → r.off ≠ 0x1800 → r.off ≠ 0x1808 →
          Completes i s fun t => Only s t [.bus] ∧
            t.bus = s.bus ++ [.reply r.fn r.off (some (leBytes 4 (regRead s r.fn r.off).toNat))]) ∧
        (barOpen s r.fn = false → portUp s r.fn = true → s.sys.mode ≠ .dormant → s.sys.resetLow = false → s.sys.isolated = false →
          Completes i s fun t => Only s t [.bus] ∧ t.bus = s.bus ++ [.reply r.fn r.off none])) ∧
      (Writable s fn → (getFn s fn).power ≠ .draining → v.getLsbD 0 = true → v.getLsbD 2 = false → getSq s fn 0 = some q →
        (q.st = .disabled ∨ q.st = .doorbellError ∨ q.st = .fetchError) →
        Completes (.kqEnable fn v) s fun t => Only s t [.sqs, .fns, .bus] ∧ (getFn t fn).kq.enable = true ∧
          (getFn t fn).kq.irqEn = v.getLsbD 1 ∧
          ∃ x, getSq t fn 0 = some x ∧ x.st = .enabled ∧ x.head = q.head ∧ x.fetch = q.head ∧ x.tail = q.tail) ∧
      (Writable s fn → v.getLsbD 0 = false → v.getLsbD 2 = false → getSq s fn 0 = some q → q.st = .enabled →
        Completes (.kqDisable fn v) s fun t => Only s t [.sqs, .cqs, .fns, .bus] ∧ (getFn t fn).kq.enable = false ∧
          ∃ x, getSq t fn 0 = some x ∧ x.head = q.head ∧ x.opened = q.opened ∧ x.ready = [] ∧
            x.st = if q.opened = 0 then .disabled else .draining) ∧
      (Writable s fn → v.getLsbD 0 = false → v.getLsbD 2 = true → getSq s fn 0 = some q → q.st = .disabled →
        (getFn s fn).kq.enable = false → getCq s fn 0 = some c →
        Completes (.resetIdx fn v) s fun t => Only s t [.sqs, .cqs, .fns, .bus] ∧
          (∃ x, getSq t fn 0 = some x ∧ x.head = 0 ∧ x.tail = 0 ∧ x.fetch = 0 ∧ x.st = .disabled) ∧
          ∃ y, getCq t fn 0 = some y ∧ y.head = 0 ∧ y.tail = 0)) ∧
  (∀ (s : State) (fn : Nat) (v : Word), KeeperWritable s fn →
      (v.toNat % 4 = 1 → s.sys.mode = .service → opposed s 3 = false →
        Completes (.maintenanceEnter fn v) s fun t => Only s t [.sys, .recorder] ∧ t.sys.mode = .maintenance ∧
          t.sys.prev = .service ∧ t.sys.cause = 7) ∧
      (v.toNat % 4 = 1 → s.sys.mode ≠ .service →
        Completes (.maintenanceEnter fn v) s fun t => Only s t [.sys] ∧ t.sys = { s.sys with reqRejected := true }) ∧
      (v.toNat % 4 = 2 → s.sys.mode = .maintenance → (s.lc.state = .owned ∨ s.lc.state = .field) →
        pendingMove s.nvm = none → s.lc.tainted = false → opposed s 4 = false →
        Completes (.maintenanceLeave fn v) s fun t => Only s t [.sys, .recorder] ∧ t.sys.mode = .service ∧
          t.sys.prev = .maintenance ∧ t.sys.cause = 7) ∧
      (v.toNat % 4 = 2 →
        s.sys.mode ≠ .maintenance ∨ (s.lc.state ≠ .owned ∧ s.lc.state ≠ .field) ∨ pendingMove s.nvm ≠ none ∨ s.lc.tainted = true →
        Completes (.maintenanceLeave fn v) s fun t => Only s t [.sys] ∧ t.sys = { s.sys with reqRejected := true }))

/-- Interrupts (R330, R331, R333, R335, R339, R343): a fast vector counts its signals and sends its one message when
it is enabled, unmasked and the function may issue requests. A normal vector that a command delivers stays as it is while it is not
sendable; else its message goes to its MSI-X entry where it has no vector set, to the first awake member after the last one delivered to
where it has one, and with every member asleep or absent its hold starts, or goes on (R339). Which writes run the delivery is log 68. -/
def Obligations.Interrupts : Prop :=
  ∀ (s : State) (fn k : Nat) (n : Fin 8) (v : Word) (f : FastVec),
    (Writable s fn → v.getLsbD 31 = true → v.getLsbD 11 = true → k = v.toNat % 2048 → k < 8 → f = getFast s fn k →
      Completes (.intSoftPend fn v) s fun t => Only s t [.fns, .bus] ∧ (getFast t fn k).count = min (f.count + 1) 255 ∧
        (getFast t fn k).info = 0xFFFF ∧
        (getFast t fn k).pending = ((f.pending || f.enable) && !(f.enable && !f.mask && canReq s fn)) ∧
        t.bus = s.bus ++ if (f.enable && !f.mask && canReq s fn) then [.write fn f.addr (leBytes 4 f.data.toNat)] else []) ∧
    (Writable s fn → v.getLsbD 31 = true → v.getLsbD 11 = false → k = v.toNat % 2048 →
      ∃ u : State, exec (.intSoftPend fn v) s = .next (deliver u fn k) ∧ Only s u [.fns] ∧ k ∈ (getFn u fn).normPend) ∧
    (Writable s fn → v.getLsbD 31 = false → exec (.intSoftPend fn v) s = .next s) ∧
    (Writable s fn → v.getLsbD 1 = false → f = getFast s fn n.val →
      Completes (.maskClear fn n v) s fun t => Only s t [.fns, .bus] ∧ (getFast t fn n.val).mask = false ∧
        (getFast t fn n.val).enable = v.getLsbD 0 ∧ (getFast t fn n.val).info = f.info ∧
        (getFast t fn n.val).pending = (f.pending && !(v.getLsbD 0 && canReq s fn)) ∧
        t.bus = s.bus ++ if (f.pending && v.getLsbD 0 && canReq s fn) then [.write fn f.addr (leBytes 4 f.data.toNat)] else []) ∧
    (Writable s fn → v.getLsbD 3 = true →
      Completes (.clearCount fn n v) s fun t => Only s t [.fns, .bus] ∧ (getFast t fn n.val).count = 0 ∧
        (getFast t fn n.val).enable = v.getLsbD 0 ∧ (getFast t fn n.val).mask = v.getLsbD 1) ∧
    (∀ e m, fnExists s fn = true → portUp s fn = true → s.sys.mode ≠ .dormant → s.sys.isolated = false →
      ∃ u : State, exec (.msixUnmask fn (.control e m)) s = .next (deliverAll u fn) ∧ Only s u [.fns] ∧
        getFn u fn = { getFn s fn with msixEnable := e, msixMask := m }) ∧
    (∀ m, Writable s fn → k < 2048 →
      ∃ u : State, exec (.msixUnmask fn (.entryMask k m)) s = .next (deliver u fn k) ∧ Only s u [.fns] ∧
        getMsix u fn k = { getMsix s fn k with masked := m }) ∧
    (∀ x, Writable s fn → k < 2048 →
      Completes (.msixUnmask fn (.entryData k x)) s fun t => Only s t [.fns] ∧
        getMsix t fn k = { getMsix s fn k with data := x }) ∧
    (∀ c, serving s = true → getCq s fn k = some c → c.count ≠ 0 → c.modTime ≠ 0 →
      c.modTime * 100 ≤ s.sys.tick.toNat - c.start.toNat →
      ∃ u : State, exec (.moderationTimer fn k) s = .next (deliver u fn c.vector) ∧ Only s u [.cqs, .fns] ∧
        getCq u fn k = some { c with count := 0 } ∧ c.vector ∈ (getFn u fn).normPend) ∧
    (∀ i u, exec i s = .next (deliver u fn k) →
      (sendable u fn k = false → exec i s = .next u) ∧
      (sendable u fn k = true → Map.get? (getPort u (portOf fn)).sets (setKey fn k) = none →
        ((getMsix u fn k).addr = 0 → exec i s = .next u) ∧
        ((getMsix u fn k).addr ≠ 0 → Completes i s fun t => Only u t [.fns, .bus] ∧ k ∉ (getFn t fn).normPend ∧
          Map.get? (getFn t fn).holds k = none ∧
          t.bus = u.bus ++ [.write fn (getMsix u fn k).addr (leBytes 4 (getMsix u fn k).data.toNat)])) ∧
      (∀ vs m tg, sendable u fn k = true → Map.get? (getPort u (portOf fn)).sets (setKey fn k) = some vs →
        awakeMember (getPort u (portOf fn)) vs = some (m, tg) →
        Completes i s fun t => Only u t [.fns, .ports, .bus] ∧ k ∉ (getFn t fn).normPend ∧ Map.get? (getFn t fn).holds k = none ∧
          Map.get? (getPort t (portOf fn)).sets (setKey fn k) = some { vs with last := m } ∧
          t.bus = u.bus ++ [.write fn tg.addr (leBytes 4 tg.data.toNat)]) ∧
      (∀ vs start, sendable u fn k = true → Map.get? (getPort u (portOf fn)).sets (setKey fn k) = some vs →
        awakeMember (getPort u (portOf fn)) vs = none → start = (Map.get? (getFn u fn).holds k).getD u.sys.tick →
        u.sys.tick.toNat - start.toNat < vs.hold * 100 →
        Completes i s fun t => Only u t [.fns] ∧
          getFn t fn = { getFn u fn with holds := Map.put (getFn u fn).holds k start })) ∧
    (∀ p vs m tg, awakeMember p vs = some (m, tg) ↔
      ∃ j, j < vs.members.length ∧ m = (vs.last + j + 1) % vs.members.length ∧
        getTarget p (vs.members.getD m 0) = some tg ∧ tg.asleep = false ∧
        ∀ i, i < j → ∀ x, getTarget p (vs.members.getD ((vs.last + i + 1) % vs.members.length) 0) = some x → x.asleep = true) ∧
    (∀ vs start m tg, serving s = true → Map.get? (getFn s fn).holds k = some start → sendable s fn k = true →
      Map.get? (getPort s (portOf fn)).sets (setKey fn k) = some vs → awakeMember (getPort s (portOf fn)) vs = none →
      holdMember (getPort s (portOf fn)) vs = some (m, tg) → vs.hold * 100 ≤ s.sys.tick.toNat - start.toNat →
      Completes (.wakeHoldExpire fn k) s fun t => Only s t [.fns, .ports, .bus] ∧ k ∉ (getFn t fn).normPend ∧
        t.bus = s.bus ++ [.write fn tg.addr (leBytes 4 tg.data.toNat)]) ∧
    (∀ t0, serving s = true → (getFn s fn).kcqSince = some t0 → (getFn s fn).stalled = false →
      100000 ≤ s.sys.tick.toNat - t0.toNat →
      Completes (.keeperStall fn) s fun t => Only s t [.fns, .bus] ∧ (getFn t fn).stalled = true ∧
        (getFast t fn 4).count = min ((getFast s fn 4).count + 1) 255 ∧ (getFast t fn 4).info = 2)

/-- The test access port and the debug window (R398, R399, R458): in SCRAP every instruction but IDCODE acts as
BYPASS, and the ones that drive the pins do so while DEV_RESET_N is low and act as SAMPLE/PRELOAD while it is high (log 20); with no
scope open the window reads as zero and nothing is written; a register read through it is BAR 0's value, and a write by the full scope is
one of the keeper function (R458). With that scope a word of the SRAM of Table 9 but for the key register is written and read back, a word
of the control store in the microword itself; how that part of the window numbers its words is the model's choice (log 74). A write of
the part of sequencers and engines halts one of them or lets it run on; how the word says so is left open (log 105). That the port acts
in every mode but Dormant is log 1. -/
def Obligations.TapAndDebug : Prop :=
  ∀ (s : State) (dr : DWord) (a : Nat), s.sys.mode ≠ .dormant → a = dr.toNat / 2 ^ 32 % 2 ^ 31 →
    (∀ i code l, (i, code) ∈ [(Instr.extest, 0x00), (.samplePreload, 0x02), (.clamp, 0x04), (.highz, 0x05), (.bypass, 0xFF),
        (.dbgAccess, 0x20)] → l = (if s.lc.state = .scrap then 0xFF else code) →
      Completes i s fun t => Only s t [.lc, .free] ∧ t.lc.tapIr = l ∧
        t.lc.tapDrive = (decide (l = 0 ∨ l = 4 ∨ l = 5) && s.sys.resetLow) ∧
        t.lc = { s.lc with tapIr := l, tapDrive := t.lc.tapDrive, boundary := t.lc.boundary, bypass := t.lc.bypass } ∧
        (l = 2 ∨ l = 0 ∨ ((l = 4 ∨ l = 5) ∧ s.sys.resetLow = false) → t.lc.boundary = Config.capturedPins s.free ∧ t.lc.bypass = s.lc.bypass) ∧
        (l = 0xFF ∨ l = 0x20 ∨ ((l = 4 ∨ l = 5) ∧ s.sys.resetLow = true) → t.lc.boundary = s.lc.boundary ∧ t.free = s.free) ∧
        (l = 0xFF ∨ ((l = 4 ∨ l = 5) ∧ s.sys.resetLow = true) → t.lc.bypass = false)) ∧
    (Completes .idcode s fun t => Only s t [.lc] ∧
      t.lc = { s.lc with tapIr := 0x01, tapData := 0x181280B7, tapDrive := false }) ∧
    (s.lc.tapIr ≠ 0x20 → exec (.debugSpaceAccess dr) s = .next s) ∧
    (s.lc.tapIr = 0x20 → s.lc.scope = 0 →
      Completes (.debugSpaceAccess dr) s fun t => Only s t [.lc] ∧
        t.lc = { s.lc with tapData := dr &&& 0xFFFFFFFF00000000 }) ∧
    (s.lc.tapIr = 0x20 → s.lc.scope ≠ 0 → a < 0x4000 → dr.getLsbD 63 = false →
      Completes (.debugSpaceAccess dr) s fun t => Only s t [.lc] ∧ t.lc = { s.lc with
        tapData := (dr &&& 0xFFFFFFFF00000000) ||| (regRead s (keeperFn s) (4 * a)).setWidth 64 }) ∧
    (s.lc.tapIr = 0x20 → s.lc.scope = 1 → a < 0x4000 → dr.getLsbD 63 = true →
      Completes (.debugSpaceAccess dr) s fun t => Only s t [.lc]) ∧
    (s.lc.tapIr = 0x20 → s.lc.scope = 2 → a < 0x4000 → dr.getLsbD 63 = true →
      exec (.debugSpaceAccess dr) s = .next (setTapData (writeOrHold s (keeperFn s) (4 * a) (dr.setWidth 32)) dr)) ∧
    (s.lc.tapIr = 0x20 → s.lc.scope = 2 → 0x10000 ≤ a → a < 0x30000 → dr.getLsbD 63 = true →
      Completes (.debugSpaceAccess dr) s fun t => Only s t [.lc] ∧ t.lc = { s.lc with tapData := dr, units := t.lc.units } ∧
        Map.get? t.lc.units (debugUnit a) = Config.debugCommand a (dr.setWidth 32) ∧
        ∀ u, u ≠ debugUnit a → Map.get? t.lc.units u = Map.get? s.lc.units u) ∧
    (s.lc.tapIr = 0x20 → s.lc.scope = 1 → 0x10000 ≤ a → a < 0x30000 → dr.getLsbD 63 = true →
      Completes (.debugSpaceAccess dr) s fun t => Only s t [.lc] ∧ t.lc = { s.lc with tapData := dr &&& 0xFFFFFFFF00000000 }) ∧
    (s.lc.tapIr = 0x20 → s.lc.scope ≠ 0 → 0x10000 ≤ a → a < 0x30000 → dr.getLsbD 63 = false →
      Completes (.debugSpaceAccess dr) s fun t => Only s t [.lc, .free] ∧ t.lc = { s.lc with tapData := t.lc.tapData } ∧
        t.lc.tapData >>> 32 = dr >>> 32) ∧
    (s.lc.tapIr = 0x20 → s.lc.scope = 2 → 0x10400000 ≤ a → a < 0x11800000 → dr.getLsbD 63 = true →
      storeDword s (debugByte a) = none →
      Completes (.debugSpaceAccess dr) s fun t => Only s t [.lc] ∧ t.lc = { s.lc with tapData := dr, dbgSram := t.lc.dbgSram } ∧
        Map.get? t.lc.dbgSram a = some (dr.setWidth 32) ∧ ∀ x, x ≠ a → Map.get? t.lc.dbgSram x = Map.get? s.lc.dbgSram x) ∧
    (∀ w : Word, s.lc.tapIr = 0x20 → s.lc.scope = 2 → 0x10400000 ≤ a → a < 0x11800000 → dr.getLsbD 63 = true →
      storeDword s (debugByte a) = some w →
      Completes (.debugSpaceAccess dr) s fun t => Only s t [.lc, .boot] ∧ t.lc = { s.lc with tapData := dr } ∧
        t.boot = { s.boot with store := t.boot.store } ∧ storeDword t (debugByte a) = some (dr.setWidth 32) ∧
        ∀ b, b / 4 ≠ debugByte a / 4 → storeDword t b = storeDword s b) ∧
    (∀ w : Word, s.lc.tapIr = 0x20 → s.lc.scope = 2 → 0x10400000 ≤ a → a < 0x11800000 → dr.getLsbD 63 = false →
      (Map.get? s.lc.dbgSram a).orElse (fun _ => storeDword s (debugByte a)) = some w →
      Completes (.debugSpaceAccess dr) s fun t => Only s t [.lc] ∧
        t.lc = { s.lc with tapData := (dr &&& 0xFFFFFFFF00000000) ||| w.setWidth 64 }) ∧
    (s.lc.tapIr = 0x20 → s.lc.scope ≠ 0 → 0x10000000 ≤ a → s.lc.scope = 1 ∨ a < 0x10400000 ∨ 0x11800000 ≤ a →
      Completes (.debugSpaceAccess dr) s fun t => Only s t [.lc] ∧ t.lc = { s.lc with tapData := dr &&& 0xFFFFFFFF00000000 })

/-! ### Memory errors, spill and background work -/

/-- Errors of on-chip SRAM and of graphics memory (R24, R25, R30, R282, R285, R440, Tables 9 and 10): what is lost,
and the status of the commands that used it; a write that fails every try spoils the item's next read, and the monitors count while they
run (R369). Which key or berth a failed word takes with it is log 52, and how failed blocks and tries are counted log 53. -/
def Obligations.MemoryErrors : Prop :=
  ∀ (s : State) (w cid i kind : Nat) (c : Cmd), s.sys.mode ≠ .dormant →
    (∀ r, sramWordOk r w = true → Completes (.sramCorrected r w) s fun t => Only s t [.recorder]) ∧
    (∀ g h k, sramFits (.keyRegister g) w = true → keyOfGranule s g = some h → Map.get? s.keys.keys h = some k →
      Completes (.sramUncorrectable (.keyRegister g) w) s fun t => Only s t [.keys, .cmds, .eng, .fns, .bus, .recorder] ∧
        Map.get? t.keys.keys h = none ∧ (∀ x, x ≠ h → Map.get? t.keys.keys x = Map.get? s.keys.keys x) ∧
        (getCmd s cid = some c → namesKey c h = true → unfinished c = true → Ended t cid .keyEmpty 0 [])) ∧
    (∀ b, sramFits (.berthTable i) w = true → Map.get? s.keys.berths i = some b → b.spilled = false →
      Completes (.sramUncorrectable (.berthTable i) w) s fun t => Only s t [.keys, .cmds, .eng, .fns, .bus, .recorder] ∧
        Map.get? t.keys.berths i = none ∧ (∀ j, j ≠ i → Map.get? t.keys.berths j = Map.get? s.keys.berths j) ∧
        (getCmd s cid = some c → c.berth = some i → unfinished c = true → Ended t cid .berthUnknown 0 [])) ∧
    (sramFits (.scratch kind i) w = true → inService s kind i = true →
      Completes (.sramUncorrectable (.scratch kind i) w) s fun t => Only s t [.eng, .cmds, .fns, .bus, .recorder] ∧
        inService t kind i = false ∧ ∀ k j, (k, j) ≠ (kind, i) → inService t k j = inService s k j) ∧
    (sramFits (.wharf cid) w = true → getCmd s cid = some c →
      Completes (.sramUncorrectable (.wharf cid) w) s fun t => Only s t [.cmds, .eng, .fns, .bus, .recorder] ∧ Ended t cid .engineFault 8 []) ∧
    (sramFits .controlStore w = true → fused s 13 = false →
      Completes (.sramUncorrectable .controlStore w) s fun t => Only s t [.alarm, .recorder] ∧
        if monitorsRun s = true then Counted s t 13 else t.alarm = s.alarm) ∧
    (getCmd s cid = some c → unfinished c = true → fused s 15 = false →
      Completes (.gmMacFail (.working cid)) s fun t => Only s t [.alarm, .recorder, .cmds, .eng, .fns, .bus] ∧
        (if monitorsRun s = true then Counted s t 15 else t.alarm = s.alarm) ∧
        Ended t cid .engineFault 9 []) ∧
    (gmReads s (.cache cid i) = true → fused s 15 = false →
      Completes (.gmMacFail (.cache cid i)) s fun t => Only s t [.alarm, .recorder, .eng] ∧
        (if monitorsRun s = true then Counted s t 15 else t.alarm = s.alarm) ∧
        t.eng = { s.eng with cache := s.eng.cache.eraseIdx i }) ∧
    (1 ≤ w → w ≤ 4 → ∀ r,
      Completes (.edcRetry w false r) s fun t => Only s t [.boot] ∧
        t.boot = { s.boot with retries := min (s.boot.retries + w) 65535, retrains := min s.boot.retrains 255 }) ∧
    (∀ r, Completes (.edcRetry 5 false r) s fun t => Only s t [.boot] ∧
        t.boot = { s.boot with retries := min (s.boot.retries + 4) 65535, retrains := min (s.boot.retrains + 1) 255 }) ∧
    (getCmd s cid = some c → unfinished c = true →
      Completes (.edcRetry 0 false (.working cid)) s fun t => Only s t [.boot, .alarm, .recorder, .cmds, .eng, .fns, .bus] ∧
        t.boot.retries = min (s.boot.retries + 4) 65535 ∧ Ended t cid .engineFault 9 []) ∧
    (∀ r, (∀ x y, r ≠ .cache x y) →
      Completes (.edcRetry 0 true r) s fun t => Only s t [.boot] ∧ gmIsBad t r = true ∧
        t.boot.retries = min (s.boot.retries + 4) 65535 ∧ t.boot.retrains = min (s.boot.retrains + 1) 255) ∧
    (∀ x, s.eng.cache[i]? = some x →
      Completes (.edcRetry 0 true (.cache cid i)) s fun t => Only s t [.boot, .eng] ∧
        t.eng = { s.eng with cache := s.eng.cache.set i { x with bad := true } }) ∧
    exec .gmRefresh s = .next s ∧ exec .gmRetrain s = .next s

/-- Spill of key tails and berths, masks, pace, wear and the recorder's commits (R15, R261, R262, R268, R280 to R282, R285,
R368, R378, R383 to R385). A row whose condition does not hold changes nothing (log 1); how erases and the wear tables count is log 38, and
the rounding of the pace log 108. -/
def Obligations.BackgroundWork : Prop :=
  ∀ (s : State) (g i cid fails : Nat) (k : Key) (b : Berth) (rest : List Nat) (counts : Vector Nat 4) (d pt : Bytes)
    (ch : List (Nat × BitVec 256)),
    (tailSpillDue s g = true → Map.get? s.keys.keys g = some k →
      Completes (.tailSpill g) s fun t => Only s t [.keys, .boot, .rng] ∧ t.keys.berths = s.keys.berths ∧
        (∃ x, Map.get? t.keys.keys g = some x ∧ x.bytes = k.bytes.take 32 ∧
          x = { k with version := k.version + 1, spilled := true, tail := [], shareA := x.shareA, shareB := x.shareB,
                       attrMask := x.attrMask }) ∧
        (Map.get? t.keys.tails g).isSome = true ∧ gmIsBad t (.keySpill g cid) = false ∧
        ∀ x, x ≠ g → Map.get? t.keys.keys x = Map.get? s.keys.keys x) ∧
    (serving s = true → Map.get? s.keys.keys g = some k → k.spilled = true → needers s g = cid :: rest →
      gmIsBad s (.keySpill g cid) = false → (lowestFree s (tailGranules k.len)).length = tailGranules k.len →
      tailPlain s g k d = some pt →
      (DrawsLeft s (1 + tailGranules k.len) → Completes (.tailRecall g d) s fun t => Only s t [.keys, .rng]) ∧
      (canDraw s = false → Completes (.tailRecall g d) s fun t => Only s t [.keys, .free]) ∧
      (DrawsLeft s (1 + tailGranules k.len) ∨ canDraw s = false →
        Completes (.tailRecall g d) s fun t => Map.get? t.keys.tails g = none ∧
          (∃ x, Map.get? t.keys.keys g = some x ∧ x.bytes = k.bytes ++ pt ∧ x =
            { k with spilled := false, tail := lowestFree s (tailGranules k.len), shareA := x.shareA, shareB := x.shareB,
                     attrMask := x.attrMask }) ∧
          ∀ x, x ≠ g → Map.get? t.keys.keys x = Map.get? s.keys.keys x)) ∧
    (serving s = true → Map.get? s.keys.keys g = some k → k.spilled = true → needers s g = cid :: rest →
      gmIsBad s (.keySpill g cid) = false → tailPlain s g k d = none → fused s 15 = false → Quiet s →
      Completes (.tailRecall g d) s fun t => Only s t [.keys, .cmds, .eng, .fns, .bus, .alarm, .recorder] ∧ Counted s t 15 ∧
        Map.get? t.keys.keys g = none ∧ Ended t cid .engineFault 9 [] ∧
        ∀ x ∈ s.cmds, x.id ≠ cid → namesKey x g = true → unfinished x = true → Ended t x.id .keyEmpty 0 []) ∧
    (serving s = true → lruBerth s = some i → berthWaits s = true → Map.get? s.keys.berths i = some b →
      Completes (.berthSpill i) s fun t => Only s t [.keys, .free, .boot] ∧ t.keys.keys = s.keys.keys ∧
        (Map.get? t.keys.views i).isSome = true ∧ gmIsBad t (.berthSpill i cid) = false ∧
        Map.get? t.keys.berths i = some { b with spilled := true, version := b.version + 1 } ∧
        ∀ x, x ≠ i → Map.get? t.keys.berths x = Map.get? s.keys.berths x) ∧
    (serving s = true → Map.get? s.keys.berths i = some b → b.spilled = true → berthNeeders s i = cid :: rest →
      entryFree s = true → gmIsBad s (.berthSpill i cid) = false → viewOk s i b d = true →
      Completes (.berthRecall i d) s fun t => Only s t [.keys] ∧ Map.get? t.keys.views i = none ∧
        Map.get? t.keys.berths i = some { b with spilled := false } ∧
        ∀ x, x ≠ i → Map.get? t.keys.berths x = Map.get? s.keys.berths x) ∧
    (serving s = true → Map.get? s.keys.berths i = some b → b.spilled = true → berthNeeders s i = cid :: rest →
      entryFree s = true → gmIsBad s (.berthSpill i cid) = false → viewOk s i b d = false → fused s 15 = false →
      Completes (.berthRecall i d) s fun t => Only s t [.keys, .cmds, .eng, .fns, .bus, .alarm, .recorder] ∧ Counted s t 15 ∧
        Map.get? t.keys.berths i = none ∧ Ended t cid .engineFault 9 []) ∧
    (serving s = true → DrawsLeft s 1 →
      Completes .keyReshare s fun t => Only s t [.rng, .keys] ∧ t.rng.state = .ready ∧ t.rng.pool = s.rng.pool ∧
        t.keys.reshare = (s.keys.reshare + 1) % 131072 ∧ t.keys.berths = s.keys.berths ∧
        ∀ h x, Map.get? s.keys.keys h = some x → ∃ y, Map.get? t.keys.keys h = some y ∧ y.bytes = x.bytes ∧
          y = { x with shareA := y.shareA, shareB := y.shareB, attrMask := y.attrMask } ∧
          (keyOfGranule s s.keys.reshare ≠ some h → y = x)) ∧
    (serving s = true → canDraw s = false → exec .keyReshare s = .next s) ∧
    (s.boot.digest = [] ∨ s.sys.tick.toNat < s.boot.checkFrom.toNat + 2 ^ 26 ∨ monitorsRun s = false →
      exec (.ucodeCheck ch) s = .next s) ∧
    (∀ m, s.boot.digest ≠ [] → s.boot.checkFrom.toNat + 2 ^ 26 ≤ s.sys.tick.toNat → monitorsRun s = true →
      m = ch.foldl (fun x w => Map.put x (w.1 % 65536) w.2) s.boot.store →
      (storeDigest m = s.boot.digest →
        Completes (.ucodeCheck ch) s fun t => Only s t [.boot] ∧
          t.boot = { s.boot with store := m, checkFrom := s.boot.checkFrom + 2 ^ 26 }) ∧
      (storeDigest m ≠ s.boot.digest → fused s 13 = false →
        Completes (.ucodeCheck ch) s fun t => Only s t [.boot, .alarm, .recorder] ∧
          t.boot = { s.boot with store := m, checkFrom := s.boot.checkFrom + 2 ^ 26 } ∧ Counted s t 13)) ∧
    (s.sys.mode ≠ .dormant → s.sys.isolated = false → s.alarm.paceFrom.toNat + 65536 ≤ s.sys.tick.toNat →
      Completes (.paceWindow counts) s fun t => Only s t [.alarm] ∧ ∃ q, q < 4 ∧
        t.alarm = { s.alarm with rate := min (counts.toArray.getD q 0 * 100 / 65536) 65535, quadrant := BitVec.ofNat 2 q,
                                 paceFrom := s.alarm.paceFrom + 65536 } ∧
        ∀ j, j < 4 → counts.toArray.getD q 0 ≤ counts.toArray.getD j 0 ∧
          (j < q → counts.toArray.getD q 0 < counts.toArray.getD j 0)) ∧
    (s.sys.tick.toNat < s.alarm.paceFrom.toNat + 65536 → exec (.paceWindow counts) s = .next s) ∧
    (s.sys.mode ≠ .dormant → s.time.wearFrom.toNat + 2 ^ 36 ≤ s.sys.tick.toNat →
      Completes .wearWindow s fun t => Only s t [.nvm, .time, .free] ∧
        t.time = { s.time with wearFrom := s.time.wearFrom + 2 ^ 36 } ∧ { t.nvm with wear := s.nvm.wear } = s.nvm ∧
        (∀ r, r < 7 → (getWear t.nvm r).used = (getWear s.nvm r).used + (getWear s.nvm r).window) ∧
        (∀ r, r < 6 → (getWear t.nvm r).window = 0 ∧ (getWear t.nvm r).spare = (getWear s.nvm r).spare ∧
          (getWear t.nvm r).worn = (getWear s.nvm r).worn) ∧
        ((getWear s.nvm 6).worn = true → (getWear t.nvm 6).window = 0 ∧ (getWear t.nvm 6).worn = true) ∧
        ((getWear s.nvm 6).worn = false → ∃ f, f ≤ 7 ∧
          (getWear t.nvm 6).window = 7 + 2 * min f (spareWords 6 - (getWear s.nvm 6).spare) ∧
          (getWear t.nvm 6).spare = (getWear s.nvm 6).spare + min f (spareWords 6 - (getWear s.nvm 6).spare) ∧
          (getWear t.nvm 6).worn = decide (spareWords 6 - (getWear s.nvm 6).spare < f))) ∧
    (s.sys.tick.toNat < s.time.wearFrom.toNat + 2 ^ 36 → exec .wearWindow s = .next s) ∧
    (s.sys.mode ≠ .dormant → s.recorder.mounted = true → s.recorder.queue ≠ [] → s.recorder.seq.getLsbD 0 = false →
      (getWear s.nvm 0).worn = false →
      Completes (.recordCommit fails) s fun t => Only s t [.recorder] ∧ t.recorder = { s.recorder with seq := s.recorder.seq + 1 }) ∧
    (∀ a p q, s.sys.mode ≠ .dormant → s.recorder.mounted = true → s.recorder.queue = .record d a p :: q →
      s.recorder.seq.getLsbD 0 = true → RegionTakes s 0 fails →
      Completes (.recordCommit fails) s fun t => Only s t [.nvm, .recorder] ∧ t.recorder.queue = q ∧
        t.recorder.seq = s.recorder.seq + 1 ∧ t.nvm.recs = s.nvm.recs ∧
        ∃ n, t.nvm.newest = some n ∧ Map.get? t.nvm.slots n = some d ∧
          (∀ x, x ≠ n → Map.get? t.nvm.slots x = Map.get? s.nvm.slots x) ∧ (p = true → n ∈ t.nvm.pins)) ∧
    (∀ w q n y, s.sys.mode ≠ .dormant → s.recorder.mounted = true → s.recorder.queue = .repeatWord w :: q →
      s.recorder.seq.getLsbD 0 = true → RegionTakes s 0 fails → s.nvm.newest = some n → Map.get? s.nvm.slots n = some y →
      Completes (.recordCommit fails) s fun t => Only s t [.nvm, .recorder] ∧ t.recorder.queue = q ∧
        t.recorder.seq = s.recorder.seq + 1 ∧ Map.get? t.nvm.slots n = some (overwrite y 56 w) ∧
        ∀ x, x ≠ n → Map.get? t.nvm.slots x = Map.get? s.nvm.slots x) ∧
    (∀ x q, s.sys.mode ≠ .dormant → s.recorder.mounted = true → s.recorder.queue = x :: q → s.recorder.seq.getLsbD 0 = true →
      (getWear s.nvm 0).worn = false → spareWords 0 < fails + (getWear s.nvm 0).spare →
      Completes (.recordCommit fails) s fun t => Only s t [.nvm, .recorder] ∧ t.recorder.queue = q ∧
        t.recorder.seq = s.recorder.seq + 1 ∧ t.recorder.dropped = min (s.recorder.dropped + 1) 4095 ∧
        t.nvm.slots = s.nvm.slots ∧ (getWear t.nvm 0).worn = true) ∧
    (∀ x q, s.sys.mode ≠ .dormant → s.recorder.mounted = true → s.recorder.queue = x :: q → s.recorder.seq.getLsbD 0 = false →
      (getWear s.nvm 0).worn = true →
      Completes (.recordCommit fails) s fun t => Only s t [.recorder] ∧ t.recorder.queue = q ∧ t.recorder.seq = s.recorder.seq ∧
        t.recorder.dropped = min (s.recorder.dropped + 1) 4095)

/-! ### Monitors, alarms, clocks -/

/-- The monitors (R46, R366 to R369): an excursion outside a band is one event of its source; inside it nothing
happens. -/
def Obligations.MonitorEvents : Prop :=
  ∀ (s : State) (r : Fin 6) (uv unit : Nat) (k : Fin 4), monitorsRun s = true →
    (fused s r.val = false → (glitchBand s r.val).2 < uv ∨ uv < (glitchBand s r.val).1 →
      Completes (.glitchEvent r uv) s fun t => Only s t [.alarm, .recorder] ∧ Counted s t r.val ∧
        t.alarm.glitched.getLsbD r.val = true) ∧
    ((glitchBand s r.val).1 ≤ uv → uv ≤ (glitchBand s r.val).2 → exec (.glitchEvent r uv) s = .next s) ∧
    (r.val ≠ 0 → glitchBand s r.val = (railRef r.val * 92 / 100, railRef r.val * 108 / 100) ∧
      slowBand s r.val = (railRef r.val * 95 / 100, railRef r.val * 105 / 100)) ∧
    (fused s (6 + r.val) = false → (slowBand s r.val).2 < uv →
      Completes (.slowExcursion r uv) s fun t => Only s t [.alarm, .recorder] ∧ Counted s t (6 + r.val) ∧
        t.alarm.above.getLsbD r.val = true ∧ t.alarm.below.getLsbD r.val = false) ∧
    (fused s (6 + r.val) = false → uv < (slowBand s r.val).1 → uv ≤ (slowBand s r.val).2 →
      Completes (.slowExcursion r uv) s fun t => Only s t [.alarm, .recorder] ∧ Counted s t (6 + r.val) ∧
        t.alarm.above.getLsbD r.val = false ∧ t.alarm.below.getLsbD r.val = true) ∧
    ((slowBand s r.val).1 ≤ uv → uv ≤ (slowBand s r.val).2 →
      Completes (.slowExcursion r uv) s fun t => Only s t [.alarm] ∧ t.alarm.mons = s.alarm.mons ∧
        t.alarm.above.getLsbD r.val = false ∧ t.alarm.below.getLsbD r.val = false) ∧
    (fused s 12 = false →
      Completes (.stateCodeEvent k unit) s fun t => Only s t [.alarm, .recorder] ∧ Counted s t 12) ∧
    (Completes .vcoreBandSettle s fun t => Only s t [.alarm] ∧ t.alarm = { s.alarm with reports := t.alarm.reports } ∧
      ∀ x, x ∈ t.alarm.reports ↔ x ∈ s.alarm.reports ∧ s.sys.tick.toNat < x.2.2.toNat)

/-- The response to the alarms of one microsecond is that of the strongest level (R373 to R376, Table 118), at its end: a signal
to every PF, Held, or the working or all secrets cleared and Lockdown, unless another cause of the same tick stands lower in
Table 15; alarms of a later microsecond stay for their own response, and the CLEAR_ALL erase blanks the persistent keys. That the set is
taken by the row at or after the end of its microsecond is log 31.
-/
def Obligations.AlarmResponses : Prop :=
  ∀ (s : State) (l later : List Fired), l = firstSet s → later = s.alarm.set.filter (fun a => !l.contains a) →
    (setDue s = false → exec .alarmSetResponse s = .next s) ∧
    (setDue s = true → strongest l ≤ 1 →
      Completes .alarmSetResponse s fun t => Only s t [.alarm, .recorder, .fns, .bus] ∧ t.alarm.set = later ∧
        (strongest l = 1 → ∀ p, p < 8 → (getFast t (128 * p) 0).info = BitVec.ofNat 16 (infoOf l) ∧
          (getFast t (128 * p) 0).count = min ((getFast s (128 * p) 0).count + 1) 255)) ∧
    (setDue s = true → strongest l = 2 → running s = true → opposed s 7 = false →
      Completes .alarmSetResponse s fun t => (s.cmds = [] → t.alarm.set = later) ∧ t.sys.mode = .held ∧ t.sys.prev = s.sys.mode ∧
        t.sys.heldReturn = s.sys.mode ∧ t.sys.byAlarm = true ∧ t.sys.cause = 3) ∧
    (setDue s = true → strongest l = 3 → serving s = true → opposed s 9 = false →
      Completes .alarmSetResponse s fun t => t.alarm.set = later ∧ t.sys.mode = .lockdown ∧ t.sys.cause = 5 ∧
        t.keys.keys = [] ∧ t.bkeys = BootKeys.reset ∧ t.rng.inst = [] ∧ t.cmds = [] ∧ t.nvm.trees = s.nvm.trees) ∧
    (setDue s = true → strongest l = 4 → serving s = true → opposed s 9 = false →
      Completes .alarmSetResponse s fun t => t.alarm.set = later ∧ t.sys.mode = .lockdown ∧ t.sys.cause = 6 ∧
        t.keys.keys = [] ∧ t.bkeys = BootKeys.reset ∧ t.cmds = [] ∧ t.alarm.clearing = true ∧ t.alarm.erased = true) ∧
    (s.alarm.clearing = true →
      Completes .clearAllErase s fun t => Only s t [.nvm, .alarm, .recorder] ∧ t.alarm.clearing = false ∧
        t.nvm.identity = .blank ∧ t.nvm.ownerRoot = .blank ∧ t.nvm.swk = .blank ∧ t.nvm.trees = [])

/-- Time and the backup domain (R295 to R299): the calendar counts one crystal period at an edge, and what is lost is
noted. When VBAK is measured is log 99; a check with nothing to compare changes nothing (log 1). -/
def Obligations.ClocksAndBackup : Prop :=
  ∀ (s : State) (a : DWord) (uv : Nat),
    (s.sys.mode ≠ .dormant → s.time.measure = some a → a.toNat < 99900000 ∨ 100100000 < a.toNat →
      Completes (.timebaseCheck uv) s fun t => Only s t [.time, .recorder] ∧
        t.time = { s.time with measure := none, tbFault := true, vbakLow := s.sys.mainGood && decide (uv < 2200000) }) ∧
    (s.sys.mode ≠ .dormant → s.time.measure = some a → 99900000 ≤ a.toNat → a.toNat ≤ 100100000 →
      Completes (.timebaseCheck uv) s fun t => Only s t [.time] ∧
        t.time = { s.time with measure := none, vbakLow := s.sys.mainGood && decide (uv < 2200000) }) ∧
    (s.time.measure = none → exec (.timebaseCheck uv) s = .next s) ∧
    (s.sys.vio18Good = false →
      Completes .vbakRetentionLoss s fun t => Only s t [.backup, .time] ∧
        t.backup = { s.backup with timeLost := true, cause := s.backup.cause ||| 1 }) ∧
    (s.sys.vio18Good = true → exec .vbakRetentionLoss s = .next s) ∧
    (Completes .backupPowerOn s fun t => Only s t [.backup, .time] ∧ t.backup.sec = 0 ∧ t.backup.frac = 0 ∧
      t.backup.timeLost = true ∧ t.backup.timeUnset = true ∧ t.backup.stopped = s.backup.stopped ∧
      t.backup.cause = if s.backup.stopped then 6 else 4) ∧
    (Completes .crystalStop s fun t => Only s t [.backup, .time] ∧
      t.backup = { s.backup with stopped := true, timeLost := true, cause := s.backup.cause ||| 2 }) ∧
    (Completes .crystalEdge s fun t => Only s t [.backup, .time] ∧ t.backup.stopped = false ∧
      t.backup.timeLost = s.backup.timeLost ∧ t.backup.timeUnset = s.backup.timeUnset ∧
      (t.backup.sec.toNat * 32768 + t.backup.frac.toNat) % 2 ^ 55 =
        (s.backup.sec.toNat * 32768 + s.backup.frac.toNat + 1) % 2 ^ 55 ∧
      (s.sys.mode ≠ .dormant → t.backup.frac = 0 → t.time.second = some s.sys.tick ∧
        ∀ x, s.time.second = some x → t.time.measure = some (s.sys.tick - x)) ∧
      (s.time.anchored = true → time64Now t = BitVec.ofNat 64 (t.backup.sec.toNat * 2 ^ 24 + t.backup.frac.toNat * 512))) ∧
    (serving s = true → s.backup.timeLost = true → s.time.noticed = false →
      Completes .timeLost s fun t => Only s t [.time, .recorder] ∧ t.time = { s.time with noticed := true })

/-! ### Towpath links -/

/-- Links (R406 to R410, R412, R414, R416, R424, R425, R437): training, the exchange of keys, the link layer, lanes,
and how a link fails. The order of the messages that carry ciphertexts and signatures is the model's choice (log 46), and so are the widths
a link trains at (log 59), the lots of credits and what a link does with a packet out of order (log 26), the moment new keys count as
confirmed and that KEYING goes in the clear (log 107), and that attempts to train do not move the 1 s of R425 (log 111).
-/
def Obligations.LinkSessions : Prop :=
  ∀ (s : State) (k lane : Fin 8) (lanes : BitVec 8) (pp pd n : Nat) (ch : Fin 4) (m : HelloMsg) (ct sig : Bytes) (seq : DWord)
    (l : Link), l = getLink s k.val →
    (l.st = .training → linksMayTrain s = true → lanes ≠ 0 → widthOk l.retired lanes = true → l.peer = some pp →
      s.topo.devices = pd → DrawsLeft s 1 → l.back = [] →
      Completes (.linkTrained k lanes pp pd) s fun t => Only s t [.topo, .rng, .bus] ∧ (getLink t k.val).st = .keying ∧
        ∃ h, (getLink t k.val).helloTx = some h ∧ h.epoch = s.time.epoch ∧ h.nonce.length = 32 ∧
          t.bus = s.bus ++ [.link k.val (.hello h) (wire { l with seqTx := 0 } [] (.hello h))]) ∧
    (l.st = .training → linksMayTrain s = true → lanes = 0 → Quiet s →
      Completes (.linkTrained k lanes pp pd) s fun t => Down t k.val 1) ∧
    (l.st = .training → linksMayTrain s = true → lanes ≠ 0 → widthOk l.retired lanes = false → Quiet s →
      Completes (.linkTrained k lanes pp pd) s fun t => Down t k.val 5) ∧
    (l.st = .training → linksMayTrain s = true → lanes ≠ 0 → widthOk l.retired lanes = true →
      l.peer ≠ some pp ∨ s.topo.devices ≠ pd → Quiet s →
      Completes (.linkTrained k lanes pp pd) s fun t => Down t k.val 2) ∧
    (∀ i x, (i, x) ∈ [(Instr.hello ⟨k, seq, .good⟩ m, LinkMsg.hello m), (.kemSig ⟨k, seq, .good⟩ ct sig, .kemSig ct sig),
        (.rekey ⟨k, seq, .good⟩ m ct sig, .rekey m ct sig)] →
      linksMayTrain s = false → takes l 3 = true → NextInOrder l x seq →
      Completes i s fun t => Only s t [.topo, .bus] ∧ Took s t k.val seq ∧ (getLink t k.val).inbox = l.inbox ++ [x] ∧
        (getLink t k.val).st = l.st ∧ (getLink t k.val).helloRx = l.helloRx ∧ (getLink t k.val).rekeying = l.rekeying) ∧
    (l.st = .keying → l.helloRx = none → linksMayTrain s = true → l.inbox = [] → NextInOrder l (.hello m) seq →
      (helloCause s m = none → DrawsLeft s 1 → (∀ e, Map.get? s.topo.peerEpoch (l.peer.getD 0) = some e → e = m.epoch) →
        Completes (.hello ⟨k, seq, .good⟩ m) s fun t => Only s t [.topo, .rng, .bus] ∧ Took s t k.val seq ∧
          (getLink t k.val).st = .keying ∧ (getLink t k.val).helloRx = some m ∧ (getLink t k.val).ctTx.length = 1568 ∧
          Map.get? t.topo.peerEpoch (l.peer.getD 0) = some m.epoch) ∧
      (∀ x, helloCause s m = some x → Quiet s →
        Completes (.hello ⟨k, seq, .good⟩ m) s fun t => Down t k.val x)) ∧
    (l.st = .keying → l.helloRx.isSome = true → l.kemDone = false → sig ≠ [] → linksMayTrain s = true → l.inbox = [] →
      NextInOrder l (.kemSig ct sig) seq → DrawsLeft s 1 → Quiet s →
      Completes (.kemSig ⟨k, seq, .good⟩ ct sig) s fun t =>
        if linkVerify s k.val (transcript s k.val ct) sig = true then
          Only s t [.topo, .rng, .bus] ∧ Took s t k.val seq ∧ (getLink t k.val).kemDone = true ∧
          (getLink t k.val).secretRx = linkDecaps s ct ∧ (getLink t k.val).keyTx.length = 32 ∧
          (getLink t k.val).keyRx.length = 32 ∧ (getLink t k.val).signed = true
        else Down t k.val 4) ∧
    (l.st = .keying → l.kemDone = true → linksMayTrain s = true → l.back = [] → Quiet s →
      Completes (.linkKeyed k) s fun t => Only s t [.topo] ∧ (getLink t k.val).seqTx = 0 ∧ (getLink t k.val).seqRx = 0 ∧
        (getLink t k.val).keyTx = l.keyTx ∧ ((getLink t k.val).st = if l.retired = 0 then .up else .degraded) ∧
        ∀ p, l.peer = some p → Map.get? t.topo.downSince p = none ∧ t.topo.ended.contains p = false) ∧
    (carrying l = true → 2 ^ 36 ≤ l.seqTx.toNat → l.seqTx.toNat < 2 ^ 37 → l.rekeying = false → l.newTx = [] →
      linksMayTrain s = true → DrawsLeft s 1 →
      Completes (.rekeyStart k) s fun t => Only s t [.topo, .rng, .bus] ∧ (getLink t k.val).rekeying = true ∧
        (getLink t k.val).st = l.st ∧ (getLink t k.val).keyTx = l.keyTx) ∧
    (carrying l = true → 2 ^ 37 ≤ l.seqTx.toNat → Quiet s →
      Completes (.rekeyStart k) s fun t => Down t k.val 7) ∧
    (carrying l = true → l.rekeying = false → helloCause s m = none → linksMayTrain s = true → l.inbox = [] →
      NextInOrder l (.rekey m [] []) seq → DrawsLeft s 2 →
      Completes (.rekey ⟨k, seq, .good⟩ m [] []) s fun t => Only s t [.topo, .rng, .bus] ∧ Took s t k.val seq ∧
        (getLink t k.val).rekeying = true ∧
        (getLink t k.val).helloRx = some m ∧ (getLink t k.val).ctTx.length = 1568 ∧ (getLink t k.val).st = l.st) ∧
    (∀ x, carrying l = true → helloCause s m = some x → linksMayTrain s = true → l.inbox = [] →
      NextInOrder l (.rekey m ct sig) seq → Quiet s →
      Completes (.rekey ⟨k, seq, .good⟩ m ct sig) s fun t => Down t k.val x) ∧
    (carrying l = true → l.back = [] → NextInOrder l (.credit ch.val n) seq →
      Completes (.credit ⟨k, seq, .good⟩ ch n) s fun t => Only s t [.topo, .bus] ∧ Took s t k.val seq ∧
        ∃ c c', c + c' ≤ (if ch.val = 3 then 1 else 0) ∧ (getLink t k.val).credits.toArray.getD ch.val 0 =
          min (l.credits.toArray.getD ch.val 0 - c + n) Config.channelCredits - c') ∧
    (∀ pre x rest, l.st ≠ .failed → l.resend = pre ++ x :: rest → x.seq = seq → (∀ p ∈ pre, p.seq ≠ seq) →
      Completes (.ack k seq) s fun t => Only s t [.topo] ∧ getLink t k.val = { l with resend := rest, replays := 0 }) ∧
    (∀ pre rest, l.st ≠ .failed → l.resend = pre ++ rest → (∀ p ∈ l.resend, p.seq ≠ seq) → (∀ p ∈ pre, p.seq.toNat ≤ seq.toNat) →
      (∀ p, rest.head? = some p → seq.toNat < p.seq.toNat) →
      Completes (.ack k seq) s fun t => Only s t [.topo] ∧
        getLink t k.val = { l with resend := rest, replays := if pre = [] then l.replays else 0 }) ∧
    (∀ i, i = Instr.nak k ∨ i = Instr.replayTimeout k → (carrying l = true ∨ l.st = .keying) → l.resend ≠ [] →
      (l.replays < 3 →
        Completes i s fun t => Only s t [.topo, .bus] ∧ getLink t k.val = { l with replays := l.replays + 1 } ∧
          t.bus = s.bus ++ l.resend.map fun p => Bus.link k.val p.msg p.packets) ∧
      (3 ≤ l.replays → l.episode = none → carrying l = true →
        Completes i s fun t => Only s t [.topo, .bus] ∧ getLink t k.val = { l with
          st := .retraining, retrains := min (l.retrains + 1) 255, replays := 0, episode := some s.sys.tick }) ∧
      (3 ≤ l.replays → l.st = .keying ∨ (∃ t0, l.episode = some t0 ∧ s.sys.tick.toNat - t0.toNat < 100000000) → Quiet s →
        Completes i s fun t => Down t k.val 6)) ∧
    (carrying l = true → l.retired = 0 →
      Completes (.laneFailure k lane) s fun t => Only s t [.topo, .recorder] ∧ (getLink t k.val).st = .retraining ∧
        (getLink t k.val).retired = if lane.val < 4 then 0x0F else 0xF0) ∧
    (carrying l = true → l.retired ≠ 0 → l.retired.getLsbD lane.val = false → Quiet s →
      Completes (.laneFailure k lane) s fun t => Down t k.val 5) ∧
    (l.st = .retraining → widthOk l.retired lanes = true → l.back = [] → Quiet s →
      Completes (.retrainDone k lanes) s fun t => Only s t [.topo, .bus] ∧
        getLink t k.val = { l with st := if l.retired = 0 then .up else .degraded } ∧
        t.bus = s.bus ++ l.resend.map fun p => Bus.link k.val p.msg p.packets) ∧
    (l.st = .retraining → widthOk l.retired lanes = false → Quiet s →
      Completes (.retrainDone k lanes) s fun t => Down t k.val 5) ∧
    (linksMayTrain s = true → l.peer.isSome = true →
      l.st = .unused ∨ (l.st = .failed ∧ l.retired ≠ 0xFF ∧ 10000000 ≤ s.sys.tick.toNat - l.failedAt.toNat) →
      Completes (.failedRetry k) s fun t => Only s t [.topo, .bus] ∧ getLink t k.val = { l with st := .training } ∧
        t.bus = s.bus ++ [.link k.val (.training s.topo.position s.topo.devices) []]) ∧
    (∀ t0, s.topo.ended.contains k.val = false → peerReached s k.val = false →
      Map.get? s.topo.downSince k.val = some t0 → 100000000 ≤ s.sys.tick.toNat - t0.toNat →
      Completes (.peerTimeout k) s fun t => t.topo.ended.contains k.val = true ∧
        ∀ c ∈ t.cmds, ¬(c.origin.isSome = true ∧ c.originPos = k.val)) ∧
    (l.st ≠ .failed → l.st ≠ .unused → Quiet s →
      Completes (.peerLost k) s fun t => Down t k.val 8) ∧
    (Quiet s →
      Completes .tprefLoss s fun t => ∀ j, j < 8 → (getLink s j).st ≠ .unused → (getLink t j).st = .failed ∧
        ((getLink s j).st ≠ .failed → (getLink t j).cause = 1))

/-- What crosses a link (R411, R412, R417 to R425, Table 152): a packet that fails its CRC is answered NAK and one that
fails its tag takes the link down, whatever it carries; a good one in order is taken and acknowledged, and its command, data or move has
its effect; one out of order is acknowledged up to what came before and has none (log 26). END_FUNC of kind 2 is log 60, the lots of credits
log 26, and the charges of a function for what it has elsewhere log 45.
-/
def Obligations.LinkCommands : Prop :=
  ∀ (s : State) (k : Fin 8) (seq : DWord) (num fn off len det i : Nat) (w : Bool) (cls : BitVec 6) (e d : Bytes) (c : Cmd) (l : Link)
    (b : Berth) (h : Word), l = getLink s k.val →
    (∀ x m, Carries x k seq .badCrc (l.peer.getD 0) m → takes l (linkChannel m) = true →
      Completes x s fun t => Only s t [.topo, .bus] ∧ getLink t k.val = { l with crcErr := min (l.crcErr + 1) 65535 } ∧
        t.bus = s.bus ++ [.link k.val .nak [bare .nak]]) ∧
    (∀ x m, Carries x k seq .badTag (l.peer.getD 0) m → takes l (linkChannel m) = true → Quiet s →
      Completes x s fun t => Down t k.val 7 ∧ (getLink t k.val).tagErr = min (l.tagErr + 1) 255) ∧
    (∀ x m, Carries x k seq .good (l.peer.getD 0) m → takes l (linkChannel m) = true → ¬NextInOrder l m seq →
      Completes x s fun t => Only s t [.bus] ∧
        t.bus = s.bus ++ if l.seqRx = 0 then [] else [.link k.val (.ack (l.seqRx - 1)) [bare (.ack (l.seqRx - 1))]]) ∧
    (∀ x m chk, Carries x k seq chk (l.peer.getD 0) m → takes l (linkChannel m) = false → exec x s = .next s) ∧
    (carrying l = true → NextInOrder l (.cmd (l.peer.getD 0) num fn w cls e) seq →
      ∃ u : State, exec (.cmd ⟨k, seq⟩ num fn w cls e .good) s = .next (startCmd u s.nextId) ∧ Took s u k.val seq ∧
        Only s u [.topo, .bus, .cmds, .nextId] ∧ u.nextId = s.nextId + 1 ∧
        ∃ x, u.cmds = s.cmds ++ [x] ∧ x.id = s.nextId ∧ x.fn = fn ∧ x.entry = padTo 64 e ∧ x.worldS = w ∧ x.cls = cls ∧
          x.grants = 0 ∧ x.origin = some (k.val, num) ∧ x.originPos = l.peer.getD 0) ∧
    (carrying l = true → NextInOrder l (.inPull num off len) seq → getCmd s num = some c → c.phase = .forwarded k.val →
      c.pulled = c.pulls.length →
      Completes (.inPull ⟨k, seq⟩ num off len .good) s fun t => Only s t [.topo, .bus, .cmds] ∧ Took s t k.val seq ∧
        getCmd t num = some { c with pulls := c.pulls ++ [(off, len)], pulled := c.pulled + if canRead s c.fn false then 1 else 0 } ∧
        (canRead s c.fn false = true → ∀ p ∈ spans (maxRead s c.fn) len (inIova c.entry + BitVec.ofNat 64 off).toNat len,
          Bus.read c.fn (BitVec.ofNat 64 p.1) p.2 ∈ t.bus)) ∧
    (carrying l = true → NextInOrder l (.inData num off d) seq →
      s.cmds.find? (fun x => x.origin == some (k.val, num) && x.asked && x.input.isNone) = some c →
      getCmd s c.id = some c → off ≤ c.buf.length → c.buf.length ≤ off + d.length → off + d.length < inLen c.entry →
      Completes (.inData ⟨k, seq⟩ num off d .good) s fun t => Only s t [.topo, .bus, .cmds] ∧ Took s t k.val seq ∧
        getCmd t c.id = some { c with buf := c.buf.take off ++ d }) ∧
    (carrying l = true → NextInOrder l (.inData num off d) seq →
      s.cmds.find? (fun x => x.origin == some (k.val, num) && x.asked && x.input.isNone) = some c →
      getCmd s c.id = some c → off = c.buf.length → off + d.length = inLen c.entry →
      Completes (.inData ⟨k, seq⟩ num off d .good) s fun t => Only s t [.topo, .bus, .cmds] ∧ Took s t k.val seq ∧
        getCmd t c.id = some { c with buf := [], input := some (c.buf ++ d) }) ∧
    (carrying l = true → NextInOrder l (.outData num off d) seq → getCmd s num = some c → c.phase = .forwarded k.val →
      off = c.buf.length →
      Completes (.outData ⟨k, seq⟩ num off d .good) s fun t => Only s t [.topo, .bus, .cmds] ∧ Took s t k.val seq ∧
        (off ≠ c.sent ∨ canReq s c.fn = false → getCmd t num = some { c with buf := c.buf ++ d }) ∧
        (off = c.sent → canReq s c.fn = true → getCmd t num = some { c with buf := c.buf ++ d, sent := c.sent + d.length } ∧
          ∀ o : DWord, o = outIova c.entry + BitVec.ofNat 64 off →
          ∀ p ∈ spans (maxPayload s c.fn) d.length o.toNat d.length,
            Bus.write c.fn (BitVec.ofNat 64 p.1) (slice d (p.1 - o.toNat) p.2) ∈ t.bus)) ∧
    (carrying l = true → NextInOrder l (.done num 0 len det) seq → getCmd s num = some c → c.phase = .forwarded k.val →
      Completes (.done ⟨k, seq⟩ num 0 len det .good) s fun t => Only s t [.topo, .bus, .cmds, .eng, .fns] ∧ Took s t k.val seq ∧
        Ended t num .ok det (padTo len c.buf) ∧
        (opcode c.entry = 0x0405 → ∀ g, remoteRef s c.entry = some g → ∀ f, Map.get? (getFn t f).remoteKeys g = none)) ∧
    (∀ st, carrying l = true → NextInOrder l (.done num st.code len det) seq → getCmd s num = some c → c.phase = .forwarded k.val →
      st ≠ .ok → (st ≠ .berthMoved ∨ c.again = true ∨ handlePos det = handlePos (handleOf c.entry)) →
      Completes (.done ⟨k, seq⟩ num st.code len det .good) s fun t => Only s t [.topo, .bus, .cmds, .eng, .fns] ∧ Took s t k.val seq ∧
        Ended t num st det []) ∧
    (carrying l = true → NextInOrder l (.done num Status.berthMoved.code len det) seq → getCmd s num = some c →
      c.phase = .forwarded k.val → c.again = false → handlePos det ≠ handlePos (handleOf c.entry) →
      ∃ u : State, exec (.done ⟨k, seq⟩ num Status.berthMoved.code len det .good) s = .next (redirect u num det) ∧
        Took s u k.val seq ∧ Only s u [.topo, .bus]) ∧
    (∀ ks, carrying l = true → NextInOrder l (.berthXfer num 0 b ks) seq →
      ((∀ x ∈ s.keys.berths, x.2.incoming ≠ some num) → nextIndex s = some i → (placeMoved ks s).isSome = true →
        Completes (.berthXfer ⟨k, seq, .good⟩ num b ks) s fun t =>
          Only s t [.topo, .bus, .keys, .stamp, .rng, .free, .boot] ∧ Took s t k.val seq ∧
          (∃ mp, KeysArrived s t ks mp ∧ ∃ x, Map.get? t.keys.berths i = some x ∧ x.owner = b.owner ∧ x.ownerPos = b.ownerPos ∧
            x.roleEpoch = b.roleEpoch + 1 ∧ x.incoming = some num ∧ x.chainHead = b.chainHead ∧ x.nextSeq = b.nextSeq ∧
            x.slot0 = movedSlot mp b.slot0 ∧ x.slot1 = movedSlot mp b.slot1) ∧
          Map.get? t.topo.arrivals num = some (ks.map (·.1))) ∧
      ((∀ x ∈ s.keys.berths, x.2.incoming ≠ some num) → nextIndex s = none ∨ (placeMoved ks s).isNone = true →
        Completes (.berthXfer ⟨k, seq, .good⟩ num b ks) s fun t => Only s t [.topo, .bus] ∧ Took s t k.val seq) ∧
      ((∃ x ∈ s.keys.berths, x.2.incoming = some num) →
        Completes (.berthXfer ⟨k, seq, .good⟩ num b ks) s fun t => Only s t [.topo, .bus] ∧ Took s t k.val seq)) ∧
    (∀ m, carrying l = true → NextInOrder l (.xferAck num h) seq →
      s.topo.moves.find? (fun x => x.id == num && !x.committed && !x.aborted) = some m →
      Map.get? s.keys.berths m.index = some b → (getCmd s m.cid).isSome = true →
      ∃ u : State, exec (.xferAck ⟨k, seq, .good⟩ num h) s = .next (retryBerth u) ∧ Map.get? u.keys.berths m.index = none ∧
        (∀ g ∈ boundKeys b, Map.get? u.keys.keys g = none) ∧ Ended u m.cid .ok h.toNat [] ∧
        ∃ f ∈ u.topo.forwards, f.index = m.index ∧ f.owner = b.owner ∧ f.epoch = b.roleEpoch ∧ f.handle = h) ∧
    (carrying l = true → NextInOrder l (.xferCommit num) seq → s.keys.berths.find? (fun x => x.2.incoming == some num) = some (i, b) →
      Map.get? s.keys.berths i = some b →
      ∃ u : State, exec (.xferCommit ⟨k, seq, .good⟩ num) s = .next (retryBerth u) ∧ Took s u k.val seq ∧
        Map.get? u.keys.berths i = some { b with incoming := none } ∧ u.keys.keys = s.keys.keys) ∧
    (carrying l = true → NextInOrder l (.xferAbort num) seq → s.keys.berths.find? (fun x => x.2.incoming == some num) = some (i, b) →
      Completes (.xferAbort ⟨k, seq, .good⟩ num) s fun t => Only s t [.topo, .bus, .keys] ∧ Took s t k.val seq ∧
        Map.get? t.keys.berths i = none ∧ ∀ g ∈ boundKeys b, Map.get? t.keys.keys g = none) ∧
    (∀ m, carrying l = true → NextInOrder l (.xferAbort num) seq → (∀ x ∈ s.keys.berths, x.2.incoming ≠ some num) →
      s.topo.moves.find? (fun x => x.id == num && !x.committed) = some m → m.aborted = false →
      (getCmd s m.cid).isSome = true →
      ∃ u : State, exec (.xferAbort ⟨k, seq, .good⟩ num) s = .next (retryBerth u) ∧ Ended u m.cid .busy 0x0A [] ∧
        ∀ x, Map.get? s.keys.berths m.index = some x → Map.get? u.keys.berths m.index = some { x with moving := none }) ∧
    (carrying l = true → NextInOrder l (.endFunc (l.peer.getD 0) fn len) seq → len ≠ 2 →
      ∃ u : State, exec (.endFunc ⟨k, seq, .good⟩ fn len) s = .next (retryBerth u) ∧ Took s u k.val seq ∧
        ∀ x ∈ u.cmds, ¬(x.origin.isSome = true ∧ x.originPos = l.peer.getD 0 ∧ x.fn = fn)) ∧
    (carrying l = true → NextInOrder l (.endFunc (l.peer.getD 0) fn 2) seq →
      Completes (.endFunc ⟨k, seq, .good⟩ fn 2) s fun t =>
        ∀ x ∈ t.cmds, ¬(x.origin.isSome = true ∧ x.originPos = l.peer.getD 0))

/-! ### Invariants -/

/-- User NVM keeps its canonical form over every step: addresses rising, and no entry equal to the blank byte. -/
def Obligations.UserNvmStaysCanonical : Prop :=
  ∀ (s t : State), memWf userBlank s.nvm.user = true → step s = .next t → memWf userBlank t.nvm.user = true

/-- One-time programmable bits are never cleared (R370): whatever the step, a monitor fuse that is blown stays blown.
-/
def Obligations.FusesStayBlown : Prop :=
  ∀ (s t : State) (n : Nat), step s = .next t →
    (s.otp.fuseA.getLsbD n = true → t.otp.fuseA.getLsbD n = true) ∧
    (s.otp.fuseB.getLsbD n = true → t.otp.fuseB.getLsbD n = true)
end

