-- ==== Sys2Proof/Laws/Frame.lean ====
section
/-!
SUPPORT. What each shared operation may change, said once. A `hide…` function overwrites the parts of a state that a
group of operations may touch; `hide (op s) = hide s` then says that the operation changes nothing else, and
`congrArg` of a field gives that field. Such equations compose, and pass through a fold (`foldl_keeps`).
-/

namespace Sys2Proof.Machine

/-- A fold of steps that each keep a view of the state keeps it. -/
theorem foldl_keeps {α β : Type} (v : State → β) (f : State → α → State) (h : ∀ t a, v (f t a) = v t) (l : List α) (s : State) :
    v (l.foldl f s) = v s := by
  induction l generalizing s with
  | nil => rfl
  | cons a r ih => rw [List.foldl_cons, ih, h]

/-! ### Records and alarms -/

/-- The state without its recorder. -/
def hideRecorder (s : State) : State := { s with recorder := RecSt.reset }

theorem dropRecord_keeps (s : State) : hideRecorder (dropRecord s) = hideRecorder s := rfl

theorem queueRecord_keeps (s : State) (b : Bytes) (a p : Bool) : hideRecorder (queueRecord s b a p) = hideRecorder s := by
  unfold queueRecord; repeat' split
  all_goals rfl

theorem record_keeps (s : State) (t n : Nat) (p : Bytes) : hideRecorder (record s t n p) = hideRecorder s :=
  queueRecord_keeps ..

theorem recordMode_keeps (s : State) : hideRecorder (recordMode s) = hideRecorder s := record_keeps ..

theorem recordFault_keeps (s : State) (a b c d e f : Nat) : hideRecorder (recordFault s a b c d e f) = hideRecorder s :=
  record_keeps ..

/-- The state without its recorder and alarms. -/
def hideAlarms (s : State) : State := { hideRecorder s with alarm := AlarmSt.reset }

theorem hideAlarms_of_recorder {s t : State} (h : hideRecorder t = hideRecorder s) : hideAlarms t = hideAlarms s :=
  congrArg (fun x : State => { x with alarm := AlarmSt.reset }) h

theorem alarmEvent_keeps (s : State) (n : Nat) (d : Bytes) : hideAlarms (alarmEvent s n d) = hideAlarms s := by
  unfold alarmEvent
  split
  · rfl
  · dsimp only
    repeat' split
    all_goals first
      | rfl
      | exact (rfl : _ = hideAlarms (record _ 1 n d)).trans ((hideAlarms_of_recorder (record_keeps ..)).trans rfl)

/-! ### On-chip NVM -/

/-- The state without its NVM, but with user NVM. -/
def hideNvm (s : State) : State := { s with nvm := { State.reset.nvm with user := s.nvm.user } }

theorem wearWrite_keeps (s : State) (r w n : Nat) : hideNvm (wearWrite s r w n).1 = hideNvm s := by
  unfold wearWrite; dsimp only; split <;> rfl

theorem putCopy_keeps (s : State) (r n i : Nat) (c : Copy) : hideNvm (putCopy s r n i c) = hideNvm s := rfl

theorem commitRec_keeps (s : State) (r n : Nat) (g : BitVec 24) (v : DWord) (k : Nat) :
    hideNvm (commitRec s r n g v k).1 = hideNvm s := by
  have h := wearWrite_keeps s r 2 k
  unfold commitRec
  split <;> rename_i e <;> rw [e] at h
  · exact (putCopy_keeps ..).trans h
  · exact h

theorem writeMark_keeps (s : State) (n v : Nat) : hideNvm (writeMark s n v) = hideNvm s := commitRec_keeps ..

/-- The state without its recorder, alarms and the list of corrupt records already reported. -/
def hideReport (s : State) : State := { hideAlarms s with keys := { s.keys with corrupt := [] } }

theorem reportCorrupt_report (s : State) (r n : Nat) : hideReport (reportCorrupt s r n) = hideReport s := by
  unfold reportCorrupt reportCorrupt.record'
  split
  · rfl
  · have h := (hideAlarms_of_recorder (record_keeps (alarmEvent
      { s with keys := { s.keys with corrupt := insertNat (r * 65536 + n) s.keys.corrupt } } 15 [2]) 0x1004 r (leBytes 2 n))).trans
      (alarmEvent_keeps ..)
    exact congrArg (fun x : State => { x with keys := { x.keys with corrupt := [] } }) h

/-- The state without what the resolution of an NVM record may change. -/
def hideResolve (s : State) : State := { hideAlarms (hideNvm s) with keys := { s.keys with held := [], corrupt := [] } }

theorem hideResolve_of_nvm {s t : State} (h : hideNvm t = hideNvm s) : hideResolve t = hideResolve s :=
  congrArg (fun x : State => { hideAlarms x with keys := { x.keys with held := [], corrupt := [] } }) h

theorem reportCorrupt_keeps (s : State) (r n : Nat) : hideResolve (reportCorrupt s r n) = hideResolve s :=
  congrArg (fun x : State => { hideNvm x with keys := { x.keys with held := [] } }) (reportCorrupt_report s r n)

theorem resolveRec_keeps (s : State) (r n k : Nat) : hideResolve (resolveRec s r n k).1 = hideResolve s := by
  unfold resolveRec
  split
  · rfl
  · split
    · exact reportCorrupt_keeps ..
    · rename_i g v _
      have h := hideResolve_of_nvm (commitRec_keeps s r n g v k)
      split <;> rename_i e <;> rw [e] at h
      · exact h
      · exact h

/-! ### Interrupts -/

/-- The state without its functions, ports and bus record. -/
def hideSignals (s : State) : State := { s with fns := [], ports := State.reset.ports, bus := [] }

theorem flushFast_keeps (s : State) (fn n : Nat) : hideSignals (flushFast s fn n) = hideSignals s := by
  unfold flushFast; dsimp only; split <;> rfl

theorem pendFast_keeps (s : State) (fn n i : Nat) : hideSignals (pendFast s fn n i) = hideSignals s := rfl

theorem signalFast_keeps (s : State) (fn n i : Nat) : hideSignals (signalFast s fn n i) = hideSignals s :=
  (flushFast_keeps ..).trans rfl

theorem flushAllFast_keeps (s : State) (fn : Nat) : hideSignals (flushAllFast s fn) = hideSignals s :=
  foldl_keeps _ _ (fun t n => flushFast_keeps t fn n) _ s

theorem flushSignals_keeps (s : State) : hideSignals (flushSignals s) = hideSignals s := by
  unfold flushSignals; exact foldl_keeps hideSignals flushAllFast flushAllFast_keeps _ s

theorem deliver_keeps (s : State) (fn v : Nat) : hideSignals (deliver s fn v) = hideSignals s := by
  unfold deliver; dsimp only
  repeat' split
  all_goals rfl

theorem pendNormal_keeps (s : State) (fn v : Nat) : hideSignals (pendNormal s fn v) = hideSignals s :=
  (deliver_keeps ..).trans rfl

theorem deliverAll_keeps (s : State) (fn : Nat) : hideSignals (deliverAll s fn) = hideSignals s :=
  foldl_keeps _ _ (fun t v => deliver_keeps t fn v) _ s

theorem deliverPort_keeps (s : State) (p : Nat) : hideSignals (deliverPort s p) = hideSignals s := by
  unfold deliverPort; exact foldl_keeps hideSignals (fun t (e : Nat × Fn) => deliverAll t e.1) (fun t e => deliverAll_keeps t e.1) _ s

/-! ### Queues -/

/-- The state without its functions, ports, queues and bus record. -/
def hideQueues (s : State) : State := { hideSignals s with sqs := [], cqs := [] }

theorem hideQueues_of_signals {s t : State} (h : hideSignals t = hideSignals s) : hideQueues t = hideQueues s :=
  congrArg (fun x : State => { x with sqs := [], cqs := [] }) h

theorem moderate_keeps (s : State) (fn q : Nat) (irq : Bool) : hideQueues (moderate s fn q irq) = hideQueues s := by
  unfold moderate
  split
  · rfl
  · dsimp only
    split
    · rfl
    · split
      · exact (hideQueues_of_signals (pendNormal_keeps ..)).trans rfl
      · rfl

theorem statusLine_keeps (s : State) (fn q : Nat) : hideQueues (statusLine s fn q) = hideQueues s := by
  unfold statusLine; repeat' split
  all_goals rfl

theorem unreserve_keeps (s : State) (fn q n : Nat) : hideQueues (unreserve s fn q n) = hideQueues s := by
  unfold unreserve; split <;> rfl

theorem stopSq_keeps (s : State) (fn q : Nat) (st : SqState) (i : Word) : hideQueues (stopSq s fn q st i) = hideQueues s := by
  unfold stopSq; split
  · rfl
  · exact (statusLine_keeps ..).trans ((unreserve_keeps ..).trans rfl)

theorem disableSq_keeps (s : State) (fn q : Nat) : hideQueues (disableSq s fn q) = hideQueues s := by
  unfold disableSq; split
  · rfl
  · split
    · exact stopSq_keeps ..
    · rfl

theorem enableSq_keeps (s : State) (fn q : Nat) : hideQueues (enableSq s fn q) = hideQueues s := by
  unfold enableSq; split
  · rfl
  · exact (statusLine_keeps ..).trans rfl

theorem wakePolling_keeps (s : State) (fn : Nat) : hideQueues (wakePolling s fn) = hideQueues s := rfl

theorem errorSq_keeps (s : State) (fn q : Nat) (st : SqState) (i : Word) : hideQueues (errorSq s fn q st i) = hideQueues s := by
  unfold errorSq; split
  · exact (hideQueues_of_signals (signalFast_keeps ..)).trans (stopSq_keeps ..)
  · exact stopSq_keeps ..

theorem lastLine_keeps (s : State) (fn q : Nat) : hideQueues (lastLine s fn q) = hideQueues s := by
  unfold lastLine; repeat' split
  all_goals rfl

theorem destroyQueues_keeps (s : State) (fn : Nat) : hideQueues (destroyQueues s fn) = hideQueues s :=
  (rfl : _ = hideQueues (((qidsOf s.sqs fn).filter (· != 0)).foldl (fun t q => lastLine (stopSq t fn q .destroyed 0) fn q) s)).trans
    (foldl_keeps hideQueues (fun t q => lastLine (stopSq t fn q .destroyed 0) fn q)
      (fun t q => (lastLine_keeps ..).trans (stopSq_keeps t fn q .destroyed 0)) _ s)

theorem offFn_keeps (s : State) (fn : Nat) : hideQueues (offFn s fn) = hideQueues s := by
  have h : ∀ t : State, hideQueues (match getSq t fn 0 with
      | some q => if q.st = .disabled then t else statusLine (putSq t fn 0 { discarded q with st := .disabled }) fn 0
      | none => t) = hideQueues t := by
    intro t; split
    · split
      · rfl
      · exact (statusLine_keeps ..).trans rfl
    · rfl
  exact (h (destroyQueues s fn)).trans (destroyQueues_keeps s fn)

/-! ### The end of commands -/

/-- The state without its commands and engines, and without its functions and bus record: reads no longer wanted keep their tags, and the
output of a command is issued as it finishes. -/
def hideRun (s : State) : State := { s with cmds := [], eng := Eng.reset, fns := [], bus := [] }

theorem reapCopies_keeps (s : State) : hideRun (reapCopies s) = hideRun s := rfl

/-- The state without its bus record. -/
def hideBus (s : State) : State := { s with bus := [] }

theorem emitWrite_keeps (s : State) (fn : Nat) (a : DWord) (d : Bytes) : hideBus (emitWrite s fn a d) = hideBus s :=
  foldl_keeps hideBus (fun t (p : Nat × Nat) => emit t (.write fn (BitVec.ofNat 64 p.1) (slice d (p.1 - a.toNat) p.2))) (fun _ _ => rfl) _ s

theorem emitRead_keeps (s : State) (fn : Nat) (a : DWord) (n : Nat) : hideBus (emitRead s fn a n) = hideBus s :=
  foldl_keeps hideBus (fun t (p : Nat × Nat) => emit t (.read fn (BitVec.ofNat 64 p.1) p.2)) (fun _ _ => rfl) _ s

theorem outputWrites_keeps (s : State) (c : Cmd) (r : Result) : hideBus (outputWrites s c r) = hideBus s := by
  unfold outputWrites; dsimp only
  have h : hideBus (if c.zeroDue = 0 then s else emitWrite s c.fn (outIova c.entry) (zeros c.zeroDue)) = hideBus s := by
    split
    · rfl
    · exact emitWrite_keeps ..
  split
  · exact h
  · exact (emitWrite_keeps ..).trans h

theorem hideRun_of_bus {s t : State} (h : hideBus t = hideBus s) : hideRun t = hideRun s :=
  congrArg (fun x : State => { x with cmds := [], eng := Eng.reset, fns := [] }) h

theorem issueOut_keeps (s : State) (cid : Nat) : hideRun (issueOut s cid) = hideRun s := by
  unfold issueOut
  repeat' split
  all_goals first
    | rfl
    | exact (rfl : _ = hideRun (outputWrites s _ _)).trans (hideRun_of_bus (outputWrites_keeps ..))

theorem dropInput_keeps (s : State) (cid : Nat) : hideRun (dropInput s cid) = hideRun s := by
  unfold dropInput; dsimp only; repeat' split
  all_goals rfl

theorem unpin_keeps (s : State) (cid : Nat) : hideRun (unpin s cid) = hideRun s := rfl

theorem finish_keeps (s : State) (cid : Nat) (r : Result) : hideRun (finish s cid r) = hideRun s :=
  (reapCopies_keeps _).trans ((issueOut_keeps ..).trans ((rfl : _ = hideRun (dropInput s cid)).trans (dropInput_keeps s cid)))

theorem fail_keeps (s : State) (cid : Nat) (st : Status) (d : Nat) : hideRun (fail s cid st d) = hideRun s := finish_keeps ..

theorem okOut_keeps (s : State) (cid d : Nat) (o : Bytes) : hideRun (okOut s cid d o) = hideRun s := finish_keeps ..

theorem endCmd_keeps (s : State) (cid : Nat) : hideRun (endCmd s cid) = hideRun s := by
  unfold endCmd; dsimp only; exact (reapCopies_keeps _).trans ((unpin_keeps (dropInput s cid) cid).trans (dropInput_keeps s cid))

theorem faultCmd_keeps (s : State) (cid a b c : Nat) : hideRun (faultCmd s cid a b c) = hideRun s := by
  unfold faultCmd; dsimp only
  repeat' split
  all_goals first
    | rfl
    | exact fail_keeps ..

theorem rerunOnly_keeps (s : State) (cid a : Nat) : hideRun (rerunOnly s cid a) = hideRun s := by
  unfold rerunOnly; repeat' split
  all_goals first
    | rfl
    | exact fail_keeps ..

/-- The state without its commands, engines and recorder. -/
def hideFault (s : State) : State := { hideRun s with recorder := RecSt.reset }

theorem retireEngine_keeps (s : State) (k i c : Nat) : hideFault (retireEngine s k i c) = hideFault s := by
  unfold retireEngine; dsimp only
  split <;> exact (congrArg hideRun (recordFault_keeps ..)).trans rfl

theorem faultEngine_keeps (s : State) (k i c : Nat) : hideFault (faultEngine s k i c) = hideFault s := by
  unfold faultEngine
  exact (foldl_keeps hideFault (fun t (x : Cmd) => faultCmd t x.id c k i) (fun t x => congrArg
    (fun x : State => { x with recorder := RecSt.reset }) (faultCmd_keeps t x.id c k i)) _ _).trans (retireEngine_keeps ..)

/-- A command as another function of it that keeps number and phase leaves it. -/
theorem modCmd_phase (s : State) (cid x : Nat) (f : Cmd → Cmd) (hf : ∀ c, (f c).id = c.id ∧ (f c).phase = c.phase) :
    (getCmd (modCmd s cid f) x).map (·.phase) = (getCmd s x).map (·.phase) := by
  simp only [getCmd, modCmd, List.find?_map]
  rw [show ((fun c : Cmd => c.id == x) ∘ fun c => if c.id = cid then f c else c) = fun c => c.id == x from by
    funext c; simp only [Function.comp_apply]; split
    · rw [(hf c).1]
    · rfl, Option.map_map]
  congr 1; funext c; simp only [Function.comp_apply]; split
  · exact (hf c).2
  · rfl

theorem hideBus_cmds {s t : State} (h : hideBus t = hideBus s) : t.cmds = s.cmds := by
  have e := congrArg State.cmds h
  exact e

theorem issueOut_phase (s : State) (cid x : Nat) : (getCmd (issueOut s cid) x).map (·.phase) = (getCmd s x).map (·.phase) := by
  unfold issueOut
  repeat' split
  all_goals first
    | rfl
    | (refine (modCmd_phase _ _ _ _ (by intro c; exact ⟨rfl, rfl⟩)).trans ?_
       simp only [getCmd]; rw [hideBus_cmds (outputWrites_keeps ..)])

theorem dropInput_phase (s : State) (cid x : Nat) : (getCmd (dropInput s cid) x).map (·.phase) = (getCmd s x).map (·.phase) := by
  unfold dropInput; dsimp only
  repeat' split
  · rfl
  all_goals exact modCmd_phase _ _ _ _ (by intro c; exact ⟨rfl, rfl⟩)

/-- A finished command's phase. -/
theorem finish_phase (s : State) (cid : Nat) (r : Result) (c : Cmd) (h : getCmd s cid = some c) :
    (getCmd (finish s cid r) cid).map (·.phase) = some (.fin r) := by
  have hd := dropInput_phase s cid cid
  rw [h, Option.map_some] at hd
  obtain ⟨d, hg, -⟩ := Option.map_eq_some_iff.mp hd
  refine (issueOut_phase (modCmd (releaseLves (dropInput s cid) cid) cid fun c => finished s c r) cid cid).trans ?_
  simp only [getCmd] at hg
  simp only [getCmd, modCmd, releaseLves, List.find?_map]
  rw [show ((fun x : Cmd => x.id == cid) ∘ _) = fun x => x.id == cid from by
    funext x; simp only [Function.comp_apply]; split <;> rfl, hg]
  have hid : d.id = cid := by simpa using List.find?_some hg
  simp [hid, finished]

/-! ### Random draws -/

/-- The state without its generator. -/
def hideRng (s : State) : State := { s with rng := RngSt.reset }

theorem reseedInst_keeps (s : State) (i : Nat) : hideRng (reseedInst s i) = hideRng s := by
  unfold reseedInst; split <;> rfl

theorem generateOn_keeps (s : State) (i n : Nat) (pr : Bool) : hideRng (generateOn s i n pr).2 = hideRng s := by
  have h : ∀ t : State, hideRng (match t.rng.inst[i]? with
      | some (st, k) => ((padTo n (Config.drbgGenerate st n).1, { t with rng := { t.rng with inst := t.rng.inst.set i ((Config.drbgGenerate st n).2, k + 1), next := (i + 1) % 8 } }) : Bytes × State)
      | none => (zeros n, t)).2 = hideRng t := by
    intro t; split <;> rfl
  refine (h _).trans ?_
  split
  · split
    · exact reseedInst_keeps s i
    · rfl
  · rfl

theorem draw_keeps (s : State) (n : Nat) (r : Bytes × State) (h : draw s n = some r) : hideRng r.2 = hideRng s := by
  unfold draw at h
  split at h
  · obtain ⟨i, _, rfl⟩ := Option.map_eq_some_iff.mp h
    exact generateOn_keeps ..
  · cases h

/-! ### Keys and berths -/

/-- The state without its keys and berths. -/
def hideKeys (s : State) : State := { s with keys := KeySt.reset }

theorem zeroiseKey_keeps (s : State) (g : Nat) : hideKeys (zeroiseKey s g) = hideKeys s := rfl

theorem freeBerth_keeps (s : State) (i : Nat) : hideKeys (freeBerth s i) = hideKeys s := rfl

/-- The state without its keys and berths and its generator. -/
def hideMasks (s : State) : State := { hideKeys s with rng := RngSt.reset }

theorem remask_keeps (s : State) (g : Nat) : hideMasks (remask s g) = hideMasks s := by
  unfold remask; split
  · rename_i r _ h
    exact (rfl : _ = hideMasks r.2).trans (congrArg hideKeys (draw_keeps s 64 r h))
  · rfl

theorem setAttr_keeps (s : State) (g : Nat) (f : Key → Key) : hideMasks (setAttr s g f) = hideMasks s :=
  (remask_keeps ..).trans rfl

theorem resetHoldings_keeps (s : State) (fns : List Nat) (pos : Nat) : hideMasks (resetHoldings s fns pos) = hideMasks s :=
  (foldl_keeps hideMasks remask remask_keeps _ _).trans rfl

/-- The state without its keys and berths, and without the tree records and the wear of NVM. -/
def hideHoldings (s : State) : State := { hideKeys s with nvm := { s.nvm with trees := [], wear := State.reset.nvm.wear } }

theorem eraseTree_keeps (s : State) (t : Nat) : hideHoldings (eraseTree s t) = hideHoldings s := by
  have h : ∀ r : State × Bool, r = wearWrite s 2 treeWords 0 → hideHoldings r.1 = hideHoldings s := by
    intro r e; subst e; unfold wearWrite; dsimp only; split <;> rfl
  unfold eraseTree
  split <;> rename_i e
  · exact (rfl : _ = hideHoldings _).trans (h _ e.symm)
  · exact (rfl : _ = hideHoldings _).trans (h _ e.symm)

theorem destroyKey_keeps (s : State) (g : Nat) : hideHoldings (destroyKey s g) = hideHoldings s := by
  unfold destroyKey; dsimp only; split
  · exact (eraseTree_keeps ..).trans rfl
  · rfl

theorem cleanHoldings_keeps (s : State) (fn pos : Nat) : hideHoldings (cleanHoldings s fn pos) = hideHoldings s :=
  (rfl : _ = hideHoldings (List.foldl destroyKey s _)).trans (foldl_keeps hideHoldings _ destroyKey_keeps _ s)

/-! ### Links -/

/-- The state without its topology and bus record, and without the count of free values. -/
def hideLinks (s : State) : State := { s with topo := Topo.reset, bus := [], free := 0 }

theorem putOnLink_keeps (s : State) (k : Nat) (m : LinkMsg) : hideLinks (putOnLink s k m) = hideLinks s := rfl

theorem modLink_keeps (s : State) (k : Nat) (f : Link → Link) : hideLinks (modLink s k f) = hideLinks s := rfl

theorem holdBack_keeps (s : State) (k : Nat) (m : LinkMsg) : hideLinks (holdBack s k m) = hideLinks s := rfl

theorem startTraining_keeps (s : State) (k : Nat) : hideLinks (startTraining s k) = hideLinks s := rfl

theorem linkSend_keeps (s : State) (k : Nat) (m : LinkMsg) : hideLinks (linkSend s k m) = hideLinks s := by
  unfold linkSend; repeat' split
  all_goals rfl

theorem drainList_keeps (k : Nat) (l : List LinkMsg) (b : List Nat) (s : State) : hideLinks (drainList k l b s) = hideLinks s := by
  induction l generalizing b s with
  | nil => rfl
  | cons m r ih =>
    unfold drainList; split
    · rw [ih, putOnLink_keeps]
    · rw [ih, holdBack_keeps]

theorem drainBack_keeps (s : State) (k : Nat) : hideLinks (drainBack s k) = hideLinks s :=
  (drainList_keeps ..).trans (modLink_keeps ..)

theorem sendEndFunc_keeps (s : State) (fn kind : Nat) : hideLinks (sendEndFunc s fn kind) = hideLinks s :=
  foldl_keeps hideLinks _ (fun t k => by split; exacts [linkSend_keeps .., rfl]) _ s

/-! ### Commands that start -/

/-- The state without what the start of a command may change. -/
def hideStart (s : State) : State := { hideLinks (hideRun (hideMasks (hideAlarms s))) with stamp := 0 }

theorem hideStart_of_links {s t : State} (h : hideLinks t = hideLinks s) : hideStart t = hideStart s :=
  congrArg (fun x : State => { hideRun (hideMasks (hideAlarms x)) with stamp := 0 }) h

theorem modCmd_start (s : State) (cid : Nat) (f : Cmd → Cmd) : hideStart (modCmd s cid f) = hideStart s := rfl

theorem askInput_keeps (s : State) (cid : Nat) : hideStart (askInput s cid) = hideStart s := by
  unfold askInput; split
  · rfl
  · split
    · rfl
    · split
      · exact (modCmd_start ..).trans (hideStart_of_links (linkSend_keeps ..))
      · split
        · exact (modCmd_start ..).trans (hideStart_of_links (congrArg (fun x : State => { x with topo := Topo.reset, free := 0 }) (emitRead_keeps ..)))
        · rfl

theorem fail_start (s : State) (cid : Nat) (st : Status) (d : Nat) : hideStart (fail s cid st d) = hideStart s :=
  congrArg (fun x : State => { hideLinks (hideMasks (hideAlarms x)) with stamp := 0 }) (fail_keeps s cid st d)

theorem touch_keeps (s : State) (i : Nat) (ks : List Nat) : hideStart (touch s i ks) = hideStart s :=
  (rfl : _ = hideStart (ks.foldl (fun t g => modKey t g fun k => { k with used := s.stamp + 1 })
      (modBerth s i fun b => { b with used := s.stamp + 1 }))).trans
    ((foldl_keeps hideStart (fun t g => modKey t g fun k => { k with used := s.stamp + 1 }) (fun _ _ => rfl) ks _).trans rfl)

theorem beginRun_keeps (s : State) (cid i : Nat) (a b : Option Nat) : hideStart (beginRun s cid i a b) = hideStart s := by
  unfold beginRun
  split
  · rfl
  · rename_i c _
    have h : ∀ t : State, hideStart (match opcode c.entry, a with
        | 0x0405, some g => setAttr t g (markKey cid)
        | 0x0110, some g => setAttr t g (markKey cid)
        | _, _ => t) = hideStart t := by
      have e : ∀ (t : State) (g : Nat), hideStart (setAttr t g (markKey cid)) = hideStart t := fun t g =>
        congrArg (fun x : State => { hideLinks (hideRun (hideAlarms x)) with stamp := 0 }) (setAttr_keeps t g (markKey cid))
      intro t; split
      · exact e ..
      · exact e ..
      · rfl
    have g : ∀ (f : Cmd → Cmd) (l : List Nat), hideStart (touch (modCmd s cid f) i l) = hideStart s :=
      fun f l => (touch_keeps ..).trans rfl
    cases hd : deadKind s (planSegs s (planOf s c.entry a b)) with
    | some k => simp only [hd]; exact (fail_start ..).trans ((h _).trans (g _ _))
    | none =>
      simp only [hd]
      split
      · exact (askInput_keeps ..).trans ((h _).trans (g _ _))
      · exact (h _).trans (g _ _)

theorem reportStep8_keeps (s : State) (cid : Nat) (st : Status) (d : Nat) : hideStart (reportStep8 s cid st d) = hideStart s := by
  unfold reportStep8; repeat' split
  · exact congrArg (fun x : State => { hideLinks (hideRun (hideMasks x)) with stamp := 0 }) (reportCorrupt_report ..)
  all_goals rfl

theorem applyVerdict_keeps (s : State) (cid : Nat) (v : Verdict) : hideStart (applyVerdict s cid v) = hideStart s := by
  unfold applyVerdict; split
  · exact (fail_start ..).trans ((modCmd_start ..).trans (reportStep8_keeps ..))
  · rfl
  · rfl
  · exact beginRun_keeps ..

theorem sendCmd_keeps (s : State) (c : Cmd) (e : Bytes) : hideStart (sendCmd s c e) = hideStart s := by
  unfold sendCmd; split
  · exact (modCmd_start ..).trans (hideStart_of_links (linkSend_keeps ..))
  · exact fail_start ..

theorem forwardTo_keeps (s : State) (c : Cmd) (e : Bytes) : hideStart (forwardTo s c e) = hideStart s := by
  unfold forwardTo; dsimp only
  repeat' split
  all_goals first
    | rfl
    | exact fail_start ..
    | exact sendCmd_keeps ..

theorem startOnce_keeps (s : State) (cid : Nat) : hideStart (startOnce s cid) = hideStart s := by
  unfold startOnce
  split
  · rfl
  · split
    · exact fail_start ..
    · split
      · rfl
      · split
        · exact forwardTo_keeps ..
        · exact applyVerdict_keeps ..

theorem startCmd_keeps (s : State) (cid : Nat) : hideStart (startCmd s cid) = hideStart s := by
  unfold startCmd
  split
  · rfl
  · split
    · split
      · exact (startOnce_keeps ..).trans rfl
      · exact startOnce_keeps ..
    · exact startOnce_keeps ..

theorem retryBerth_keeps (s : State) : hideStart (retryBerth s) = hideStart s :=
  foldl_keeps hideStart _ startCmd_keeps _ s

theorem retryGate_keeps (s : State) (cid : Nat) : hideStart (retryGate s cid) = hideStart s := by
  unfold retryGate
  split
  · rfl
  · split
    · split
      · split
        · exact fail_start ..
        · exact beginRun_keeps ..
      · rfl
      · exact fail_start ..
    · rfl

theorem retryRng_keeps (s : State) : hideStart (retryRng s) = hideStart s :=
  foldl_keeps hideStart _ retryGate_keeps _ s

/-- With no command waiting at a berth, nothing starts again. -/
theorem retryBerth_quiet (s : State) (h : ∀ c ∈ s.cmds, c.phase ≠ .berthWait) : retryBerth s = s := by
  have e : (s.cmds.filter fun c => c.phase == .berthWait) = [] := by
    simp only [List.filter_eq_nil_iff]; intro c hc; simpa using h c hc
  simp [retryBerth, e]

end Sys2Proof.Machine
end

