-- ==== Sys2Proof/Laws/Keys.lean ====
section
/-!
SUPPORT. Bytes under a keystream, a mask or a seal come back: padding and keystreams byte by byte, a key re-shared under a fresh mask
(R267, R268), a record the device sealed (R250, R276, R281). And what draws of masks and seeds change: the generator, and the seed
queues.
-/

namespace Sys2Proof.Machine

/-! ### Bytes -/

@[simp] theorem padTo_length (n : Nat) (b : Bytes) : (padTo n b).length = n := by simp [padTo, zeros]; omega

@[simp] theorem underStream_length (d m : Bytes) : (underStream d m).length = d.length := by simp [underStream]

/-- A byte of a padded string is the string's own below its length. -/
theorem padTo_getD (n i : Nat) (b : Bytes) (h : i < n) : (padTo n b).getD i 0 = b.getD i 0 := by
  unfold padTo zeros
  rw [List.getD_eq_getElem?_getD, List.getElem?_take_of_lt h, List.getElem?_append, List.getD_eq_getElem?_getD]
  split
  · rfl
  · rw [List.getElem?_replicate, List.getElem?_eq_none (by omega)]
    split <;> rfl

/-- Data under a stream, and under at least as much of the same stream again, are the data. -/
theorem underStream_back (d m : Bytes) (n : Nat) (h : d.length ≤ n) : underStream (underStream d m) (padTo n m) = d := by
  apply List.ext_getElem
  · simp
  · intro i h1 h2
    simp only [underStream, List.getElem_mapIdx]
    rw [padTo_getD n i m (by omega), BitVec.xor_assoc, BitVec.xor_self, BitVec.xor_zero]

/-- The same where the stream is not padded. -/
theorem underStream_twice (d m : Bytes) : underStream (underStream d m) m = d := by
  apply List.ext_getElem
  · simp
  · intro i h1 h2
    simp only [underStream, List.getElem_mapIdx]
    rw [BitVec.xor_assoc, BitVec.xor_self, BitVec.xor_zero]

/-! ### Keys and seals -/

/-- A fresh mask changes the shares of a key and not the key (R267, R268). -/
@[simp] theorem bytes_masked (k : Key) (m : Bytes) : (k.masked m).bytes = k.bytes :=
  underStream_back k.bytes m k.shareA.length (by simp [Key.bytes])

@[simp] theorem bytes_granuled (k : Key) (m : Bytes) : (Key.granuled k m).bytes = k.bytes := bytes_masked k _

@[simp] theorem bytes_reshareGranule (k : Key) (head : Bool) (j : Nat) (m : Bytes) : (reshareGranule k head j m).bytes = k.bytes :=
  bytes_masked k _

/-- What was sealed opens under the same key, nonce and associated data. -/
theorem aeadOpen_seal (alg n : Nat) (key nonce aad pt : Bytes) :
    aeadOpen alg key nonce aad (aeadSeal alg n key nonce aad pt).1 (aeadSeal alg n key nonce aad pt).2 = (pt, true) := by
  simp only [aeadOpen, aeadSeal, padTo_length, underStream_length, beq_self_eq_true]
  rw [underStream_twice]

/-- A persistent record the device sealed opens (R276). -/
theorem openPersist_seal (iv b : Bytes) : openPersist (sealPersist iv b) = some b := by
  simp only [openPersist, sealPersist, aeadOpen_seal, if_true]

/-! ### Draws -/

/-- Draws of masks change the generator alone (R267). -/
theorem drawMasks_keeps : ∀ (n : Nat) (s : State) (r : Bytes × State), drawMasks n s = some r → hideRng r.2 = hideRng s
  | 0, s, r, h => by cases h; rfl
  | n + 1, s, r, h => by
    simp only [drawMasks, Option.bind_eq_some_iff, Option.map_eq_some_iff] at h
    obtain ⟨a, ha, b, hb, rfl⟩ := h
    exact (drawMasks_keeps n a.2 b hb).trans (draw_keeps s 64 a ha)

/-- The state without its generator and the seeds queued at engines. -/
def hideSeeds (s : State) : State := { hideRng s with eng := { s.eng with seedQ := [] } }

theorem hideSeeds_of_rng {s t : State} (h : hideRng t = hideRng s) : hideSeeds t = hideSeeds s :=
  congrArg (fun x : State => { x with eng := { x.eng with seedQ := [] } }) h

theorem queueSeeds_keeps (key : Nat) : ∀ (n : Nat) (s : State), hideSeeds (queueSeeds key n s) = hideSeeds s
  | 0, _ => rfl
  | n + 1, s => by
    unfold queueSeeds
    split
    · rename_i b t h
      exact (queueSeeds_keeps key n _).trans (hideSeeds_of_rng (t := t) (draw_keeps s 32 (b, t) h))
    · rfl

theorem refillSeeds_keeps (s : State) (kind i : Nat) : hideSeeds (refillSeeds s kind i) = hideSeeds s := by
  unfold refillSeeds
  split
  · exact queueSeeds_keeps ..
  · rfl

/-- Refilling the seed queues changes them and the generator alone (R197). -/
theorem refillAll_keeps (s : State) : hideSeeds (refillAll s) = hideSeeds s := by
  unfold refillAll
  split
  · exact foldl_keeps hideSeeds _ (fun t k => foldl_keeps hideSeeds _ (fun u i => refillSeeds_keeps u k i) _ t) _ s
  · rfl

/-- An idle step changes the timebase, the generator and the seed queues alone (R197, R294). -/
theorem idle_keeps (s : State) : hideSeeds (idle s) = hideSeeds { s with sys := (idle s).sys } := by
  unfold idle
  split
  · have h := refillAll_keeps { s with sys := { s.sys with tick := s.sys.tick + 1 } }
    have e := congrArg State.sys h
    rw [h]
    exact congrArg (fun x => hideSeeds { s with sys := x }) e.symm
  · rfl

end Sys2Proof.Machine
end

