-- ==== Sys2Proof/Laws/Mem.lean ====
section
/-!
SUPPORT. Sparse maps and byte memories: what an update leaves at each key, and that every operation keeps the canonical
form (keys strictly rising, no entry equal to the byte that an unlisted address reads as).
-/

namespace Sys2Proof

/-! ### Maps -/

@[simp] theorem Map.get?_nil {α : Type} (x : Nat) : Map.get? ([] : Map α) x = none := rfl

/-- What a map holds after a value is put in. -/
theorem Map.get?_put {α : Type} (m : Map α) (x y : Nat) (v : α) :
    Map.get? (Map.put m x v) y = if y = x then some v else Map.get? m y := by
  induction m with
  | nil => by_cases h : y = x <;> simp [Map.put, Map.get?, h, eq_comm (a := x)]
  | cons e r ih =>
    obtain ⟨k, w⟩ := e
    unfold Map.put
    split
    · by_cases h : y = x <;> simp [Map.get?, h, eq_comm (a := x)]
    · split
      · subst_vars; by_cases h : y = k <;> simp [Map.get?, h, eq_comm (a := k)]
      · simp only [Map.get?, ih]
        by_cases h : y = x
        · subst h; rename_i hk; simp [Ne.symm hk]
        · simp [h]

@[simp] theorem Map.get?_put_self {α : Type} (m : Map α) (x : Nat) (v : α) : Map.get? (Map.put m x v) x = some v := by
  rw [Map.get?_put, if_pos rfl]

theorem Map.get?_put_ne {α : Type} (m : Map α) {x y : Nat} (v : α) (h : y ≠ x) : Map.get? (Map.put m x v) y = Map.get? m y := by
  rw [Map.get?_put, if_neg h]

/-- What a map holds after entries were filtered by their keys. -/
theorem Map.get?_filter {α : Type} (m : Map α) (p : Nat → Bool) (y : Nat) :
    Map.get? (m.filter fun e => p e.1) y = if p y then Map.get? m y else none := by
  induction m with
  | nil => simp
  | cons e r ih =>
    obtain ⟨k, w⟩ := e
    cases hk : p k
    · rw [List.filter_cons_of_neg (by simp [hk]), ih]
      split
      · simp only [Map.get?]; split
        · subst_vars; simp_all
        · rfl
      · rfl
    · rw [List.filter_cons_of_pos (by simp [hk])]
      simp only [Map.get?, ih]
      split
      · subst_vars; simp [hk]
      · rfl

theorem Map.get?_del {α : Type} (m : Map α) (x y : Nat) : Map.get? (Map.del m x) y = if y = x then none else Map.get? m y := by
  unfold Map.del; rw [Map.get?_filter m (fun k => k != x)]
  by_cases h : y = x <;> simp [h]

/-- What a map holds after one value was changed. -/
theorem Map.get?_modify {α : Type} (m : Map α) (x y : Nat) (f : α → α) :
    Map.get? (Map.modify m x f) y = if y = x then (Map.get? m y).map f else Map.get? m y := by
  induction m with
  | nil => simp [Map.modify]
  | cons e r ih =>
    obtain ⟨k, w⟩ := e
    unfold Map.modify at ih ⊢
    rw [List.map_cons]
    by_cases hk : k = x
    · subst hk
      by_cases hy : k = y
      · subst hy; simp [Map.get?]
      · simp only [if_true, Map.get?, hy, if_false]; exact ih
    · by_cases hy : k = y
      · subst hy; simp [Map.get?, hk]
      · simp only [hk, Map.get?, hy, if_false]; exact ih

/-- What a map holds after every value was changed. -/
theorem Map.get?_update {α : Type} (m : Map α) (f : Nat → α → α) (y : Nat) :
    Map.get? (Map.update m f) y = (Map.get? m y).map (f y) := by
  induction m with
  | nil => simp [Map.update]
  | cons e r ih =>
    obtain ⟨k, w⟩ := e
    unfold Map.update at ih ⊢
    simp only [List.map_cons, Map.get?]
    split
    · subst_vars; rfl
    · exact ih

/-! ### The canonical form -/

theorem Map.wf_iff {α : Type} (m : Map α) : Map.wf m = true ↔ m.Pairwise (fun a b => a.1 < b.1) := by
  induction m with
  | nil => simp [Map.wf]
  | cons a r ih =>
    cases r with
    | nil => simp [Map.wf]
    | cons b r =>
      rw [Map.wf, Bool.and_eq_true, decide_eq_true_eq, ih, List.pairwise_cons (a := a), List.pairwise_cons]
      constructor
      · rintro ⟨h, h1, h2⟩
        refine ⟨?_, h1, h2⟩
        intro c hc
        rcases List.mem_cons.mp hc with rfl | hc
        · exact h
        · exact h.trans (h1 c hc)
      · rintro ⟨h, h1, h2⟩
        exact ⟨h b List.mem_cons_self, h1, h2⟩

theorem Map.mem_put {α : Type} (m : Map α) (x : Nat) (v : α) (e : Nat × α) (h : e ∈ Map.put m x v) : e = (x, v) ∨ e ∈ m := by
  induction m with
  | nil => simpa [Map.put] using h
  | cons a r ih =>
    obtain ⟨k, w⟩ := a
    unfold Map.put at h
    split at h
    · simpa using h
    · split at h
      · rcases List.mem_cons.mp h with rfl | h
        · exact .inl rfl
        · exact .inr (List.mem_cons_of_mem _ h)
      · rcases List.mem_cons.mp h with rfl | h
        · exact .inr List.mem_cons_self
        · exact (ih h).imp_right (List.mem_cons_of_mem _)

theorem Map.wf_put {α : Type} (m : Map α) (x : Nat) (v : α) (h : Map.wf m = true) : Map.wf (Map.put m x v) = true := by
  rw [Map.wf_iff] at h ⊢
  induction m with
  | nil => simp [Map.put]
  | cons a r ih =>
    obtain ⟨k, w⟩ := a
    obtain ⟨h1, h2⟩ := List.pairwise_cons.mp h
    unfold Map.put
    split
    · rename_i hx
      refine List.pairwise_cons.mpr ⟨fun c hc => ?_, h⟩
      rcases List.mem_cons.mp hc with rfl | hc
      · exact hx
      · exact Nat.lt_trans hx (h1 c hc)
    · split
      · subst_vars; exact List.pairwise_cons.mpr ⟨h1, h2⟩
      · refine List.pairwise_cons.mpr ⟨fun c hc => ?_, ih h2⟩
        rcases Map.mem_put r x v c hc with rfl | hc
        · show k < x; omega
        · exact h1 c hc

theorem Map.wf_filter {α : Type} (m : Map α) (p : Nat × α → Bool) (h : Map.wf m = true) : Map.wf (m.filter p) = true := by
  rw [Map.wf_iff] at h ⊢; exact h.filter p

theorem Map.wf_del {α : Type} (m : Map α) (x : Nat) (h : Map.wf m = true) : Map.wf (Map.del m x) = true :=
  Map.wf_filter m _ h

end Sys2Proof

namespace Sys2Proof.Machine

/-! ### Byte memories -/

theorem memGet_memPut (d : Byte) (m : List Host.Cell) (a x : Nat) (b : Byte) :
    memGet d (memPut d m a b) x = if x = a then b else memGet d m x := by
  unfold memGet memPut
  split
  · rw [Map.get?_del]; split <;> simp_all
  · rw [Map.get?_put]; split <;> rfl

/-- Every write of a byte keeps the canonical form. -/
theorem memWf_memPut (d : Byte) (m : List Host.Cell) (a : Nat) (b : Byte) (h : memWf d m = true) : memWf d (memPut d m a b) = true := by
  unfold memWf at h ⊢
  rw [Bool.and_eq_true, List.all_eq_true] at h ⊢
  unfold memPut
  split
  · exact ⟨Map.wf_del m a h.1, fun c hc => h.2 c (List.mem_of_mem_filter hc)⟩
  · rename_i hb
    refine ⟨Map.wf_put m a b h.1, fun c hc => ?_⟩
    rcases Map.mem_put m a b c hc with rfl | hc
    · simpa using hb
    · exact h.2 c hc

/-- Every write of bytes keeps the canonical form. -/
theorem memWf_memWrite (d : Byte) (m : List Host.Cell) (a : Nat) (bs : Bytes) (h : memWf d m = true) : memWf d (memWrite d m a bs) = true := by
  induction bs generalizing m a with
  | nil => exact h
  | cons b r ih => exact ih _ _ (memWf_memPut d m a b h)

/-- A byte after a write: the byte written where the write reaches, else the byte before. -/
theorem memGet_memWrite (d : Byte) (m : List Host.Cell) (a x : Nat) (bs : Bytes) :
    memGet d (memWrite d m a bs) x = if a ≤ x ∧ x < a + bs.length then bs.getD (x - a) 0 else memGet d m x := by
  induction bs generalizing m a with
  | nil => rw [memWrite, if_neg (by simp)]
  | cons b r ih =>
    rw [memWrite, ih, memGet_memPut, List.length_cons]
    by_cases h : x = a
    · subst h; rw [if_neg (by omega), if_pos rfl, if_pos (by omega)]; simp
    · rw [if_neg h]
      by_cases h2 : a + 1 ≤ x ∧ x < a + 1 + r.length
      · rw [if_pos h2, if_pos (by omega), show x - a = x - (a + 1) + 1 by omega, List.getD_cons_succ]
      · rw [if_neg h2, if_neg (by omega)]

/-- Reading back what was written. -/
theorem memRead_memWrite (d : Byte) (m : List Host.Cell) (a : Nat) (bs : Bytes) : memRead d (memWrite d m a bs) a bs.length = bs := by
  refine List.ext_getElem (by simp [memRead]) fun i h1 h2 => ?_
  simp only [memRead, List.getElem_map, List.getElem_range, memGet_memWrite]
  rw [if_pos (by omega), Nat.add_sub_cancel_left, List.getD_eq_getElem _ _ h2]

/-- User NVM is in canonical form at reset. -/
theorem memWf_reset : memWf userBlank State.reset.nvm.user = true := by decide

end Sys2Proof.Machine
end

