-- ==== Sys2Proof/Laws/State.lean ====
section
/-!
SUPPORT. One lemma per field of State for each update of it, true by `rfl`, so that no later proof unfolds a record
update; then what a thing that was put or changed reads as.
-/

namespace Sys2Proof.Machine

/-! ### Fields -/

@[simp] theorem modFn_pending (s : State) (fn : Nat) (f : Fn → Fn) : (modFn s fn f).pending = s.pending := rfl
@[simp] theorem modFn_sys (s : State) (fn : Nat) (f : Fn → Fn) : (modFn s fn f).sys = s.sys := rfl
@[simp] theorem modFn_boot (s : State) (fn : Nat) (f : Fn → Fn) : (modFn s fn f).boot = s.boot := rfl
@[simp] theorem modFn_otp (s : State) (fn : Nat) (f : Fn → Fn) : (modFn s fn f).otp = s.otp := rfl
@[simp] theorem modFn_nvm (s : State) (fn : Nat) (f : Fn → Fn) : (modFn s fn f).nvm = s.nvm := rfl
@[simp] theorem modFn_backup (s : State) (fn : Nat) (f : Fn → Fn) : (modFn s fn f).backup = s.backup := rfl
@[simp] theorem modFn_time (s : State) (fn : Nat) (f : Fn → Fn) : (modFn s fn f).time = s.time := rfl
@[simp] theorem modFn_ports (s : State) (fn : Nat) (f : Fn → Fn) : (modFn s fn f).ports = s.ports := rfl
@[simp] theorem modFn_sqs (s : State) (fn : Nat) (f : Fn → Fn) : (modFn s fn f).sqs = s.sqs := rfl
@[simp] theorem modFn_cqs (s : State) (fn : Nat) (f : Fn → Fn) : (modFn s fn f).cqs = s.cqs := rfl
@[simp] theorem modFn_cmds (s : State) (fn : Nat) (f : Fn → Fn) : (modFn s fn f).cmds = s.cmds := rfl
@[simp] theorem modFn_eng (s : State) (fn : Nat) (f : Fn → Fn) : (modFn s fn f).eng = s.eng := rfl
@[simp] theorem modFn_keys (s : State) (fn : Nat) (f : Fn → Fn) : (modFn s fn f).keys = s.keys := rfl
@[simp] theorem modFn_rng (s : State) (fn : Nat) (f : Fn → Fn) : (modFn s fn f).rng = s.rng := rfl
@[simp] theorem modFn_alarm (s : State) (fn : Nat) (f : Fn → Fn) : (modFn s fn f).alarm = s.alarm := rfl
@[simp] theorem modFn_recorder (s : State) (fn : Nat) (f : Fn → Fn) : (modFn s fn f).recorder = s.recorder := rfl
@[simp] theorem modFn_lc (s : State) (fn : Nat) (f : Fn → Fn) : (modFn s fn f).lc = s.lc := rfl
@[simp] theorem modFn_bkeys (s : State) (fn : Nat) (f : Fn → Fn) : (modFn s fn f).bkeys = s.bkeys := rfl
@[simp] theorem modFn_topo (s : State) (fn : Nat) (f : Fn → Fn) : (modFn s fn f).topo = s.topo := rfl
@[simp] theorem modFn_bus (s : State) (fn : Nat) (f : Fn → Fn) : (modFn s fn f).bus = s.bus := rfl
@[simp] theorem modFn_stamp (s : State) (fn : Nat) (f : Fn → Fn) : (modFn s fn f).stamp = s.stamp := rfl
@[simp] theorem modFn_nextId (s : State) (fn : Nat) (f : Fn → Fn) : (modFn s fn f).nextId = s.nextId := rfl
@[simp] theorem modFn_free (s : State) (fn : Nat) (f : Fn → Fn) : (modFn s fn f).free = s.free := rfl

@[simp] theorem modPort_pending (s : State) (p : Nat) (f : Port → Port) : (modPort s p f).pending = s.pending := rfl
@[simp] theorem modPort_sys (s : State) (p : Nat) (f : Port → Port) : (modPort s p f).sys = s.sys := rfl
@[simp] theorem modPort_boot (s : State) (p : Nat) (f : Port → Port) : (modPort s p f).boot = s.boot := rfl
@[simp] theorem modPort_otp (s : State) (p : Nat) (f : Port → Port) : (modPort s p f).otp = s.otp := rfl
@[simp] theorem modPort_nvm (s : State) (p : Nat) (f : Port → Port) : (modPort s p f).nvm = s.nvm := rfl
@[simp] theorem modPort_backup (s : State) (p : Nat) (f : Port → Port) : (modPort s p f).backup = s.backup := rfl
@[simp] theorem modPort_time (s : State) (p : Nat) (f : Port → Port) : (modPort s p f).time = s.time := rfl
@[simp] theorem modPort_fns (s : State) (p : Nat) (f : Port → Port) : (modPort s p f).fns = s.fns := rfl
@[simp] theorem modPort_sqs (s : State) (p : Nat) (f : Port → Port) : (modPort s p f).sqs = s.sqs := rfl
@[simp] theorem modPort_cqs (s : State) (p : Nat) (f : Port → Port) : (modPort s p f).cqs = s.cqs := rfl
@[simp] theorem modPort_cmds (s : State) (p : Nat) (f : Port → Port) : (modPort s p f).cmds = s.cmds := rfl
@[simp] theorem modPort_eng (s : State) (p : Nat) (f : Port → Port) : (modPort s p f).eng = s.eng := rfl
@[simp] theorem modPort_keys (s : State) (p : Nat) (f : Port → Port) : (modPort s p f).keys = s.keys := rfl
@[simp] theorem modPort_rng (s : State) (p : Nat) (f : Port → Port) : (modPort s p f).rng = s.rng := rfl
@[simp] theorem modPort_alarm (s : State) (p : Nat) (f : Port → Port) : (modPort s p f).alarm = s.alarm := rfl
@[simp] theorem modPort_recorder (s : State) (p : Nat) (f : Port → Port) : (modPort s p f).recorder = s.recorder := rfl
@[simp] theorem modPort_lc (s : State) (p : Nat) (f : Port → Port) : (modPort s p f).lc = s.lc := rfl
@[simp] theorem modPort_bkeys (s : State) (p : Nat) (f : Port → Port) : (modPort s p f).bkeys = s.bkeys := rfl
@[simp] theorem modPort_topo (s : State) (p : Nat) (f : Port → Port) : (modPort s p f).topo = s.topo := rfl
@[simp] theorem modPort_bus (s : State) (p : Nat) (f : Port → Port) : (modPort s p f).bus = s.bus := rfl
@[simp] theorem modPort_stamp (s : State) (p : Nat) (f : Port → Port) : (modPort s p f).stamp = s.stamp := rfl
@[simp] theorem modPort_nextId (s : State) (p : Nat) (f : Port → Port) : (modPort s p f).nextId = s.nextId := rfl
@[simp] theorem modPort_free (s : State) (p : Nat) (f : Port → Port) : (modPort s p f).free = s.free := rfl

@[simp] theorem putSq_pending (s : State) (fn q : Nat) (x : Sq) : (putSq s fn q x).pending = s.pending := rfl
@[simp] theorem putSq_sys (s : State) (fn q : Nat) (x : Sq) : (putSq s fn q x).sys = s.sys := rfl
@[simp] theorem putSq_boot (s : State) (fn q : Nat) (x : Sq) : (putSq s fn q x).boot = s.boot := rfl
@[simp] theorem putSq_otp (s : State) (fn q : Nat) (x : Sq) : (putSq s fn q x).otp = s.otp := rfl
@[simp] theorem putSq_nvm (s : State) (fn q : Nat) (x : Sq) : (putSq s fn q x).nvm = s.nvm := rfl
@[simp] theorem putSq_backup (s : State) (fn q : Nat) (x : Sq) : (putSq s fn q x).backup = s.backup := rfl
@[simp] theorem putSq_time (s : State) (fn q : Nat) (x : Sq) : (putSq s fn q x).time = s.time := rfl
@[simp] theorem putSq_fns (s : State) (fn q : Nat) (x : Sq) : (putSq s fn q x).fns = s.fns := rfl
@[simp] theorem putSq_ports (s : State) (fn q : Nat) (x : Sq) : (putSq s fn q x).ports = s.ports := rfl
@[simp] theorem putSq_cqs (s : State) (fn q : Nat) (x : Sq) : (putSq s fn q x).cqs = s.cqs := rfl
@[simp] theorem putSq_cmds (s : State) (fn q : Nat) (x : Sq) : (putSq s fn q x).cmds = s.cmds := rfl
@[simp] theorem putSq_eng (s : State) (fn q : Nat) (x : Sq) : (putSq s fn q x).eng = s.eng := rfl
@[simp] theorem putSq_keys (s : State) (fn q : Nat) (x : Sq) : (putSq s fn q x).keys = s.keys := rfl
@[simp] theorem putSq_rng (s : State) (fn q : Nat) (x : Sq) : (putSq s fn q x).rng = s.rng := rfl
@[simp] theorem putSq_alarm (s : State) (fn q : Nat) (x : Sq) : (putSq s fn q x).alarm = s.alarm := rfl
@[simp] theorem putSq_recorder (s : State) (fn q : Nat) (x : Sq) : (putSq s fn q x).recorder = s.recorder := rfl
@[simp] theorem putSq_lc (s : State) (fn q : Nat) (x : Sq) : (putSq s fn q x).lc = s.lc := rfl
@[simp] theorem putSq_bkeys (s : State) (fn q : Nat) (x : Sq) : (putSq s fn q x).bkeys = s.bkeys := rfl
@[simp] theorem putSq_topo (s : State) (fn q : Nat) (x : Sq) : (putSq s fn q x).topo = s.topo := rfl
@[simp] theorem putSq_bus (s : State) (fn q : Nat) (x : Sq) : (putSq s fn q x).bus = s.bus := rfl
@[simp] theorem putSq_stamp (s : State) (fn q : Nat) (x : Sq) : (putSq s fn q x).stamp = s.stamp := rfl
@[simp] theorem putSq_nextId (s : State) (fn q : Nat) (x : Sq) : (putSq s fn q x).nextId = s.nextId := rfl
@[simp] theorem putSq_free (s : State) (fn q : Nat) (x : Sq) : (putSq s fn q x).free = s.free := rfl

@[simp] theorem putCq_pending (s : State) (fn q : Nat) (x : Cq) : (putCq s fn q x).pending = s.pending := rfl
@[simp] theorem putCq_sys (s : State) (fn q : Nat) (x : Cq) : (putCq s fn q x).sys = s.sys := rfl
@[simp] theorem putCq_boot (s : State) (fn q : Nat) (x : Cq) : (putCq s fn q x).boot = s.boot := rfl
@[simp] theorem putCq_otp (s : State) (fn q : Nat) (x : Cq) : (putCq s fn q x).otp = s.otp := rfl
@[simp] theorem putCq_nvm (s : State) (fn q : Nat) (x : Cq) : (putCq s fn q x).nvm = s.nvm := rfl
@[simp] theorem putCq_backup (s : State) (fn q : Nat) (x : Cq) : (putCq s fn q x).backup = s.backup := rfl
@[simp] theorem putCq_time (s : State) (fn q : Nat) (x : Cq) : (putCq s fn q x).time = s.time := rfl
@[simp] theorem putCq_fns (s : State) (fn q : Nat) (x : Cq) : (putCq s fn q x).fns = s.fns := rfl
@[simp] theorem putCq_ports (s : State) (fn q : Nat) (x : Cq) : (putCq s fn q x).ports = s.ports := rfl
@[simp] theorem putCq_sqs (s : State) (fn q : Nat) (x : Cq) : (putCq s fn q x).sqs = s.sqs := rfl
@[simp] theorem putCq_cmds (s : State) (fn q : Nat) (x : Cq) : (putCq s fn q x).cmds = s.cmds := rfl
@[simp] theorem putCq_eng (s : State) (fn q : Nat) (x : Cq) : (putCq s fn q x).eng = s.eng := rfl
@[simp] theorem putCq_keys (s : State) (fn q : Nat) (x : Cq) : (putCq s fn q x).keys = s.keys := rfl
@[simp] theorem putCq_rng (s : State) (fn q : Nat) (x : Cq) : (putCq s fn q x).rng = s.rng := rfl
@[simp] theorem putCq_alarm (s : State) (fn q : Nat) (x : Cq) : (putCq s fn q x).alarm = s.alarm := rfl
@[simp] theorem putCq_recorder (s : State) (fn q : Nat) (x : Cq) : (putCq s fn q x).recorder = s.recorder := rfl
@[simp] theorem putCq_lc (s : State) (fn q : Nat) (x : Cq) : (putCq s fn q x).lc = s.lc := rfl
@[simp] theorem putCq_bkeys (s : State) (fn q : Nat) (x : Cq) : (putCq s fn q x).bkeys = s.bkeys := rfl
@[simp] theorem putCq_topo (s : State) (fn q : Nat) (x : Cq) : (putCq s fn q x).topo = s.topo := rfl
@[simp] theorem putCq_bus (s : State) (fn q : Nat) (x : Cq) : (putCq s fn q x).bus = s.bus := rfl
@[simp] theorem putCq_stamp (s : State) (fn q : Nat) (x : Cq) : (putCq s fn q x).stamp = s.stamp := rfl
@[simp] theorem putCq_nextId (s : State) (fn q : Nat) (x : Cq) : (putCq s fn q x).nextId = s.nextId := rfl
@[simp] theorem putCq_free (s : State) (fn q : Nat) (x : Cq) : (putCq s fn q x).free = s.free := rfl

@[simp] theorem modCmd_pending (s : State) (cid : Nat) (f : Cmd → Cmd) : (modCmd s cid f).pending = s.pending := rfl
@[simp] theorem modCmd_sys (s : State) (cid : Nat) (f : Cmd → Cmd) : (modCmd s cid f).sys = s.sys := rfl
@[simp] theorem modCmd_boot (s : State) (cid : Nat) (f : Cmd → Cmd) : (modCmd s cid f).boot = s.boot := rfl
@[simp] theorem modCmd_otp (s : State) (cid : Nat) (f : Cmd → Cmd) : (modCmd s cid f).otp = s.otp := rfl
@[simp] theorem modCmd_nvm (s : State) (cid : Nat) (f : Cmd → Cmd) : (modCmd s cid f).nvm = s.nvm := rfl
@[simp] theorem modCmd_backup (s : State) (cid : Nat) (f : Cmd → Cmd) : (modCmd s cid f).backup = s.backup := rfl
@[simp] theorem modCmd_time (s : State) (cid : Nat) (f : Cmd → Cmd) : (modCmd s cid f).time = s.time := rfl
@[simp] theorem modCmd_fns (s : State) (cid : Nat) (f : Cmd → Cmd) : (modCmd s cid f).fns = s.fns := rfl
@[simp] theorem modCmd_ports (s : State) (cid : Nat) (f : Cmd → Cmd) : (modCmd s cid f).ports = s.ports := rfl
@[simp] theorem modCmd_sqs (s : State) (cid : Nat) (f : Cmd → Cmd) : (modCmd s cid f).sqs = s.sqs := rfl
@[simp] theorem modCmd_cqs (s : State) (cid : Nat) (f : Cmd → Cmd) : (modCmd s cid f).cqs = s.cqs := rfl
@[simp] theorem modCmd_eng (s : State) (cid : Nat) (f : Cmd → Cmd) : (modCmd s cid f).eng = s.eng := rfl
@[simp] theorem modCmd_keys (s : State) (cid : Nat) (f : Cmd → Cmd) : (modCmd s cid f).keys = s.keys := rfl
@[simp] theorem modCmd_rng (s : State) (cid : Nat) (f : Cmd → Cmd) : (modCmd s cid f).rng = s.rng := rfl
@[simp] theorem modCmd_alarm (s : State) (cid : Nat) (f : Cmd → Cmd) : (modCmd s cid f).alarm = s.alarm := rfl
@[simp] theorem modCmd_recorder (s : State) (cid : Nat) (f : Cmd → Cmd) : (modCmd s cid f).recorder = s.recorder := rfl
@[simp] theorem modCmd_lc (s : State) (cid : Nat) (f : Cmd → Cmd) : (modCmd s cid f).lc = s.lc := rfl
@[simp] theorem modCmd_bkeys (s : State) (cid : Nat) (f : Cmd → Cmd) : (modCmd s cid f).bkeys = s.bkeys := rfl
@[simp] theorem modCmd_topo (s : State) (cid : Nat) (f : Cmd → Cmd) : (modCmd s cid f).topo = s.topo := rfl
@[simp] theorem modCmd_bus (s : State) (cid : Nat) (f : Cmd → Cmd) : (modCmd s cid f).bus = s.bus := rfl
@[simp] theorem modCmd_stamp (s : State) (cid : Nat) (f : Cmd → Cmd) : (modCmd s cid f).stamp = s.stamp := rfl
@[simp] theorem modCmd_nextId (s : State) (cid : Nat) (f : Cmd → Cmd) : (modCmd s cid f).nextId = s.nextId := rfl
@[simp] theorem modCmd_free (s : State) (cid : Nat) (f : Cmd → Cmd) : (modCmd s cid f).free = s.free := rfl

@[simp] theorem dropCmd_pending (s : State) (cid : Nat) : (dropCmd s cid).pending = s.pending := rfl
@[simp] theorem dropCmd_sys (s : State) (cid : Nat) : (dropCmd s cid).sys = s.sys := rfl
@[simp] theorem dropCmd_boot (s : State) (cid : Nat) : (dropCmd s cid).boot = s.boot := rfl
@[simp] theorem dropCmd_otp (s : State) (cid : Nat) : (dropCmd s cid).otp = s.otp := rfl
@[simp] theorem dropCmd_nvm (s : State) (cid : Nat) : (dropCmd s cid).nvm = s.nvm := rfl
@[simp] theorem dropCmd_backup (s : State) (cid : Nat) : (dropCmd s cid).backup = s.backup := rfl
@[simp] theorem dropCmd_time (s : State) (cid : Nat) : (dropCmd s cid).time = s.time := rfl
@[simp] theorem dropCmd_fns (s : State) (cid : Nat) : (dropCmd s cid).fns = s.fns := rfl
@[simp] theorem dropCmd_ports (s : State) (cid : Nat) : (dropCmd s cid).ports = s.ports := rfl
@[simp] theorem dropCmd_sqs (s : State) (cid : Nat) : (dropCmd s cid).sqs = s.sqs := rfl
@[simp] theorem dropCmd_cqs (s : State) (cid : Nat) : (dropCmd s cid).cqs = s.cqs := rfl
@[simp] theorem dropCmd_eng (s : State) (cid : Nat) : (dropCmd s cid).eng = s.eng := rfl
@[simp] theorem dropCmd_keys (s : State) (cid : Nat) : (dropCmd s cid).keys = s.keys := rfl
@[simp] theorem dropCmd_rng (s : State) (cid : Nat) : (dropCmd s cid).rng = s.rng := rfl
@[simp] theorem dropCmd_alarm (s : State) (cid : Nat) : (dropCmd s cid).alarm = s.alarm := rfl
@[simp] theorem dropCmd_recorder (s : State) (cid : Nat) : (dropCmd s cid).recorder = s.recorder := rfl
@[simp] theorem dropCmd_lc (s : State) (cid : Nat) : (dropCmd s cid).lc = s.lc := rfl
@[simp] theorem dropCmd_bkeys (s : State) (cid : Nat) : (dropCmd s cid).bkeys = s.bkeys := rfl
@[simp] theorem dropCmd_topo (s : State) (cid : Nat) : (dropCmd s cid).topo = s.topo := rfl
@[simp] theorem dropCmd_bus (s : State) (cid : Nat) : (dropCmd s cid).bus = s.bus := rfl
@[simp] theorem dropCmd_stamp (s : State) (cid : Nat) : (dropCmd s cid).stamp = s.stamp := rfl
@[simp] theorem dropCmd_nextId (s : State) (cid : Nat) : (dropCmd s cid).nextId = s.nextId := rfl
@[simp] theorem dropCmd_free (s : State) (cid : Nat) : (dropCmd s cid).free = s.free := rfl

@[simp] theorem emit_pending (s : State) (b : Bus) : (emit s b).pending = s.pending := rfl
@[simp] theorem emit_sys (s : State) (b : Bus) : (emit s b).sys = s.sys := rfl
@[simp] theorem emit_boot (s : State) (b : Bus) : (emit s b).boot = s.boot := rfl
@[simp] theorem emit_otp (s : State) (b : Bus) : (emit s b).otp = s.otp := rfl
@[simp] theorem emit_nvm (s : State) (b : Bus) : (emit s b).nvm = s.nvm := rfl
@[simp] theorem emit_backup (s : State) (b : Bus) : (emit s b).backup = s.backup := rfl
@[simp] theorem emit_time (s : State) (b : Bus) : (emit s b).time = s.time := rfl
@[simp] theorem emit_fns (s : State) (b : Bus) : (emit s b).fns = s.fns := rfl
@[simp] theorem emit_ports (s : State) (b : Bus) : (emit s b).ports = s.ports := rfl
@[simp] theorem emit_sqs (s : State) (b : Bus) : (emit s b).sqs = s.sqs := rfl
@[simp] theorem emit_cqs (s : State) (b : Bus) : (emit s b).cqs = s.cqs := rfl
@[simp] theorem emit_cmds (s : State) (b : Bus) : (emit s b).cmds = s.cmds := rfl
@[simp] theorem emit_eng (s : State) (b : Bus) : (emit s b).eng = s.eng := rfl
@[simp] theorem emit_keys (s : State) (b : Bus) : (emit s b).keys = s.keys := rfl
@[simp] theorem emit_rng (s : State) (b : Bus) : (emit s b).rng = s.rng := rfl
@[simp] theorem emit_alarm (s : State) (b : Bus) : (emit s b).alarm = s.alarm := rfl
@[simp] theorem emit_recorder (s : State) (b : Bus) : (emit s b).recorder = s.recorder := rfl
@[simp] theorem emit_lc (s : State) (b : Bus) : (emit s b).lc = s.lc := rfl
@[simp] theorem emit_bkeys (s : State) (b : Bus) : (emit s b).bkeys = s.bkeys := rfl
@[simp] theorem emit_topo (s : State) (b : Bus) : (emit s b).topo = s.topo := rfl
@[simp] theorem emit_stamp (s : State) (b : Bus) : (emit s b).stamp = s.stamp := rfl
@[simp] theorem emit_nextId (s : State) (b : Bus) : (emit s b).nextId = s.nextId := rfl
@[simp] theorem emit_free (s : State) (b : Bus) : (emit s b).free = s.free := rfl

@[simp] theorem modLink_pending (s : State) (k : Nat) (f : Link → Link) : (modLink s k f).pending = s.pending := rfl
@[simp] theorem modLink_sys (s : State) (k : Nat) (f : Link → Link) : (modLink s k f).sys = s.sys := rfl
@[simp] theorem modLink_boot (s : State) (k : Nat) (f : Link → Link) : (modLink s k f).boot = s.boot := rfl
@[simp] theorem modLink_otp (s : State) (k : Nat) (f : Link → Link) : (modLink s k f).otp = s.otp := rfl
@[simp] theorem modLink_nvm (s : State) (k : Nat) (f : Link → Link) : (modLink s k f).nvm = s.nvm := rfl
@[simp] theorem modLink_backup (s : State) (k : Nat) (f : Link → Link) : (modLink s k f).backup = s.backup := rfl
@[simp] theorem modLink_time (s : State) (k : Nat) (f : Link → Link) : (modLink s k f).time = s.time := rfl
@[simp] theorem modLink_fns (s : State) (k : Nat) (f : Link → Link) : (modLink s k f).fns = s.fns := rfl
@[simp] theorem modLink_ports (s : State) (k : Nat) (f : Link → Link) : (modLink s k f).ports = s.ports := rfl
@[simp] theorem modLink_sqs (s : State) (k : Nat) (f : Link → Link) : (modLink s k f).sqs = s.sqs := rfl
@[simp] theorem modLink_cqs (s : State) (k : Nat) (f : Link → Link) : (modLink s k f).cqs = s.cqs := rfl
@[simp] theorem modLink_cmds (s : State) (k : Nat) (f : Link → Link) : (modLink s k f).cmds = s.cmds := rfl
@[simp] theorem modLink_eng (s : State) (k : Nat) (f : Link → Link) : (modLink s k f).eng = s.eng := rfl
@[simp] theorem modLink_keys (s : State) (k : Nat) (f : Link → Link) : (modLink s k f).keys = s.keys := rfl
@[simp] theorem modLink_rng (s : State) (k : Nat) (f : Link → Link) : (modLink s k f).rng = s.rng := rfl
@[simp] theorem modLink_alarm (s : State) (k : Nat) (f : Link → Link) : (modLink s k f).alarm = s.alarm := rfl
@[simp] theorem modLink_recorder (s : State) (k : Nat) (f : Link → Link) : (modLink s k f).recorder = s.recorder := rfl
@[simp] theorem modLink_lc (s : State) (k : Nat) (f : Link → Link) : (modLink s k f).lc = s.lc := rfl
@[simp] theorem modLink_bkeys (s : State) (k : Nat) (f : Link → Link) : (modLink s k f).bkeys = s.bkeys := rfl
@[simp] theorem modLink_bus (s : State) (k : Nat) (f : Link → Link) : (modLink s k f).bus = s.bus := rfl
@[simp] theorem modLink_stamp (s : State) (k : Nat) (f : Link → Link) : (modLink s k f).stamp = s.stamp := rfl
@[simp] theorem modLink_nextId (s : State) (k : Nat) (f : Link → Link) : (modLink s k f).nextId = s.nextId := rfl
@[simp] theorem modLink_free (s : State) (k : Nat) (f : Link → Link) : (modLink s k f).free = s.free := rfl

@[simp] theorem modKey_pending (s : State) (g : Nat) (f : Key → Key) : (modKey s g f).pending = s.pending := rfl
@[simp] theorem modKey_sys (s : State) (g : Nat) (f : Key → Key) : (modKey s g f).sys = s.sys := rfl
@[simp] theorem modKey_boot (s : State) (g : Nat) (f : Key → Key) : (modKey s g f).boot = s.boot := rfl
@[simp] theorem modKey_otp (s : State) (g : Nat) (f : Key → Key) : (modKey s g f).otp = s.otp := rfl
@[simp] theorem modKey_nvm (s : State) (g : Nat) (f : Key → Key) : (modKey s g f).nvm = s.nvm := rfl
@[simp] theorem modKey_backup (s : State) (g : Nat) (f : Key → Key) : (modKey s g f).backup = s.backup := rfl
@[simp] theorem modKey_time (s : State) (g : Nat) (f : Key → Key) : (modKey s g f).time = s.time := rfl
@[simp] theorem modKey_fns (s : State) (g : Nat) (f : Key → Key) : (modKey s g f).fns = s.fns := rfl
@[simp] theorem modKey_ports (s : State) (g : Nat) (f : Key → Key) : (modKey s g f).ports = s.ports := rfl
@[simp] theorem modKey_sqs (s : State) (g : Nat) (f : Key → Key) : (modKey s g f).sqs = s.sqs := rfl
@[simp] theorem modKey_cqs (s : State) (g : Nat) (f : Key → Key) : (modKey s g f).cqs = s.cqs := rfl
@[simp] theorem modKey_cmds (s : State) (g : Nat) (f : Key → Key) : (modKey s g f).cmds = s.cmds := rfl
@[simp] theorem modKey_eng (s : State) (g : Nat) (f : Key → Key) : (modKey s g f).eng = s.eng := rfl
@[simp] theorem modKey_rng (s : State) (g : Nat) (f : Key → Key) : (modKey s g f).rng = s.rng := rfl
@[simp] theorem modKey_alarm (s : State) (g : Nat) (f : Key → Key) : (modKey s g f).alarm = s.alarm := rfl
@[simp] theorem modKey_recorder (s : State) (g : Nat) (f : Key → Key) : (modKey s g f).recorder = s.recorder := rfl
@[simp] theorem modKey_lc (s : State) (g : Nat) (f : Key → Key) : (modKey s g f).lc = s.lc := rfl
@[simp] theorem modKey_bkeys (s : State) (g : Nat) (f : Key → Key) : (modKey s g f).bkeys = s.bkeys := rfl
@[simp] theorem modKey_topo (s : State) (g : Nat) (f : Key → Key) : (modKey s g f).topo = s.topo := rfl
@[simp] theorem modKey_bus (s : State) (g : Nat) (f : Key → Key) : (modKey s g f).bus = s.bus := rfl
@[simp] theorem modKey_stamp (s : State) (g : Nat) (f : Key → Key) : (modKey s g f).stamp = s.stamp := rfl
@[simp] theorem modKey_nextId (s : State) (g : Nat) (f : Key → Key) : (modKey s g f).nextId = s.nextId := rfl
@[simp] theorem modKey_free (s : State) (g : Nat) (f : Key → Key) : (modKey s g f).free = s.free := rfl

@[simp] theorem modBerth_pending (s : State) (i : Nat) (f : Berth → Berth) : (modBerth s i f).pending = s.pending := rfl
@[simp] theorem modBerth_sys (s : State) (i : Nat) (f : Berth → Berth) : (modBerth s i f).sys = s.sys := rfl
@[simp] theorem modBerth_boot (s : State) (i : Nat) (f : Berth → Berth) : (modBerth s i f).boot = s.boot := rfl
@[simp] theorem modBerth_otp (s : State) (i : Nat) (f : Berth → Berth) : (modBerth s i f).otp = s.otp := rfl
@[simp] theorem modBerth_nvm (s : State) (i : Nat) (f : Berth → Berth) : (modBerth s i f).nvm = s.nvm := rfl
@[simp] theorem modBerth_backup (s : State) (i : Nat) (f : Berth → Berth) : (modBerth s i f).backup = s.backup := rfl
@[simp] theorem modBerth_time (s : State) (i : Nat) (f : Berth → Berth) : (modBerth s i f).time = s.time := rfl
@[simp] theorem modBerth_fns (s : State) (i : Nat) (f : Berth → Berth) : (modBerth s i f).fns = s.fns := rfl
@[simp] theorem modBerth_ports (s : State) (i : Nat) (f : Berth → Berth) : (modBerth s i f).ports = s.ports := rfl
@[simp] theorem modBerth_sqs (s : State) (i : Nat) (f : Berth → Berth) : (modBerth s i f).sqs = s.sqs := rfl
@[simp] theorem modBerth_cqs (s : State) (i : Nat) (f : Berth → Berth) : (modBerth s i f).cqs = s.cqs := rfl
@[simp] theorem modBerth_cmds (s : State) (i : Nat) (f : Berth → Berth) : (modBerth s i f).cmds = s.cmds := rfl
@[simp] theorem modBerth_eng (s : State) (i : Nat) (f : Berth → Berth) : (modBerth s i f).eng = s.eng := rfl
@[simp] theorem modBerth_rng (s : State) (i : Nat) (f : Berth → Berth) : (modBerth s i f).rng = s.rng := rfl
@[simp] theorem modBerth_alarm (s : State) (i : Nat) (f : Berth → Berth) : (modBerth s i f).alarm = s.alarm := rfl
@[simp] theorem modBerth_recorder (s : State) (i : Nat) (f : Berth → Berth) : (modBerth s i f).recorder = s.recorder := rfl
@[simp] theorem modBerth_lc (s : State) (i : Nat) (f : Berth → Berth) : (modBerth s i f).lc = s.lc := rfl
@[simp] theorem modBerth_bkeys (s : State) (i : Nat) (f : Berth → Berth) : (modBerth s i f).bkeys = s.bkeys := rfl
@[simp] theorem modBerth_topo (s : State) (i : Nat) (f : Berth → Berth) : (modBerth s i f).topo = s.topo := rfl
@[simp] theorem modBerth_bus (s : State) (i : Nat) (f : Berth → Berth) : (modBerth s i f).bus = s.bus := rfl
@[simp] theorem modBerth_stamp (s : State) (i : Nat) (f : Berth → Berth) : (modBerth s i f).stamp = s.stamp := rfl
@[simp] theorem modBerth_nextId (s : State) (i : Nat) (f : Berth → Berth) : (modBerth s i f).nextId = s.nextId := rfl
@[simp] theorem modBerth_free (s : State) (i : Nat) (f : Berth → Berth) : (modBerth s i f).free = s.free := rfl

@[simp] theorem releaseLves_pending (s : State) (cid : Nat) : (releaseLves s cid).pending = s.pending := rfl
@[simp] theorem releaseLves_sys (s : State) (cid : Nat) : (releaseLves s cid).sys = s.sys := rfl
@[simp] theorem releaseLves_boot (s : State) (cid : Nat) : (releaseLves s cid).boot = s.boot := rfl
@[simp] theorem releaseLves_otp (s : State) (cid : Nat) : (releaseLves s cid).otp = s.otp := rfl
@[simp] theorem releaseLves_nvm (s : State) (cid : Nat) : (releaseLves s cid).nvm = s.nvm := rfl
@[simp] theorem releaseLves_backup (s : State) (cid : Nat) : (releaseLves s cid).backup = s.backup := rfl
@[simp] theorem releaseLves_time (s : State) (cid : Nat) : (releaseLves s cid).time = s.time := rfl
@[simp] theorem releaseLves_fns (s : State) (cid : Nat) : (releaseLves s cid).fns = s.fns := rfl
@[simp] theorem releaseLves_ports (s : State) (cid : Nat) : (releaseLves s cid).ports = s.ports := rfl
@[simp] theorem releaseLves_sqs (s : State) (cid : Nat) : (releaseLves s cid).sqs = s.sqs := rfl
@[simp] theorem releaseLves_cqs (s : State) (cid : Nat) : (releaseLves s cid).cqs = s.cqs := rfl
@[simp] theorem releaseLves_cmds (s : State) (cid : Nat) : (releaseLves s cid).cmds = s.cmds := rfl
@[simp] theorem releaseLves_keys (s : State) (cid : Nat) : (releaseLves s cid).keys = s.keys := rfl
@[simp] theorem releaseLves_rng (s : State) (cid : Nat) : (releaseLves s cid).rng = s.rng := rfl
@[simp] theorem releaseLves_alarm (s : State) (cid : Nat) : (releaseLves s cid).alarm = s.alarm := rfl
@[simp] theorem releaseLves_recorder (s : State) (cid : Nat) : (releaseLves s cid).recorder = s.recorder := rfl
@[simp] theorem releaseLves_lc (s : State) (cid : Nat) : (releaseLves s cid).lc = s.lc := rfl
@[simp] theorem releaseLves_bkeys (s : State) (cid : Nat) : (releaseLves s cid).bkeys = s.bkeys := rfl
@[simp] theorem releaseLves_topo (s : State) (cid : Nat) : (releaseLves s cid).topo = s.topo := rfl
@[simp] theorem releaseLves_bus (s : State) (cid : Nat) : (releaseLves s cid).bus = s.bus := rfl
@[simp] theorem releaseLves_stamp (s : State) (cid : Nat) : (releaseLves s cid).stamp = s.stamp := rfl
@[simp] theorem releaseLves_nextId (s : State) (cid : Nat) : (releaseLves s cid).nextId = s.nextId := rfl
@[simp] theorem releaseLves_free (s : State) (cid : Nat) : (releaseLves s cid).free = s.free := rfl

@[simp] theorem unpin_pending (s : State) (cid : Nat) : (unpin s cid).pending = s.pending := rfl
@[simp] theorem unpin_sys (s : State) (cid : Nat) : (unpin s cid).sys = s.sys := rfl
@[simp] theorem unpin_boot (s : State) (cid : Nat) : (unpin s cid).boot = s.boot := rfl
@[simp] theorem unpin_otp (s : State) (cid : Nat) : (unpin s cid).otp = s.otp := rfl
@[simp] theorem unpin_nvm (s : State) (cid : Nat) : (unpin s cid).nvm = s.nvm := rfl
@[simp] theorem unpin_backup (s : State) (cid : Nat) : (unpin s cid).backup = s.backup := rfl
@[simp] theorem unpin_time (s : State) (cid : Nat) : (unpin s cid).time = s.time := rfl
@[simp] theorem unpin_fns (s : State) (cid : Nat) : (unpin s cid).fns = s.fns := rfl
@[simp] theorem unpin_ports (s : State) (cid : Nat) : (unpin s cid).ports = s.ports := rfl
@[simp] theorem unpin_sqs (s : State) (cid : Nat) : (unpin s cid).sqs = s.sqs := rfl
@[simp] theorem unpin_cqs (s : State) (cid : Nat) : (unpin s cid).cqs = s.cqs := rfl
@[simp] theorem unpin_cmds (s : State) (cid : Nat) : (unpin s cid).cmds = s.cmds := rfl
@[simp] theorem unpin_keys (s : State) (cid : Nat) : (unpin s cid).keys = s.keys := rfl
@[simp] theorem unpin_rng (s : State) (cid : Nat) : (unpin s cid).rng = s.rng := rfl
@[simp] theorem unpin_alarm (s : State) (cid : Nat) : (unpin s cid).alarm = s.alarm := rfl
@[simp] theorem unpin_recorder (s : State) (cid : Nat) : (unpin s cid).recorder = s.recorder := rfl
@[simp] theorem unpin_lc (s : State) (cid : Nat) : (unpin s cid).lc = s.lc := rfl
@[simp] theorem unpin_bkeys (s : State) (cid : Nat) : (unpin s cid).bkeys = s.bkeys := rfl
@[simp] theorem unpin_topo (s : State) (cid : Nat) : (unpin s cid).topo = s.topo := rfl
@[simp] theorem unpin_bus (s : State) (cid : Nat) : (unpin s cid).bus = s.bus := rfl
@[simp] theorem unpin_stamp (s : State) (cid : Nat) : (unpin s cid).stamp = s.stamp := rfl
@[simp] theorem unpin_nextId (s : State) (cid : Nat) : (unpin s cid).nextId = s.nextId := rfl
@[simp] theorem unpin_free (s : State) (cid : Nat) : (unpin s cid).free = s.free := rfl

@[simp] theorem addChange_pending (s : State) (k i : Nat) : (addChange s k i).pending = s.pending := rfl
@[simp] theorem addChange_sys (s : State) (k i : Nat) : (addChange s k i).sys = s.sys := rfl
@[simp] theorem addChange_boot (s : State) (k i : Nat) : (addChange s k i).boot = s.boot := rfl
@[simp] theorem addChange_otp (s : State) (k i : Nat) : (addChange s k i).otp = s.otp := rfl
@[simp] theorem addChange_nvm (s : State) (k i : Nat) : (addChange s k i).nvm = s.nvm := rfl
@[simp] theorem addChange_backup (s : State) (k i : Nat) : (addChange s k i).backup = s.backup := rfl
@[simp] theorem addChange_time (s : State) (k i : Nat) : (addChange s k i).time = s.time := rfl
@[simp] theorem addChange_fns (s : State) (k i : Nat) : (addChange s k i).fns = s.fns := rfl
@[simp] theorem addChange_ports (s : State) (k i : Nat) : (addChange s k i).ports = s.ports := rfl
@[simp] theorem addChange_sqs (s : State) (k i : Nat) : (addChange s k i).sqs = s.sqs := rfl
@[simp] theorem addChange_cqs (s : State) (k i : Nat) : (addChange s k i).cqs = s.cqs := rfl
@[simp] theorem addChange_cmds (s : State) (k i : Nat) : (addChange s k i).cmds = s.cmds := rfl
@[simp] theorem addChange_keys (s : State) (k i : Nat) : (addChange s k i).keys = s.keys := rfl
@[simp] theorem addChange_rng (s : State) (k i : Nat) : (addChange s k i).rng = s.rng := rfl
@[simp] theorem addChange_alarm (s : State) (k i : Nat) : (addChange s k i).alarm = s.alarm := rfl
@[simp] theorem addChange_recorder (s : State) (k i : Nat) : (addChange s k i).recorder = s.recorder := rfl
@[simp] theorem addChange_lc (s : State) (k i : Nat) : (addChange s k i).lc = s.lc := rfl
@[simp] theorem addChange_bkeys (s : State) (k i : Nat) : (addChange s k i).bkeys = s.bkeys := rfl
@[simp] theorem addChange_topo (s : State) (k i : Nat) : (addChange s k i).topo = s.topo := rfl
@[simp] theorem addChange_bus (s : State) (k i : Nat) : (addChange s k i).bus = s.bus := rfl
@[simp] theorem addChange_stamp (s : State) (k i : Nat) : (addChange s k i).stamp = s.stamp := rfl
@[simp] theorem addChange_nextId (s : State) (k i : Nat) : (addChange s k i).nextId = s.nextId := rfl
@[simp] theorem addChange_free (s : State) (k i : Nat) : (addChange s k i).free = s.free := rfl

@[simp] theorem dropChange_pending (s : State) (k i : Nat) : (dropChange s k i).pending = s.pending := rfl
@[simp] theorem dropChange_sys (s : State) (k i : Nat) : (dropChange s k i).sys = s.sys := rfl
@[simp] theorem dropChange_boot (s : State) (k i : Nat) : (dropChange s k i).boot = s.boot := rfl
@[simp] theorem dropChange_otp (s : State) (k i : Nat) : (dropChange s k i).otp = s.otp := rfl
@[simp] theorem dropChange_nvm (s : State) (k i : Nat) : (dropChange s k i).nvm = s.nvm := rfl
@[simp] theorem dropChange_backup (s : State) (k i : Nat) : (dropChange s k i).backup = s.backup := rfl
@[simp] theorem dropChange_time (s : State) (k i : Nat) : (dropChange s k i).time = s.time := rfl
@[simp] theorem dropChange_fns (s : State) (k i : Nat) : (dropChange s k i).fns = s.fns := rfl
@[simp] theorem dropChange_ports (s : State) (k i : Nat) : (dropChange s k i).ports = s.ports := rfl
@[simp] theorem dropChange_sqs (s : State) (k i : Nat) : (dropChange s k i).sqs = s.sqs := rfl
@[simp] theorem dropChange_cqs (s : State) (k i : Nat) : (dropChange s k i).cqs = s.cqs := rfl
@[simp] theorem dropChange_cmds (s : State) (k i : Nat) : (dropChange s k i).cmds = s.cmds := rfl
@[simp] theorem dropChange_keys (s : State) (k i : Nat) : (dropChange s k i).keys = s.keys := rfl
@[simp] theorem dropChange_rng (s : State) (k i : Nat) : (dropChange s k i).rng = s.rng := rfl
@[simp] theorem dropChange_alarm (s : State) (k i : Nat) : (dropChange s k i).alarm = s.alarm := rfl
@[simp] theorem dropChange_recorder (s : State) (k i : Nat) : (dropChange s k i).recorder = s.recorder := rfl
@[simp] theorem dropChange_lc (s : State) (k i : Nat) : (dropChange s k i).lc = s.lc := rfl
@[simp] theorem dropChange_bkeys (s : State) (k i : Nat) : (dropChange s k i).bkeys = s.bkeys := rfl
@[simp] theorem dropChange_topo (s : State) (k i : Nat) : (dropChange s k i).topo = s.topo := rfl
@[simp] theorem dropChange_bus (s : State) (k i : Nat) : (dropChange s k i).bus = s.bus := rfl
@[simp] theorem dropChange_stamp (s : State) (k i : Nat) : (dropChange s k i).stamp = s.stamp := rfl
@[simp] theorem dropChange_nextId (s : State) (k i : Nat) : (dropChange s k i).nextId = s.nextId := rfl
@[simp] theorem dropChange_free (s : State) (k i : Nat) : (dropChange s k i).free = s.free := rfl

@[simp] theorem setMode_pending (s : State) (m : Mode) (c : BitVec 4) : (setMode s m c).pending = s.pending := rfl
@[simp] theorem setMode_boot (s : State) (m : Mode) (c : BitVec 4) : (setMode s m c).boot = s.boot := rfl
@[simp] theorem setMode_otp (s : State) (m : Mode) (c : BitVec 4) : (setMode s m c).otp = s.otp := rfl
@[simp] theorem setMode_nvm (s : State) (m : Mode) (c : BitVec 4) : (setMode s m c).nvm = s.nvm := rfl
@[simp] theorem setMode_backup (s : State) (m : Mode) (c : BitVec 4) : (setMode s m c).backup = s.backup := rfl
@[simp] theorem setMode_time (s : State) (m : Mode) (c : BitVec 4) : (setMode s m c).time = s.time := rfl
@[simp] theorem setMode_fns (s : State) (m : Mode) (c : BitVec 4) : (setMode s m c).fns = s.fns := rfl
@[simp] theorem setMode_ports (s : State) (m : Mode) (c : BitVec 4) : (setMode s m c).ports = s.ports := rfl
@[simp] theorem setMode_sqs (s : State) (m : Mode) (c : BitVec 4) : (setMode s m c).sqs = s.sqs := rfl
@[simp] theorem setMode_cqs (s : State) (m : Mode) (c : BitVec 4) : (setMode s m c).cqs = s.cqs := rfl
@[simp] theorem setMode_cmds (s : State) (m : Mode) (c : BitVec 4) : (setMode s m c).cmds = s.cmds := rfl
@[simp] theorem setMode_eng (s : State) (m : Mode) (c : BitVec 4) : (setMode s m c).eng = s.eng := rfl
@[simp] theorem setMode_keys (s : State) (m : Mode) (c : BitVec 4) : (setMode s m c).keys = s.keys := rfl
@[simp] theorem setMode_rng (s : State) (m : Mode) (c : BitVec 4) : (setMode s m c).rng = s.rng := rfl
@[simp] theorem setMode_alarm (s : State) (m : Mode) (c : BitVec 4) : (setMode s m c).alarm = s.alarm := rfl
@[simp] theorem setMode_recorder (s : State) (m : Mode) (c : BitVec 4) : (setMode s m c).recorder = s.recorder := rfl
@[simp] theorem setMode_lc (s : State) (m : Mode) (c : BitVec 4) : (setMode s m c).lc = s.lc := rfl
@[simp] theorem setMode_bkeys (s : State) (m : Mode) (c : BitVec 4) : (setMode s m c).bkeys = s.bkeys := rfl
@[simp] theorem setMode_topo (s : State) (m : Mode) (c : BitVec 4) : (setMode s m c).topo = s.topo := rfl
@[simp] theorem setMode_bus (s : State) (m : Mode) (c : BitVec 4) : (setMode s m c).bus = s.bus := rfl
@[simp] theorem setMode_stamp (s : State) (m : Mode) (c : BitVec 4) : (setMode s m c).stamp = s.stamp := rfl
@[simp] theorem setMode_nextId (s : State) (m : Mode) (c : BitVec 4) : (setMode s m c).nextId = s.nextId := rfl
@[simp] theorem setMode_free (s : State) (m : Mode) (c : BitVec 4) : (setMode s m c).free = s.free := rfl

@[simp] theorem holdValue_pending (s : State) (r n : Nat) (v : DWord) : (holdValue s r n v).pending = s.pending := rfl
@[simp] theorem holdValue_sys (s : State) (r n : Nat) (v : DWord) : (holdValue s r n v).sys = s.sys := rfl
@[simp] theorem holdValue_boot (s : State) (r n : Nat) (v : DWord) : (holdValue s r n v).boot = s.boot := rfl
@[simp] theorem holdValue_otp (s : State) (r n : Nat) (v : DWord) : (holdValue s r n v).otp = s.otp := rfl
@[simp] theorem holdValue_nvm (s : State) (r n : Nat) (v : DWord) : (holdValue s r n v).nvm = s.nvm := rfl
@[simp] theorem holdValue_backup (s : State) (r n : Nat) (v : DWord) : (holdValue s r n v).backup = s.backup := rfl
@[simp] theorem holdValue_time (s : State) (r n : Nat) (v : DWord) : (holdValue s r n v).time = s.time := rfl
@[simp] theorem holdValue_fns (s : State) (r n : Nat) (v : DWord) : (holdValue s r n v).fns = s.fns := rfl
@[simp] theorem holdValue_ports (s : State) (r n : Nat) (v : DWord) : (holdValue s r n v).ports = s.ports := rfl
@[simp] theorem holdValue_sqs (s : State) (r n : Nat) (v : DWord) : (holdValue s r n v).sqs = s.sqs := rfl
@[simp] theorem holdValue_cqs (s : State) (r n : Nat) (v : DWord) : (holdValue s r n v).cqs = s.cqs := rfl
@[simp] theorem holdValue_cmds (s : State) (r n : Nat) (v : DWord) : (holdValue s r n v).cmds = s.cmds := rfl
@[simp] theorem holdValue_eng (s : State) (r n : Nat) (v : DWord) : (holdValue s r n v).eng = s.eng := rfl
@[simp] theorem holdValue_rng (s : State) (r n : Nat) (v : DWord) : (holdValue s r n v).rng = s.rng := rfl
@[simp] theorem holdValue_alarm (s : State) (r n : Nat) (v : DWord) : (holdValue s r n v).alarm = s.alarm := rfl
@[simp] theorem holdValue_recorder (s : State) (r n : Nat) (v : DWord) : (holdValue s r n v).recorder = s.recorder := rfl
@[simp] theorem holdValue_lc (s : State) (r n : Nat) (v : DWord) : (holdValue s r n v).lc = s.lc := rfl
@[simp] theorem holdValue_bkeys (s : State) (r n : Nat) (v : DWord) : (holdValue s r n v).bkeys = s.bkeys := rfl
@[simp] theorem holdValue_topo (s : State) (r n : Nat) (v : DWord) : (holdValue s r n v).topo = s.topo := rfl
@[simp] theorem holdValue_bus (s : State) (r n : Nat) (v : DWord) : (holdValue s r n v).bus = s.bus := rfl
@[simp] theorem holdValue_stamp (s : State) (r n : Nat) (v : DWord) : (holdValue s r n v).stamp = s.stamp := rfl
@[simp] theorem holdValue_nextId (s : State) (r n : Nat) (v : DWord) : (holdValue s r n v).nextId = s.nextId := rfl
@[simp] theorem holdValue_free (s : State) (r n : Nat) (v : DWord) : (holdValue s r n v).free = s.free := rfl

@[simp] theorem putCopy_pending (s : State) (r n i : Nat) (c : Copy) : (putCopy s r n i c).pending = s.pending := rfl
@[simp] theorem putCopy_sys (s : State) (r n i : Nat) (c : Copy) : (putCopy s r n i c).sys = s.sys := rfl
@[simp] theorem putCopy_boot (s : State) (r n i : Nat) (c : Copy) : (putCopy s r n i c).boot = s.boot := rfl
@[simp] theorem putCopy_otp (s : State) (r n i : Nat) (c : Copy) : (putCopy s r n i c).otp = s.otp := rfl
@[simp] theorem putCopy_backup (s : State) (r n i : Nat) (c : Copy) : (putCopy s r n i c).backup = s.backup := rfl
@[simp] theorem putCopy_time (s : State) (r n i : Nat) (c : Copy) : (putCopy s r n i c).time = s.time := rfl
@[simp] theorem putCopy_fns (s : State) (r n i : Nat) (c : Copy) : (putCopy s r n i c).fns = s.fns := rfl
@[simp] theorem putCopy_ports (s : State) (r n i : Nat) (c : Copy) : (putCopy s r n i c).ports = s.ports := rfl
@[simp] theorem putCopy_sqs (s : State) (r n i : Nat) (c : Copy) : (putCopy s r n i c).sqs = s.sqs := rfl
@[simp] theorem putCopy_cqs (s : State) (r n i : Nat) (c : Copy) : (putCopy s r n i c).cqs = s.cqs := rfl
@[simp] theorem putCopy_cmds (s : State) (r n i : Nat) (c : Copy) : (putCopy s r n i c).cmds = s.cmds := rfl
@[simp] theorem putCopy_eng (s : State) (r n i : Nat) (c : Copy) : (putCopy s r n i c).eng = s.eng := rfl
@[simp] theorem putCopy_keys (s : State) (r n i : Nat) (c : Copy) : (putCopy s r n i c).keys = s.keys := rfl
@[simp] theorem putCopy_rng (s : State) (r n i : Nat) (c : Copy) : (putCopy s r n i c).rng = s.rng := rfl
@[simp] theorem putCopy_alarm (s : State) (r n i : Nat) (c : Copy) : (putCopy s r n i c).alarm = s.alarm := rfl
@[simp] theorem putCopy_recorder (s : State) (r n i : Nat) (c : Copy) : (putCopy s r n i c).recorder = s.recorder := rfl
@[simp] theorem putCopy_lc (s : State) (r n i : Nat) (c : Copy) : (putCopy s r n i c).lc = s.lc := rfl
@[simp] theorem putCopy_bkeys (s : State) (r n i : Nat) (c : Copy) : (putCopy s r n i c).bkeys = s.bkeys := rfl
@[simp] theorem putCopy_topo (s : State) (r n i : Nat) (c : Copy) : (putCopy s r n i c).topo = s.topo := rfl
@[simp] theorem putCopy_bus (s : State) (r n i : Nat) (c : Copy) : (putCopy s r n i c).bus = s.bus := rfl
@[simp] theorem putCopy_stamp (s : State) (r n i : Nat) (c : Copy) : (putCopy s r n i c).stamp = s.stamp := rfl
@[simp] theorem putCopy_nextId (s : State) (r n i : Nat) (c : Copy) : (putCopy s r n i c).nextId = s.nextId := rfl
@[simp] theorem putCopy_free (s : State) (r n i : Nat) (c : Copy) : (putCopy s r n i c).free = s.free := rfl

@[simp] theorem finish_pending (s : State) (cid : Nat) (r : Result) : (finish s cid r).pending = s.pending :=
  have h := congrArg State.pending (finish_keeps s cid r); h
@[simp] theorem finish_sys (s : State) (cid : Nat) (r : Result) : (finish s cid r).sys = s.sys :=
  have h := congrArg State.sys (finish_keeps s cid r); h
@[simp] theorem finish_boot (s : State) (cid : Nat) (r : Result) : (finish s cid r).boot = s.boot :=
  have h := congrArg State.boot (finish_keeps s cid r); h
@[simp] theorem finish_otp (s : State) (cid : Nat) (r : Result) : (finish s cid r).otp = s.otp :=
  have h := congrArg State.otp (finish_keeps s cid r); h
@[simp] theorem finish_nvm (s : State) (cid : Nat) (r : Result) : (finish s cid r).nvm = s.nvm :=
  have h := congrArg State.nvm (finish_keeps s cid r); h
@[simp] theorem finish_backup (s : State) (cid : Nat) (r : Result) : (finish s cid r).backup = s.backup :=
  have h := congrArg State.backup (finish_keeps s cid r); h
@[simp] theorem finish_time (s : State) (cid : Nat) (r : Result) : (finish s cid r).time = s.time :=
  have h := congrArg State.time (finish_keeps s cid r); h
@[simp] theorem finish_ports (s : State) (cid : Nat) (r : Result) : (finish s cid r).ports = s.ports :=
  have h := congrArg State.ports (finish_keeps s cid r); h
@[simp] theorem finish_sqs (s : State) (cid : Nat) (r : Result) : (finish s cid r).sqs = s.sqs :=
  have h := congrArg State.sqs (finish_keeps s cid r); h
@[simp] theorem finish_cqs (s : State) (cid : Nat) (r : Result) : (finish s cid r).cqs = s.cqs :=
  have h := congrArg State.cqs (finish_keeps s cid r); h
@[simp] theorem finish_keys (s : State) (cid : Nat) (r : Result) : (finish s cid r).keys = s.keys :=
  have h := congrArg State.keys (finish_keeps s cid r); h
@[simp] theorem finish_rng (s : State) (cid : Nat) (r : Result) : (finish s cid r).rng = s.rng :=
  have h := congrArg State.rng (finish_keeps s cid r); h
@[simp] theorem finish_alarm (s : State) (cid : Nat) (r : Result) : (finish s cid r).alarm = s.alarm :=
  have h := congrArg State.alarm (finish_keeps s cid r); h
@[simp] theorem finish_recorder (s : State) (cid : Nat) (r : Result) : (finish s cid r).recorder = s.recorder :=
  have h := congrArg State.recorder (finish_keeps s cid r); h
@[simp] theorem finish_lc (s : State) (cid : Nat) (r : Result) : (finish s cid r).lc = s.lc :=
  have h := congrArg State.lc (finish_keeps s cid r); h
@[simp] theorem finish_bkeys (s : State) (cid : Nat) (r : Result) : (finish s cid r).bkeys = s.bkeys :=
  have h := congrArg State.bkeys (finish_keeps s cid r); h
@[simp] theorem finish_topo (s : State) (cid : Nat) (r : Result) : (finish s cid r).topo = s.topo :=
  have h := congrArg State.topo (finish_keeps s cid r); h
@[simp] theorem finish_stamp (s : State) (cid : Nat) (r : Result) : (finish s cid r).stamp = s.stamp :=
  have h := congrArg State.stamp (finish_keeps s cid r); h
@[simp] theorem finish_nextId (s : State) (cid : Nat) (r : Result) : (finish s cid r).nextId = s.nextId :=
  have h := congrArg State.nextId (finish_keeps s cid r); h
@[simp] theorem finish_free (s : State) (cid : Nat) (r : Result) : (finish s cid r).free = s.free :=
  have h := congrArg State.free (finish_keeps s cid r); h

@[simp] theorem emitWrite_pending (s : State) (fn : Nat) (a : DWord) (d : Bytes) : (emitWrite s fn a d).pending = s.pending :=
  have h := congrArg State.pending (emitWrite_keeps s fn a d); h
@[simp] theorem emitWrite_sys (s : State) (fn : Nat) (a : DWord) (d : Bytes) : (emitWrite s fn a d).sys = s.sys :=
  have h := congrArg State.sys (emitWrite_keeps s fn a d); h
@[simp] theorem emitWrite_boot (s : State) (fn : Nat) (a : DWord) (d : Bytes) : (emitWrite s fn a d).boot = s.boot :=
  have h := congrArg State.boot (emitWrite_keeps s fn a d); h
@[simp] theorem emitWrite_otp (s : State) (fn : Nat) (a : DWord) (d : Bytes) : (emitWrite s fn a d).otp = s.otp :=
  have h := congrArg State.otp (emitWrite_keeps s fn a d); h
@[simp] theorem emitWrite_nvm (s : State) (fn : Nat) (a : DWord) (d : Bytes) : (emitWrite s fn a d).nvm = s.nvm :=
  have h := congrArg State.nvm (emitWrite_keeps s fn a d); h
@[simp] theorem emitWrite_backup (s : State) (fn : Nat) (a : DWord) (d : Bytes) : (emitWrite s fn a d).backup = s.backup :=
  have h := congrArg State.backup (emitWrite_keeps s fn a d); h
@[simp] theorem emitWrite_time (s : State) (fn : Nat) (a : DWord) (d : Bytes) : (emitWrite s fn a d).time = s.time :=
  have h := congrArg State.time (emitWrite_keeps s fn a d); h
@[simp] theorem emitWrite_fns (s : State) (fn : Nat) (a : DWord) (d : Bytes) : (emitWrite s fn a d).fns = s.fns :=
  have h := congrArg State.fns (emitWrite_keeps s fn a d); h
@[simp] theorem emitWrite_ports (s : State) (fn : Nat) (a : DWord) (d : Bytes) : (emitWrite s fn a d).ports = s.ports :=
  have h := congrArg State.ports (emitWrite_keeps s fn a d); h
@[simp] theorem emitWrite_sqs (s : State) (fn : Nat) (a : DWord) (d : Bytes) : (emitWrite s fn a d).sqs = s.sqs :=
  have h := congrArg State.sqs (emitWrite_keeps s fn a d); h
@[simp] theorem emitWrite_cqs (s : State) (fn : Nat) (a : DWord) (d : Bytes) : (emitWrite s fn a d).cqs = s.cqs :=
  have h := congrArg State.cqs (emitWrite_keeps s fn a d); h
@[simp] theorem emitWrite_cmds (s : State) (fn : Nat) (a : DWord) (d : Bytes) : (emitWrite s fn a d).cmds = s.cmds :=
  have h := congrArg State.cmds (emitWrite_keeps s fn a d); h
@[simp] theorem emitWrite_eng (s : State) (fn : Nat) (a : DWord) (d : Bytes) : (emitWrite s fn a d).eng = s.eng :=
  have h := congrArg State.eng (emitWrite_keeps s fn a d); h
@[simp] theorem emitWrite_keys (s : State) (fn : Nat) (a : DWord) (d : Bytes) : (emitWrite s fn a d).keys = s.keys :=
  have h := congrArg State.keys (emitWrite_keeps s fn a d); h
@[simp] theorem emitWrite_rng (s : State) (fn : Nat) (a : DWord) (d : Bytes) : (emitWrite s fn a d).rng = s.rng :=
  have h := congrArg State.rng (emitWrite_keeps s fn a d); h
@[simp] theorem emitWrite_alarm (s : State) (fn : Nat) (a : DWord) (d : Bytes) : (emitWrite s fn a d).alarm = s.alarm :=
  have h := congrArg State.alarm (emitWrite_keeps s fn a d); h
@[simp] theorem emitWrite_recorder (s : State) (fn : Nat) (a : DWord) (d : Bytes) : (emitWrite s fn a d).recorder = s.recorder :=
  have h := congrArg State.recorder (emitWrite_keeps s fn a d); h
@[simp] theorem emitWrite_lc (s : State) (fn : Nat) (a : DWord) (d : Bytes) : (emitWrite s fn a d).lc = s.lc :=
  have h := congrArg State.lc (emitWrite_keeps s fn a d); h
@[simp] theorem emitWrite_bkeys (s : State) (fn : Nat) (a : DWord) (d : Bytes) : (emitWrite s fn a d).bkeys = s.bkeys :=
  have h := congrArg State.bkeys (emitWrite_keeps s fn a d); h
@[simp] theorem emitWrite_topo (s : State) (fn : Nat) (a : DWord) (d : Bytes) : (emitWrite s fn a d).topo = s.topo :=
  have h := congrArg State.topo (emitWrite_keeps s fn a d); h
@[simp] theorem emitWrite_stamp (s : State) (fn : Nat) (a : DWord) (d : Bytes) : (emitWrite s fn a d).stamp = s.stamp :=
  have h := congrArg State.stamp (emitWrite_keeps s fn a d); h
@[simp] theorem emitWrite_nextId (s : State) (fn : Nat) (a : DWord) (d : Bytes) : (emitWrite s fn a d).nextId = s.nextId :=
  have h := congrArg State.nextId (emitWrite_keeps s fn a d); h
@[simp] theorem emitWrite_free (s : State) (fn : Nat) (a : DWord) (d : Bytes) : (emitWrite s fn a d).free = s.free :=
  have h := congrArg State.free (emitWrite_keeps s fn a d); h

@[simp] theorem emitRead_pending (s : State) (fn : Nat) (a : DWord) (n : Nat) : (emitRead s fn a n).pending = s.pending :=
  have h := congrArg State.pending (emitRead_keeps s fn a n); h
@[simp] theorem emitRead_sys (s : State) (fn : Nat) (a : DWord) (n : Nat) : (emitRead s fn a n).sys = s.sys :=
  have h := congrArg State.sys (emitRead_keeps s fn a n); h
@[simp] theorem emitRead_boot (s : State) (fn : Nat) (a : DWord) (n : Nat) : (emitRead s fn a n).boot = s.boot :=
  have h := congrArg State.boot (emitRead_keeps s fn a n); h
@[simp] theorem emitRead_otp (s : State) (fn : Nat) (a : DWord) (n : Nat) : (emitRead s fn a n).otp = s.otp :=
  have h := congrArg State.otp (emitRead_keeps s fn a n); h
@[simp] theorem emitRead_nvm (s : State) (fn : Nat) (a : DWord) (n : Nat) : (emitRead s fn a n).nvm = s.nvm :=
  have h := congrArg State.nvm (emitRead_keeps s fn a n); h
@[simp] theorem emitRead_backup (s : State) (fn : Nat) (a : DWord) (n : Nat) : (emitRead s fn a n).backup = s.backup :=
  have h := congrArg State.backup (emitRead_keeps s fn a n); h
@[simp] theorem emitRead_time (s : State) (fn : Nat) (a : DWord) (n : Nat) : (emitRead s fn a n).time = s.time :=
  have h := congrArg State.time (emitRead_keeps s fn a n); h
@[simp] theorem emitRead_fns (s : State) (fn : Nat) (a : DWord) (n : Nat) : (emitRead s fn a n).fns = s.fns :=
  have h := congrArg State.fns (emitRead_keeps s fn a n); h
@[simp] theorem emitRead_ports (s : State) (fn : Nat) (a : DWord) (n : Nat) : (emitRead s fn a n).ports = s.ports :=
  have h := congrArg State.ports (emitRead_keeps s fn a n); h
@[simp] theorem emitRead_sqs (s : State) (fn : Nat) (a : DWord) (n : Nat) : (emitRead s fn a n).sqs = s.sqs :=
  have h := congrArg State.sqs (emitRead_keeps s fn a n); h
@[simp] theorem emitRead_cqs (s : State) (fn : Nat) (a : DWord) (n : Nat) : (emitRead s fn a n).cqs = s.cqs :=
  have h := congrArg State.cqs (emitRead_keeps s fn a n); h
@[simp] theorem emitRead_cmds (s : State) (fn : Nat) (a : DWord) (n : Nat) : (emitRead s fn a n).cmds = s.cmds :=
  have h := congrArg State.cmds (emitRead_keeps s fn a n); h
@[simp] theorem emitRead_eng (s : State) (fn : Nat) (a : DWord) (n : Nat) : (emitRead s fn a n).eng = s.eng :=
  have h := congrArg State.eng (emitRead_keeps s fn a n); h
@[simp] theorem emitRead_keys (s : State) (fn : Nat) (a : DWord) (n : Nat) : (emitRead s fn a n).keys = s.keys :=
  have h := congrArg State.keys (emitRead_keeps s fn a n); h
@[simp] theorem emitRead_rng (s : State) (fn : Nat) (a : DWord) (n : Nat) : (emitRead s fn a n).rng = s.rng :=
  have h := congrArg State.rng (emitRead_keeps s fn a n); h
@[simp] theorem emitRead_alarm (s : State) (fn : Nat) (a : DWord) (n : Nat) : (emitRead s fn a n).alarm = s.alarm :=
  have h := congrArg State.alarm (emitRead_keeps s fn a n); h
@[simp] theorem emitRead_recorder (s : State) (fn : Nat) (a : DWord) (n : Nat) : (emitRead s fn a n).recorder = s.recorder :=
  have h := congrArg State.recorder (emitRead_keeps s fn a n); h
@[simp] theorem emitRead_lc (s : State) (fn : Nat) (a : DWord) (n : Nat) : (emitRead s fn a n).lc = s.lc :=
  have h := congrArg State.lc (emitRead_keeps s fn a n); h
@[simp] theorem emitRead_bkeys (s : State) (fn : Nat) (a : DWord) (n : Nat) : (emitRead s fn a n).bkeys = s.bkeys :=
  have h := congrArg State.bkeys (emitRead_keeps s fn a n); h
@[simp] theorem emitRead_topo (s : State) (fn : Nat) (a : DWord) (n : Nat) : (emitRead s fn a n).topo = s.topo :=
  have h := congrArg State.topo (emitRead_keeps s fn a n); h
@[simp] theorem emitRead_stamp (s : State) (fn : Nat) (a : DWord) (n : Nat) : (emitRead s fn a n).stamp = s.stamp :=
  have h := congrArg State.stamp (emitRead_keeps s fn a n); h
@[simp] theorem emitRead_nextId (s : State) (fn : Nat) (a : DWord) (n : Nat) : (emitRead s fn a n).nextId = s.nextId :=
  have h := congrArg State.nextId (emitRead_keeps s fn a n); h
@[simp] theorem emitRead_free (s : State) (fn : Nat) (a : DWord) (n : Nat) : (emitRead s fn a n).free = s.free :=
  have h := congrArg State.free (emitRead_keeps s fn a n); h

@[simp] theorem putOnLink_pending (s : State) (k : Nat) (m : LinkMsg) : (putOnLink s k m).pending = s.pending := rfl
@[simp] theorem putOnLink_sys (s : State) (k : Nat) (m : LinkMsg) : (putOnLink s k m).sys = s.sys := rfl
@[simp] theorem putOnLink_boot (s : State) (k : Nat) (m : LinkMsg) : (putOnLink s k m).boot = s.boot := rfl
@[simp] theorem putOnLink_otp (s : State) (k : Nat) (m : LinkMsg) : (putOnLink s k m).otp = s.otp := rfl
@[simp] theorem putOnLink_nvm (s : State) (k : Nat) (m : LinkMsg) : (putOnLink s k m).nvm = s.nvm := rfl
@[simp] theorem putOnLink_backup (s : State) (k : Nat) (m : LinkMsg) : (putOnLink s k m).backup = s.backup := rfl
@[simp] theorem putOnLink_time (s : State) (k : Nat) (m : LinkMsg) : (putOnLink s k m).time = s.time := rfl
@[simp] theorem putOnLink_fns (s : State) (k : Nat) (m : LinkMsg) : (putOnLink s k m).fns = s.fns := rfl
@[simp] theorem putOnLink_ports (s : State) (k : Nat) (m : LinkMsg) : (putOnLink s k m).ports = s.ports := rfl
@[simp] theorem putOnLink_sqs (s : State) (k : Nat) (m : LinkMsg) : (putOnLink s k m).sqs = s.sqs := rfl
@[simp] theorem putOnLink_cqs (s : State) (k : Nat) (m : LinkMsg) : (putOnLink s k m).cqs = s.cqs := rfl
@[simp] theorem putOnLink_cmds (s : State) (k : Nat) (m : LinkMsg) : (putOnLink s k m).cmds = s.cmds := rfl
@[simp] theorem putOnLink_eng (s : State) (k : Nat) (m : LinkMsg) : (putOnLink s k m).eng = s.eng := rfl
@[simp] theorem putOnLink_keys (s : State) (k : Nat) (m : LinkMsg) : (putOnLink s k m).keys = s.keys := rfl
@[simp] theorem putOnLink_rng (s : State) (k : Nat) (m : LinkMsg) : (putOnLink s k m).rng = s.rng := rfl
@[simp] theorem putOnLink_alarm (s : State) (k : Nat) (m : LinkMsg) : (putOnLink s k m).alarm = s.alarm := rfl
@[simp] theorem putOnLink_recorder (s : State) (k : Nat) (m : LinkMsg) : (putOnLink s k m).recorder = s.recorder := rfl
@[simp] theorem putOnLink_lc (s : State) (k : Nat) (m : LinkMsg) : (putOnLink s k m).lc = s.lc := rfl
@[simp] theorem putOnLink_bkeys (s : State) (k : Nat) (m : LinkMsg) : (putOnLink s k m).bkeys = s.bkeys := rfl
@[simp] theorem putOnLink_stamp (s : State) (k : Nat) (m : LinkMsg) : (putOnLink s k m).stamp = s.stamp := rfl
@[simp] theorem putOnLink_nextId (s : State) (k : Nat) (m : LinkMsg) : (putOnLink s k m).nextId = s.nextId := rfl

@[simp] theorem gmFresh_pending (s : State) (r : GmRegion) : (gmFresh s r).pending = s.pending := rfl
@[simp] theorem gmFresh_sys (s : State) (r : GmRegion) : (gmFresh s r).sys = s.sys := rfl
@[simp] theorem gmFresh_otp (s : State) (r : GmRegion) : (gmFresh s r).otp = s.otp := rfl
@[simp] theorem gmFresh_nvm (s : State) (r : GmRegion) : (gmFresh s r).nvm = s.nvm := rfl
@[simp] theorem gmFresh_backup (s : State) (r : GmRegion) : (gmFresh s r).backup = s.backup := rfl
@[simp] theorem gmFresh_time (s : State) (r : GmRegion) : (gmFresh s r).time = s.time := rfl
@[simp] theorem gmFresh_fns (s : State) (r : GmRegion) : (gmFresh s r).fns = s.fns := rfl
@[simp] theorem gmFresh_ports (s : State) (r : GmRegion) : (gmFresh s r).ports = s.ports := rfl
@[simp] theorem gmFresh_sqs (s : State) (r : GmRegion) : (gmFresh s r).sqs = s.sqs := rfl
@[simp] theorem gmFresh_cqs (s : State) (r : GmRegion) : (gmFresh s r).cqs = s.cqs := rfl
@[simp] theorem gmFresh_cmds (s : State) (r : GmRegion) : (gmFresh s r).cmds = s.cmds := rfl
@[simp] theorem gmFresh_eng (s : State) (r : GmRegion) : (gmFresh s r).eng = s.eng := rfl
@[simp] theorem gmFresh_keys (s : State) (r : GmRegion) : (gmFresh s r).keys = s.keys := rfl
@[simp] theorem gmFresh_rng (s : State) (r : GmRegion) : (gmFresh s r).rng = s.rng := rfl
@[simp] theorem gmFresh_alarm (s : State) (r : GmRegion) : (gmFresh s r).alarm = s.alarm := rfl
@[simp] theorem gmFresh_recorder (s : State) (r : GmRegion) : (gmFresh s r).recorder = s.recorder := rfl
@[simp] theorem gmFresh_lc (s : State) (r : GmRegion) : (gmFresh s r).lc = s.lc := rfl
@[simp] theorem gmFresh_bkeys (s : State) (r : GmRegion) : (gmFresh s r).bkeys = s.bkeys := rfl
@[simp] theorem gmFresh_topo (s : State) (r : GmRegion) : (gmFresh s r).topo = s.topo := rfl
@[simp] theorem gmFresh_bus (s : State) (r : GmRegion) : (gmFresh s r).bus = s.bus := rfl
@[simp] theorem gmFresh_stamp (s : State) (r : GmRegion) : (gmFresh s r).stamp = s.stamp := rfl
@[simp] theorem gmFresh_nextId (s : State) (r : GmRegion) : (gmFresh s r).nextId = s.nextId := rfl
@[simp] theorem gmFresh_free (s : State) (r : GmRegion) : (gmFresh s r).free = s.free := rfl

/-- A command with no read outstanding leaves the functions as they are when it ends. -/
theorem dropInput_fns (s : State) (cid : Nat) (h : ∀ c, getCmd s cid = some c → inputReads c = 0) : (dropInput s cid).fns = s.fns := by
  unfold dropInput; dsimp only
  split
  · rfl
  · rename_i c hc
    simp [h c hc]

theorem issueOut_fns (s : State) (cid : Nat) : (issueOut s cid).fns = s.fns := by
  unfold issueOut
  split
  · rfl
  · split
    · split
      · have e := congrArg State.fns (outputWrites_keeps s ‹Cmd› ‹Result›)
        exact e
      · rfl
    · rfl

theorem finish_fns (s : State) (cid : Nat) (r : Result) (h : ∀ c, getCmd s cid = some c → inputReads c = 0) :
    (finish s cid r).fns = s.fns :=
  (issueOut_fns ..).trans (dropInput_fns s cid h)

/-! ### Reading after an update -/

@[simp] theorem keeperFn_modFn (s : State) (fn : Nat) (f : Fn → Fn) : keeperFn (modFn s fn f) = keeperFn s := rfl

/-- A function after a change of one. -/
theorem getFn_modFn (s : State) (fn x : Nat) (f : Fn → Fn) : getFn (modFn s fn f) x = if x = fn then f (getFn s fn) else getFn s x := by
  unfold getFn Map.getD
  rw [show (modFn s fn f).fns = Map.put s.fns fn (f (getFn s fn)) from rfl, keeperFn_modFn, Map.get?_put]
  split <;> rfl

@[simp] theorem getFn_modFn_self (s : State) (fn : Nat) (f : Fn → Fn) : getFn (modFn s fn f) fn = f (getFn s fn) := by
  rw [getFn_modFn, if_pos rfl]

theorem getFn_modFn_ne (s : State) {fn x : Nat} (f : Fn → Fn) (h : x ≠ fn) : getFn (modFn s fn f) x = getFn s x := by
  rw [getFn_modFn, if_neg h]

/-- A queue just put. -/
@[simp] theorem getSq_putSq_self (s : State) (fn q : Nat) (x : Sq) : getSq (putSq s fn q x) fn q = some x := by
  unfold getSq; rw [show (putSq s fn q x).sqs = Map.put s.sqs (qKey fn q) x from rfl, Map.get?_put_self]

theorem getSq_putSq_ne (s : State) {fn q g r : Nat} (x : Sq) (h : qKey g r ≠ qKey fn q) : getSq (putSq s fn q x) g r = getSq s g r := by
  unfold getSq; rw [show (putSq s fn q x).sqs = Map.put s.sqs (qKey fn q) x from rfl, Map.get?_put_ne _ _ h]; rfl

@[simp] theorem getCq_putCq_self (s : State) (fn q : Nat) (x : Cq) : getCq (putCq s fn q x) fn q = some x := by
  unfold getCq; rw [show (putCq s fn q x).cqs = Map.put s.cqs (qKey fn q) x from rfl, Map.get?_put_self]

theorem getCq_putCq_ne (s : State) {fn q g r : Nat} (x : Cq) (h : qKey g r ≠ qKey fn q) : getCq (putCq s fn q x) g r = getCq s g r := by
  unfold getCq; rw [show (putCq s fn q x).cqs = Map.put s.cqs (qKey fn q) x from rfl, Map.get?_put_ne _ _ h]; rfl

/-- Queue keys differ where the queues do. -/
theorem qKey_inj {fn q g r : Nat} (h1 : q < 4096) (h2 : r < 4096) : qKey fn q = qKey g r ↔ fn = g ∧ q = r := by
  unfold qKey; omega

/-- A command after a change of one that keeps its number. -/
theorem getCmd_modCmd (s : State) (cid x : Nat) (f : Cmd → Cmd) (hf : ∀ c, (f c).id = c.id) :
    getCmd (modCmd s cid f) x = (getCmd s x).map fun c => if c.id = cid then f c else c := by
  unfold getCmd modCmd
  rw [List.find?_map]
  have e : ((fun c : Cmd => c.id == x) ∘ fun c => if c.id = cid then f c else c) = fun c => c.id == x := by
    funext c; simp only [Function.comp_apply]; split
    · rw [hf]
    · rfl
  rw [e]

theorem getCmd_id {s : State} {cid : Nat} {c : Cmd} (h : getCmd s cid = some c) : c.id = cid := by
  simpa using List.find?_some h

theorem getCmd_modCmd_self (s : State) (cid : Nat) (f : Cmd → Cmd) (hf : ∀ c, (f c).id = c.id) :
    getCmd (modCmd s cid f) cid = (getCmd s cid).map f := by
  rw [getCmd_modCmd s cid cid f hf]
  cases h : getCmd s cid with
  | none => rfl
  | some c => simp [getCmd_id h]

theorem getCmd_modCmd_ne (s : State) {cid x : Nat} (f : Cmd → Cmd) (hf : ∀ c, (f c).id = c.id) (h : x ≠ cid) :
    getCmd (modCmd s cid f) x = getCmd s x := by
  rw [getCmd_modCmd s cid x f hf]
  cases e : getCmd s x with
  | none => rfl
  | some c => simp [getCmd_id e, h]

/-- A command that was dropped is gone, and no other is. -/
theorem getCmd_dropCmd (s : State) (cid x : Nat) : getCmd (dropCmd s cid) x = if x = cid then none else getCmd s x := by
  unfold getCmd dropCmd
  rw [List.find?_filter]
  split
  · subst_vars; exact List.find?_eq_none.mpr fun c _ => by simp
  · rename_i h
    congr 1; funext c
    by_cases e : c.id = x
    · subst e; simp [h]
    · simp [e]

/-- A port, a link, after a change of one. -/
theorem getPort_modPort (s : State) (p x : Nat) (f : Port → Port) (hx : x < 8) :
    getPort (modPort s p f) x = if x = p then f (getPort s x) else getPort s x := by
  unfold getPort modPort; simp [Array.getD, hx, Vector.size_toArray]

theorem getLink_modLink (s : State) (k x : Nat) (f : Link → Link) (hx : x < 8) :
    getLink (modLink s k f) x = if x = k then f (getLink s x) else getLink s x := by
  unfold getLink modLink; simp [Array.getD, hx, Vector.size_toArray]

/-- A key, a berth, after a change of one. -/
theorem key_modKey (s : State) (g x : Nat) (f : Key → Key) :
    Map.get? (modKey s g f).keys.keys x = if x = g then (Map.get? s.keys.keys x).map f else Map.get? s.keys.keys x :=
  Map.get?_modify ..

theorem berth_modBerth (s : State) (i x : Nat) (f : Berth → Berth) :
    Map.get? (modBerth s i f).keys.berths x = if x = i then (Map.get? s.keys.berths x).map f else Map.get? s.keys.berths x :=
  Map.get?_modify ..

@[simp] theorem modKey_berths (s : State) (g : Nat) (f : Key → Key) : (modKey s g f).keys.berths = s.keys.berths := rfl

@[simp] theorem modBerth_keys_keys (s : State) (i : Nat) (f : Berth → Berth) : (modBerth s i f).keys.keys = s.keys.keys := rfl

@[simp] theorem emit_bus (s : State) (b : Bus) : (emit s b).bus = s.bus ++ [b] := rfl

end Sys2Proof.Machine
end

