-- ==== Sys2Proof/Laws/Lanes.lean ====
section
/-!
SUPPORT. Lanes and registers of a lattice vector engine: a plane built from lanes reads back lane by lane, a predicate
built from bits reads back bit by bit, a register that was put reads as put; and what the end of an instruction changes.
-/

namespace Sys2Proof.Machine

/-! ### Digits -/

/-- A number written digit by digit in base 2^n. -/
def digitSum (n : Nat) (f : Nat → Nat) (m : Nat) : Nat :=
  (List.range m).foldl (fun a e => a + f e % 2 ^ n * 2 ^ (n * e)) 0

theorem digitSum_succ (n : Nat) (f : Nat → Nat) (m : Nat) :
    digitSum n f (m + 1) = digitSum n f m + f m % 2 ^ n * 2 ^ (n * m) := by
  simp [digitSum, List.range_succ]

theorem digitSum_lt (n : Nat) (f : Nat → Nat) (m : Nat) : digitSum n f m < 2 ^ (n * m) := by
  induction m with
  | zero => simp [digitSum]
  | succ m ih =>
    have h : f m % 2 ^ n < 2 ^ n := Nat.mod_lt _ (by positivity)
    calc digitSum n f (m + 1) = digitSum n f m + f m % 2 ^ n * 2 ^ (n * m) := digitSum_succ ..
      _ < 2 ^ (n * m) + f m % 2 ^ n * 2 ^ (n * m) := by omega
      _ = (f m % 2 ^ n + 1) * 2 ^ (n * m) := by ring
      _ ≤ 2 ^ n * 2 ^ (n * m) := Nat.mul_le_mul_right _ h
      _ = 2 ^ (n * (m + 1)) := by rw [← pow_add]; congr 1; ring

/-- Digit `e` of such a number. -/
theorem digitSum_digit (n : Nat) (f : Nat → Nat) (m e : Nat) (h : e < m) : digitSum n f m / 2 ^ (n * e) % 2 ^ n = f e % 2 ^ n := by
  induction m with
  | zero => omega
  | succ m ih =>
    rw [digitSum_succ]
    rcases Nat.lt_succ_iff_lt_or_eq.mp h with h | rfl
    · have ih := ih h
      obtain ⟨j, rfl⟩ := Nat.exists_eq_add_of_lt h
      rw [show f (e + j + 1) % 2 ^ n * 2 ^ (n * (e + j + 1)) = 2 ^ (n * e) * (2 ^ n * (f (e + j + 1) % 2 ^ n * 2 ^ (n * j))) by
        rw [show n * (e + j + 1) = n * e + (n + n * j) by ring, pow_add, pow_add]; ring,
        Nat.add_mul_div_left _ _ (by positivity), Nat.add_mul_mod_self_left]
      exact ih
    · rw [Nat.add_mul_div_right _ _ (by positivity), Nat.div_eq_of_lt (digitSum_lt ..), Nat.zero_add, Nat.mod_mod]

/-! ### Lanes (R219) -/

theorem ew_mul_laneCount (w : Bool) : ew w * laneCount w = 768 := by cases w <;> rfl

/-- A plane built from lanes reads back lane by lane. -/
theorem laneOf_ofLanes (w : Bool) (f : Nat → Nat) (e : Nat) (h : e < laneCount w) : laneOf w (ofLanes w f) e = f e % 2 ^ ew w := by
  have h1 : digitSum (ew w) f (laneCount w) < 2 ^ 768 := by
    have := digitSum_lt (ew w) f (laneCount w); rwa [ew_mul_laneCount] at this
  show (BitVec.ofNat 768 (digitSum (ew w) f (laneCount w))).toNat / 2 ^ (ew w * e) % 2 ^ ew w = _
  rw [BitVec.toNat_ofNat, Nat.mod_eq_of_lt h1]
  exact digitSum_digit _ _ _ _ h

theorem laneOf_lt (w : Bool) (r : BitVec 768) (e : Nat) : laneOf w r e < 2 ^ ew w := Nat.mod_lt _ (by positivity)

/-- A merged plane: the result on active lanes, the old lane or zero elsewhere (R220). -/
theorem laneOf_mergePlane (w : Bool) (act : Nat → Bool) (pz : Bool) (old : BitVec 768) (new : Nat → Nat) (e : Nat)
    (h : e < laneCount w) :
    laneOf w (mergePlane w act pz old new) e = if act e then new e % 2 ^ ew w else if pz then 0 else laneOf w old e := by
  rw [mergePlane, laneOf_ofLanes w _ e h]
  split
  · rfl
  · split
    · exact Nat.zero_mod _
    · exact Nat.mod_eq_of_lt (laneOf_lt ..)

/-- A destination plane by plane: planes with no result keep their active lanes. -/
theorem laneOf_destReg (w : Bool) (act : Nat → Bool) (pz : Bool) (old : VReg) (n : Nat → Option (Nat → Nat)) (k e : Nat)
    (hk : k < 3) (he : e < laneCount w) :
    laneOf w ((destReg w act pz old (n 0) (n 1) (n 2)).plane k) e =
      if act e then ((n k).map (· e % 2 ^ ew w)).getD (laneOf w (old.plane k) e) else if pz then 0 else laneOf w (old.plane k) e := by
  have h : ∀ (o : BitVec 768) (m : Option (Nat → Nat)), laneOf w (mergePlane w act pz o (m.getD (laneOf w o))) e =
      if act e then (m.map (· e % 2 ^ ew w)).getD (laneOf w o e) else if pz then 0 else laneOf w o e := by
    intro o m
    rw [laneOf_mergePlane w act pz o _ e he]
    cases m with
    | none => simp [Nat.mod_eq_of_lt (laneOf_lt w o e)]
    | some f => rfl
  obtain rfl | rfl | rfl : k = 0 ∨ k = 1 ∨ k = 2 := by omega
  · exact h old.p0 (n 0)
  · exact h old.p1 (n 1)
  · exact h old.p2 (n 2)

/-- A destination of an instruction that works in the planes up to the share order. -/
theorem laneOf_linReg (l : Lve) (f : FmtA) (old : VReg) (op : Nat → Nat → Nat) (k e : Nat) (hk : k < 3) (he : e < laneCount f.w) :
    laneOf f.w ((linReg l f old op).plane k) e =
      if guardA l f e then (if k ≤ l.d then op k e % 2 ^ ew f.w else laneOf f.w (old.plane k) e)
      else if f.pz then 0 else laneOf f.w (old.plane k) e := by
  have h := laneOf_destReg f.w (guardA l f) f.pz old (fun k => upTo l.d k (op k)) k e hk he
  refine h.trans ?_
  unfold upTo
  split
  · split <;> rfl
  · rfl

/-! ### Registers -/

@[simp] theorem getV_putV_self (l : Lve) (i : Nat) (r : VReg) (h : i < 32) : getV (putV l i r) i = r := by
  unfold getV putV; simp [Array.getD, h, Vector.size_toArray]

theorem getV_putV_ne (l : Lve) {i j : Nat} (r : VReg) (h : j ≠ i) : getV (putV l i r) j = getV l j := by
  unfold getV putV; simp only [Array.getD, Vector.size_toArray]; split <;> simp [h]

/-- Putting a vector register changes nothing else of the engine. -/
theorem putV_keeps (l : Lve) (i : Nat) (r : VReg) : { putV l i r with v := l.v } = l := rfl

@[simp] theorem getS_putS_self (l : Lve) (i : Nat) (v : Word) (h : i < 16) : getS (putS l i v) i = v := by
  unfold getS putS; simp [Array.getD, h, Vector.size_toArray]

theorem getS_putS_ne (l : Lve) {i j : Nat} (v : Word) (h : j ≠ i) : getS (putS l i v) j = getS l j := by
  unfold getS putS; simp only [Array.getD, Vector.size_toArray]; split <;> simp [h]

theorem putS_keeps (l : Lve) (i : Nat) (v : Word) : { putS l i v with s := l.s } = l := rfl

/-- P0 reads as ones whatever is written (R217). -/
@[simp] theorem getP_zero (l : Lve) : getP l 0 = BitVec.allOnes 64 := rfl

@[simp] theorem putP_zero (l : Lve) (v : DWord) : putP l 0 v = l := rfl

theorem getP_putP_self (l : Lve) (i : Nat) (v : DWord) (h0 : i ≠ 0) (h : i < 8) : getP (putP l i v) i = v := by
  unfold getP putP; simp [Array.getD, h, h0, Vector.size_toArray]

theorem getP_putP_ne (l : Lve) {i j : Nat} (v : DWord) (h : j ≠ i) : getP (putP l i v) j = getP l j := by
  unfold getP putP
  split
  · rfl
  · split
    · rfl
    · simp only [Array.getD, Vector.size_toArray]; split <;> simp [h]

theorem putP_keeps (l : Lve) (i : Nat) (v : DWord) : { putP l i v with p := l.p } = l := by
  unfold putP; split <;> rfl

/-! ### Predicates -/

/-- A predicate built from bits reads back bit by bit (R219). -/
theorem getLsbD_predOf (w : Bool) (b : Nat → Bool) (e : Nat) (he : e < 64) :
    (predOf w b).getLsbD e = (decide (e < laneCount w) && b e) := by
  have hs : ∀ m, (List.range m).foldl (fun a e => a + if b e then 2 ^ e else 0) 0 = digitSum 1 (fun e => b2n (b e)) m := by
    intro m
    induction m with
    | zero => rfl
    | succ m ih =>
      rw [digitSum_succ, List.range_succ, List.foldl_append, ih]
      simp only [List.foldl_cons, List.foldl_nil, b2n]
      cases b m <;> simp
  rw [predOf, hs, BitVec.getLsbD_ofNat]
  simp only [he, decide_true, Bool.true_and]
  rw [Nat.testBit_eq_decide_div_mod_eq]
  by_cases h : e < laneCount w
  · have hd := digitSum_digit 1 (fun e => b2n (b e)) (laneCount w) e h
    rw [Nat.one_mul, pow_one] at hd
    rw [hd]
    simp only [h, decide_true, Bool.true_and]
    cases b e <;> rfl
  · have hl := digitSum_lt 1 (fun e => b2n (b e)) (laneCount w)
    rw [Nat.one_mul] at hl
    have : digitSum 1 (fun e => b2n (b e)) (laneCount w) < 2 ^ e := Nat.lt_of_lt_of_le hl (Nat.pow_le_pow_right (by decide) (by omega))
    simp [Nat.div_eq_of_lt this, h]

/-! ### The end of an instruction -/

/-- The engines and commands of a state hold what an instruction may change, and the mask counter. -/
theorem lveDone_keeps (s : State) (e : Fin 32) (x : LveForm) (c : Cmd) (l : Lve) (fr : List Host.Cell) (m : Nat) :
    { lveDone s e x c l fr m with eng := s.eng, cmds := s.cmds, lc := s.lc, free := s.free } = s := by
  unfold lveDone putLve noteStep modCmd unitStep; rfl

theorem lveDone_eng (s : State) (e : Fin 32) (x : LveForm) (c : Cmd) (l : Lve) (fr : List Host.Cell) (m : Nat) :
    (lveDone s e x c l fr m).eng =
      { s.eng with lves := Map.put s.eng.lves e.val { advance l (lveSteps x l.d) with pc := l.pc + 1 },
                   lastStep := Map.put s.eng.lastStep (1 * 256 + e.val) s.sys.tick } := by
  unfold lveDone putLve noteStep modCmd unitStep; rfl

/-- A ready instruction does what its operation answers. -/
theorem lveStep_ready {s : State} {e : Fin 32} {i : Instr} {c : Cmd} {l : Lve} {x : LveForm}
    (k : Cmd → Lve → Nat → LveRes) (h : lveReady s e i = some (c, l)) (hx : lveForm i = some x) :
    lveStep s e i k = match k c l s.free with
      | .ok l1 frame masks => lveDone s e x c l1 frame masks
      | .fault el a l1 frame => lveFault s e c l1 frame el a := by
  simp only [lveStep, h, hx] <;> rfl

/-- An instruction that is not ready changes nothing. -/
theorem lveStep_idle {s : State} {e : Fin 32} {i : Instr} (k : Cmd → Lve → Nat → LveRes) (h : lveReady s e i = none) :
    lveStep s e i k = s := by
  simp only [lveStep, h]

end Sys2Proof.Machine
end

