-- ==== Sys2Proof/Laws/Resets.lean ====
section
/-!
SUPPORT. What function resets, drains and mode changes may change, built from the equations of Laws/Frame.lean. None of
them changes OTP, user NVM, the backup domain or the calendar.
-/

namespace Sys2Proof.Machine

/-! ### Drains -/

/-- The state without its functions, ports, queues, commands, engines and bus record. -/
def hideDrain (s : State) : State := { hideQueues s with cmds := [], eng := Eng.reset }

theorem hideDrain_of_queues {s t : State} (h : hideQueues t = hideQueues s) : hideDrain t = hideDrain s :=
  congrArg (fun x : State => { x with cmds := [], eng := Eng.reset }) h

theorem hideDrain_of_run {s t : State} (h : hideRun t = hideRun s) : hideDrain t = hideDrain s :=
  congrArg (fun x : State => hideQueues x) h

theorem hideDrain_signal (s : State) (fn n i : Nat) : hideDrain (signalFast s fn n i) = hideDrain s :=
  hideDrain_of_queues (hideQueues_of_signals (signalFast_keeps ..))

theorem hideDrain_pend (s : State) (fn n i : Nat) : hideDrain (pendFast s fn n i) = hideDrain s := rfl

theorem hideDrain_flush (s : State) : hideDrain (flushSignals s) = hideDrain s :=
  hideDrain_of_queues (hideQueues_of_signals (flushSignals_keeps s))

theorem hideDrain_modFn (s : State) (fn : Nat) (f : Fn → Fn) : hideDrain (modFn s fn f) = hideDrain s := rfl

theorem drainPend_keeps (s : State) (fn : Nat) : hideDrain (drainPend s fn) = hideDrain s := by
  have h1 : hideDrain ((getFn s fn).waiters.foldl (fun t w => pendFast t w 3 fn)
      (modFn s fn fun x => { x with waiters := [] })) = hideDrain s :=
    (foldl_keeps hideDrain (fun t (w : Nat) => pendFast t w 3 fn) (fun t w => hideDrain_pend t w 3 fn) _ _).trans
      (hideDrain_modFn ..)
  unfold drainPend; dsimp only
  generalize (getFn s fn).waiters.foldl (fun t w => pendFast t w 3 fn) (modFn s fn fun x => { x with waiters := [] }) = t at h1
  have h2 : hideDrain (if (getFn s fn).power = .draining then offFn t fn else t) = hideDrain s := by
    split
    · exact (hideDrain_of_queues (offFn_keeps ..)).trans h1
    · exact h1
  split
  · exact h2
  · exact (hideDrain_of_run (okOut_keeps ..)).trans ((hideDrain_modFn ..).trans h2)

theorem drainFn_keeps (s : State) (fn : Nat) : hideDrain (drainFn s fn) = hideDrain s :=
  (hideDrain_flush _).trans (drainPend_keeps s fn)

theorem quenchEffect_keeps (s : State) (c : Cmd) : hideDrain (quenchEffect s c) = hideDrain s := by
  have h := foldl_keeps hideDrain (fun u (q : Nat) => disableSq u (le c.entry 40 2) q)
    (fun t q => hideDrain_of_queues (disableSq_keeps t (le c.entry 40 2) q))
    ((qidsOf s.sqs (le c.entry 40 2)).filter (· != 0)) s
  unfold quenchEffect; dsimp only
  generalize List.foldl (fun u q => disableSq u (le c.entry 40 2) q) s
    ((qidsOf s.sqs (le c.entry 40 2)).filter (· != 0)) = t at h
  have h3 : ∀ n, hideDrain (pendFast (okOut (addWaiter (modFn t (le c.entry 40 2) fun x => { x with quenched := true })
      (le c.entry 40 2) c.fn) c.id n []) c.fn 2 (le c.entry 40 2)) = hideDrain s := fun n =>
    (hideDrain_pend ..).trans ((hideDrain_of_run (okOut_keeps ..)).trans ((hideDrain_modFn ..).trans ((hideDrain_modFn ..).trans h)))
  split
  · exact (drainPend_keeps ..).trans (h3 _)
  · exact h3 _

theorem disableEffect_keeps (s : State) (c : Cmd) : hideDrain (disableEffect s c) = hideDrain s := by
  have h := foldl_keeps hideDrain (fun u (q : Nat) => disableSq u (le c.entry 40 2) q)
    (fun t q => hideDrain_of_queues (disableSq_keeps t (le c.entry 40 2) q)) (qidsOf s.sqs (le c.entry 40 2)) s
  unfold disableEffect; dsimp only
  generalize List.foldl (fun u q => disableSq u (le c.entry 40 2) q) s (qidsOf s.sqs (le c.entry 40 2)) = t at h
  have h3 : ∀ n, hideDrain (okOut (addWaiter (modFn t (le c.entry 40 2) fun x => { x with power := .draining })
      (le c.entry 40 2) c.fn) c.id n []) = hideDrain s := fun n =>
    (hideDrain_of_run (okOut_keeps ..)).trans ((hideDrain_modFn ..).trans ((hideDrain_modFn ..).trans h))
  split
  · exact (drainPend_keeps ..).trans (h3 _)
  · exact h3 _

theorem changeEffect_keeps (s : State) (c : Cmd) : hideDrain (changeEffect s c) = hideDrain s := by
  unfold changeEffect; dsimp only
  split
  · exact hideDrain_of_run (okOut_keeps ..)
  · split
    · exact quenchEffect_keeps ..
    · exact disableEffect_keeps ..

/-! ### Function resets -/

/-- The state without what the reset of a function may change. -/
def hideReset (s : State) : State :=
  { hideDrain s with keys := KeySt.reset, topo := Topo.reset, recorder := RecSt.reset, rng := RngSt.reset, free := 0 }

theorem hideReset_of_drain {s t : State} (h : hideDrain t = hideDrain s) : hideReset t = hideReset s :=
  congrArg (fun x : State => { x with keys := KeySt.reset, topo := Topo.reset, recorder := RecSt.reset, rng := RngSt.reset, free := 0 }) h

theorem hideReset_of_run {s t : State} (h : hideRun t = hideRun s) : hideReset t = hideReset s :=
  hideReset_of_drain (hideDrain_of_run h)

theorem hideReset_of_links {s t : State} (h : hideLinks t = hideLinks s) : hideReset t = hideReset s :=
  congrArg (fun x : State => { hideDrain x with keys := KeySt.reset, recorder := RecSt.reset, rng := RngSt.reset }) h

theorem hideReset_of_recorder {s t : State} (h : hideRecorder t = hideRecorder s) : hideReset t = hideReset s :=
  congrArg (fun x : State => { hideDrain x with keys := KeySt.reset, topo := Topo.reset, rng := RngSt.reset, free := 0 }) h

theorem hideReset_of_masks {s t : State} (h : hideMasks t = hideMasks s) : hideReset t = hideReset s :=
  congrArg (fun x : State => { hideDrain x with topo := Topo.reset, recorder := RecSt.reset, free := 0 }) h

theorem callOff_keeps (s : State) (f : Berth → Bool) : hideReset (callOff s f) = hideReset s := by
  have h : ∀ l : List Move, hideReset (l.foldl (fun (t : State) (m : Move) => linkSend t m.link (.xferAbort m.id)) s) = hideReset s :=
    fun l => foldl_keeps hideReset (fun t (m : Move) => linkSend t m.link (.xferAbort m.id))
      (fun t m => hideReset_of_links (linkSend_keeps t m.link _)) l s
  unfold callOff; dsimp only
  generalize (List.filter (fun m => !m.committed && !m.aborted &&
    (List.filter (fun e => f e.2) s.keys.berths).any fun e => e.1 == m.index) s.topo.moves) = l
  have h := h l
  generalize List.foldl (fun (t : State) (m : Move) => linkSend t m.link (.xferAbort m.id)) s l = t at h
  exact h

theorem abortMoves_keeps (s : State) (fn pos : Nat) : hideReset (abortMoves s fn pos) = hideReset s := by
  unfold abortMoves
  exact (callOff_keeps ..).trans (foldl_keeps hideReset (fun t (e : Nat × Berth) => fail t (e.2.moving.getD 0) .aborted 0x10)
    (fun t e => hideReset_of_run (fail_keeps ..)) _ s)

theorem lateRings_keeps (s : State) (fn : Nat) : hideReset (lateRings s fn) = hideReset s := rfl

theorem hideReset_rings (s : State) (a : Map Sq) (b : Map Cq) (c : Map Fn) :
    hideReset { s with sqs := a, cqs := b, fns := c } = hideReset s := rfl

theorem hideReset_fnEng (s : State) (fn : Nat) (f : Fn → Fn) (c : List (Nat × Nat × BitVec 16)) :
    hideReset { modFn s fn f with eng := { (modFn s fn f).eng with changes := c } } = hideReset s := rfl

theorem resetFn_keeps (s : State) (fn kind : Nat) : hideReset (resetFn s fn kind) = hideReset s := by
  have h1 : ∀ l : List Nat, hideReset (l.foldl endCmd (abortMoves s fn s.topo.position)) = hideReset s := fun l =>
    (foldl_keeps hideReset endCmd (fun t a => hideReset_of_run (endCmd_keeps t a)) l _).trans (abortMoves_keeps ..)
  unfold resetFn; dsimp only
  refine (hideReset_of_recorder (record_keeps ..)).trans ((hideReset_of_links (sendEndFunc_keeps ..)).trans ?_)
  have h2 := (lateRings_keeps _ fn).trans (h1 ((s.cmds.filter fun c => c.fn == fn && c.origin.isNone).map (·.id)))
  generalize lateRings (List.foldl endCmd (abortMoves s fn s.topo.position)
    ((s.cmds.filter fun c => c.fn == fn && c.origin.isNone).map (·.id))) fn = t at h2
  have h3 : ∀ u : State, hideReset u = hideReset s → hideReset (if (getFn s fn).power = .draining || (getFn s fn).quenched then
      (getFn s fn).waiters.foldl (fun t w => if w = fn then t else pendFast t w 3 fn) u else u) = hideReset s := by
    intro u hu
    split
    · exact (foldl_keeps hideReset (fun t (w : Nat) => if w = fn then t else pendFast t w 3 fn)
        (fun t w => by split; exacts [rfl, hideReset_of_drain (hideDrain_pend ..)]) _ _).trans hu
    · exact hu
  have h4 : ∀ u : State, hideReset u = hideReset s → hideReset (match (getFn s fn).heldEnable with
      | some cid => fail u cid .aborted 0x10
      | none => u) = hideReset s := by
    intro u hu
    split
    · exact (hideReset_of_run (fail_keeps ..)).trans hu
    · exact hu
  have w : ∀ u : State, hideReset { modFn (resetHoldings u [fn] s.topo.position) fn resetFnState with
      eng := { (modFn (resetHoldings u [fn] s.topo.position) fn resetFnState).eng with
        changes := (modFn (resetHoldings u [fn] s.topo.position) fn resetFnState).eng.changes.filter
          fun e => !(e.1 == 1 && e.2.1 == fn) } } = hideReset u := fun u =>
    (hideReset_fnEng ..).trans (hideReset_of_masks (resetHoldings_keeps ..))
  refine (w _).trans (h4 _ (h3 _ ?_))
  exact (hideReset_rings t _ _ _).trans h2

/-- The state without what the reset of a port may change. -/
def hidePort (s : State) : State := { hideReset s with boot := BootSt.reset }

theorem hidePort_of_reset {s t : State} (h : hideReset t = hideReset s) : hidePort t = hidePort s :=
  congrArg (fun x : State => { x with boot := BootSt.reset }) h

theorem hidePort_modFn (s : State) (fn : Nat) (f : Fn → Fn) : hidePort (modFn s fn f) = hidePort s := rfl

theorem resetPortNow_keeps (s : State) (p : Nat) : hidePort (resetPortNow s p) = hidePort s := by
  unfold resetPortNow; dsimp only
  have h := (foldl_keeps hidePort (fun t (f : Nat) => modFn (resetFn (flrWrite t f) f 1) f fun x => { x with late := [] })
    (fun t f => (hidePort_modFn (resetFn (flrWrite t f) f 1) f _).trans
      ((hidePort_of_reset (resetFn_keeps (flrWrite t f) f 1)).trans (hidePort_modFn t f _))) (portFns s p)
      (resetHoldings s (portFns s p) s.topo.position)).trans (hidePort_of_reset (hideReset_of_masks (resetHoldings_keeps ..)))
  generalize (portFns s p).foldl (fun t f => modFn (resetFn (flrWrite t f) f 1) f fun x => { x with late := [] })
    (resetHoldings s (portFns s p) s.topo.position) = t at h
  have h2 := (foldl_keeps hidePort ceaseVf (fun _ _ => rfl) ((portFns s p).filter fun f => vfOf f != 0) t).trans h
  generalize ((portFns s p).filter fun f => vfOf f != 0).foldl ceaseVf t = u at h2
  split <;> exact (rfl : _ = hidePort u).trans h2

theorem takePort_keeps (s : State) (p : Nat) : hidePort (takePort s p) = hidePort s :=
  (rfl : _ = hidePort (resetPortNow s p)).trans (resetPortNow_keeps s p)

theorem loadLater_keeps (s : State) (c : Cmd) : hidePort (loadLater s c) = hidePort s := by
  unfold loadLater storePlan; dsimp only
  repeat' split
  · exact (hidePort_of_reset (hideReset_of_run (fail_keeps ..))).trans rfl
  · exact (hidePort_of_reset (hideReset_of_run (okOut_keeps ..))).trans rfl
  · rfl

theorem commandEffect_keeps (s : State) (c : Cmd) : hidePort (commandEffect s c) = hidePort s := by
  unfold commandEffect; split
  · exact loadLater_keeps ..
  · exact hidePort_of_reset (hideReset_of_drain (changeEffect_keeps s c))

theorem flrEffects_keeps (s : State) : hidePort (flrEffects s) = hidePort s :=
  foldl_keeps hidePort (fun t (f : Nat) => resetFn t f 0) (fun t f => hidePort_of_reset (resetFn_keeps t f 0)) _ s

theorem heldEffects_keeps (s : State) : hidePort (heldEffects s) = hidePort s := by
  unfold heldEffects; dsimp only
  have w : ∀ (u : State) x, hidePort { u with eng := { u.eng with changes := x } } = hidePort u := fun _ _ => rfl
  refine (w _ _).trans ?_
  refine (foldl_keeps hidePort classEffect (fun t a => rfl) _ _).trans ?_
  refine (foldl_keeps hidePort takePort takePort_keeps _ _).trans ?_
  refine (flrEffects_keeps _).trans ?_
  exact foldl_keeps hidePort commandEffect commandEffect_keeps _ s

theorem heldFaults_keeps (s : State) : hideRun (heldFaults s) = hideRun s := by
  unfold heldFaults; dsimp only
  refine (rfl : _ = hideRun (s.eng.faulted.foldl heldFault s)).trans (foldl_keeps hideRun heldFault (fun t e => ?_) _ s)
  exact foldl_keeps hideRun (fun t (c : Cmd) => faultCmd t c.id e.2.2 e.1 e.2.1) (fun t c => faultCmd_keeps ..) _ t

/-! ### Modes -/

/-- The state without its mode and what entry to Held may change. -/
def hideMode (s : State) : State := { hidePort s with sys := Sys.reset, lc := LcSt.reset .blank false }

theorem hideMode_of_port {s t : State} (h : hidePort t = hidePort s) : hideMode t = hideMode s :=
  congrArg (fun x : State => { x with sys := Sys.reset, lc := LcSt.reset .blank false }) h

theorem hideMode_of_reset {s t : State} (h : hideReset t = hideReset s) : hideMode t = hideMode s :=
  hideMode_of_port (hidePort_of_reset h)

theorem enterHeld_keeps (s : State) (a : Bool) : hideMode (enterHeld s a) = hideMode s := by
  unfold enterHeld; dsimp only
  exact (hideMode_of_port (heldEffects_keeps ..)).trans ((hideMode_of_reset (hideReset_of_run (heldFaults_keeps ..))).trans
    ((hideMode_of_reset (hideReset_of_recorder (recordMode_keeps ..))).trans rfl))

theorem closeScope_keeps (s : State) : hideMode (closeScope s) = hideMode s := by
  unfold closeScope
  split
  · rfl
  · refine Eq.trans ?_ (rfl : hideMode { s with lc := { s.lc with scope := 0, byOwner := false, units := [] } } = hideMode s)
    unfold scopeClosed; split
    · rfl
    · exact hideMode_of_reset (hideReset_of_recorder (record_keeps ..))

theorem enterLockdown_keeps (s : State) (c : BitVec 4) : hideMode (enterLockdown s c) = hideMode s := by
  unfold enterLockdown; dsimp only
  have h0 := hideMode_of_port (foldl_keeps hidePort takePort takePort_keeps (portsWaiting s) s)
  generalize (portsWaiting s).foldl takePort s = u at h0
  have hf : hideMode (flushSignals u) = hideMode u :=
    hideMode_of_reset (hideReset_of_drain (hideDrain_flush u))
  have h := (closeScope_keeps (setMode (flushSignals u) .lockdown c)).trans
    ((rfl : _ = hideMode (flushSignals u)).trans (hf.trans h0))
  generalize closeScope (setMode (flushSignals u) .lockdown c) = t at h
  exact h

/-- What every power state keeps: OTP, user NVM and the backup domain. -/
def lasting (s : State) : Otp × List Host.Cell × Backup := (s.otp, s.nvm.user, s.backup)

theorem lasting_of_recorder {s t : State} (h : hideRecorder t = hideRecorder s) : lasting t = lasting s := by
  have e : ∀ x : State, lasting (hideRecorder x) = lasting x := fun _ => rfl
  rw [← e t, ← e s, h]

theorem lasting_of_nvm {s t : State} (h : hideNvm t = hideNvm s) : lasting t = lasting s := by
  have e : ∀ x : State, lasting (hideNvm x) = lasting x := fun _ => rfl
  rw [← e t, ← e s, h]

theorem lasting_of_mode {s t : State} (h : hideMode t = hideMode s) : lasting t = lasting s := by
  have e : ∀ x : State, lasting (hideMode x) = lasting x := fun _ => rfl
  rw [← e t, ← e s, h]

theorem clearWorking_lasting (s : State) : lasting (clearWorking s) = lasting s := rfl

theorem recordClear_lasting (s : State) (level phase : Nat) : lasting (recordClear s level phase) = lasting s :=
  lasting_of_recorder (record_keeps ..)

theorem startErase_lasting (s : State) : lasting (startErase s) = lasting s := by
  have h := lasting_of_nvm (writeMark_keeps s 3 1)
  unfold startErase; dsimp only
  generalize writeMark s 3 1 = t at h
  exact h

/-- The responses of alarms that clear keys write, of OTP, user NVM and the backup domain, nothing. -/
theorem clearAndLock_lasting (s : State) (level : Nat) : lasting (clearAndLock s level) = lasting s := by
  have h : ∀ u c, lasting (recordMode (enterLockdown u c)) = lasting u := fun u c =>
    (lasting_of_recorder (recordMode_keeps _)).trans (lasting_of_mode (enterLockdown_keeps u c))
  unfold clearAndLock
  split
  · rw [startErase_lasting, h, clearWorking_lasting, recordClear_lasting]
  · rw [recordClear_lasting, h, clearWorking_lasting, recordClear_lasting]

theorem clearAndLock_keeps (s : State) (level : Nat) :
    (clearAndLock s level).otp = s.otp ∧ (clearAndLock s level).nvm.user = s.nvm.user ∧ (clearAndLock s level).backup = s.backup := by
  simpa only [lasting, Prod.mk.injEq] using clearAndLock_lasting s level

end Sys2Proof.Machine
end

