-- ==== Sys2Proof/Tests/Slice0.lean ====
section
/-!
SUPPORT. Tests: ill-formed commands, words of vector instructions written out from Table 74, the spec's own examples, and
for every obligation a state and operands that meet the hypotheses of each of its clauses (`meets_<Obligation>`).
-/

set_option Elab.async false

open Sys2Proof Sys2Proof.Machine Sys2Proof.Claims

namespace Sys2Proof.Tests

/-! ### Small states -/

/-- A submission queue entry: an opcode and fields (offset, width, value). -/
def ent (op : Nat) (fs : List (Nat × Nat × Nat)) : Bytes :=
  fs.foldl (fun b f => overwrite b f.1 (leBytes f.2.1 f.2.2)) (overwrite (zeros 64) 0 (leBytes 2 op))

/-- A function that may issue requests and whose BAR is open. -/
def fnUp : Fn := { Fn.reset false true with bme := true, mse := true }

/-- A host port whose link is up. -/
def portOn : Port := { Port.reset with linkUp := true, speed := 5, width := 8 }

/-- The RNG in READY with eight instances. -/
def rngUp : RngSt := { RngSt.reset with state := .ready, sampling := true, inst := List.replicate 8 ([], 0) }

/-- The device in Service with its keeper queue open. -/
def up : State :=
  { State.reset with
    sys := { State.reset.sys with mode := .service, prev := .boot, cause := 1, isolated := false, tbclk := true,
                                  tick := 1000000000 },
    fns := [(0, fnUp)], ports := Vector.replicate 8 portOn, eng := { Eng.reset with inService := true, walking := true },
    sqs := [(0, Sq.fresh 0 64 0 .enabled)], cqs := [(0, Cq.fresh 0 64 64 0)],
    rng := rngUp, recorder := { RecSt.reset with mounted := true }, nextId := 2,
    lc := LcSt.reset .owned false, time := { TimeSt.reset with anchored := true, epoch := 1 } }

/-- Command 1, accepted from the keeper SQ of function 0. -/
def cmdOf (op : Nat) (fs : List (Nat × Nat × Nat)) : Cmd := { newCmd up 0 0 0 (ent op fs) with id := 1, phase := .run }

/-- The device with that one command. -/
def on (c : Cmd) : State := { up with cmds := [c] }

def berth0 : Berth :=
  { owner := 0, ownerPos := 0, roleEpoch := 0, bflags := 2, lock0 := false, lock1 := false, slot0 := some 5, slot1 := none,
    chainHead := zeros 48, nextSeq := 3, lastEpoch := 1, resume := false, done := 0, failed := 0, inBytes := 0,
    opAllow := BitVec.ofNat 64 (2 ^ 40 - 1), pflags := 0, label := zeros 16, spilled := false, version := 0, used := 0,
    freeing := false, incoming := none, moving := none }
def key0 (typ len : Nat) (priv : Bool) : Key :=
  { typ := typ, origin := 1, priv := priv, destroyPending := false, markId := 0, len := len,
    shareA := List.replicate len 0x11, shareB := zeros len, attrMask := zeros 32, owner := 0,
    ownerPos := 0, share := [0, 0, 0, 0], wholePort := false, attr := 7, uses := 0x7FF, lcMask := 0x3F, tail := [],
    spilled := false, version := 0, used := 0 }
/-- Command 1 at its end, with input `d`, on berth 9 and the key at granule 5. -/
def opCmd (op : Nat) (fs : List (Nat × Nat × Nat)) (d : Bytes) : Cmd :=
  { cmdOf op ((8, 4, mkHandle 0 0 9) :: (24, 4, d.length) :: fs) with input := some d, keyA := some 5, berth := some 9 }
def opOn (c : Cmd) (k : Key) : State :=
  { on c with keys := { up.keys with keys := [(5, k)], berths := [(9, berth0)] } }
def drawn (s : State) (n : Nat) : Bytes × State := (draw s n).getD ([], s)
/-- The input randomness command `c` draws. -/
def dr (s : State) (c : Cmd) : Bytes × State :=
  if rndNeed s c.entry c.keyA c.keyB = 0 then ([], s) else drawn s (rndNeed s c.entry c.keyA c.keyB)
theorem drew (s : State) (c : Cmd) (h : c.rnd = none) (h2 : (draw s (rndNeed s c.entry c.keyA c.keyB)).isSome = true) :
    Drew s c (dr s c).1 (dr s c).2 := by
  unfold Drew dr drawn
  rw [h]
  obtain ⟨x, hx⟩ := Option.isSome_iff_exists.mp h2
  by_cases h3 : rndNeed s c.entry c.keyA c.keyB = 0 <;> simp [h3, hx]

/-- The plane whose 64 lanes all hold `a`. -/
def flat (a : Nat) : BitVec 768 := BitVec.ofNat 768 (a * ((2 ^ 768 - 1) / 4095))

/-- A vector engine in a segment at order `d`: V<i> holds 100 i, 2, 3 in its planes; Q0 holds 3329 and Q2 8380417. -/
def lve0 (d : Nat) : Lve :=
  { cid := 1, seg := 0, v := Vector.ofFn fun i => { p0 := flat (if i.val = 9 then 3 else 100 * i.val), p1 := flat 2, p2 := flat 3 },
    p := Vector.ofFn fun i => if i.val = 0 then BitVec.allOnes 64 else BitVec.ofNat 64 (0xF0F0F0F0F0F0F0F0 + i.val),
    s := Vector.ofFn fun i => BitVec.ofNat 32 (8 * i.val), q := #v[some (modulusOf 3329), none, some (modulusOf 8380417), none], d := d,
    masked := decide (d ≠ 0), limit := 100, steps := 0, pc := 0, halted := false, seeds := [],
    maskPos := 0 }

/-- A vector segment of one instruction. -/
def lveSeg : Seg := { kind := 1, grouped := false, masked := false, steps := 100, off := 0, len := 8, dec := none }

/-- A plan whose segment holds one instruction, followed by zeros. -/
def lveCmd (i : Instr) : Cmd :=
  { cmdOf 0x0801 [] with
    input := some [], body := leBytes 8 ((lveEncode i).getD 0) ++ zeros 504, segs := [lveSeg], pos := 1,
    running := [(1, 0)], runSegs := [0], hold := [(1, 0, 4096)] }

/-- The device with that instruction next on engine 0. -/
def lveOn (i : Instr) (d : Nat) : State := { on (lveCmd i) with eng := { up.eng with lves := [(0, lve0 d)] } }

/-- Operands with the instruction's immediate, guarded by P1. -/
def fa (w : Bool) (qm : Fin 4) (vb : Fin 32) (imm : Word) : FmtA :=
  { w := w, pg := 1, pz := false, qm := qm, vd := 3, va := 5, vb := vb, imm := imm }

/-- A record sealed by the device opens. -/
theorem opens (iv b : Bytes) : openPersist (sealPersist iv b) ≠ none := by
  simp [openPersist_seal]

namespace Hand

/-! #### Ill-formed commands: one for each check -/

/-- Commands each of which breaks one range of `Instr.wf`. -/
theorem test_ill_formed :
    ([.devSoftReset 1024 0 [], .d3hotToD0 1024, .otpLc [(3, 0)], .otpLc [(0, 8)], .sqDoorbellRead 1024 0 (zeros 64),
      .sqDoorbellRead 0 4096 (zeros 64), .sqDoorbellRead 0 0 [], .pushWrite 0 1048576 (.good [0]), .pushWrite 0 0 (.good []), .pushWrite 1024 0 .poisoned,
      .planCopyIn 4294967296, .keyDestroyZeroise 131072, .segmentEnd 1 0 (.done 0 []), .segmentEnd 1 7 (.done 0 []),
      .segmentEnd 1 2 .checkFailed, .sramCorrected 0 1048576, .sramUncorrectable (.keyRegister 3) 32, .engineStall 1 32, .engineStall 2 96, .engineStall 3 24, .engineStall 4 4, .engineStall 5 8,
      .engineStall 6 16, .engineStall 7 0, .berthSpill 65536, .moderationTimer 0 4096, .wakeHoldExpire 0 2048,
      .registerWrite 0 131072 (.good [0]), .registerWrite 0 0 (.good []), .registerWrite 1024 0 .badEcrc,
      .tbNowLoRead ⟨1024, 0, 4⟩, .calNowLoRead ⟨0, 0, 0⟩, .tbNowLoRead ⟨0, 131069, 4⟩, .calNowLoRead ⟨0, 0, 4097⟩,
      .perstNRelease ⟨0, 0, 8⟩, .perstNRelease ⟨0, 6, 8⟩, .hotReset (.trained ⟨0, 5, 3⟩), .segmentEnd 1 1 (.wrote [(0, [1])]),
      .segmentEnd 1 2 (.wrote [(524288, [1])]), .ucodeCheck [(65536, 0)]] : List Instr).all (fun i => !i.wf) = true := by decide

theorem test_ill_formed_links :
    ([.linkTrained 0 0xFF 8 2, .linkTrained 0 0xFF 1 0, .linkTrained 0 0xFF 1 9, .cmd ⟨0, 1⟩ 1 0 true 0 [] .good,
      .done ⟨0, 1⟩ 1 65536 0 0 .good, .endFunc ⟨0, 1, .good⟩ 1024 0, .endFunc ⟨0, 1, .good⟩ 0 3] : List Instr).all (fun i => !i.wf) = true := by decide

theorem test_well_formed : (Instr.engineStall 2 95).wf = true ∧ (Instr.registerWrite 1023 131071 (.good [0])).wf = true ∧
    (Instr.tbNowLoRead ⟨1023, 131068, 4⟩).wf = true ∧ (Instr.hotReset (.trained ⟨7, 5, 8⟩)).wf = true := by decide

/-! #### The interface of a table without bits -/

theorem test_no_word_spells (n w : Nat) : decodeTableWord n w = none := rfl

theorem test_fetch_word (s : State) (n w : Nat) : s.withFetchWord n w = s := rfl

/-! #### Words of vector instructions, field by field from Table 74 -/

/-- VBFLY, W = 0, PG = 1, PZ = 1, QM = 1, VD = 3, VA = 5, IMM = SB 2, SP 1, DISP 0x40. -/
theorem test_word_vbfly :
    lveDecode 0 (0x17 * 2 ^ 56 + 0 * 2 ^ 55 + 1 * 2 ^ 52 + 1 * 2 ^ 51 + 1 * 2 ^ 49 + 3 * 2 ^ 44 + 5 * 2 ^ 39 + (2 * 2 ^ 28 + 2 ^ 27 + 0x40))
      = some (.vbfly 0 { w := false, pg := 1, pz := true, qm := 1, vd := 3, va := 5, vb := 0, imm := 0x28000040 }) := by decide

/-- VMADD, W = 1, PG = 7, QM = 2, VD = 31, VA = 16, VB = 1. -/
theorem test_word_vmadd :
    lveDecode 0 (0x12 * 2 ^ 56 + 2 ^ 55 + 7 * 2 ^ 52 + 2 * 2 ^ 49 + 31 * 2 ^ 44 + 16 * 2 ^ 39 + 1 * 2 ^ 34)
      = some (.vmadd 0 { w := true, pg := 7, pz := false, qm := 2, vd := 31, va := 16, vb := 1, imm := 0 }) := by decide

/-- VGTH, W = 0, PG = 1, VD = 6, VI = 5, NF = 1, SP = 0, SB = 9, DISP = 0x4000. -/
theorem test_word_vgth :
    lveDecode 0 0x5210628900004000
      = some (.vgth 0 { w := false, pg := 1, pz := false, pl := 0, vd := 6, vi := 5, nf := 0, sp := false, sb := 9, disp := 0x4000 }) := by decide

/-- SALU, SD = 1, SA = 2, SB = 3, FN = 7, I = 1, IMM = 5. -/
theorem test_word_salu :
    lveDecode 0 (0x61 * 2 ^ 56 + 1 * 2 ^ 52 + 2 * 2 ^ 48 + 3 * 2 ^ 44 + 7 * 2 ^ 40 + 2 ^ 39 + 5)
      = some (.salu 0 { sd := 1, sa := 2, sb := 3, fn := 7, i := true, imm := 5 }) := by decide

/-- An opcode outside Table 75, and a reserved bit of each format. -/
theorem test_word_refused :
    lveDecode 0 (0x27 * 2 ^ 56) = none ∧ lveDecode 0 (0x10 * 2 ^ 56 + 2 ^ 32) = none ∧ lveDecode 0 (0x50 * 2 ^ 56 + 2 ^ 23) = none
      ∧ lveDecode 0 (0x60 * 2 ^ 56 + 2 ^ 38) = none := by decide

/-! #### The spec's examples -/

/-- One instruction at order 0 over lanes that hold `x` in V3 and `y` in V5, Q0 = 3329, Q2 = 8380417 and the frame `fr`:
lane 0 of V<r> after it. -/
def lane0 (i : Instr) (x y : Nat) (fr : List Host.Cell) (r : Nat) (w : Bool) : Option Nat :=
  let s := lveOn i 0
  let s1 : State := { s with
    cmds := [{ lveCmd i with frame := fr }]
    eng := { s.eng with lves := [(0, { lve0 0 with v := Vector.ofFn fun j =>
      if j.val = 3 then { p0 := BitVec.ofNat 768 x, p1 := 0, p2 := 0 }
      else if j.val = 5 then { p0 := BitVec.ofNat 768 y, p1 := 0, p2 := 0 } else { p0 := 0, p1 := 0, p2 := 0 } })] } }
  match exec i s1 with
  | .next t => (Map.get? t.eng.lves 0).map fun l => laneOf w (getV l r).p0 0
  | _ => none

/-- VBFLY on 1,000 and 2,000 with twiddle 17 gives 1,710 and 290. -/
theorem test_vbfly :
    lane0 (.vbfly 0 (fa false 0 0 0x40)) 1000 2000 [(0x40, 17)] 3 false = some 1710
      ∧ lane0 (.vbfly 0 (fa false 0 0 0x40)) 1000 2000 [(0x40, 17)] 5 false = some 290 := by decide +kernel

/-- VCMPR with dd = 10 turns 1,710 into 526; VDCMPR turns 526 into 1,710. -/
theorem test_vcmpr :
    lane0 (.vcmpr 0 (fa false 0 0 10)) 0 1710 [] 3 false = some 526
      ∧ lane0 (.vdcmpr 0 (fa false 0 0 10)) 0 526 [] 3 false = some 1710 := by decide +kernel

/-- VDEC with γ2 = 261,888: 1,000,000 gives 2 and 8,332,865; 8,380,000 gives 0 and 8,380,000. -/
theorem test_vdec :
    lane0 (.vdec 0 (fa true 2 0 261888)) 0 1000000 [] 3 true = some 2
      ∧ lane0 (.vdec 0 (fa true 2 0 261888)) 0 1000000 [] 4 true = some 8332865
      ∧ lane0 (.vdec 0 (fa true 2 0 261888)) 0 8380000 [] 3 true = some 0
      ∧ lane0 (.vdec 0 (fa true 2 0 261888)) 0 8380000 [] 4 true = some 8380000 := by decide +kernel

/-- The calendar half a second past 976,543,210 s, read 1,500 and 3,100 ticks after the anchor. -/
theorem test_time64 :
    time64At (BitVec.ofNat 40 976543210) 16384 100 100 = 0x003A34DDEA800000
      ∧ time64At (BitVec.ofNat 40 976543210) 16384 100 1600 = 0x003A34DDEA8000FB
      ∧ time64At (BitVec.ofNat 40 976543210) 16384 100 3200 = 0x003A34DDEA8001FF := by decide

/-- The move to RETURN of the life-cycle example: codes in slots 0 to 3 of each copy. -/
theorem test_life_cycle :
    let c : List (BitVec 16) := [0x00FF, 0xFF00, 0x0F0F, 0xF0F0, 0, 0, 0, 0]
    let s : State := { up with otp := { up.otp with lcA := c, lcB := c, lcC := c }, lc := { up.lc with state := .ret } }
    regValue s 0 0x2804 = 0x04440CCC ∧ regValue s 0 0x2800 = 0xF0F00004 ∧ (lcDecode s.otp).1 = .ret := by decide +kernel

/-- DEV_ENGINES of the engine complement of Table 63. -/
theorem test_dev_engines : regValue up 0 0x000C = 0x21131820 := by decide +kernel

/-! #### Witnesses of statements over words, steps and runs -/

theorem meets_LveDecodeOfEncode : lveEncode (.vadd 0 (fa true 0 7 0)) = some 0x1090329C00000000 := by decide

theorem meets_LveEncodeOfDecode : 0x5210628900004000 < 2 ^ 64 ∧ (lveDecode 0 0x5210628900004000).isSome = true := by decide

theorem meets_UserNvmStaysCanonical : memWf userBlank State.reset.nvm.user = true ∧ ∃ t, step State.reset = .next t :=
  ⟨by decide, _, rfl⟩

theorem meets_FusesStayBlown : ∃ s t : State, step s = .next t ∧ s.otp.fuseA.getLsbD 3 = true ∧ s.otp.fuseB.getLsbD 3 = true :=
  ⟨{ State.reset with otp := { State.reset.otp with fuseA := 8, fuseB := 8 } }, _, rfl, by decide, by decide⟩

end Hand

/-! ### Witnesses for the statements -/

namespace Lanes

def g1 : FmtS := { sd := 15, sa := 0, sb := 0, fn := 0, i := false, imm := 0xFFFFFFFF }
def g2 : FmtS := { sd := 15, sa := 3, sb := 9, fn := 0, i := false, imm := 0 }
def g3 : FmtS := { sd := 5, sa := 9, sb := 0, fn := 0, i := false, imm := 8 }
def m1 : FmtM := { w := false, pg := 1, pz := false, pl := 1, vd := 3, vi := 0, nf := 2, sp := false, sb := 0, disp := 64 }
def m2 : FmtM := { w := false, pg := 1, pz := false, pl := 0, vd := 3, vi := 9, nf := 1, sp := true, sb := 0, disp := 8 }
def m3 : FmtM := { w := false, pg := 0, pz := false, pl := 1, vd := 3, vi := 4, nf := 0, sp := false, sb := 0, disp := 64 }
def far : FmtM := { m1 with disp := 4048 }
def odd : FmtM := { m2 with disp := 9 }
def long : FmtM := { m3 with disp := 4088 }
def high : FmtM := { m1 with pl := 3 }
def highP : FmtM := { m3 with pl := 3 }
def m4 : FmtM := { w := false, pg := 1, pz := false, pl := 1, vd := 3, vi := 9, nf := 1, sp := false, sb := 0, disp := 8 }

/-- The instruction is next on engine 0 at order `d`. -/
abbrev Ready (i : Instr) (d : Nat) : Prop := lveReady (lveOn i d) 0 i = some (lveCmd i, lve0 d)

theorem modulus_is {l : Lve} {f : FmtA} {q : Nat} (h : modulus l f = some q ∧ 3 ≤ q ∧ q % 2 = 1) : ModulusIs l f q := h

theorem access_ok {l : Lve} {f : FmtM} {P : Nat → Nat → Prop} (h : ∀ e < 64, ∀ k < 4, active l f.pg.val e = true → P e k) :
    ∀ e k, e < laneCount f.w → active l f.pg.val e = true → k ≤ f.nf.val → P e k :=
  fun e k he ha hk => h e (by unfold laneCount at he; split at he <;> omega) k (by omega) ha

theorem below_ok {l : Lve} {f : FmtM} {ix : Bool} {limit i : Nat}
    (h : ∀ j < i, ∀ k < 4, active l f.pg.val j = true → k ≤ f.nf.val →
      elemAddr l f ix j k % elemBytes f.w = 0 ∧ elemAddr l f ix j k + elemBytes f.w ≤ limit) :
    ∀ j k, j < i → active l f.pg.val j = true → k ≤ f.nf.val →
      elemAddr l f ix j k % elemBytes f.w = 0 ∧ elemAddr l f ix j k + elemBytes f.w ≤ limit :=
  fun j k hj ha hk => h j hj k (by omega) ha hk

theorem meets_LaneArithmetic :
    Ready (.nop 0 { fa false 0 0 0 with pg := 0, vd := 0, va := 0 }) 2 ∧
    Ready (.vadd 0 (fa false 0 7 0)) 0 ∧
    Ready (.vsub 0 (fa false 0 7 0)) 0 ∧
    Ready (.vand 0 (fa false 0 7 0)) 0 ∧
    Ready (.vor 0 (fa false 0 7 0)) 0 ∧
    Ready (.vxor 0 (fa false 0 7 0)) 2 ∧
    Ready (.vshl 0 (fa false 0 0 11)) 0 ∧
    Ready (.vshr 0 (fa false 0 0 11)) 0 ∧
    Ready (.vmov 0 (fa false 0 0 0)) 2 ∧
    (Ready (.vsadd 0 (fa false 0 7 0)) 0 ∧ BitVec.getLsbD (fa false 0 7 0).imm 0 = false) ∧
    (Ready (.vsadd 0 (fa false 0 7 1)) 0 ∧ BitVec.getLsbD (fa false 0 7 1).imm 0 = true) ∧
    (Ready (.vssub 0 (fa false 0 7 0)) 0 ∧ BitVec.getLsbD (fa false 0 7 0).imm 0 = false) ∧
    (Ready (.vssub 0 (fa false 0 7 1)) 0 ∧ BitVec.getLsbD (fa false 0 7 1).imm 0 = true) ∧
    (Ready (.vrshr 0 (fa false 0 0 3)) 0 ∧ BitVec.getLsbD (fa false 0 0 3).imm 8 = false ∧ bits (BitVec.toNat (fa
      false 0 0 3).imm) 0 5 ≠ 0) ∧
    (Ready (.vrshr 0 (fa false 0 0 259)) 0 ∧ BitVec.getLsbD (fa false 0 0 259).imm 8 = true ∧ bits (BitVec.toNat (fa
      false 0 0 259).imm) 0 5 ≠ 0) ∧
    (Ready (.vrshr 0 (fa false 0 0 0)) 0 ∧ bits (BitVec.toNat (fa false 0 0 0).imm) 0 5 = 0) ∧
    Ready (.vcacc 0 (fa false 0 0 1000)) 0 ∧
    Ready (.vsel 0 (fa false 0 7 0)) 2 := by
  and_intros <;> first | decide +kernel | rfl

theorem meets_ModularLanes :
    (ModulusIs (lve0 2) (fa false 0 7 0) 3329 ∧ Ready (.vmadd 0 (fa false 0 7 0)) 2) ∧
    (ModulusIs (lve0 2) (fa false 0 7 0) 3329 ∧ Ready (.vmsub 0 (fa false 0 7 0)) 2) ∧
    (ModulusIs (lve0 2) (fa false 0 0 256) 3329 ∧ Ready (.vmmult 0 (fa false 0 0 256)) 2 ∧ TableOk (lveCmd (.vmmult 0
      (fa false 0 0 256))) (lve0 2) (fa false 0 0 256)) ∧
    (ModulusIs (lve0 2) (fa false 0 0 256) 3329 ∧ Ready (.vbfly 0 (fa false 0 0 256)) 2 ∧ TableOk (lveCmd (.vbfly 0
      (fa false 0 0 256))) (lve0 2) (fa false 0 0 256) ∧ (fa false 0 0 256).vd ≠ (fa false 0 0 256).va) ∧
    (ModulusIs (lve0 2) (fa false 0 0 256) 3329 ∧ Ready (.vibfly 0 (fa false 0 0 256)) 2 ∧ TableOk (lveCmd (.vibfly 0
      (fa false 0 0 256))) (lve0 2) (fa false 0 0 256) ∧ (fa false 0 0 256).vd ≠ (fa false 0 0 256).va) ∧
    (ModulusIs (lve0 2) { fa false 0 0 256 with va := 3 } 3329 ∧ Ready (.vbfly 0 { fa false 0 0 256 with va := 3 }) 2
      ∧ TableOk (lveCmd (.vbfly 0 { fa false 0 0 256 with va := 3 })) (lve0 2) { fa false 0 0 256 with va := 3 } ∧ {
      fa false 0 0 256 with va := 3 }.vd = { fa false 0 0 256 with va := 3 }.va) ∧
    (ModulusIs (lve0 2) { fa false 0 0 256 with va := 3 } 3329 ∧ Ready (.vibfly 0 { fa false 0 0 256 with va := 3 })
      2 ∧ TableOk (lveCmd (.vibfly 0 { fa false 0 0 256 with va := 3 })) (lve0 2) { fa false 0 0 256 with va := 3 } ∧
      { fa false 0 0 256 with va := 3 }.vd = { fa false 0 0 256 with va := 3 }.va) := by
  and_intros <;> first | decide +kernel | rfl | exact modulus_is (by decide +kernel) | (unfold TableOk; decide +kernel)

theorem meets_GadgetsUnshare :
    ((lve0 2).d ≤ 2 ∧ ModulusIs (lve0 2) (fa false 0 7 0) 3329 ∧ Ready (.vmmul 0 (fa false 0 7 0)) 2) ∧
    ((lve0 2).d ≤ 2 ∧ ModulusIs (lve0 2) { fa false 0 7 0 with pg := 0 } 3329 ∧ Ready (.vmmulm 0 { fa false 0 7 0
      with pg := 0 }) 2) ∧
    ((lve0 2).d ≤ 2 ∧ ModulusIs (lve0 2) (fa false 0 0 10) 3329 ∧ Ready (.vcmpr 0 (fa false 0 0 10)) 2) ∧
    ((lve0 2).d ≤ 2 ∧ ModulusIs (lve0 2) (fa false 0 0 10) 3329 ∧ Ready (.vdcmpr 0 (fa false 0 0 10)) 2) ∧
    ((lve0 2).d ≤ 2 ∧ ModulusIs (lve0 2) (fa false 0 0 0) 3329 ∧ Ready (.vb2a 0 (fa false 0 0 0)) 2) ∧
    ((lve0 2).d ≤ 2 ∧ ModulusIs (lve0 2) (fa false 0 0 0) 3329 ∧ Ready (.va2b 0 (fa false 0 0 0)) 2) ∧
    ((lve0 2).d ≤ 2 ∧ ModulusIs (lve0 2) (fa false 0 0 0) 3329 ∧ Ready (.vref 0 (fa false 0 0 0)) 2 ∧ BitVec.getLsbD
      (fa false 0 0 0).imm 0 = false) ∧
    ((lve0 2).d ≤ 2 ∧ BitVec.getLsbD (fa false 0 0 1).imm 0 = true ∧ Ready (.vref 0 (fa false 0 0 1)) 2) := by
  and_intros <;> first | decide +kernel | rfl | exact modulus_is (by decide +kernel)

theorem meets_DecompositionPairs :
    ((lve0 2).d ≤ 2 ∧ ModulusIs (lve0 2) { fa true 2 0 13 with pg := 0 } 8380417 ∧ Ready (.vp2r 0 { fa true 2 0 13
      with pg := 0 }) 2) ∧
    ((lve0 2).d ≤ 2 ∧ ModulusIs (lve0 2) { fa true 2 0 261888 with pg := 0 } 8380417 ∧ Ready (.vdec 0 { fa true 2 0
      261888 with pg := 0 }) 2 ∧ 0 < BitVec.toNat { fa true 2 0 261888 with pg := 0 }.imm % 2 ^ 24 ∧ 2 *
      (BitVec.toNat { fa true 2 0 261888 with pg := 0 }.imm % 2 ^ 24) < 8380417) ∧
    ((lve0 2).d ≤ 2 ∧ ModulusIs (lve0 2) { fa true 2 0 4190209 with pg := 0 } 8380417 ∧ Ready (.vdec 0 { fa true 2 0
      4190209 with pg := 0 }) 2 ∧ 8380417 ≤ 2 * (BitVec.toNat { fa true 2 0 4190209 with pg := 0 }.imm % 2 ^ 24)) := by
  and_intros <;> first | decide +kernel | rfl | exact modulus_is (by decide +kernel)

theorem meets_PublicLanes :
    Ready (.vli 0 { fa false 0 0 4095 with va := 0 }) 2 ∧
    Ready (.viota 0 ({ w := false, pg := 1, pz := true, qm := 0, vd := 3, va := 0, vb := 0, imm := 4090 } : FmtA)) 2 ∧
    Ready (.vbcast 0 (fa false 0 0 0)) 2 ∧
    (Ready (.vunmask 0 (fa false 0 0 1)) 2 ∧ BitVec.getLsbD (fa false 0 0 1).imm 0 = true) ∧
    (modulus (lve0 2) (fa false 0 0 0) = some 3329 ∧ Ready (.vunmask 0 (fa false 0 0 0)) 2 ∧ BitVec.getLsbD (fa false
      0 0 0).imm 0 = false) ∧
    Ready (.vext 0 { fa false 0 0 63 with pg := 0 }) 2 := by
  and_intros <;> first | decide +kernel | rfl

theorem meets_PredicateInstructions :
    Ready (.vcmp 0 { fa false 0 7 0 with vd := 2 }) 2 ∧
    Ready (.vcmpi 0 { fa false 0 0 458752 with vd := 2 }) 2 ∧
    (modulus (lve0 2) { fa false 0 0 1000 with vd := 2 } = some 3329 ∧ Ready (.vnorm 0 { fa false 0 0 1000 with vd :=
      2 }) 2) ∧
    Ready (.plog 0 { fa false 0 6 0 with pg := 0 }) 2 ∧
    Ready (.pfirst 0 { fa false 0 0 63 with pg := 0, vd := 2, va := 0 }) 2 ∧
    Ready (.pcnt 0 { fa false 0 0 0 with pg := 0, vd := 15, va := 7 }) 2 := by
  and_intros <;> first | decide +kernel | rfl

theorem meets_ScalarInstructions :
    Ready (.qset 0 { fa false 0 0 3329 with pg := 0, vd := 0, va := 0 }) 2 ∧
    Ready (.sli 0 g1) 2 ∧
    Ready (.salu 0 g2) 2 ∧
    (Ready (.sld 0 g3) 2 ∧ scalarAddr (lve0 2) g3 % 4 = 0 ∧ scalarAddr (lve0 2) g3 + 4 ≤ lveFrame (lveCmd (.sld 0
      g3))) ∧
    (Ready (.sld 0 { g3 with imm := 4024 }) 2 ∧ ¬(scalarAddr (lve0 2) { g3 with imm := 4024 } % 4 = 0 ∧
      scalarAddr (lve0 2) { g3 with imm := 4024 } + 4 ≤ lveFrame (lveCmd (.sld 0 { g3 with imm := 4024 })))) := by
  and_intros <;> first | decide +kernel | rfl

theorem meets_VectorLoads :
    (Ready (.vld 0 m1) 2 ∧ AccessOk (lve0 2) m1 false (spaceSize (lveCmd (.vld 0 m1)) m1.sp)) ∧
    (Ready (.vgth 0 m2) 2 ∧ AccessOk (lve0 2) m2 true (spaceSize (lveCmd (.vgth 0 m2)) m2.sp)) ∧
    (Ready (.vldp 0 m3) 2 ∧ m3.pl ≤ (lve0 2).d ∧ baseAddr (lve0 2) (m3.sb) m3.disp.toNat + laneCount m3.w * (m3.vi +
      1) / 8 ≤ spaceSize (lveCmd (.vldp 0 m3)) m3.sp) ∧
    (far.pl.val ≤ (lve0 2).d ∧ Ready (.vld 0 far) 2 ∧ FirstFails (lve0 2) far false (spaceSize (lveCmd (.vld 0 far)) far.sp) 12) ∧
    (odd.pl.val ≤ (lve0 2).d ∧ Ready (.vgth 0 odd) 2 ∧ FirstFails (lve0 2) odd true (spaceSize (lveCmd (.vgth 0 odd)) odd.sp) 0) ∧
    (Ready (.vldp 0 long) 2 ∧ long.pl.val ≤ (lve0 2).d ∧ spaceSize (lveCmd (.vldp 0 long)) long.sp <
      baseAddr (lve0 2) long.sb.val long.disp.toNat + laneCount long.w * (long.vi.val + 1) / 8) ∧
    ((lve0 2).d < high.pl.val ∧ Ready (.vld 0 high) 2 ∧ Ready (.vgth 0 high) 2 ∧ Ready (.vldp 0 highP) 2) := by
  and_intros <;> first | decide +kernel | rfl | exact access_ok (by decide +kernel) | exact below_ok (by decide +kernel) | exact ⟨0, by decide +kernel⟩ | exact ⟨1, by decide +kernel⟩

theorem meets_VectorStores :
    (Ready (.vst 0 m1) 2 ∧ AccessOk (lve0 2) m1 false (lveFrame (lveCmd (.vst 0 m1)))) ∧
    (Ready (.vsct 0 m4) 2 ∧ AccessOk (lve0 2) m4 true (lveFrame (lveCmd (.vsct 0 m4)))) ∧
    (Ready (.vstp 0 m3) 2 ∧ m3.pl ≤ (lve0 2).d ∧ baseAddr (lve0 2) (m3.sb) m3.disp.toNat + laneCount m3.w * (m3.vi +
      1) / 8 ≤ lveFrame (lveCmd (.vstp 0 m3))) ∧
    (Ready (.sst 0 g3) 2 ∧ scalarAddr (lve0 2) g3 % 4 = 0 ∧ scalarAddr (lve0 2) g3 + 4 ≤ lveFrame (lveCmd (.sst 0
      g3))) ∧
    (far.pl.val ≤ (lve0 2).d ∧ Ready (.vst 0 far) 2 ∧ FirstFails (lve0 2) far false (lveFrame (lveCmd (.vst 0 far))) 12) ∧
    (m4.pl.val ≤ (lve0 2).d ∧ Ready (.vsct 0 { m4 with disp := 4082 }) 2 ∧
      FirstFails (lve0 2) { m4 with disp := 4082 } true (lveFrame (lveCmd (.vsct 0 { m4 with disp := 4082 }))) 0) ∧
    (Ready (.vstp 0 long) 2 ∧ long.pl.val ≤ (lve0 2).d ∧ lveFrame (lveCmd (.vstp 0 long)) <
      baseAddr (lve0 2) long.sb.val long.disp.toNat + laneCount long.w * (long.vi.val + 1) / 8) ∧
    (Ready (.sst 0 { g3 with imm := 9 }) 2 ∧ ¬(scalarAddr (lve0 2) { g3 with imm := 9 } % 4 = 0 ∧
      scalarAddr (lve0 2) { g3 with imm := 9 } + 4 ≤ lveFrame (lveCmd (.sst 0 { g3 with imm := 9 })))) ∧
    ((lve0 2).d < high.pl.val ∧ Ready (.vst 0 high) 2 ∧ Ready (.vsct 0 high) 2 ∧ Ready (.vstp 0 highP) 2) := by
  and_intros <;> first | decide +kernel | rfl | exact access_ok (by decide +kernel) | exact below_ok (by decide +kernel) | exact ⟨0, by decide +kernel⟩ | exact ⟨1, by decide +kernel⟩

theorem meets_UnsetModulusFaults :
    (Ready (.vmadd 0 (fa false 1 7 0)) 2 ∧ modulus (lve0 2) (fa false 1 7 0) = none) ∧
    (Ready (.vmsub 0 (fa false 1 7 0)) 2 ∧ modulus (lve0 2) (fa false 1 7 0) = none) ∧
    (Ready (.vmmul 0 (fa false 1 7 0)) 2 ∧ modulus (lve0 2) (fa false 1 7 0) = none) ∧
    (Ready (.vmmulm 0 (fa false 1 7 0)) 2 ∧ modulus (lve0 2) (fa false 1 7 0) = none) ∧
    (Ready (.vmmult 0 (fa false 1 0 256)) 2 ∧ modulus (lve0 2) (fa false 1 0 256) = none) ∧
    (Ready (.vbfly 0 (fa false 1 0 256)) 2 ∧ modulus (lve0 2) (fa false 1 0 256) = none) ∧
    (Ready (.vibfly 0 (fa false 1 0 256)) 2 ∧ modulus (lve0 2) (fa false 1 0 256) = none) ∧
    (Ready (.vcmpr 0 (fa false 1 0 10)) 2 ∧ modulus (lve0 2) (fa false 1 0 10) = none) ∧
    (Ready (.vdcmpr 0 (fa false 1 0 10)) 2 ∧ modulus (lve0 2) (fa false 1 0 10) = none) ∧
    (Ready (.vp2r 0 (fa true 1 0 10)) 2 ∧ modulus (lve0 2) (fa true 1 0 10) = none) ∧
    (Ready (.vdec 0 (fa true 1 0 261888)) 2 ∧ modulus (lve0 2) (fa true 1 0 261888) = none) ∧
    (Ready (.vb2a 0 (fa false 1 0 0)) 2 ∧ modulus (lve0 2) (fa false 1 0 0) = none) ∧
    (Ready (.va2b 0 (fa false 1 0 0)) 2 ∧ modulus (lve0 2) (fa false 1 0 0) = none) ∧
    (Ready (.vref 0 (fa false 1 0 0)) 2 ∧ modulus (lve0 2) (fa false 1 0 0) = none) ∧
    (Ready (.vunmask 0 (fa false 1 0 0)) 2 ∧ modulus (lve0 2) (fa false 1 0 0) = none) ∧
    (Ready (.vnorm 0 (fa false 1 0 0)) 2 ∧ modulus (lve0 2) (fa false 1 0 0) = none) := by
  and_intros <;> first | decide +kernel | rfl

theorem meets_InstructionFrame : Map.get? (lveOn (.vadd 0 (fa false 0 7 0)) 0).eng.lves 0 = some (lve0 0) ∧
    getCmd (lveOn (.vadd 0 (fa false 0 7 0)) 0) 1 = some (lveCmd (.vadd 0 (fa false 0 7 0))) := by decide +kernel

end Lanes

namespace Power

/-- Dormant, at the stored state of reset. -/
def dead : State := { Machine.State.reset with sys := { Sys.reset with mode := .dormant, mainGood := false } }
def deadLow : State := { dead with sys := { dead.sys with resetLow := true } }
def deadPowered : State := { dead with sys := { dead.sys with resetLow := true, mainGood := true } }
def lowReset : State := { Machine.State.reset with sys := { Sys.reset with resetLow := true, tbclk := false } }
def busy : State := { up with pending := [.crystalEdge] }
def stopped : State := { up with sys := { up.sys with tbclk := false } }
def undrawn : State := { up with rng := { up.rng with state := .fault } }
def heldUp : State := { up with sys := { up.sys with mode := .held } }
def d3 : State := { up with fns := [(0, {fnUp with d3hot := true})]}
def cleaning : State := { up with fns := [(0, {fnUp with flr := .cleanup})]}
def pfUp : State := { up with fns := [(0, fnUp), (1, { Fn.reset false false with bme := true })],
                              ports := Vector.replicate 8 { portOn with vfEnable := true, numVfs := 1 } }
def vfD3 : State := { pfUp with fns := [(0, fnUp), (1, { Fn.reset false false with d3hot := true })] }
def downed : State := { up with ports := Vector.replicate 8 { portOn with linkUp := false } }
def flrDue : State := { up with fns := [(0, {fnUp with flr := .requested})], eng := { up.eng with changes := [(1, 0, 0xFFFF)] } }
def flrHeld : State := { heldUp with fns := [(0, {fnUp with flr := .requested})]}

theorem meets_SuppliesAndResets :
    (dead.sys.mode = .dormant ∧ dead.sys.mainGood = false ∧ dead.sys.resetLow = false) ∧
    (deadLow.sys.mode = .dormant ∧ deadLow.sys.mainGood = false ∧ deadLow.sys.resetLow = true) ∧
    (lowReset.sys.resetLow = true ∧ lowReset.sys.mode ≠ .dormant) ∧
    (deadPowered.sys.resetLow = true ∧ deadPowered.sys.mode = .dormant ∧ deadPowered.sys.mainGood = true) ∧
    (lowReset.sys.tbclk = false ∧ lowReset.sys.mode ≠ .dormant) ∧
    (up.sys.mode ≠ .dormant ∧ opposed up (if up.sys.mode = .lockdown then 11 else 10) = false) ∧
    (KeeperWritable up 0 ∧ (0xFFFF5A5A : Word).toNat % 65536 = 0x5A5A ∧ opposed up 10 = false) := by
  and_intros <;> first | decide +kernel | rfl

/-- A recorder write in progress. -/
def writing : State :=
  { up with recorder := { up.recorder with mounted := true, queue := [.record (List.replicate 64 1) false false] } }

/-- R383, R59: DEV_RESET_N lets three words of a record finish; the slot keeps them, the queue is lost, and the next record
takes the slot after it. A slot whose word in flight was cut is not left by DEV_RESET_N. -/
theorem test_torn_record :
    (match exec (.devResetNAssert [.record (List.replicate 24 1 ++ List.replicate 40 0)]) writing with
      | .next t => Map.get? t.nvm.slots 0 == some (List.replicate 24 1 ++ List.replicate 40 0) && recorderSlot t == 1
          && t.recorder.queue.length == 1
      | _ => false) = true ∧
    (match exec (.devResetNAssert [.record (List.replicate 25 1 ++ List.replicate 39 0)]) writing with
      | .next t => Map.get? t.nvm.slots 0 == none && recorderSlot t == 0
      | _ => false) = true := by
  decide +kernel

theorem meets_IdleStepTicks :
    (up.pending = [] ∧ up.sys.tbclk = true ∧ up.sys.mode ≠ .dormant ∧ canDraw up = true) ∧
    (stopped.pending = [] ∧ (stopped.sys.tbclk = false ∨ stopped.sys.mode = .dormant)) ∧
    (undrawn.pending = [] ∧ canDraw undrawn = false) := by
  and_intros <;> first | decide +kernel | rfl

theorem meets_StepRunsFrontCommand :
    (busy.pending = [Instr.crystalEdge]) := by
  and_intros <;> first | decide +kernel | rfl

theorem meets_PortAndFunctionResets :
    (heldUp.sys.mode ≠ .dormant ∧ heldUp.sys.isolated = false ∧ heldUp.sys.resetLow = false ∧ (getPort heldUp
      7).perst = false ∧ running heldUp = false) ∧
    (up.sys.mode ≠ .dormant ∧ up.sys.isolated = false ∧ up.sys.resetLow = false ∧ (getPort up 7).perst = false ∧
      running up = true) ∧
    (configOpen up 0 = true ∧ configOpen up (128 * 7) = true ∧ configOpen downed 0 = false ∧ downed.sys.mode ≠ .dormant ∧
      downed.sys.isolated = false) ∧
    (configOpen pfUp 1 = true ∧ isPf 1 = false ∧ (getFn pfUp 1).flr = .none ∧ pfUp.sys.mode ≠ .held ∧ pfUp.sys.mode ≠ .dormant ∧
      pfUp.sys.isolated = false) ∧
    (configOpen up 0 = true ∧ isPf 0 = true ∧ (getFn up 0).flr = .none ∧ up.sys.mode ≠ .held) ∧
    (configOpen vfD3 1 = true ∧ isPf 1 = false ∧ (getFn vfD3 1).d3hot = true ∧ (getFn vfD3 1).flr = .none ∧ vfD3.sys.mode ≠ .held ∧
      vfD3.sys.mode ≠ .dormant ∧ vfD3.sys.isolated = false) ∧
    (fnExists pfUp 1 = true) ∧
    (cleaning.sys.mode ≠ .dormant ∧ cleaning.sys.isolated = false ∧ (getFn cleaning 0).flr = .cleanup) := by
  and_intros <;> first | decide +kernel | rfl

theorem meets_FunctionResetEffect :
    ((getFn flrHeld 0).flr = .requested ∧ (running flrHeld = false ∨ changeDue flrHeld 1 0 = true)) ∧
    ((getFn flrDue 0).flr = .requested ∧ running flrDue = true ∧ changeDue flrDue 1 0 = true) ∧
    (configOpen heldUp 0 = true ∧ (getFn heldUp 0).flr = .none ∧ heldUp.sys.mode = .held) := by
  and_intros <;> first | decide +kernel | rfl

end Power

namespace Boot

def boot0 : State := Machine.State.reset
def atPhase (n : Nat) : State := { boot0 with boot := { BootSt.reset with phase := n, romDone := true }, sys := { Sys.reset with isolated := false, tbclk := true, tick := 400000 } }
def boot2 : State := atPhase 2
def scrapOtp : State := { boot2 with otp := { boot2.otp with lcA := [0x3333], lcB := [0x3333], lcC := [0x3333] } }
def boot3 : State := atPhase 3
def moving2 : State := { boot2 with nvm := (writeMark boot2 1 (moveMark .factory .owned)).nvm }
def boot4 : State := { atPhase 4 with fns := [(0, fnUp)], ports := Vector.replicate 8 portOn }
def loading4 : State := { boot4 with boot := { boot4.boot with loading := true, asked := true } }
def headed4 : State := { boot4 with boot := { boot4.boot with loading := true, asked := true, header := some (zeros 64) } }
def boot5 : State := atPhase 5
def trained5 : State := { boot5 with boot := { boot5.boot with gmDone := true, gmTrained := true } }
def untrained5 : State := { boot5 with boot := { boot5.boot with gmDone := true, gmTrained := false } }
def boot7 : State := { atPhase 7 with
  rng := rngUp, lc := LcSt.reset .factory false, nvm := { boot0.nvm with identity := sealPersist [] [1], ownerRoot := sealPersist [] [2], swk := sealPersist [] [3] },
  time := { boot0.time with anchored := true } }
def boot7o : State := { boot7 with lc := LcSt.reset .owned false }
def boot7w : State := { boot7 with time := TimeSt.reset }
def boot7c : State := { boot7w with backup := { boot7w.backup with stopped := true } }
def boot7e : State := { boot7w with backup := { boot7w.backup with stopped := false } }
def copy0 : Copy := { value := 5, gen := 0, resv := 0, check := 0, margin := true }
def boot7bad : State := { boot7 with nvm := { boot7.nvm with recs := [(327680, [(0, copy0)])] } }
def lcCmd : Cmd := { cmdOf 0x60 [(40,2,0xFF),(24,4,4723)] with input := some [1], berth := none }
def lcCmd2 : Cmd := { cmdOf 0x60 [(40,2,0xFF00),(24,4,7315)] with input := some [1], berth := none }
def lcState2 : State := { on lcCmd2 with lc := LcSt.reset .factory false, sys := { up.sys with mode := .maintenance } }
def lcState : State := { on lcCmd with lc := LcSt.reset .blank false, sys := { up.sys with mode := .maintenance } }

theorem meets_BootPhasesToImage :
    (inPhase boot0 1 = true ∧ boot0.boot.romDone = false ∧ opposed boot0 8 = false) ∧
    (inPhase boot2 2 = true ∧ clearMark boot2.nvm = false ∧ pendingMove boot2.nvm = none ∧ copiesDisagree boot2.otp =
      false ∧ (lcDecode boot2.otp).1 ≠ .scrap) ∧
    (inPhase scrapOtp 2 = true ∧ clearMark scrapOtp.nvm = false ∧ pendingMove scrapOtp.nvm = none ∧ (lcDecode
      scrapOtp.otp).1 = .scrap ∧ opposed scrapOtp 8 = false) ∧
    (inPhase boot3 3 = true) := by
  and_intros <;> first | decide +kernel | rfl

theorem meets_LifeCycleMoves :
    (inPhase moving2 2 = true ∧ clearMark moving2.nvm = false ∧ pendingMove moving2.nvm = some (.factory, .owned) ∧
      Lc.owned ≠ .blank ∧ nextSlot moving2.otp.lcA < moving2.otp.lcA.length ∧ nextSlot moving2.otp.lcB <
      moving2.otp.lcB.length ∧ nextSlot moving2.otp.lcC < moving2.otp.lcC.length) ∧
    (Turn lcState 1 0x60 lcCmd ∧ lcCmd.input = some [1] ∧ segsDone lcCmd = true ∧ running lcState = true ∧ lcTarget
      lcCmd.entry = some .factory ∧ (Lc.factory = .owned → RegionTakes lcState 2 0) ∧ moveAllowed
      lcState.lc.state .factory = true ∧ (pendingMove lcState.nvm = none ∨ Lc.factory = .scrap) ∧ inLen
      lcCmd.entry = lcTokenLen .factory ∧ recVal lcState.nvm 5 1 = .value 0 0 ∧ (0 : BitVec 24) ≠ BitVec.allOnes
      24 ∧ (getWear lcState.nvm 5).worn = false) ∧
    (Turn lcState2 1 0x60 lcCmd2 ∧ lcCmd2.input = some [1] ∧ segsDone lcCmd2 = true ∧ running lcState2 = true ∧
      lcTarget lcCmd2.entry = some .owned ∧ (Lc.owned = .owned → RegionTakes lcState2 2 (spareWords 2)) ∧
      moveAllowed lcState2.lc.state .owned = true ∧ (pendingMove lcState2.nvm = none ∨ Lc.owned = .scrap) ∧
      inLen lcCmd2.entry = lcTokenLen .owned ∧ recVal lcState2.nvm 5 1 = .value 0 0 ∧ (0 : BitVec 24) ≠
      BitVec.allOnes 24 ∧ (getWear lcState2.nvm 5).worn = false) := by
  and_intros <;> first | decide +kernel | rfl

theorem meets_BootPhasesToSelftest :
    (boot4.sys.mode = .boot ∧ boot4.boot.phase = 4 ∧ barOpen boot4 0 = true ∧ (getFn boot4 0).flr ≠ .cleanup ∧ 0 =
      keeperFn boot4) ∧
    (inPhase loading4 4 = true ∧ loading4.boot.loading = true ∧ loading4.boot.asked = true ∧ loading4.boot.header = none) ∧
    (inPhase headed4 4 = true ∧ headed4.boot.loading = true ∧ headed4.boot.asked = true ∧ headed4.boot.header ≠ none) ∧
    (boot4.sys.mode = .boot ∧ 3 ≤ boot4.boot.phase ∧ boot4.boot.phase ≤ 5 ∧ boot4.boot.gmDone = false) ∧
    (inPhase trained5 5 = true ∧ trained5.boot.gmDone = true ∧ trained5.boot.gmTrained = true ∧ opposed trained5 8 =
      false) ∧
    (inPhase untrained5 5 = true ∧ untrained5.boot.gmDone = true ∧ untrained5.boot.gmTrained = false ∧ opposed
      untrained5 8 = false) := by
  and_intros <;> first | decide +kernel | rfl

theorem owned_records : identityRec boot7o ≠ none ∧ ownerRoot boot7o ≠ none := ⟨opens _ _, opens _ _⟩

theorem meets_InstallEndsBoot :
    (inPhase boot7o 7 = true ∧ (boot7o.time.anchored = true ∨ boot7o.backup.stopped = true) ∧ opposed boot7o (if
      boot7o.lc.state = .owned ∨ boot7o.lc.state = .field then 5 else 6) = false ∧ Instr.alarmSetResponse ∉
      boot7o.pending ∧ recVal boot7o.nvm 5 0 = .value 0 0 ∧ (0 : DWord) ≠ BitVec.allOnes 64 ∧ RegionTakes boot7o
      5 ([spareWords 5].getD 0 0) ∧ boot7o.nvm.identity ≠ .blank ∧ boot7o.nvm.swk ≠ .blank ∧ (boot7o.lc.state =
      .owned ∨ boot7o.lc.state = .field → identityRec boot7o ≠ none ∧ ownerRoot boot7o ≠ none) ∧ DrawsLeft
      boot7o 6) ∧
    (inPhase boot7c 7 = true ∧ (boot7c.time.anchored = true ∨ boot7c.backup.stopped = true) ∧ opposed boot7c (if
      boot7c.lc.state = .owned ∨ boot7c.lc.state = .field then 5 else 6) = false ∧ Instr.alarmSetResponse ∉
      boot7c.pending ∧ recVal boot7c.nvm 5 0 = .value 0 0 ∧ (0 : DWord) ≠ BitVec.allOnes 64 ∧ RegionTakes boot7c
      5 ([spareWords 5].getD 0 0) ∧ boot7c.nvm.identity ≠ .blank ∧ boot7c.nvm.swk ≠ .blank ∧ (boot7c.lc.state =
      .owned ∨ boot7c.lc.state = .field → identityRec boot7c ≠ none ∧ ownerRoot boot7c ≠ none) ∧ DrawsLeft
      boot7c 6) ∧
    (inPhase boot7bad 7 = true ∧ (boot7bad.time.anchored = true ∨ boot7bad.backup.stopped = true) ∧ opposed boot7bad
      8 = false ∧ recVal boot7bad.nvm 5 0 = .corrupt) ∧
    (inPhase boot7e 7 = true ∧ boot7e.time.anchored = false ∧ boot7e.backup.stopped = false) := by
  and_intros <;> first | decide +kernel | rfl | exact fun _ => owned_records | exact .inl rfl | exact .inr rfl | (intro h; revert h; decide +kernel)

theorem meets_RingIndexArithmetic :
    (0 < 4 ∧ 3 < 2 * 4 ∧ 0 < 2 * 4 ∧ ringCount 3 0 4 < 4 ∧ 0 < ringCount 3 0 4) := by
  and_intros <;> first | decide +kernel | rfl

end Boot

namespace Rings

def ringSq : Sq := { Sq.fresh 0x1000 8 1 .enabled with tail := 3 }
def ringCq : Cq := Cq.fresh 0x2000 8 16 5
def ringUp : State := { up with sqs := [(0, Sq.fresh 0 64 0 .enabled), (1, ringSq)], cqs := [(0, Cq.fresh 0 64 64 0), (1, ringCq)] }
def awaiting (q : Nat) (cq : Bool) : State := { ringUp with fns := [(0, { fnUp with dbReads := [(q, cq)] })] }
def lateUp : State := { ringUp with fns := [(0, { fnUp with late := [(4, 1), (5, 1), (2, 1)] })] }
def resetting : State := { ringUp with fns := [(0, { fnUp with flr := .requested })] }
def lineOf (v : Nat) : Bytes := leBytes 4 v ++ List.replicate 60 0xFF
def pushedBytes : Bytes := ent 0x0310 [(2,1,8)]
def pushed : Sq := pushDwords ringSq 16 0 pushedBytes
def pushedUp : State := { ringUp with sqs := [(0, Sq.fresh 0 64 0 .enabled), (1, pushed)] }
def readingSq : Sq := { ringSq with reads := [(0, 3)], fetch := 3 }
def readingUp : State := { ringUp with sqs := [(0, Sq.fresh 0 64 0 .enabled), (1, readingSq)] }
def inCmd : Cmd := { cmdOf 0x0310 [(24,4,40)] with asked := true }
def readySq : Sq := { ringSq with fetch := 1, ready := [(0, ent 0x0310 [])] }
def readyUp : State := { ringUp with sqs := [(0, Sq.fresh 0 64 0 .enabled), (1, readySq)] }
def chainSq : Sq := { readySq with chainLen := 1, chainOk := none }
def chainUp : State := { ringUp with sqs := [(0, Sq.fresh 0 64 0 .enabled), (1, chainSq)] }
def okRes : Result := { status := .ok, detail := 0, out := [] }
def finCmd : Cmd := { cmdOf 0x0310 [] with phase := .fin okRes, sq := 1 }
def openSq : Sq := { ringSq with opened := 1, head := 1 }
def openCq : Cq := { ringCq with reserved := 1 }
def finUp : State := { on finCmd with sqs := [(0, Sq.fresh 0 64 0 .enabled), (1, openSq)], cqs := [(0, Cq.fresh 0 64 64 0), (1, openCq)] }
def fullCq : Cq := { openCq with tail := 8 }
def backCq : Cq := { openCq with waiting := [9] }
def backUp : State := { finUp with cqs := [(0, Cq.fresh 0 64 64 0), (1, backCq)] }
def fullUp : State := { finUp with cqs := [(0, Cq.fresh 0 64 64 0), (1, fullCq)] }

theorem meets_PollingAndDoorbells :
    (fnExists ringUp 0 = true ∧ canReq ringUp 0 = true ∧ (getFn ringUp 0).power ≠ .off ∧ (getFn ringUp 0).dbTodo = []
      ∧ (getFn ringUp 0).dbReads = [] ∧ (∀ e ∈ (getFn ringUp 0).late, 2 ≤ e.1) ∧
      (getFn ringUp 0).nextPass.toNat ≤ ringUp.sys.tick.toNat) ∧
    (awaited (awaiting 1 false) 0 1 false = true ∧ (3 : Word) = BitVec.ofNat 32 (le (lineOf 3) 0 4) ∧ getSq (awaiting
      1 false) 0 1 = some ringSq ∧ ringSq.st = .enabled ∧ ringValid (3 : Word).toNat ringSq.head ringSq.n = true) ∧
    (awaited (awaiting 1 false) 0 1 false = true ∧ (9 : Word) = BitVec.ofNat 32 (le (lineOf 9) 0 4) ∧ getSq (awaiting
      1 false) 0 1 = some ringSq ∧ ringSq.st = .enabled ∧ ringValid (9 : Word).toNat ringSq.head ringSq.n =
      false) ∧
    (awaited (awaiting 1 false) 0 1 false = true ∧ (9 : Word) = BitVec.ofNat 32 (le (lineOf 9) 0 4) ∧ getSq (awaiting
      1 false) 0 1 = some ringSq ∧ ringSq.st = .enabled ∧ ringSq.dbFail = false) ∧
    (awaited (awaiting 1 true) 0 1 true = true ∧ (9 : Word) = BitVec.ofNat 32 (le (lineOf 9) 0 4) ∧ getCq (awaiting 1
      true) 0 1 = some ringCq ∧ (getFn (awaiting 1 true) 0).power ≠ .off ∧ (9 : Word).toNat < 2 * ringCq.n ∧
      ringCount ringCq.tail (9 : Word).toNat ringCq.n ≤ ringCq.n ∧ ringCq.waiting = [] ∧ (ringCount ringCq.tail
      ringCq.head ringCq.n ≠ ringCq.n ∨ finishedOn (awaiting 1 true) 0 1 = [])) ∧
    (awaited (awaiting 1 true) 0 1 true = true ∧ (3 : Word) = BitVec.ofNat 32 (le (lineOf 3) 0 4) ∧ getCq (awaiting 1
      true) 0 1 = some ringCq ∧ (getFn (awaiting 1 true) 0).power ≠ .off ∧ (2 * ringCq.n ≤ (3 : Word).toNat ∨
      ringCq.n < ringCount ringCq.tail (3 : Word).toNat ringCq.n)) ∧
    (awaited (awaiting 1 true) 0 1 true = true ∧ (16 : Word) = BitVec.ofNat 32 (le (lineOf 16) 0 4) ∧ getCq (awaiting
      1 true) 0 1 = some ringCq ∧ (getFn (awaiting 1 true) 0).power ≠ .off ∧ (2 * ringCq.n ≤ (16 : Word).toNat ∨
      ringCq.n < ringCount ringCq.tail (16 : Word).toNat ringCq.n)) ∧
    (awaited (awaiting 1 true) 0 1 true = true ∧ (3 : Word) = BitVec.ofNat 32 (le (lineOf 3) 0 4) ∧ getCq (awaiting 1
      true) 0 1 = some ringCq ∧ ringCq.dbFail = false) ∧
    ((getFn resetting 0).flr = .requested) ∧
    (serving lateUp = true ∧ lateRead lateUp 0 0 1 = some (4, 1) ∧ lateRead lateUp 0 1 1 = some (5, 1)) := by
  and_intros <;> first | decide +kernel | rfl

theorem meets_FetchesAndReads :
    (serving lateUp = true ∧ getSq lateUp 0 1 = some ringSq ∧ lateRead lateUp 0 2 1 = some (2, 1)) ∧
    (serving ringUp = true ∧ getSq ringUp 0 1 = some ringSq ∧ fnExists ringUp 0 = true ∧ (getFn ringUp 0).mse = true
      ∧ portUp ringUp 0 = true ∧ (getFn ringUp 0).flr ≠ .cleanup ∧ 260 < 0x100000 ∧ 260 % 4 = 0 ∧ [1, 2, 3, (4 : Byte)].length = 4 ∧ 1 =
      260 / 256 ∧ ringSq.st = .enabled) ∧
    (serving pushedUp = true ∧ getSq pushedUp 0 1 = some pushed ∧ nextFetch pushedUp (portOf 0) = some (0, 1) ∧ getCq
      pushedUp 0 pushed.cq = some ringCq ∧ pushTaken pushed = some pushedBytes) ∧
    (serving ringUp = true ∧ getSq ringUp 0 1 = some ringSq ∧ nextFetch ringUp (portOf 0) = some (0, 1) ∧ getCq
      ringUp 0 ringSq.cq = some ringCq ∧ pushTaken ringSq = none ∧ 0 < fetchCount ringSq (ringCq.allow -
      ringCq.reserved)) ∧
    (serving readingUp = true ∧ getSq readingUp 0 1 = some readingSq ∧ (getFn readingUp 0).flr ≠ .requested ∧
      lateRead readingUp 0 2 1 = none ∧ readingSq.reads = [(0, 3)]) ∧
    (takesReads (on inCmd) inCmd.fn = true ∧ getCmd (on inCmd) 1 = some inCmd ∧ inCmd.origin = none ∧ inCmd.phase =
      .run ∧ inCmd.asked = true ∧ inCmd.input = none ∧ inCmd.pulls = [] ∧ lateInput (on inCmd) 1 = none) := by
  and_intros <;> first | decide +kernel | rfl

theorem meets_AcceptTakesTheHead :
    (serving readyUp = true ∧ getSq readyUp 0 1 = some readySq ∧ unitRuns readyUp 15 = true ∧ (getFn readyUp 0).power = .on ∧ readySq.st = .enabled ∧ List.find? (fun x => x.1 ==
      readySq.head) readySq.ready = some (0, ent 0x0310 []) ∧ closedTo readyUp 15 0 1 = false ∧ positionFree
      readyUp 15 (isKeeperOp (ent 0x0310 [])) = true ∧ fenceOk readyUp 0 1 readySq (ent 0x0310 []) = true) ∧
    (serving chainUp = true ∧ getSq chainUp 0 1 = some chainSq ∧ unitRuns chainUp 0 = true ∧ (getFn chainUp 0).power = .on ∧ chainSq.st = .enabled ∧ List.find? (fun x => x.1 ==
      chainSq.head) chainSq.ready = some (0, ent 0x0310 []) ∧ closedTo chainUp 0 0 1 = false ∧ positionFree
      chainUp 0 (isKeeperOp (ent 0x0310 [])) = true ∧ fenceOk chainUp 0 1 chainSq (ent 0x0310 []) = true ∧
      chainSq.chainLen ≠ 0 ∧ chainSq.chainOk = none) := by
  and_intros <;> first | decide +kernel | rfl

theorem meets_CompletionWritten :
    (serving finUp = true ∧ getCmd finUp 1 = some finCmd ∧ finCmd.phase = .fin okRes ∧ finCmd.origin = none ∧ getSq
      finUp finCmd.fn finCmd.sq = some openSq ∧ openSq.cq = 1 ∧ getCq finUp finCmd.fn 1 = some openCq ∧ canReq
      finUp finCmd.fn = true ∧ ringCount openCq.tail openCq.head openCq.n ≠ openCq.n ∧ (openCq.waiting = [] ∨
      openCq.waiting.head? = some 1)) ∧
    (serving fullUp = true ∧ getCmd fullUp 1 = some finCmd ∧ finCmd.phase = .fin okRes ∧ finCmd.origin = none ∧ getSq
      fullUp finCmd.fn finCmd.sq = some openSq ∧ openSq.cq = 1 ∧ getCq fullUp finCmd.fn 1 = some fullCq ∧ canReq
      fullUp finCmd.fn = true ∧ (ringCount fullCq.tail fullCq.head fullCq.n = fullCq.n ∨ (fullCq.waiting ≠ [] ∧
      fullCq.waiting.head? ≠ some 1)) ∧ fullCq.waiting.contains 1 = false) ∧
    (serving backUp = true ∧ getCmd backUp 1 = some finCmd ∧ finCmd.phase = .fin okRes ∧ finCmd.origin = none ∧ getSq
      backUp finCmd.fn finCmd.sq = some openSq ∧ openSq.cq = 1 ∧ getCq backUp finCmd.fn 1 = some backCq ∧ canReq
      backUp finCmd.fn = true ∧ (ringCount backCq.tail backCq.head backCq.n = backCq.n ∨ (backCq.waiting ≠ [] ∧
      backCq.waiting.head? ≠ some 1)) ∧ backCq.waiting.contains 1 = false) := by
  and_intros <;> first | decide +kernel | rfl

/-- R85: an entry a push brought is accepted past the doorbell tail, and no later entry may be fetched for it. -/
theorem test_push_passes_tail :
    let q := { ringSq with tail := 0, fetch := 1, ready := [(0, ent 0x9999 [])] }
    (getSq (acceptEntry { ringUp with sqs := [(1, q)] } 0 1 0 q (ent 0x9999 [])) 0 1).map (fun x => (x.head, behindTail x))
      = some (1, 0) := by decide +kernel

end Rings

namespace Keeper

def q2 : Sq := Sq.fresh 0x1000 16 2 .enabled
def q3 : Sq := Sq.fresh 0x1000 16 2 .disabled
def c2q : Cq := Cq.fresh 0x2000 16 16 5
def c3q : Cq := Cq.fresh 0x3000 16 16 5
def queues (c : Cmd) : State := { on c with
  sqs := [(0, Sq.fresh 0 64 0 .enabled), (2, q2), (3, q3)], cqs := [(0, Cq.fresh 0 64 64 0), (2, c2q), (3, c3q)] }
def mkSq : Cmd := cmdOf 0x01 [(40,8,0x4000),(48,2,5),(50,2,2),(52,4,16)]
def mkCq : Cmd := cmdOf 0x02 [(40,8,0x4000),(48,2,5),(52,4,16)]
def rmSq : Cmd := cmdOf 0x03 [(48,2,3)]
def rmCq : Cmd := cmdOf 0x04 [(48,2,3)]
def offSq : Cmd := cmdOf 0x05 [(48,2,2)]
def onSq : Cmd := cmdOf 0x06 [(48,2,3)]
def badSq : Cmd := cmdOf 0x03 [(48,2,7)]
def busySq : Cmd := cmdOf 0x03 [(48,2,2)]
def resumeCmd : Cmd := cmdOf 0x72 []
def sMkSq : State := queues mkSq
def sMkCq : State := queues mkCq
def sRmSq : State := queues rmSq
def sRmCq : State := queues rmCq
def sOffSq : State := queues offSq
def sOnSq : State := queues onSq
def sOnQ : State := { queues onSq with fns := [(0, { fnUp with quenched := true })] }
def sOnDr : State := { queues onSq with fns := [(0, { fnUp with power := .draining })] }
def sBadSq : State := queues badSq
def sBusySq : State := queues busySq
def sResume : State := queues resumeCmd

def fnsUp (f : Fn) : List (Nat × Fn) := [(0, fnUp), (128, f)]
def f1 : Fn := Fn.reset false false
def withFn (c : Cmd) (f : Fn) : State := { on c with fns := fnsUp f }
def fcmd (op : Nat) (fs : List (Nat × Nat × Nat)) : Cmd := cmdOf op ((40,2,128) :: fs)
def enCmd : Cmd := fcmd 0x10 []
def sEn : State := withFn enCmd f1
def sEnWait : State := withFn enCmd { f1 with power := .draining }
def disCmd : Cmd := fcmd 0x11 []
def sDis : State := withFn disCmd f1
def disDue : Cmd := { disCmd with phase := .effected }
def sDisDue : State := { withFn disDue f1 with eng := { up.eng with changes := [(0, 1, 0xFFFF)] } }
def qCmd : Cmd := fcmd 0x12 []
def sQ : State := withFn qCmd f1
def qDue : Cmd := { qCmd with phase := .effected }
def sQDue : State := { withFn qDue f1 with eng := { up.eng with changes := [(0, 1, 0xFFFF)] } }
def sDrain : State := { up with fns := fnsUp { f1 with power := .draining, waiters := [0] } }
def drainCmd : Cmd := fcmd 0x11 []
def limCmd : Cmd := fcmd 0x13 [(42,2,5),(44,2,4095),(46,1,63),(47,1,1),(48,4,65536),(52,4,131072)]
def sLim : State := withFn limCmd f1
def sCls : State := { withFn limCmd { f1 with nextCls := some (3, 1) } with eng := { up.eng with changes := [(2, 128, 0xFFFF)] } }
def worldCmd : Cmd := fcmd 0x14 [(42,1,1)]
def sWorld : State := withFn worldCmd { f1 with power := .off }

theorem nil_slots : ∀ i < Config.timetableSlots, BitVec.ofNat 16 (le [] (2 * i) 2) &&& (49344 : BitVec 16) = (0 : BitVec 16) := by
  intro i _; simp [le, slice, leVal]
def ttCmd : Cmd := { cmdOf 0x20 [(24,4,8192)] with input := some [] }
def sTt : State := on ttCmd
def sTt2 : State := { on { ttCmd with phase := .effected } with eng := { up.eng with nextTable := some (1, [5]) } }
def ttCmd2 : Cmd := { ttCmd with phase := .effected }
def tgIn : Bytes := leBytes 2 3 ++ leBytes 2 0 ++ leBytes 4 7 ++ leBytes 8 0x1000
def tgCmd : Cmd := { cmdOf 0x21 [(40,1,1),(42,2,1),(24,4,16)] with input := some tgIn }
def tgOut : Bytes := leBytes 2 3 ++ zeros 14
def tgDel : Cmd := { cmdOf 0x21 [(40,1,1),(42,2,2),(24,4,32)] with input := some (tgIn ++ tgOut) }
def sTgD : State := on tgDel
def vsIn : Bytes := leBytes 2 0 ++ leBytes 2 9 ++ [2, 1] ++ leBytes 2 100 ++ leBytes 2 3 ++ leBytes 2 4 ++ zeros 36
def vsCmd : Cmd := { cmdOf 0x21 [(40,1,2),(42,2,1),(24,4,48)] with input := some vsIn }
def port0 : Port := { portOn with targets := [(3, { addr := 0x1000, data := 7, asleep := false }), (70, { addr := 0x2000, data := 7, asleep := true })] }
def tsCmd : Cmd := cmdOf 0x22 [(40,2,64),(48,8,0),(56,8,0x40)]
def modCmd1 : Cmd := cmdOf 0x23 [(48,2,2),(50,2,4),(52,2,10),(54,2,2047)]
def sMod : State := queues modCmd1
def topoCmd : Cmd := cmdOf 0x30 [(40,1,1),(41,1,2),(48,8,0xFFFFFFFFFFFF0000)]
def sTopo : State := on topoCmd
def sTopo2 : State := { on topoCmd with topo := { Topo.reset with set := true, position := 1, devices := 3 } }
def sTg : State := on tgCmd
def sVs : State := on vsCmd
def sTs : State := { on tsCmd with ports := Vector.replicate 8 port0 }
def tsRes : Result := { status := .ok, detail := 0, out := [] }
def tsFin : Cmd := { tsCmd with phase := .fin tsRes }
def tsSq : Sq := { Sq.fresh 0 64 0 .enabled with opened := 1 }
def tsCq : Cq := { Cq.fresh 0 64 64 0 with reserved := 1 }
def sTsF : State := { on tsFin with ports := Vector.replicate 8 port0, sqs := [(0, tsSq)], cqs := [(0, tsCq)] }

def modFin : Cmd := { modCmd1 with phase := .fin tsRes }
def sModF : State := { on modFin with sqs := [(0, tsSq)], cqs := [(0, tsCq), (2, c2q)] }

theorem meets_QueueCommands :
    (Turn sMkSq 1 1 mkSq ∧ 5 = le mkSq.entry 48 2 ∧ 2 = le mkSq.entry 50 2 ∧ le mkSq.entry 40 8 % 4096 = 0 ∧ 1 ≤ 5 ∧ 5 ≤
      4095 ∧ hasQueue sMkSq.sqs mkSq.fn 5 = false ∧ 2 ≤ 4095 ∧ hasQueue sMkSq.cqs mkSq.fn 2 = true ∧ ringSize (le
      mkSq.entry 52 4) = true ∧ createdOf sMkSq.sqs mkSq.fn < (getFn sMkSq mkSq.fn).sqLim ∧ createdAll sMkSq.sqs <
      Config.queueTotal) ∧
    (Turn sMkCq 1 2 mkCq ∧ 5 = le mkCq.entry 48 2 ∧ (64 = if le mkCq.entry 56 2 = 0 then 64 else le mkCq.entry 56 2)
      ∧ le mkCq.entry 40 8 % 4096 = 0 ∧ 1 ≤ 5 ∧ 5 ≤ 4095 ∧ hasQueue sMkCq.cqs mkCq.fn 5 = false ∧ ringSize (le
      mkCq.entry 52 4) = true ∧ 16 ≤ 64 ∧ 64 ≤ 4096 ∧ le mkCq.entry 58 2 < 2048 ∧ createdOf sMkCq.cqs mkCq.fn <
      (getFn sMkCq mkCq.fn).cqLim ∧ createdAll sMkCq.cqs < Config.queueTotal ∧ allowances sMkCq + 64 ≤
      Config.wharfSlots) ∧
    (Turn sRmSq 1 3 rmSq ∧ 3 = le rmSq.entry 48 2 ∧ hasQueue sRmSq.sqs rmSq.fn 3 = true ∧ sqIdle sRmSq rmSq.fn 3 =
      true) ∧
    (Turn sRmCq 1 4 rmCq ∧ 3 = le rmCq.entry 48 2 ∧ hasQueue sRmCq.cqs rmCq.fn 3 = true ∧ cqWaits sRmCq rmCq.fn 3 =
      false ∧ (∀ i ∈ qidsOf sRmCq.sqs rmCq.fn, i ≠ 0 → Option.any (fun x => x.cq == 3) (getSq sRmCq rmCq.fn i) =
      false)) ∧
    (Turn sOffSq 1 5 offSq ∧ 2 = le offSq.entry 48 2 ∧ hasQueue sOffSq.sqs offSq.fn 2 = true ∧ getSq sOffSq offSq.fn
      2 = some q2) ∧
    (Turn sOnSq 1 6 onSq ∧ 3 = le onSq.entry 48 2 ∧ hasQueue sOnSq.sqs onSq.fn 3 = true ∧ getSq sOnSq onSq.fn 3 =
      some q3 ∧ q3.st ≠ SqState.draining ∧ q3.st ≠ SqState.enabled ∧ (getFn sOnSq onSq.fn).quenched = false ∧ (getFn sOnSq onSq.fn).power ≠ .draining) ∧
    (Turn sOnDr 1 6 onSq ∧ 3 = le onSq.entry 48 2 ∧ hasQueue sOnDr.sqs onSq.fn 3 = true ∧ getSq sOnDr onSq.fn 3 =
      some q3 ∧ q3.st ≠ SqState.draining ∧ (getFn sOnDr onSq.fn).quenched = false ∧ (getFn sOnDr onSq.fn).power = .draining) ∧
    (Turn sOnQ 1 6 onSq ∧ (getFn sOnQ onSq.fn).quenched = true) ∧
    (turnOf sBadSq 1 3 = some badSq ∧ Settled badSq ∧ firstBad (reservedBad badSq.entry ++ need 48 (hasQueue sBadSq.sqs badSq.fn (le
      badSq.entry 48 2))) = some 48) ∧
    (Turn sBusySq 1 3 busySq ∧ hasQueue sBusySq.sqs busySq.fn (le busySq.entry 48 2) = true ∧ sqIdle sBusySq
      busySq.fn (le busySq.entry 48 2) = false) ∧
    (Turn sResume 1 114 resumeCmd ∧ sResume.sys.mode ≠ Mode.held) ∧
    (turnOf sBadSq 1 1 = none) := by
  and_intros <;> first | decide +kernel | rfl

theorem meets_FunctionCommands :
    (128 = le enCmd.entry 40 2 ∧ Turn sEn 1 16 enCmd ∧ mayAct sEn enCmd.fn 128 = true ∧ (getFn sEn 128).heldEnable = none
      ∧ (getFn sEn 128).power ≠ FnPower.draining ∧ ((getFn sEn 128).quenched = false ∨ openOf sEn 128 = 0 ∨ (getFn
      sEn 128).power = FnPower.off)) ∧
    (128 = le enCmd.entry 40 2 ∧ Turn sEnWait 1 16 enCmd ∧ mayAct sEnWait enCmd.fn 128 = true ∧ (getFn sEnWait
      128).heldEnable = none ∧ (getFn sEnWait 128).power = FnPower.draining) ∧
    (128 = le disCmd.entry 40 2 ∧ Turn sDis 1 17 disCmd ∧ mayAct sDis disCmd.fn 128 = true ∧ (getFn sDis 128).power =
      FnPower.on ∧ sDis.sys.mode ≠ Mode.held) ∧
    (128 = le qCmd.entry 40 2 ∧ Turn sQ 1 18 qCmd ∧ mayAct sQ qCmd.fn 128 = true ∧ (getFn sQ 128).power = FnPower.on
      ∧ (getFn sQ 128).quenched = false ∧ sQ.sys.mode ≠ Mode.held) ∧
    (128 = le disDue.entry 40 2 ∧ getCmd sDisDue 1 = some disDue ∧ opcode disDue.entry = 17 ∧ disDue.phase =
      Phase.effected ∧ serving sDisDue = true ∧ changeDue sDisDue 0 1 = true ∧ (getFn sDisDue 128).power = FnPower.on
      ∧ (getFn sDisDue 128).heldEnable = none) ∧
    (128 = le qDue.entry 40 2 ∧ getCmd sQDue 1 = some qDue ∧ opcode qDue.entry = 18 ∧ qDue.phase = Phase.effected ∧
      serving sQDue = true ∧ changeDue sQDue 0 1 = true ∧ (getFn sQDue 128).power = FnPower.on ∧ (getFn sQDue
      128).quenched = false ∧ (getFn sQDue 128).heldEnable = none) ∧
    (128 = le drainCmd.entry 40 2 ∧ serving sDrain = true ∧ openOf sDrain 128 = 0 ∧ (getFn sDrain 128).power =
      FnPower.draining ∧ (getFn sDrain 128).waiters = [0] ∧ 0 ≠ 128 ∧ (getFn sDrain 128).heldEnable = none) ∧
    (128 = le limCmd.entry 40 2 ∧ Turn sLim 1 19 limCmd ∧ mayAct sLim limCmd.fn 128 = true ∧ le limCmd.entry 42 2 ≤
      4095 ∧ le limCmd.entry 44 2 ≤ 4095 ∧ le limCmd.entry 46 1 ≤ 63 ∧ le limCmd.entry 47 1 ≤ 1 ∧ le limCmd.entry 48
      4 ≤ 65536 ∧ le limCmd.entry 52 4 ≤ 131072 ∧ sLim.sys.mode ≠ Mode.held) ∧
    (128 = le limCmd.entry 40 2 ∧ (getFn sCls 128).nextCls = some ((3 : BitVec 6), (1 : BitVec 8)) ∧ serving sCls =
      true ∧ changeDue sCls 2 128 = true) ∧
    (128 = le worldCmd.entry 40 2 ∧ Turn sWorld 1 20 worldCmd ∧ mayAct sWorld worldCmd.fn 128 = true ∧ le
      worldCmd.entry 42 1 ≤ 1 ∧ (getFn sWorld 128).power = FnPower.off) := by
  and_intros <;> first | decide +kernel | rfl

theorem meets_SurroundingsCommands :
    (Turn sTt 1 32 ttCmd ∧ ttCmd.input = some [] ∧ inLen ttCmd.entry = 8192 ∧ (∀ i < Config.timetableSlots, BitVec.ofNat
      16 (le [] (2 * i) 2) &&& (49344 : BitVec 16) = (0 : BitVec 16))) ∧
    (sTt2.eng.walking = true ∧ sTt2.eng.slot = 0 ∧ sTt2.eng.fresh = false ∧ sTt2.eng.nextTable = some (1, [(5 : BitVec 16)]) ∧ getCmd sTt2 1 =
      some ttCmd2) ∧
    (Turn sTg 1 33 tgCmd ∧ tgCmd.input = some tgIn ∧ le tgCmd.entry 40 1 = 1 ∧ inLen tgCmd.entry = le tgCmd.entry 42
      2 * 16 ∧ [tgIn] = records tgIn (le tgCmd.entry 42 2) 16 ∧ [tgIn].all targetOk = true ∧
      [tgIn] = [] ++ tgIn :: [] ∧ le tgIn 0 2 = 3 ∧ le tgIn 8 8 ≠ 0 ∧ ∀ r ∈ [tgIn], le r 0 2 ≠ 4) ∧
    (Turn sTgD 1 33 tgDel ∧ tgDel.input = some (tgIn ++ tgOut) ∧ le tgDel.entry 40 1 = 1 ∧ inLen tgDel.entry = le tgDel.entry 42
      2 * 16 ∧ [tgIn, tgOut] = records (tgIn ++ tgOut) (le tgDel.entry 42 2) 16 ∧ [tgIn, tgOut].all targetOk = true ∧
      [tgIn, tgOut] = [tgIn] ++ tgOut :: [] ∧ le tgOut 0 2 = 3 ∧ le tgOut 8 8 = 0) ∧
    (Turn sVs 1 33 vsCmd ∧ vsCmd.input = some vsIn ∧ le vsCmd.entry 40 1 = 2 ∧ inLen vsCmd.entry = le vsCmd.entry 42
      2 * 48 ∧ [vsIn] = records vsIn (le vsCmd.entry 42 2) 48 ∧ [vsIn].all (vecSetOk sVs vsCmd.fn) = true ∧
      [vsIn] = [] ++ vsIn :: [] ∧ setKey (le vsIn 0 2) (le vsIn 2 2) = 9 ∧ ∀ r ∈ [vsIn], setKey (le r 0 2) (le r 2 2) ≠ 8) ∧
    (Turn sTs 1 34 tsCmd ∧ le tsCmd.entry 40 2 % 64 = 0 ∧ le tsCmd.entry 40 2 < 1024) ∧
    (serving sTsF = true ∧ getCmd sTsF 1 = some tsFin ∧ opcode tsFin.entry = 0x22 ∧ tsFin.phase = .fin tsRes ∧
      tsRes.status = .ok ∧ tsFin.origin = none ∧ canReq sTsF tsFin.fn = true ∧ getSq sTsF tsFin.fn tsFin.sq = some
      tsSq ∧ getCq sTsF tsFin.fn tsSq.cq = some tsCq ∧ ringCount tsCq.tail tsCq.head tsCq.n ≠ tsCq.n ∧ (tsCq.waiting =
      [] ∨ tsCq.waiting.head? = some 1) ∧ ∃ y, (getPort sTsF (portOf tsFin.fn)).targets.get? 70 = some y ∧ 64 ≤ 70 ∧
      70 < 64 + 64 ∧ bit (le tsFin.entry 56 8) 6 = true) ∧
    (Turn sMod 1 35 modCmd1 ∧ hasQueue sMod.cqs modCmd1.fn (le modCmd1.entry 48 2) = true ∧ 1 ≤ le modCmd1.entry 50 2
      ∧ le modCmd1.entry 50 2 ≤ 4096 ∧ le modCmd1.entry 54 2 ≤ 2047) ∧
    (serving sModF = true ∧ getCmd sModF 1 = some modFin ∧ opcode modFin.entry = 0x23 ∧ modFin.phase = .fin tsRes ∧ tsRes.status =
      .ok ∧ modFin.origin = none ∧ canReq sModF modFin.fn = true ∧ getSq sModF modFin.fn modFin.sq = some tsSq ∧ getCq sModF
      modFin.fn tsSq.cq = some tsCq ∧ ringCount tsCq.tail tsCq.head tsCq.n ≠ tsCq.n ∧ (tsCq.waiting = [] ∨ tsCq.waiting.head? =
      some 1) ∧ le modFin.entry 48 2 ≠ tsSq.cq ∧ getCq sModF modFin.fn (le modFin.entry 48 2) = some c2q) ∧
    (Turn sTopo 1 48 topoCmd ∧ topologyBad topoCmd.entry = [] ∧ sTopo.topo.set = false ∧ (le topoCmd.entry 40 1 = 0 ∨
      sTopo.keys.berths = [])) ∧
    (Turn sTopo2 1 48 topoCmd ∧ topologyBad topoCmd.entry = [] ∧ sTopo2.topo.set = true ∧ sameTopology sTopo2
      topoCmd.entry = false) := by
  and_intros <;> first | decide +kernel | rfl | exact nil_slots | exact ⟨_, rfl⟩ | exact ⟨_, rfl, by decide +kernel⟩

end Keeper

namespace Berths

def onBerth (c : Cmd) (b : Berth) (k : Key) : State :=
  { on c with keys := { up.keys with keys := [(5, k)], berths := [(9, b)] } }
def env1 : Cmd := cmdOf 0x32 [(40,1,1),(42,2,600)]
def env2 : Cmd := { cmdOf 0x32 [(40,1,2),(24,4,64)] with input := some (zeros 64) }
def chain64 : Bytes := leBytes 2 9 ++ zeros 14 ++ List.replicate 48 0x22
def env3 : Cmd := { cmdOf 0x32 [(40,1,3),(44,4,1),(24,4,64)] with input := some chain64 }
def stale : Berth := { berth0 with lastEpoch := 0 }
def sEnv1 : State := on env1
def sEnv2 : State := on env2
def sEnv3 : State := onBerth env3 stale (key0 0x3010 32 true)
def mark : Cmd := cmdOf 0x70 []
def sMark : State := on mark
def hold : Cmd := cmdOf 0x71 []
def sHold : State := on hold
def sHeld : State := { on hold with sys := { up.sys with mode := .held, heldReturn := .service } }
def resm : Cmd := cmdOf 0x72 []
def sResm : State := { on resm with sys := { up.sys with mode := .held, heldReturn := .service } }
def cal : Cmd := cmdOf 0x31 [(40,8,0x123456789ABC)]
def sCal : State := on cal
def calF : Cmd := { cmdOf 0x31 [(40,8,0x123456789ABC),(24,4,4691)] with input := some (zeros 4691) }
def sCalF : State := { on calF with lc := { up.lc with state := .field } }
def hdl : Nat × Nat × Nat := (8, 4, mkHandle 0 0 9)
def alloc : Cmd := cmdOf 0x40 [(40,2,0xFFFF),(42,1,7)]
def sAlloc : State := on alloc
def free : Cmd := cmdOf 0x41 [hdl]
def sFree : State := onBerth free berth0 (key0 0x3010 32 true)
def freeing : Cmd := { free with phase := .effected, berth := some 9 }
def sFreeing : State := onBerth freeing { berth0 with freeing := true } (key0 0x3010 32 true)
def freeB : Berth := { berth0 with freeing := true }
def query : Cmd := cmdOf 0x43 [hdl, (28,4,128)]
def sQuery : State := onBerth query berth0 (key0 0x3010 32 true)
def query1 : Cmd := cmdOf 0x43 [hdl, (28,4,127)]
def sQuery1 : State := onBerth query1 berth0 (key0 0x3010 32 true)
def move0 : Cmd := cmdOf 0x42 [hdl, (40,1,0)]
def sMove0 : State := onBerth move0 berth0 (key0 0x3010 32 true)
def move1 : Cmd := cmdOf 0x42 [hdl, (40,1,1)]
def linkUp : Link := { Link.reset with st := .up, peer := some 1, keyTx := List.replicate 32 1, keyRx := List.replicate 32 2 }
def topoUp : Topo := { Topo.reset with set := true, devices := 2, links := Vector.ofFn fun i => if i.val = 7 then linkUp else Link.reset }
def sMove1 : State := { onBerth move1 berth0 (key0 0x3010 32 true) with topo := topoUp }
def nopWord : Nat := (lveEncode (.nop 0 { w := false, pg := 0, pz := false, qm := 0, vd := 0, va := 0, vb := 0, imm := 0 })).getD 0
def planB : Bytes :=
  [(0,4,0x4E4C5054),(4,2,1),(6,2,0x3141),(8,4,0x80000000),(16,4,512),(20,2,1),(23,1,1),(32,4,1),(44,2,0xFFFF),
   (49,1,1),(52,4,4096),(64,4,256),(256,1,1),(260,4,65536),(264,4,272),(268,4,8),(272,8,nopWord)].foldl (fun b f => overwrite b f.1 (leBytes f.2.1 f.2.2)) (zeros 512)
def planIn : Bytes := planB
def loadC : Cmd := { cmdOf 0x50 [(24,4,5139)] with input := some planIn }
def sLoad : State := on loadC
def loadW : Cmd := { loadC with phase := .effected }
def sLoad2 : State := { on loadW with eng := { up.eng with plans := [(0x80000000, planB)], changes := [(0, 1, 0xFFFF)] } }
def sLoad4 : State := { on loadC with eng := { up.eng with plans := [(0x80000000, planB)] } }
def unl : Cmd := cmdOf 0x51 [(40,4,0x80000000)]
def sUnl : State := { on unl with eng := { up.eng with plans := [(0x80000000, planB)] } }
def runP : Cmd := { cmdOf 0x0801 [(40,4,0x80000000)] with planId := 0x80000000, segs := [{ kind := 1, grouped := false, masked := false, steps := 5, off := 272, len := 8, dec := none }] }
def sRunP : State := { on runP with eng := { up.eng with plans := [(0x80000000, planB)] } }
def sLoad3 : State := { sLoad2 with cmds := [loadW, { runP with id := 2 }] }
def sMiss : State := { up with eng := { up.eng with missing := [7], copies := [(7, (256, 1))] } }
def chal : Cmd := { cmdOf 0x61 [(40,1,1),(28,4,4288)] with input := some [] }
def maint (c : Cmd) : State := { on c with sys := { up.sys with mode := .maintenance } }
def sChal : State := { maint chal with nvm := { up.nvm with identity := sealPersist [] (zeros 10) } }
def resp0 : Cmd := { cmdOf 0x62 [(24,4,4755)] with asked := true }
def challenge0 : Bytes := overwrite (zeros 128) 4 [1]
def sResp0 : State := { maint resp0 with lc := { up.lc with challenge := some challenge0 } }
def respIn : Bytes := challenge0
def resp1 : Cmd := { resp0 with input := some respIn, again := true, header := some challenge0 }
def sResp1 : State := { maint resp1 with nvm := { up.nvm with ownerRoot := sealPersist [] [9] } }
def resp2 : Cmd := { resp1 with header := none }
def sResp2 : State := maint resp2

theorem meets_CalendarEnvironmentAndMode :
    (Turn sEnv1 1 50 env1 ∧ le env1.entry 40 1 = 1 ∧ 600 ≤ le env1.entry 42 2 ∧ le env1.entry 42 2 ≤ 900 ∧ le env1.entry
      44 4 = 0 ∧ inLen env1.entry = 0) ∧
    (Turn sEnv2 1 50 env2 ∧ env2.input = some (zeros 64) ∧ le env2.entry 40 1 = 2 ∧ le env2.entry 42 2 = 0 ∧ le
      env2.entry 44 4 = 0 ∧ inLen env2.entry = 64) ∧
    (Turn sEnv3 1 50 env3 ∧ env3.input = some chain64 ∧ le env3.entry 40 1 = 3 ∧ le env3.entry 42 2 = 0 ∧ le
      env3.entry 44 4 = 1 ∧ inLen env3.entry = 64 ∧ 9 = le chain64 0 2 ∧ allZero (slice chain64 2 14) = true ∧
      sEnv3.keys.berths.get? 9 = some stale ∧ berthVisible sEnv3 env3 9 stale = true ∧ stale.bflags.getLsbD 1 = true ∧ stale.lastEpoch
      ≠ sEnv3.time.epoch ∧ List.length chain64 = 64) ∧
    (Turn sMark 1 112 mark) ∧
    (Turn sHold 1 113 hold ∧ sHold.sys.mode ≠ Mode.held ∧ opposed sHold 7 = false) ∧
    (Turn sHeld 1 113 hold ∧ sHeld.sys.mode = Mode.held) ∧
    (Turn sResm 1 114 resm ∧ sResm.sys.mode = Mode.held ∧ opposed sResm 2 = false) ∧
    (Turn (on resm) 1 114 resm ∧ (on resm).sys.mode ≠ Mode.held) ∧
    (Turn sCal 1 49 cal ∧ sCal.lc.state ≠ Lc.field ∧ segsDone cal = true ∧ running sCal = true ∧ inLen cal.entry = 0
      ∧ planResident sCal cal.planId = true) ∧
    (Turn sCalF 1 49 calF ∧ sCalF.lc.state = Lc.field ∧ calF.input = some (zeros 4691) ∧ segsDone calF = true ∧ running sCalF = true) := by
  and_intros <;> first | decide +kernel | rfl

theorem meets_BerthCommands :
    (Turn sAlloc 1 64 alloc ∧ allocBad sAlloc alloc = [] ∧ inLen alloc.entry = 0 ∧ alloc.input = none ∧ berthCharge
      sAlloc (allocOwner alloc) < (getFn sAlloc (allocOwner alloc)).berthLim ∧ nextIndex sAlloc = some 0) ∧
    (BerthTurn sFree 1 65 free (ownerOrPf sFree) 9 berth0) ∧
    (getCmd sFreeing 1 = some freeing ∧ Settled freeing ∧ serving sFreeing = true ∧ opcode freeing.entry = 65 ∧ freeing.phase =
      Phase.effected ∧ freeing.berth = some 9 ∧ (∀ x ∈ sFreeing.cmds, x.id ≠ 1 → x.berth ≠ some 9 ∧ (x.id < 1 → namesBerth sFreeing x 9 = false))) ∧
    (BerthTurn sQuery 1 67 query (ownerOrPf sQuery) 9 berth0 ∧ 128 ≤ outCap query.entry) ∧
    (BerthTurn sQuery1 1 67 query1 (ownerOrPf sQuery1) 9 berth0 ∧ outCap query1.entry < 128) ∧
    (BerthTurn sMove0 1 66 move0 (moverOf sMove0) 9 berth0 ∧ move0.phase = Phase.run ∧ le move0.entry 40 1 =
      sMove0.topo.position) ∧
    (BerthTurn sMove1 1 66 move1 (moverOf sMove1) 9 berth0 ∧ move1.phase = Phase.run ∧ le move1.entry 40 1 ≠
      sMove1.topo.position ∧ linksTo sMove1 (le move1.entry 40 1) ≠ [] ∧ moveErr sMove1 9 berth0 = none ∧
      berth0.spilled = false ∧ (∀ g ∈ boundKeys berth0, (sMove1.keys.keys.get? g).any (·.spilled) = false) ∧ (∀ x ∈ sMove1.cmds, x.id < 1 → namesBerth sMove1 x 9 = false ∧ ∀ g ∈ boundKeys berth0, blocksKey sMove1 x g = false) ∧
      (∃ k, linkFor sMove1 (le move1.entry 40 1) 9 = some k)) := by
  and_intros <;> first | decide +kernel | rfl | exact ⟨_, rfl⟩ | exact ⟨_, rfl, by decide +kernel⟩

theorem meets_PlanStore :
    (Turn sLoad 1 0x50 loadC ∧ loadC.input = some planIn ∧ waiting sLoad 1 = none ∧ inLen loadC.entry = le planIn 16
      4 + 4627 ∧ 256 ≤ inLen loadC.entry ∧ segsDone loadC = true ∧ running sLoad = true ∧ planB = slice planIn 0
      (le planIn 16 4) ∧ 0x80000000 = le planB 8 4 ∧ bodyOk planB = true ∧ storeFull sLoad 0x80000000
      planB.length = false ∧ planOpen sLoad 0x80000000 = false ∧ Map.get? sLoad.eng.plans 0x80000000 = none) ∧
    (waiting sLoad2 1 = some loadW ∧ Settled loadW ∧ opcode loadW.entry = 0x50 ∧ running sLoad2 = true ∧ loadW.input = some planIn ∧
      planB = slice planIn 0 (le planIn 16 4) ∧ 0x80000000 = le planB 8 4 ∧ planOpen sLoad2 0x80000000 = false ∧
      changeDue sLoad2 0 1 = true ∧ storeFull sLoad2 0x80000000 planB.length = false) ∧
    (Turn sLoad4 1 0x50 loadC ∧ loadC.input = some planIn ∧ waiting sLoad4 1 = none ∧ inLen loadC.entry = le planIn 16 4 + 4627 ∧
      256 ≤ inLen loadC.entry ∧ segsDone loadC = true ∧ running sLoad4 = true ∧ planB = slice planIn 0 (le planIn 16 4) ∧
      0x80000000 = le planB 8 4 ∧ bodyOk planB = true ∧ storeFull sLoad4 0x80000000 planB.length = false ∧
      (planOpen sLoad4 0x80000000 = true ∨ (Map.get? sLoad4.eng.plans 0x80000000).isSome = true)) ∧
    (waiting sLoad3 1 = some loadW ∧ opcode loadW.entry = 0x50 ∧ loadW.input = some planIn ∧ planOpen sLoad3 (le
      (slice planIn 0 (le planIn 16 4)) 8 4) = true) ∧
    (Turn sUnl 1 0x51 unl ∧ waiting sUnl 1 = none ∧ 0x80000000 = le unl.entry 40 4 ∧ 0x80000000 ≤ 0x80000000 ∧
      (Map.get? sUnl.eng.plans 0x80000000).isSome = true ∧ planOpen sUnl 0x80000000 = false) ∧
    (serving sRunP = true ∧ planResident sRunP 0x80000000 = true ∧ usesPlan sRunP 0x80000000 = true ∧ Map.get?
      sRunP.eng.copies 0x80000000 = none ∧ copyBytes sRunP.eng.copies + (planBody sRunP 0x80000000).length ≤
      Config.planMemory ∧ gmReadPlan sRunP 0x80000000 = none) ∧
    (sMiss.eng.missing.contains 7 = true) := by
  and_intros <;> first | decide +kernel | rfl

theorem signer_there : ∃ pk, signerKey sResp1 = some pk :=
  Option.ne_none_iff_exists'.mp (opens [] [9])

theorem meets_DebugAuthorisation :
    (Turn sChal 1 97 chal ∧ chal.input.isSome = true ∧ segsDone chal = true ∧ running sChal = true ∧ 1 ≤ le
      chal.entry 40 1 ∧ le chal.entry 40 1 ≤ 2 ∧ 4288 ≤ outCap chal.entry ∧ scopeAllowed sChal.lc.state (le
      chal.entry 40 1) = true ∧ sChal.lc.state ≠ .blank ∧ Drew sChal chal (dr sChal chal).1 (dr sChal chal).2) ∧
    (turnOf sResp0 1 98 = some resp0 ∧ reservedBad resp0.entry = [] ∧ inLen resp0.entry = 4755 ∧ resp0.input = none ∧
      resp0.again = false) ∧
    (Turn sResp1 1 98 resp1 ∧ inLen resp1.entry = 4755 ∧ resp1.input = some respIn ∧ resp1.again = true ∧ segsDone
      resp1 = true ∧ running sResp1 = true ∧ resp1.header = some challenge0 ∧ challenge0 = slice respIn 0 128 ∧
      le challenge0 4 1 = 1 ∧ ∃ pk, signerKey sResp1 = some pk) ∧
    (Turn sResp2 1 98 resp2 ∧ inLen resp2.entry = 4755 ∧ resp2.input = some respIn ∧ resp2.again = true ∧ segsDone
      resp2 = true ∧ running sResp2 = true ∧ resp2.header ≠ some (slice respIn 0 128)) := by
  and_intros <;> first | decide +kernel | rfl | exact signer_there | exact drew _ _ rfl rfl

end Berths

namespace Crypto

def kSym : Key := key0 0x3010 32 true
def enc : Cmd := opCmd 0x0101 [(40,2,0x0103),(60,2,0x3010)] (zeros 4)
def sEnc : State := opOn enc kSym
def dec : Cmd := opCmd 0x0102 [(40,2,0x0103),(60,2,0x3010)] (zeros 4)
def sDec : State := opOn dec (key0 0x0103 100 true)
def dh : Cmd := opCmd 0x0103 [(40,2,0x0504),(60,2,0x3010)] (zeros 32)
def sDh : State := opOn dh (key0 0x0504 32 true)
def oe : Cmd := opCmd 0x0104 [(43,1,0x02)] (zeros 264)
def sOe : State := opOn oe kSym
def od : Cmd := opCmd 0x0105 [(43,1,0x02)] (zeros 256)
def sOd : State := opOn od (key0 0x1503 90 true)
def hx1 : Cmd := opCmd 0x0110 [(40,2,0x0103),(42,1,1)] []
def sHx1 : State := opOn hx1 kSym
def encS : Cmd := opCmd 0x0101 [(40,2,0x0103),(42,1,1),(60,2,0x3010)] []
def sEncS : State := opOn encS (key0 0x0103 100 false)
def hx2 : Cmd := opCmd 0x0110 [(40,2,0x0103),(42,1,2),(43,1,1),(46,2,48),(60,2,0x3020)] (zeros 40)
def sHx2 : State := opOn hx2 kSym
def hx3 : Cmd := opCmd 0x0110 [(40,2,0x0103),(42,1,3)] (zeros 40)
def sHx3 : State := opOn hx3 { key0 0x7F03 40 true with destroyPending := true, markId := 1 }
def sHx3g : State := { sHx3 with keys := { sHx3.keys with keys := [] } }
def sg : Cmd := opCmd 0x0201 [(40,2,0x1003),(44,1,1)] (zeros 40)
def sSg : State := opOn sg (key0 0x1003 100 true)
def sgd : Cmd := opCmd 0x0201 [(40,2,0x1003),(44,1,1),(45,1,1)] (zeros 40)
def sSgd : State := opOn sgd (key0 0x1003 100 true)
def vf : Cmd := opCmd 0x0202 [(40,2,0x1003),(44,1,1)] (zeros 50)
def sVf : State := opOn vf (key0 0x1003 100 false)
def sgp : Cmd := opCmd 0x0201 [(40,2,0x1502),(43,1,2)] (zeros 40)
def sSgp : State := opOn sgp (key0 0x1502 1160 true)
def xmssIn : Bytes := [0, 0, 0, 1] ++ zeros 2564
def vfh : Cmd := opCmd 0x0202 [(40,2,0x1202),(45,1,2)] xmssIn
def sVfh : State := opOn vfh kSym
def vfn : Cmd := opCmd 0x0202 [(40,2,0x1202),(45,1,2)] (zeros 4)
def sVfn : State := opOn vfn kSym
def vfr : Cmd := opCmd 0x0202 [(40,2,0x1502),(43,1,2),(45,1,2)] (zeros 520)
def sVfr : State := opOn vfr kSym
def vfi : Cmd := opCmd 0x0202 [(40,2,0x1003),(44,1,1),(45,1,2)] (zeros 60)
def sVfi : State := opOn vfi (key0 0x1003 100 false)
def ae : Cmd := opCmd 0x0301 [(40,2,0x3001),(43,1,16),(44,4,4)] (zeros 20)
def sAe : State := opOn ae kSym
def ad : Cmd := opCmd 0x0302 [(40,2,0x3001),(43,1,16),(44,4,4)] (zeros 40)
def sAd : State := opOn ad kSym
def ce : Cmd := opCmd 0x0303 [(40,2,0x3002)] (zeros 20)
def sCe : State := opOn ce kSym
def cx : Cmd := opCmd 0x0303 [(40,2,0x3003),(44,4,32)] (zeros 64)
def sCx : State := opOn cx (key0 0x3011 64 true)
def cd : Cmd := opCmd 0x0304 [(40,2,0x3002)] (zeros 36)
def sCd : State := opOn cd kSym
def cxd : Cmd := opCmd 0x0304 [(40,2,0x3003),(44,4,32)] (zeros 64)
def sCxd : State := opOn cxd (key0 0x3011 64 true)
def hs : Cmd := opCmd 0x0310 [(40,2,0x2012)] (zeros 36)
def sHs : State := opOn hs kSym
def mg : Cmd := opCmd 0x0320 [(40,2,0x2102),(44,4,16)] (zeros 36)
def sMg : State := opOn mg (key0 0x3020 32 true)
def mv : Cmd := opCmd 0x0321 [(40,2,0x2102),(44,4,16)] (zeros 36)
def sMv : State := opOn mv (key0 0x3020 32 true)
def kd : Cmd := opCmd 0x0330 [(40,2,0x3301),(42,1,2),(44,2,48),(46,2,4),(60,2,0x3020)] (zeros 36)
def sKd : State := opOn kd (key0 0x3020 32 true)

theorem room_hx1 (b c : Bytes) : RoomAt sHx1 (genPrivate 259 0 b ++ genPrivate 0x0504 0 c).length 0 1 := by
  have h : (genPrivate 259 0 b ++ genPrivate 0x0504 0 c).length = privLen 259 + privLen 0x0504 := by
    rw [List.length_append]; congr 1 <;> exact padTo_length _ _
  rw [h]; exact ⟨_, rfl, by decide +kernel⟩

theorem meets_KeyEstablishment :
    (259 = le enc.entry 40 2 ∧ Acts sEnc 1 0x0101 enc (zeros 4) ∧ zeros 4 = (if le enc.entry 42 1 = 1 then keyBytes
      sEnc enc.keyA else zeros 4) ∧ Drew sEnc enc (dr sEnc enc).1 (dr sEnc enc).2 ∧ RoomAt sEnc (secretLen 259)
      0 1) ∧
    (259 = le encS.entry 40 2 ∧ Acts sEncS 1 0x0101 encS [] ∧ keyBytes sEncS encS.keyA = (if le encS.entry 42 1 = 1
      then keyBytes sEncS encS.keyA else []) ∧ Drew sEncS encS (dr sEncS encS).1 (dr sEncS encS).2 ∧ RoomAt
      sEncS (secretLen 259) 0 1) ∧
    (259 = le dec.entry 40 2 ∧ Acts sDec 1 0x0102 dec (zeros 4) ∧ RoomAt sDec (secretLen 259) 0 0) ∧
    (1284 = le dh.entry 40 2 ∧ Acts sDh 1 0x0103 dh (zeros 32) ∧ Drew sDh dh (dr sDh dh).1 (dr sDh dh).2 ∧ RoomAt sDh
      (secretLen 1284) 0 1) ∧
    (Acts sOe 1 0x0104 oe (zeros 264) ∧ Drew sOe oe (dr sOe oe).1 (dr sOe oe).2) ∧
    (Acts sOd 1 0x0105 od (zeros 256) ∧ Drew sOd od (dr sOd od).1 (dr sOd od).2) ∧
    (259 = le hx1.entry 40 2 ∧ Acts sHx1 1 0x0110 hx1 [] ∧ le hx1.entry 42 1 = 1 ∧ Drew sHx1 hx1 (dr sHx1 hx1).1 (dr
      sHx1 hx1).2 ∧ RoomAt sHx1 (genPrivate 259 0 ((dr sHx1 hx1).1.take 64) ++ genPrivate 0x0504 0 (slice (dr
      sHx1 hx1).1 64 32)).length 0 1) ∧
    (259 = le hx2.entry 40 2 ∧ Acts sHx2 1 0x0110 hx2 (zeros 40) ∧ le hx2.entry 42 1 = 2 ∧ Drew sHx2 hx2 (dr sHx2
      hx2).1 (dr sHx2 hx2).2 ∧ RoomAt sHx2 (le hx2.entry 46 2) 0 1) ∧
    (259 = le hx3.entry 40 2 ∧ Acts sHx3 1 0x0110 hx3 (zeros 40) ∧ le hx3.entry 42 1 = 3 ∧ ephemeralHere sHx3 hx3 = true ∧ Drew (consumeKey
      (cacheBuild sHx3 hx3) hx3.keyA) hx3 (dr (consumeKey (cacheBuild sHx3 hx3) hx3.keyA) hx3).1 (dr (consumeKey
      (cacheBuild sHx3 hx3) hx3.keyA) hx3).2 ∧ RoomAt (consumeKey (cacheBuild sHx3 hx3) hx3.keyA) (le hx3.entry
      46 2) 0 1) ∧
    (Acts sHx3g 1 0x0110 hx3 (zeros 40) ∧ le hx3.entry 42 1 = 3 ∧ ephemeralHere sHx3g hx3 = false) := by
  and_intros <;> first | decide +kernel | rfl | exact ⟨_, rfl, by decide +kernel⟩ | exact drew _ _ rfl rfl | exact room_hx1 _ _

theorem meets_Signatures :
    (4099 = le sg.entry 40 2 ∧ 1 = le sg.entry 44 1 ∧ false = bit (le sg.entry 45 1) 0 ∧ Acts sSg 1 0x0201 sg (zeros
      40) ∧ Drew sSg sg (dr sSg sg).1 (dr sSg sg).2) ∧
    (4099 = le sgd.entry 40 2 ∧ 1 = le sgd.entry 44 1 ∧ true = bit (le sgd.entry 45 1) 0 ∧ Acts sSgd 1 0x0201 sgd
      (zeros 40) ∧ Drew sSgd sgd (dr sSgd sgd).1 (dr sSgd sgd).2) ∧
    (5378 = le sgp.entry 40 2 ∧ 0 = le sgp.entry 44 1 ∧ false = bit (le sgp.entry 45 1) 0 ∧ Acts sSgp 1 0x0201 sgp
      (zeros 40) ∧ Drew sSgp sgp (dr sSgp sgp).1 (dr sSgp sgp).2) ∧
    (4099 = le vf.entry 40 2 ∧ 1 = le vf.entry 44 1 ∧ false = bit (le vf.entry 45 1) 0 ∧ Acts sVf 1 0x0202 vf (zeros
      50) ∧ bit (le vf.entry 45 1) 1 = false) ∧
    (4099 = le vfi.entry 40 2 ∧ 1 = le vfi.entry 44 1 ∧ false = bit (le vfi.entry 45 1) 0 ∧ Acts sVfi 1 0x0202 vfi
      (zeros 60) ∧ bit (le vfi.entry 45 1) 1 = true ∧ InputKey vfi.entry (zeros 60) 2592 4627) ∧
    (5378 = le vfr.entry 40 2 ∧ 0 = le vfr.entry 44 1 ∧ false = bit (le vfr.entry 45 1) 0 ∧ Acts sVfr 1 0x0202 vfr
      (zeros 520) ∧ bit (le vfr.entry 45 1) 1 = true ∧ InputKey vfr.entry (zeros 520) 264 256) ∧
    (4610 = le vfh.entry 40 2 ∧ 0 = le vfh.entry 44 1 ∧ false = bit (le vfh.entry 45 1) 0 ∧ Acts sVfh 1 0x0202 vfh
      xmssIn ∧ bit (le vfh.entry 45 1) 1 = true ∧ InputKey vfh.entry xmssIn 68 2500) ∧
    (4610 = le vfn.entry 40 2 ∧ 0 = le vfn.entry 44 1 ∧ false = bit (le vfn.entry 45 1) 0 ∧ Acts sVfn 1 0x0202 vfn
      (zeros 4) ∧ bit (le vfn.entry 45 1) 1 = true ∧ isRsa 0x1202 = false ∧ famOf 0x1202 = .hbs ∧ hbsVerifyLen
      0x1202 (zeros 4) = none) := by
  and_intros <;> first | decide +kernel | rfl | exact ⟨_, rfl, by decide +kernel⟩ | exact drew _ _ rfl rfl | (unfold InputKey; decide +kernel)

theorem meets_CiphersHashesMacs :
    (4 = le ae.entry 44 4 ∧ 16 = le ae.entry 43 1 ∧ Acts sAe 1 0x0301 ae (zeros 20) ∧ Drew sAe ae (dr sAe ae).1 (dr sAe ae).2) ∧
    (4 = le ad.entry 44 4 ∧ 16 = le ad.entry 43 1 ∧ Acts sAd 1 0x0302 ad (zeros 40)) ∧
    (0 = le ce.entry 44 4 ∧ 0 = le ce.entry 43 1 ∧ Acts sCe 1 0x0303 ce (zeros 20) ∧ le ce.entry 40 2 = 0x3002 ∧
      Drew sCe ce (dr sCe ce).1 (dr sCe ce).2) ∧
    (32 = le cx.entry 44 4 ∧ 0 = le cx.entry 43 1 ∧ Acts sCx 1 0x0303 cx (zeros 64) ∧ le cx.entry 40 2 ≠ 0x3002) ∧
    (0 = le cd.entry 44 4 ∧ 0 = le cd.entry 43 1 ∧ Acts sCd 1 0x0304 cd (zeros 36) ∧ le cd.entry 40 2 = 0x3002) ∧
    (32 = le cxd.entry 44 4 ∧ 0 = le cxd.entry 43 1 ∧ Acts sCxd 1 0x0304 cxd (zeros 64) ∧ le cxd.entry 40 2 ≠ 0x3002) ∧
    (0 = le hs.entry 44 4 ∧ 0 = le hs.entry 43 1 ∧ Acts sHs 1 0x0310 hs (zeros 36)) ∧
    (16 = le mg.entry 44 4 ∧ 0 = le mg.entry 43 1 ∧ Acts sMg 1 0x0320 mg (zeros 36)) ∧
    (16 = le mv.entry 44 4 ∧ 0 = le mv.entry 43 1 ∧ Acts sMv 1 0x0321 mv (zeros 36)) ∧
    (le kd.entry 44 4 = le kd.entry 44 4 ∧ 0 = le kd.entry 43 1 ∧ Acts sKd 1 0x0330 kd (zeros 36) ∧ RoomAt sKd (le
      kd.entry 44 2) 0 0) := by
  and_intros <;> first | decide +kernel | rfl | exact ⟨_, rfl, by decide +kernel⟩ | exact drew _ _ rfl rfl

end Crypto

namespace Keys

def kSym : Key := key0 0x3010 32 true
def kw : Cmd := opCmd 0x0401 [(40,2,0x3010)] (zeros 32)
def sKw : State := opOn kw kSym
def kp : Cmd := opCmd 0x0402 [(40,2,0x1001)] (zeros 31)
def sKp : State := opOn kp kSym
def kg : Cmd := opCmd 0x0403 [(40,2,0x3010),(44,2,32)] []
def sKg : State := opOn kg kSym
def kws : Cmd := opCmd 0x0401 [(40,2,0x0103),(42,1,1)] (zeros 64)
def sKws : State := opOn kws kSym
def kg2 : Cmd := opCmd 0x0403 [(40,2,0x0504)] []
def sKg2 : State := opOn kg2 kSym
def kpu : Cmd := opCmd 0x0404 [] []
def kX : Key := key0 0x0504 32 true
def sKpu : State := opOn kpu kX
def kqy : Cmd := opCmd 0x0406 [] []
def sKqy : State := opOn kqy kSym
def kde : Cmd := opCmd 0x0405 [] []
def sKde : State := opOn kde kSym
def kdd : Cmd := { kde with phase := .effected }
def kDy : Key := { kSym with destroyPending := true }
def sKdd : State := opOn kdd kDy
def ksh : Cmd := opCmd 0x0407 [(40,2,128),(42,2,0xFFFF),(44,2,0xFFFF),(46,2,0xFFFF),(48,1,1)] []
def sKsh : State := opOn ksh kSym
def kbd : Cmd := opCmd 0x0408 [] []
def sKbd : State := opOn kbd kSym
def okR : Result := { status := .ok, detail := 0, out := [] }
def wo1 : Cmd := { opCmd 0x0410 [(40,1,1)] [] with keyB := some 5 }
def sWo1 : State := opOn wo1 kSym
def wo2 : Cmd := { opCmd 0x0410 [(40,1,2)] (zeros 40) with keyB := some 5 }
def sWo2 : State := opOn wo2 kSym
def wo3 : Cmd := { opCmd 0x0410 [(40,1,3)] [] with keyB := some 5 }
def sWo3 : State := opOn wo3 kSym
def blob0 : Bytes := [(0,4,0x50525754),(4,2,1),(6,1,1),(12,4,32),(16,2,0x3010),(19,1,2),(35,1,7)].foldl (fun b f => overwrite b f.1 (leBytes f.2.1 f.2.2)) (zeros 112)
def wi : Cmd := opCmd 0x0411 [(40,1,1)] blob0
def sWi : State := opOn wi kSym
def wib : Cmd := opCmd 0x0411 [(40,1,1)] (zeros 112)
def sWib : State := opOn wib kSym
def kww : Cmd := { opCmd 0x0412 [] [] with keyB := some 5 }
def sKww : State := opOn kww kSym
def kwu : Cmd := opCmd 0x0413 [(40,2,0x3010)] (zeros 40)
def sKwu : State := opOn kwu kSym
def rd : Cmd := opCmd 0x0501 [(44,4,16)] []
def sRd : State := opOn rd kSym
def sRdF : State := { opOn rd kSym with rng := { rngUp with state := .fault } }
def ci : Cmd := opCmd 0x0602 [(40,1,255)] []
def sCi : State := opOn ci kSym
def sCiMax : State := { sCi with keys := { sCi.keys with held := [(heldKey 3 255, BitVec.allOnes 64)] } }
def cr : Cmd := opCmd 0x0601 [(40,1,255)] []
def sCr : State := { opOn cr kSym with keys := { (opOn cr kSym).keys with held := [(heldKey 3 255, 7)] } }
def copyBad : Copy := { value := 5, gen := 0, resv := 0, check := 0, margin := true }
def sCrBad : State := { opOn cr kSym with nvm := { up.nvm with recs := [(3 * 65536 + 255, [(0, copyBad)])] } }
def hk : Cmd := opCmd 0x0610 [(40,2,0x1202),(42,2,3)] (zeros 4)
def sHk : State := opOn hk kSym
def hkv : Cmd := { opCmd 0x0610 [(40,2,0x1202),(42,2,3),(28,4,4096)] [0, 0, 0, 1] with value := some 0 }
def sHkv : State := opOn hkv kSym
def kTree : Key := key0 0x1202 32 true
def hl : Cmd := { opCmd 0x0611 [] [] with keyA := some (0x1F800 + 3), input := none }
def tree3 : TreeRec := {
  gen := 1, pset := 0x1202, params := [0, 0, 0, 1], owner := 0, uses := 0, attr := 0, lcMask := 0, pub := [],
  iv := zeros 12, ct := zeros 32, tag := zeros 16, box := .blank, authentic := true }
def treeSt (c : Cmd) (n r : Nat) : State :=
  { on c with
    keys := { up.keys with keys := [(0x1F803, kTree)], berths := [(9, berth0)], trees := [(3, (n, r))] },
    nvm := { up.nvm with trees := [(3, tree3)] } }
def sHl : State := treeSt hl 0 1
def sHl2 : State := treeSt hl 0 0
def sHl3 : State := treeSt hl 1024 1024
def hsn : Cmd := { opCmd 0x0611 [] (zeros 3) with keyA := some (0x1F800 + 3), leaf := some 0 }
def sHsn : State := treeSt hsn 1 1
def hq : Cmd := { opCmd 0x0612 [] [] with keyA := some (0x1F800 + 3) }
def sHq : State := treeSt hq 1 64
def nw : Cmd := opCmd 0x0621 [(44,4,0xFFFFE)] [1, 0xFF]
def sNw : State := opOn nw kSym
def sNwWorn : State := { sNw with nvm := { sNw.nvm with wear := sNw.nvm.wear.map fun w => { w with worn := true } } }
def nr : Cmd := opCmd 0x0620 [(44,4,0xFFFFE),(48,4,2)] []
def sNr : State := opOn nr kSym
def tr : Cmd := opCmd 0x0701 [] []
def sTr : State := opOn tr kSym
def ts : Cmd := opCmd 0x0702 [(40,2,0x2012)] (zeros 32)
def strict0 : Berth := { berth0 with bflags := 6 }
def sealKey : Key := key0 0x1003 100 true
def sTsS : State := { opOn ts sealKey with keys := { up.keys with keys := [(5, sealKey)], berths := [(9, strict0)] }, backup := { up.backup with timeLost := true } }
def sTs : State := opOn ts sealKey
def sl : Cmd := opCmd 0x0710 [] (zeros 9)
def sSl : State := opOn sl sealKey
def sSlS : State := { opOn sl sealKey with keys := { up.keys with keys := [(5, sealKey)], berths := [(9, strict0)] }, backup := { up.backup with timeLost := true } }
def hdr0 : Bytes := zeros 256
def ts2 : Cmd := { ts with keyB := some 5 }
def sTs2 : State := opOn ts2 sealKey
def slh : Cmd := { sl with header := some hdr0 }
def sSlh : State := opOn slh sealKey

theorem room_of {s : State} {l n h k : Nat} (e : l = n) (r : RoomAt s n h k) : RoomAt s l h k := e ▸ r
theorem kg_len : (dr sKg kg).1.length = 32 := padTo_length 32 _

theorem meets_KeyManagement :
    (0x3010 = le kw.entry 40 2 ∧ Acts sKw 1 0x0401 kw (zeros 32) ∧ zeros 32 = (if le kw.entry 42 1 = 1 then padTo
      (privLen 0x3010) (Config.expandSeed 0x3010 (zeros 32)) else zeros 32) ∧ Drew sKw kw (dr sKw kw).1 (dr sKw
      kw).2 ∧ RoomAt sKw (zeros 32).length 0 1) ∧
    (0x0103 = le kws.entry 40 2 ∧ Acts sKws 1 0x0401 kws (zeros 64) ∧ padTo (privLen 0x0103) (Config.expandSeed
      0x0103 (zeros 64)) = (if le kws.entry 42 1 = 1 then padTo (privLen 0x0103) (Config.expandSeed 0x0103
      (zeros 64)) else zeros 64) ∧ Drew sKws kws (dr sKws kws).1 (dr sKws kws).2 ∧ RoomAt sKws (padTo (privLen
      0x0103) (Config.expandSeed 0x0103 (zeros 64))).length 0 1) ∧
    (0x1001 = le kp.entry 40 2 ∧ Acts sKp 1 0x0402 kp (zeros 31) ∧ RoomAt sKp (zeros 31).length 0 0) ∧
    (0x3010 = le kg.entry 40 2 ∧ Acts sKg 1 0x0403 kg [] ∧ famOf 0x3010 = .sym ∧ Drew sKg kg (dr sKg kg).1 (dr sKg
      kg).2 ∧ xtsEqual 0x3010 (dr sKg kg).1 = false ∧ RoomAt sKg (dr sKg kg).1.length 0 1) ∧
    (0x0504 = le kg2.entry 40 2 ∧ Acts sKg2 1 0x0403 kg2 [] ∧ famOf 0x0504 ≠ .sym ∧ Drew sKg2 kg2 (dr sKg2 kg2).1 (dr
      sKg2 kg2).2 ∧ RoomAt sKg2 (genPrivate 0x0504 (le kg2.entry 44 2) ((dr sKg2 kg2).1.take (genDraw
      0x0504))).length 0 1) ∧
    (Acts sKpu 1 0x0404 kpu [] ∧ kpu.keyA = some 5 ∧ Map.get? sKpu.keys.keys 5 = some kX) ∧
    (Acts sKqy 1 0x0406 kqy [] ∧ kqy.keyA = some 5 ∧ Map.get? sKqy.keys.keys 5 = some kSym) ∧
    (Acts sKde 1 0x0405 kde []) ∧
    (Map.get? sKdd.keys.keys 5 = some kDy ∧ kDy.destroyPending = true ∧ keyAwaited sKdd 5 = false) ∧
    (Map.get? (on kdd).keys.keys 5 = none) ∧
    (Acts sKsh 1 0x0407 ksh []) ∧
    (Acts sKbd 1 0x0408 kbd []) ∧
    (opcode ksh.entry = 0x0407 ∧ okR.status = .ok ∧ ksh.keyA = some 5 ∧ Map.get? sKsh.keys.keys 5 = some kSym) ∧
    (opcode kbd.entry = 0x0408 ∧ okR.status = .ok ∧ kbd.keyA = some 5 ∧ kbd.berth = some 9 ∧ Map.get?
      sKbd.keys.berths 9 = some berth0 ∧ le kbd.entry 40 1 = 0 ∧ le kbd.entry 41 1 = 0) := by
  and_intros <;> first | decide +kernel | rfl | exact ⟨_, rfl, by decide +kernel⟩ | exact drew _ _ rfl rfl | exact room_of (padTo_length _ _) ⟨_, rfl, by decide +kernel⟩ | exact room_of kg_len ⟨_, rfl, by decide +kernel⟩

theorem meets_WrappedKeysAndRandom :
    (Acts sWo1 1 0x0410 wo1 [] ∧ le wo1.entry 40 1 = 1 ∧ keyAt sWo1 wo1.keyB = some kSym ∧
      Drew sWo1 wo1 (dr sWo1 wo1).1 (dr sWo1 wo1).2) ∧
    (Acts sWo2 1 0x0410 wo2 (zeros 40) ∧ le wo2.entry 40 1 = 2 ∧ keyAt sWo2 wo2.keyB = some kSym ∧ Drew sWo2 wo2 (dr
      sWo2 wo2).1 (dr sWo2 wo2).2) ∧
    (Acts sWo3 1 0x0410 wo3 [] ∧ le wo3.entry 40 1 = 3 ∧ keyAt sWo3 wo3.keyB = some kSym ∧
      Drew sWo3 wo3 (dr sWo3 wo3).1 (dr sWo3 wo3).2) ∧
    (Acts sWi 1 0x0411 wi blob0 ∧ le wi.entry 40 1 = 1 ∧ blobOk blob0 1 = true ∧ inLen wi.entry = 80 + le blob0 12 4
      ∧ bit (le blob0 35 1) (if wi.worldS then 1 else 0) = true ∧ RoomAt sWi (le blob0 12 4) 0 0) ∧
    (Acts sWib 1 0x0411 wib (zeros 112) ∧ blobOk (zeros 112) (le wib.entry 40 1) = false) ∧
    (Acts sKww 1 0x0412 kww []) ∧
    (Acts sKwu 1 0x0413 kwu (zeros 40) ∧ RoomAt sKwu (inLen kwu.entry - 8) 0 0) ∧
    (Acts sRd 1 0x0501 rd [] ∧ wantsReseed sRd rd.entry = false ∧ draw sRd (le rd.entry 44 4) = some ((drawn sRd (le
      rd.entry 44 4)).1, (drawn sRd (le rd.entry 44 4)).2)) ∧
    (Acts sRdF 1 0x0501 rd [] ∧ canDraw sRdF = false) := by
  and_intros <;> first | decide +kernel | rfl | exact ⟨_, rfl, by decide +kernel⟩ | exact drew _ _ rfl rfl

theorem meets_CountersRise :
    (255 = le ci.entry 40 1 ∧ counterBusy sCi ci = false ∧ Acts sCi 1 1538 ci [] ∧ ci.value = none ∧ sCi.keys.held.get?
      (heldKey 3 255) = none ∧ recVal sCi.nvm 3 255 = RecVal.value (0 : BitVec 24) (0 : DWord) ∧ (0 : DWord) ≠
      BitVec.allOnes 64 ∧ RegionTakes sCi 3 32768) ∧
    (255 = le ci.entry 40 1 ∧ counterBusy sCiMax ci = false ∧ Acts sCiMax 1 1538 ci [] ∧ ci.value = none ∧
      sCiMax.keys.held.get? (heldKey 3 255) = some (BitVec.allOnes 64)) ∧
    (255 = le cr.entry 40 1 ∧ counterBusy sCr cr = false ∧ Acts sCr 1 1537 cr [] ∧ sCr.keys.held.get? (heldKey 3 255)
      = some (7 : DWord)) ∧
    (255 = le cr.entry 40 1 ∧ counterBusy sCrBad cr = false ∧ Acts sCrBad 1 1537 cr [] ∧ sCrBad.keys.held.get?
      (heldKey 3 255) = none ∧ recVal sCrBad.nvm 3 255 = RecVal.corrupt) := by
  and_intros <;> first | decide +kernel | rfl

theorem meets_StatefulTrees :
    (Acts sHkv 1 0x0610 hkv [0, 0, 0, 1] ∧ hkv.value = some 0 ∧ 3 = le hkv.entry 42 2 ∧ paramErr hkv [0, 0, 0, 1] = none ∧
      Drew sHkv hkv (dr sHkv hkv).1 (dr sHkv hkv).2 ∧ DrawsLeft sHkv 2 ∧
      (hbsParams (le hkv.entry 40 2) [0, 0, 0, 1]).isSome = true) ∧
    (Acts sHk 1 0x0610 hk (zeros 4) ∧ hk.value = none ∧ 3 = le hk.entry 42 2 ∧ treeActive sHk 3 = false ∧ (earlierOpen sHk hk [0x0610]
      fun x => le x.entry 42 2 == 3) = false ∧ Drew sHk hk (dr sHk hk).1 (dr sHk hk).2 ∧ DrawsLeft sHk 2 ∧
      recVal sHk.nvm 4 3 = .value 0 0 ∧ (0 : BitVec 24) ≠ BitVec.allOnes 24 ∧ RegionTakes sHk 4 ([0, 0].getD 0
      0) ∧ RegionTakes sHk 2 ([0, 0].getD 1 0)) ∧
    (getCmd sHl 1 = some hl ∧ hl.keyA = some 0x1F803 ∧ 3 = treeOf 0x1F803 ∧ running sHl = true ∧ opcode hl.entry =
      0x0611 ∧ hl.phase = .run ∧ hl.leaf = none ∧ (earlierOpen sHl hl [0x0611] fun x => (x.keyA == some 0x1F803
      || blocksKey sHl x 0x1F803) && x.leaf.isNone) = false ∧ Map.get? sHl.keys.trees 3 = some (0, 1) ∧ 0 < 1 ∧
      0 < treeLeaves sHl (some 0x1F803)) ∧
    (getCmd sHl2 1 = some hl ∧ hl.keyA = some 0x1F803 ∧ 3 = treeOf 0x1F803 ∧ running sHl2 = true ∧ opcode hl.entry =
      0x0611 ∧ hl.phase = .run ∧ hl.leaf = none ∧ (earlierOpen sHl2 hl [0x0611] fun x => (x.keyA == some 0x1F803
      || blocksKey sHl2 x 0x1F803) && x.leaf.isNone) = false ∧ Map.get? sHl2.keys.trees 3 = some (0, 0) ∧ 0 <
      treeLeaves sHl2 (some 0x1F803) ∧ min (0 + 64) (treeLeaves sHl2 (some 0x1F803)) < 2 ^ 64 ∧ recVal sHl2.nvm
      4 3 = .value 0 (BitVec.ofNat 64 0) ∧ RegionTakes sHl2 4 0) ∧
    (getCmd sHl3 1 = some hl ∧ hl.keyA = some 0x1F803 ∧ 3 = treeOf 0x1F803 ∧ running sHl3 = true ∧ opcode hl.entry =
      0x0611 ∧ hl.phase = .run ∧ hl.leaf = none ∧ Settled hl ∧ (earlierOpen sHl3 hl [0x0611] fun x => (x.keyA == some 0x1F803
      || blocksKey sHl3 x 0x1F803) && x.leaf.isNone) = false ∧ Map.get? sHl3.keys.trees 3 = some (1024, 1024) ∧
      treeLeaves sHl3 (some 0x1F803) ≤ 1024) ∧
    (Acts sHsn 1 0x0611 hsn (zeros 3) ∧ hsn.leaf = some 0 ∧ hsn.keyA = some 0x1F803 ∧ Map.get? sHsn.nvm.trees (treeOf
      0x1F803) = some tree3) ∧
    (Acts sHq 1 0x0612 hq [] ∧ hq.keyA = some 0x1F803 ∧ Map.get? sHq.keys.trees (treeOf 0x1F803) = some (1, 64)) := by
  and_intros <;> first | decide +kernel | rfl | exact ⟨_, rfl, by decide +kernel⟩ | exact drew _ _ rfl rfl

theorem meets_UserNvmReadsBack :
    (Acts sNw 1 1569 nw [(1 : Byte), (255 : Byte)] ∧ (earlierOpen sNw nw [1569] fun x => overlaps x.entry nw.entry) =
      false ∧ RegionTakes sNw 1 [spareWords 1].sum) ∧
    (Acts sNw 1 1569 nw [(1 : Byte), (255 : Byte)] ∧ (earlierOpen sNw nw [1569] fun x => overlaps x.entry nw.entry) =
      false ∧ spareWords 1 - (getWear sNw.nvm 1).spare < [spareWords 1 + 1].headD 0 ∧ [(1 : Byte), (255 : Byte)] ≠ []) ∧
    (Acts sNwWorn 1 1569 nw [(1 : Byte), (255 : Byte)] ∧ (earlierOpen sNwWorn nw [1569] fun x => overlaps x.entry
      nw.entry) = false ∧ (getWear sNwWorn.nvm 1).worn = true ∧ [(1 : Byte), (255 : Byte)] ≠ []) ∧
    (Acts sNr 1 1568 nr []) := by
  and_intros <;> first | decide +kernel | rfl

theorem meets_TimeAndSeals :
    (Acts sTr 1 0x0701 tr []) ∧
    (Acts sTsS 1 0x0702 ts (zeros 32) ∧ ts.berth = some 9 ∧ Map.get? sTsS.keys.berths 9 = some strict0 ∧
      strictUntrusted sTsS strict0 = true) ∧
    (Acts sTs 1 0x0702 ts (zeros 32) ∧ ts.berth = some 9 ∧ Map.get? sTs.keys.berths 9 = some berth0 ∧ strictUntrusted
      sTs berth0 = false ∧ Drew sTs ts (dr sTs ts).1 (dr sTs ts).2) ∧
    (Acts sTs2 1 0x0702 ts2 (zeros 32) ∧ ts2.berth = some 9 ∧ Map.get? sTs2.keys.berths 9 = some berth0 ∧
      strictUntrusted sTs2 berth0 = false ∧ Drew sTs2 ts2 (dr sTs2 ts2).1 (dr sTs2 ts2).2) ∧
    (getCmd sSl 1 = some sl ∧ sl.berth = some 9 ∧ Map.get? sSl.keys.berths 9 = some berth0 ∧ sl.input = some (zeros
      9) ∧ running sSl = true ∧ opcode sl.entry = 0x0710 ∧ sl.phase = .run ∧ sl.header = none ∧ berthHere sSl sl
      = true ∧ (earlierOpen sSl sl [0x0710] fun x => namesBerth sSl x 9 && x.header.isNone) = false ∧
      strictUntrusted sSl berth0 = false ∧ berth0.resume = false ∧ berth0.lastEpoch ≠ 0 ∧ berth0.nextSeq ≠
      BitVec.allOnes 64) ∧
    (getCmd sSlS 1 = some sl ∧ sl.berth = some 9 ∧ Map.get? sSlS.keys.berths 9 = some strict0 ∧ sl.input = some
      (zeros 9) ∧ running sSlS = true ∧ opcode sl.entry = 0x0710 ∧ sl.phase = .run ∧ sl.header = none ∧ Settled sl ∧
      berthHere sSlS sl = true ∧ (earlierOpen sSlS sl [0x0710] fun x => namesBerth sSlS x 9 && x.header.isNone)
      = false ∧ strictUntrusted sSlS strict0 = true) ∧
    (Acts sSlh 1 0x0710 slh (zeros 9) ∧ slh.header = some hdr0 ∧ Drew sSlh slh (dr sSlh slh).1 (dr sSlh slh).2) := by
  and_intros <;> first | decide +kernel | rfl | exact ⟨_, rfl, by decide +kernel⟩ | exact drew _ _ rfl rfl

end Keys

namespace Engines

def kSym : Key := key0 0x3010 32 true
def body0 : Bytes := [(32,4,4),(36,4,8),(40,4,2),(76,4,16)].foldl (fun b f => overwrite b f.1 (leBytes f.2.1 f.2.2)) (zeros 256)
def pr : Cmd := { opCmd 0x0801 [] (zeros 8) with body := body0 }
def sPr : State := opOn pr kSym
def dec1 : Dec := { rule := 1, mask := 3, target := 0, limit := 2, fail := 0 }
def seg0 : Seg := { kind := 2, grouped := false, masked := false, steps := 5, off := 0, len := 8, dec := none }
def segD : Seg := { seg0 with dec := some dec1 }
def rc : Cmd := { opCmd 0x0310 [] (zeros 8) with segs := [seg0], pos := 1, running := [(2, 0)], runSegs := [0], hold := [(2, 0, 4096)] }
def sRc : State := opOn rc kSym
def rcF : Cmd := { rc with hold := [(1, 0, 4096), (2, 0, 4096)] }
def sRcF : State := opOn rcF kSym
def rd1 : Cmd := { rc with segs := [segD] }
def sRd1 : State := opOn rd1 kSym
def rd3 : Cmd := { rc with segs := [segD], reps := [(0, 1)] }
def sRd3 : State := opOn rd3 kSym
def rd2 : Cmd := { rc with segs := [segD], reps := [(0, 2)] }
def sRd2 : State := opOn rd2 kSym
def heldW : State := { up with sys := { up.sys with mode := .held }, eng := { up.eng with slot := 4095 } }
def idleW : State := { up with eng := { up.eng with slot := 1 } }
def ask : Cmd := { opCmd 0x0310 [] (zeros 8) with segs := [seg0], planId := 7 }
def askU : State := { opOn ask kSym with
  eng := { up.eng with slot := 64, copies := [(7, (256, 1))] }, rng := { rngUp with state := .fault } }
def askA : State := { askU with eng := { askU.eng with table := some (List.replicate 4096 5) } }
def granted : State := (grantClass askU (slotEntry askU askU.eng.slot % 64)).getD up
def chg : State := { up with eng := { up.eng with changes := [(0, 1, 0)] } }
def hlt : State := { chg with lc := { chg.lc with units := [(15, 0)] } }
def rr : Cmd := { rc with reran := true }
def sRr : State := opOn rr kSym
def prt : State := { up with eng := { up.eng with changes := [(3, 7, 0x7FFF)] } }
def stp : State := { sRr with eng := { sRr.eng with lastStep := [(512, up.sys.tick - 399)] } }
def chk : Cmd := { opCmd 0x0201 [(40,2,0x1502)] (zeros 8) with
  segs := [{ seg0 with kind := 5 }], pos := 1, running := [(5, 3)], runSegs := [0], hold := [(5, 3, 4096)], reran := true }
def sChk : State := opOn chk kSym
def fill0 : State := { State.reset with boot := { BootSt.reset with phase := 6, romDone := true }, sys := { Sys.reset with isolated := false, tbclk := true, tick := 399999 } }
def fill1 : State := { fill0 with rng := { RngSt.reset with sampling := true, passRun := 4, pool := List.replicate 16 5 } }
def smp : State := { up with rng := { rngUp with samples := 1023, sampledAt := some 999999975 } }
def fillT : State := { fill0 with sys := { fill0.sys with tick := 400000 } }
def winBad : State := { up with rng := { rngUp with samples := 1024, bad := true } }
def winOk : State := { up with rng := { rngUp with samples := 1024, state := .fault, passRun := 1, held := [1, 2] } }
def refl : State := { up with rng := { rngUp with state := .refill, pool := List.replicate 16 5 } }
def wrng : Cmd := { opCmd 0x0501 [] [] with phase := .rngWait 0 }
def sWrng : State := opOn wrng kSym
def wdr : Cmd := { opCmd 0x0501 [] [] with phase := .drawWait 0 }
def sWdr : State := opOn wdr kSym
def kat : State := { up with rng := { rngUp with katRun := true } }

theorem meets_PlansAndSegments :
    (Acts sPr 1 0x0801 pr (zeros 8) ∧ 8 + 2 * (8 / 4) = le pr.body 36 4 + le pr.body 40 4 * (inLen pr.entry / max 1
      (le pr.body 32 4))) ∧
    (running sRc = true ∧ getCmd sRc 1 = some rc ∧ gmRead sRc (.working 1) = none ∧ inService sRc 2 0 = true ∧ unitRuns sRc (engUnit 2 0) =
      true ∧ rc.running = [(2, 0)] ∧ rc.runSegs = [0] ∧ rc.segs[0]? = some seg0
      ∧ 2 ≠ 1 ∧ rc.verdict = none ∧ seg0.dec = none ∧ rc.jump = none) ∧
    (running sRcF = true ∧ getCmd sRcF 1 = some rcF ∧ gmRead sRcF (.working 1) = none ∧ inService sRcF 2 0 = true ∧ unitRuns sRcF (engUnit 2 0) =
      true ∧ rcF.running = [(2, 0)] ∧ rcF.runSegs = [0] ∧ rcF.segs[0]? = some seg0
      ∧ 2 ≠ 1 ∧ rcF.verdict = none ∧ seg0.dec = none ∧ rcF.jump = none ∧ rcF.planId < 0x80000000 ∧ 4094 + [1, (2 :
      Byte)].length ≤ lveFrame rcF) ∧
    (running sRd1 = true ∧ getCmd sRd1 1 = some rd1 ∧ gmRead sRd1 (.working 1) = none ∧ inService sRd1 2 0 = true ∧ unitRuns sRd1 (engUnit 2 0) =
      true ∧ rd1.running = [(2, 0)] ∧ rd1.runSegs = [0] ∧ rd1.segs[0]? =
      some segD ∧ 2 ≠ 1 ∧ rd1.verdict = none ∧ segD.dec = some dec1 ∧ dec1.rule = 1 ∧ Nat.land (4 : Byte).toNat
      dec1.mask = 0 ∧ Map.getD rd1.reps 0 0 + 1 ≤ dec1.limit) ∧
    (running sRd3 = true ∧ getCmd sRd3 1 = some rd3 ∧ gmRead sRd3 (.working 1) = none ∧ inService sRd3 2 0 = true ∧ unitRuns sRd3 (engUnit 2 0) =
      true ∧ rd3.running = [(2, 0)] ∧ rd3.runSegs = [0] ∧ rd3.segs[0]? =
      some segD ∧ 2 ≠ 1 ∧ rd3.verdict = none ∧ segD.dec = some dec1 ∧ dec1.rule = 1 ∧ Nat.land (4 : Byte).toNat
      dec1.mask = 0 ∧ Map.getD rd3.reps 0 0 + 1 ≤ dec1.limit) ∧
    (running sRd1 = true ∧ getCmd sRd1 1 = some rd1 ∧ gmRead sRd1 (.working 1) = none ∧ inService sRd1 2 0 = true ∧ unitRuns sRd1 (engUnit 2 0) =
      true ∧ rd1.running = [(2, 0)] ∧ rd1.runSegs = [0] ∧ rd1.segs[0]? =
      some segD ∧ 2 ≠ 1 ∧ rd1.verdict = none ∧ segD.dec = some dec1 ∧ dec1.rule = 1 ∧ rd1.jump = none ∧ Nat.land
      (6 : Byte).toNat dec1.mask ≠ 0) ∧
    (running sRd2 = true ∧ getCmd sRd2 1 = some rd2 ∧ gmRead sRd2 (.working 1) = none ∧ inService sRd2 2 0 = true ∧ unitRuns sRd2 (engUnit 2 0) =
      true ∧ rd2.running = [(2, 0)] ∧ rd2.runSegs = [0] ∧ rd2.segs[0]? =
      some segD ∧ 2 ≠ 1 ∧ rd2.verdict = none ∧ segD.dec = some dec1 ∧ dec1.rule = 1 ∧ Nat.land (4 : Byte).toNat
      dec1.mask = 0 ∧ dec1.limit < Map.getD rd2.reps 0 0 + 1) := by
  and_intros <;> first | decide +kernel | rfl

theorem meets_ArbiterVisits :
    (heldW.eng.walking = true ∧ heldW.eng.slot ≠ 0 ∧ heldW.sys.mode = .held) ∧
    (idleW.eng.walking = true ∧ idleW.eng.slot ≠ 0 ∧ running idleW = true ∧ (∀ c ∈ idleW.cmds, asks c = false)) ∧
    (askU.eng.walking = true ∧ askU.eng.slot ≠ 0 ∧ running askU = true ∧ askU = refillAll askU ∧ (∀ c ∈ askU.cmds,
      asks c = true → deadKind askU (c.segs.drop c.pos) = none ∧ drawLate askU c = false) ∧ (∀ c ∈ askU.cmds,
      readyButSeeds askU c = true → seedsReady askU c = true) ∧ grantClass askU (slotEntry askU askU.eng.slot %
      64) = some granted) ∧
    (askA.eng.walking = true ∧ askA.eng.slot ≠ 0 ∧ running askA = true ∧ askA = refillAll askA ∧ (∀ c ∈ askA.cmds,
      asks c = true → deadKind askA (c.segs.drop c.pos) = none ∧ drawLate askA c = false) ∧ (∀ c ∈ askA.cmds,
      readyButSeeds askA c = true → seedsReady askA c = true) ∧ grantClass askA (slotEntry askA askA.eng.slot %
      64) = none ∧ grantClass askA (slotEntry askA askA.eng.slot / 256 % 64) = some ((grantClass askA 0).getD
      up)) ∧
    (ask.cls = 0 ∧ grantClass askU 0 = some granted) := by
  and_intros <;> first | decide +kernel | rfl

theorem meets_BoundariesAndEngineFaults :
    (running chg = true ∧ unitRuns chg 15 = true ∧ (∀ p ∈ portsWaiting chg, changeDue (passBoundary chg 15) 3 p = false)) ∧
    (running hlt = true ∧ unitRuns hlt 15 = false) ∧
    (running prt = true ∧ unitRuns prt 15 = true ∧ 7 < 8 ∧ portsWaiting prt = [7] ∧ changeDue (passBoundary prt 15) 3 7 = true) ∧
    (running sRr = true ∧ inService sRr 2 0 = true ∧ engineBusy sRr 2 0 = true ∧ stalled4us sRr 2 0 = true) ∧
    (running sRr = true ∧ inService sRr 2 0 = true ∧ engineBusy sRr 2 0 = true ∧ stalled4us sRr 2 0 = true ∧ holders
      sRr 2 0 = [rr] ∧ getCmd sRr rr.id = some rr ∧ rr.reran = true) ∧
    (running stp = true ∧ stalled4us stp 2 0 = false) ∧
    (running sChk = true ∧ inService sChk 5 3 = true ∧ unitRuns sChk (engUnit 5 3) = true ∧ gmRead sChk (.working 1) = none ∧ getCmd sChk 1 = some chk ∧ chk.running = [(5, 3)] ∧
      checksOutput chk 5 = true ∧ holders sChk 5 3 = [chk] ∧ getCmd sChk chk.id = some chk ∧ chk.reran = true) ∧
    (sRr.sys.mode ≠ .dormant ∧ 2 ≤ 6 ∧ inService sRr 2 0 = true) ∧
    (sRr.sys.mode ≠ .dormant ∧ 6 < 7) ∧
    (monitorsRun chg = true ∧ fused chg 13 = false) ∧
    (monitorsRun Machine.State.reset = false) := by
  and_intros <;> first | decide +kernel | rfl

theorem meets_RandomGenerator :
    (filling fill0 = true ∧ fill0.rng.sampling = false) ∧
    (filling fill0 = true ∧ fill0.rng.sampling = false ∧ (true && false) = false ∧ opposed fill0 8 = false) ∧
    (filling fill1 = true ∧ fill1.rng.sampling = true ∧ fill1.rng.passRun = 4 ∧ 16 ≤ fill1.rng.pool.length ∧ fillLate
      fill1 = false) ∧
    (filling fillT = true ∧ 400000 ≤ fillT.sys.tick.toNat - fillT.rng.start.toNat ∧ opposed fillT 8 = false) ∧
    (smp.rng.sampling = true ∧ smp.rng.samples < 1024 ∧ smp.sys.mode ≠ .dormant ∧ smp.sys.tick.toNat % 25 = 0 ∧
      smp.rng.sampledAt ≠ some smp.sys.tick ∧ sampleFails smp.rng 0 = [] ∧ smp.rng.absorbed < 1024) ∧
    (winBad.rng.sampling = true ∧ winBad.rng.samples = 1024 ∧ winBad.rng.bad = true) ∧
    (winOk.rng.sampling = true ∧ winOk.rng.samples = 1024 ∧ winOk.rng.bad = false) ∧
    (refl.rng.state = .refill ∧ 16 ≤ refl.rng.pool.length) ∧
    ((getCmd sWrng 1).map (·.phase) = some (.rngWait 0) ∧ serving sWrng = true ∧ 400000 ≤ sWrng.sys.tick.toNat - (0 :
      DWord).toNat) ∧
    ((getCmd sWdr 1).map (·.phase) = some (.drawWait 0) ∧ serving sWdr = true ∧ 200000 ≤ sWdr.sys.tick.toNat - (0 :
      DWord).toNat) ∧
    (KeeperWritable up 0 ∧ (1 : Word).getLsbD 0 = true ∧ up.rng.state = .ready ∧ up.rng.katRun = false) ∧
    (kat.rng.katRun = true ∧ (true && false) = false ∧ kat.rng.state = .ready ∧ kat.sys.mode ≠ .boot) := by
  and_intros <;> first | decide +kernel | rfl

end Engines

namespace Registers

def sq0 : Sq := Sq.fresh 0 64 0 .enabled
def sq0d : Sq := Sq.fresh 0 64 0 .disabled
def cq0 : Cq := Cq.fresh 0 64 64 0
def locked : State := { up with alarm := { up.alarm with lock := true } }
def factory : State := { up with sys := { up.sys with mode := .maintenance }, lc := LcSt.reset .factory false }
def openScope : State := { up with lc := { up.lc with scope := 1 } }
def shut : State := { up with fns := [(0, { fnUp with mse := false })] }
def sqOff : State := { up with sqs := [(0, sq0d)] }
def ownedM : State := { up with sys := { up.sys with mode := .maintenance } }
def fv : FastVec := { FastVec.reset with enable := true, pending := true, addr := 0x1000, data := 7 }
def fnV : Fn := { fnUp with fast := Vector.replicate 8 fv, msixEnable := true, normPend := [9], kcqSince := some 0, holds := [(9, 0)], msix := [(9, { addr := 0x2000, data := 3, masked := false })] }
def vs9 : VecSet := { members := [3, 4], wake := 1, hold := 100, last := 0 }
def tg4 : Target := { addr := 0x3000, data := 8, asleep := true }
def portV : Port := { portOn with targets := [(3, tg4), (4, tg4)], sets := [(9, vs9)] }
def vecUp : State := { up with fns := [(0, fnV)], ports := Vector.replicate 8 portV }
def tgA : Target := { tg4 with asleep := false }
def vecOff : State := { vecUp with fns := [(0, { fnV with msixEnable := false })] }
def vecNoSet : State := { vecUp with ports := Vector.replicate 8 { portV with sets := [] } }
def vecZero : State := { vecNoSet with fns := [(0, { fnV with msix := [(9, { addr := 0, data := 3, masked := false })] })] }
def vecAwake : State := { vecUp with ports := Vector.replicate 8 { portV with targets := [(3, tg4), (4, tgA)] } }
def vecHeld : State := { vecUp with fns := [(0, { fnV with holds := [(9, 999990001)] })] }
def modCq : Cq := { Cq.fresh 0 64 64 5 with count := 3, modTime := 10 }
def modUp : State := { vecUp with cqs := [(0, cq0), (9, modCq)] }
def tapUp : State := { up with lc := { up.lc with tapIr := 0x20 } }
def tap1 : State := { up with lc := { up.lc with tapIr := 0x20, scope := 1 } }
def tap3 : State := { up with lc := { up.lc with tapIr := 0x20, scope := 2, dbgSram := [(0x117FFFFF, 0xABCD)] } }
def tapS : State := { tap3 with boot := { up.boot with store := [(0, 7)] } }
def tap2 : State := { up with lc := { up.lc with tapIr := 0x20, scope := 2 } }

theorem meets_RegisterWrites :
    ((BarData.badEcrc, (0x80000 : Word)) ∈ [(BarData.poisoned, (0x1000 : Word)), (.badEcrc, 0x80000)] ∧ barOpen up 0 = true) ∧
    (barOpen shut 0 = false ∧ portUp shut 0 = true ∧ shut.sys.mode ≠ .dormant ∧ shut.sys.resetLow = false ∧ shut.sys.isolated = false) ∧
    ((2073 % 4 ≠ 0 ∨ [(1 : Byte), (2 : Byte), (3 : Byte), (4 : Byte)].length % 4 ≠ 0) ∧
      ((2073 : Nat) < 0x10000 ∨ (0x18000 : Nat) ≤ 2073)) ∧
    (Writable up 0 ∧ [(1 : Byte), (2 : Byte), (3 : Byte), (4 : Byte)].length = 4) ∧
    (2072 % 4 = 0 ∧ [(1 : Byte), (2 : Byte), (3 : Byte), (4 : Byte)].length = 4 ∧ [(5 : Byte), (6 : Byte), (7 :
      Byte), (8 : Byte)].length % 4 = 0) ∧
    (KeeperWritable up 0 ∧ up.alarm.lock = false) ∧
    (KeeperWritable up 0 ∧ up.alarm.lock = false) ∧
    (KeeperWritable locked 0 ∧ locked.alarm.lock = true) ∧
    (KeeperWritable up 0 ∧ BitVec.getLsbD (3512336389 : Word) 0 = true) ∧
    (KeeperWritable factory 0 ∧ BitVec.toNat (3512401919 : Word) / 65536 = 53594 ∧ factory.sys.mode =
      Mode.maintenance ∧ factory.lc.state = Lc.factory) ∧
    (KeeperWritable up 0 ∧ (BitVec.toNat (3512336389 : Word) / 65536 ≠ 53594 ∨ up.sys.mode ≠ Mode.maintenance ∨
      up.lc.state ≠ Lc.factory)) ∧
    (KeeperWritable openScope 0 ∧ BitVec.getLsbD (4 : Word) 2 = true ∧ openScope.lc.scope ≠ 0) ∧
    (timeReadable up (BarRead.mk 0 0x1800 4).fn = true ∧ (BarRead.mk 0 0x1800 4).off = 0x1800) ∧
    (timeReadable up (BarRead.mk 0 0x1808 4).fn = true ∧ (BarRead.mk 0 0x1808 4).off = 0x1808) ∧
    (barOpen up (BarRead.mk 0 0x180C 4).fn = true ∧ (BarRead.mk 0 0x180C 4).off % 4 = 0 ∧ (BarRead.mk 0 0x180C 4).off ≠ 0x1800 ∧
      (BarRead.mk 0 0x180C 4).off ≠ 0x1808) ∧
    (Writable sqOff 0 ∧ (getFn sqOff 0).power ≠ .draining ∧ BitVec.getLsbD (1 : Word) 0 = true ∧ BitVec.getLsbD (1 : Word) 2 = false ∧ getSq sqOff 0 0 =
      some sq0d ∧ (sq0d.st = SqState.disabled ∨ sq0d.st = SqState.doorbellError ∨ sq0d.st = SqState.fetchError)) ∧
    (Writable up 0 ∧ BitVec.getLsbD (0 : Word) 0 = false ∧ BitVec.getLsbD (0 : Word) 2 = false ∧ getSq up 0 0 = some
      sq0 ∧ sq0.st = SqState.enabled) ∧
    (Writable sqOff 0 ∧ BitVec.getLsbD (4 : Word) 0 = false ∧ BitVec.getLsbD (4 : Word) 2 = true ∧ getSq sqOff 0 0 =
      some sq0d ∧ sq0d.st = SqState.disabled ∧ (getFn sqOff 0).kq.enable = false ∧ getCq sqOff 0 0 = some cq0) ∧
    (KeeperWritable up 0 ∧ BitVec.toNat (1 : Word) % 4 = 1 ∧ up.sys.mode = Mode.service ∧ opposed up 3 = false) ∧
    (KeeperWritable ownedM 0 ∧ BitVec.toNat (1 : Word) % 4 = 1 ∧ ownedM.sys.mode ≠ Mode.service) ∧
    (KeeperWritable ownedM 0 ∧ BitVec.toNat (2 : Word) % 4 = 2 ∧ ownedM.sys.mode = Mode.maintenance ∧
      (ownedM.lc.state = Lc.owned ∨ ownedM.lc.state = Lc.field) ∧ pendingMove ownedM.nvm = none ∧ ownedM.lc.tainted =
      false ∧ opposed ownedM 4 = false) ∧
    (KeeperWritable up 0 ∧ BitVec.toNat (2 : Word) % 4 = 2 ∧ (up.sys.mode ≠ Mode.maintenance ∨ up.lc.state ≠ Lc.owned
      ∧ up.lc.state ≠ Lc.field ∨ pendingMove up.nvm ≠ none ∨ up.lc.tainted = true)) := by
  and_intros <;> first | decide +kernel | rfl

theorem meets_Interrupts :
    (Writable vecUp 0 ∧ BitVec.getLsbD (2147485703 : Word) 31 = true ∧ BitVec.getLsbD (2147485703 : Word) 11 = true ∧ 7 =
      BitVec.toNat (2147485703 : Word) % 2048 ∧ 7 < 8 ∧ fv = getFast vecUp 0 7) ∧
    (Writable vecUp 0 ∧ BitVec.getLsbD (2147483653 : Word) 31 = true ∧ BitVec.getLsbD (2147483653 : Word) 11 = false
      ∧ 5 = BitVec.toNat (2147483653 : Word) % 2048) ∧
    (Writable vecUp 0 ∧ BitVec.getLsbD (8 : Word) 31 = false) ∧
    (Writable vecUp 0 ∧ BitVec.getLsbD (2147483653 : Word) 1 = false ∧ fv = getFast vecUp 0 ↑(5 : Fin 8)) ∧
    (Writable vecUp 0 ∧ BitVec.getLsbD (8 : Word) 3 = true) ∧
    (fnExists vecUp 0 = true ∧ portUp vecUp 0 = true ∧ vecUp.sys.mode ≠ Mode.dormant ∧ vecUp.sys.isolated = false) ∧
    (Writable vecUp 0 ∧ 5 < 2048) ∧
    (Writable vecUp 0 ∧ 5 < 2048) ∧
    (serving modUp = true ∧ getCq modUp 0 9 = some modCq ∧ modCq.count ≠ 0 ∧ modCq.modTime ≠ 0 ∧ modCq.modTime * 100
      ≤ BitVec.toNat modUp.sys.tick - BitVec.toNat modCq.start) ∧
    (exec (.wakeHoldExpire 0 9) vecUp = .next (deliver vecUp 0 9) ∧ exec (.wakeHoldExpire 0 9) vecOff = .next (deliver vecOff 0 9) ∧
      sendable vecOff 0 9 = false) ∧
    (exec (.wakeHoldExpire 0 9) vecNoSet = .next (deliver vecNoSet 0 9) ∧ sendable vecNoSet 0 9 = true ∧
      (getPort vecNoSet (portOf 0)).sets.get? (setKey 0 9) = none ∧ (getMsix vecNoSet 0 9).addr ≠ 0) ∧
    (exec (.wakeHoldExpire 0 9) vecZero = .next (deliver vecZero 0 9) ∧ sendable vecZero 0 9 = true ∧
      (getPort vecZero (portOf 0)).sets.get? (setKey 0 9) = none ∧ (getMsix vecZero 0 9).addr = 0) ∧
    (exec (.wakeHoldExpire 0 9) vecAwake = .next (deliver vecAwake 0 9) ∧ sendable vecAwake 0 9 = true ∧
      (getPort vecAwake (portOf 0)).sets.get? (setKey 0 9) = some vs9 ∧
      awakeMember (getPort vecAwake (portOf 0)) vs9 = some (1, tgA)) ∧
    (exec (.wakeHoldExpire 0 9) vecHeld = .next (deliver vecHeld 0 9) ∧ sendable vecHeld 0 9 = true ∧
      (getPort vecHeld (portOf 0)).sets.get? (setKey 0 9) = some vs9 ∧ awakeMember (getPort vecHeld (portOf 0)) vs9 = none ∧
      vecHeld.sys.tick.toNat - (999990001 : DWord).toNat < vs9.hold * 100) ∧
    (serving vecUp = true ∧ (getFn vecUp 0).holds.get? 9 = some (0 : DWord) ∧ sendable vecUp 0 9 = true ∧ (getPort
      vecUp (portOf 0)).sets.get? (setKey 0 9) = some vs9 ∧ awakeMember (getPort vecUp (portOf 0)) vs9 = none ∧
      holdMember (getPort vecUp (portOf 0)) vs9 = some (1, tg4) ∧ vs9.hold * 100 ≤ BitVec.toNat vecUp.sys.tick -
      BitVec.toNat (0 : DWord)) ∧
    (serving vecUp = true ∧ (getFn vecUp 0).kcqSince = some (0 : DWord) ∧ (getFn vecUp 0).stalled = false ∧ 100000 ≤
      BitVec.toNat vecUp.sys.tick - BitVec.toNat (0 : DWord)) := by
  and_intros <;> first | decide +kernel | rfl

theorem meets_TapAndDebug :
    (up.sys.mode ≠ .dormant ∧ (Instr.dbgAccess, 0x20) ∈ [(Instr.extest, 0x00), (.samplePreload, 0x02), (.clamp,
      0x04), (.highz, 0x05), (.bypass, 0xFF), (.dbgAccess, 0x20)]) ∧
    (up.sys.mode ≠ .dormant ∧ up.lc.tapIr ≠ 0x20) ∧
    (tapUp.sys.mode ≠ .dormant ∧ tapUp.lc.tapIr = 0x20 ∧ tapUp.lc.scope = 0) ∧
    (tap1.sys.mode ≠ .dormant ∧ 16383 = (70364449210368 : DWord).toNat / 2 ^ 32 % 2 ^ 31 ∧ tap1.lc.tapIr = 0x20 ∧
      tap1.lc.scope ≠ 0 ∧ 16383 < 0x4000 ∧ (70364449210368 : DWord).getLsbD 63 = false) ∧
    (tap1.sys.mode ≠ .dormant ∧ 16383 = (9223442401303986176 : DWord).toNat / 2 ^ 32 % 2 ^ 31 ∧ tap1.lc.tapIr = 0x20
      ∧ tap1.lc.scope = 1 ∧ 16383 < 0x4000 ∧ (9223442401303986176 : DWord).getLsbD 63 = true) ∧
    (tap2.sys.mode ≠ .dormant ∧ 16383 = (9223442401303986176 : DWord).toNat / 2 ^ 32 % 2 ^ 31 ∧ tap2.lc.tapIr = 0x20
      ∧ tap2.lc.scope = 2 ∧ 16383 < 0x4000 ∧ (9223442401303986176 : DWord).getLsbD 63 = true) ∧
    (tap1.sys.mode ≠ .dormant ∧ 65536 = (9223653511831486464 : DWord).toNat / 2 ^ 32 % 2 ^ 31 ∧ tap1.lc.tapIr = 0x20
      ∧ tap1.lc.scope = 1 ∧ 0x10000 ≤ 65536 ∧ 65536 < 0x30000 ∧ (9223653511831486464 : DWord).getLsbD 63 = true) ∧
    (tap1.sys.mode ≠ .dormant ∧ 65536 = (281474976710656 : DWord).toNat / 2 ^ 32 % 2 ^ 31 ∧ tap1.lc.tapIr = 0x20
      ∧ tap1.lc.scope ≠ 0 ∧ 0x10000 ≤ 65536 ∧ 65536 < 0x30000 ∧ (281474976710656 : DWord).getLsbD 63 = false) ∧
    (tapS.sys.mode ≠ .dormant ∧ 0x11080000 = (0x9108000000000000 : DWord).toNat / 2 ^ 32 % 2 ^ 31 ∧ tapS.lc.tapIr = 0x20 ∧
      tapS.lc.scope = 2 ∧ 0x10400000 ≤ 0x11080000 ∧ 0x11080000 < 0x11800000 ∧ (0x9108000000000000 : DWord).getLsbD 63 = true ∧
      storeDword tapS (debugByte 0x11080000) = some 7) ∧
    (tap2.sys.mode ≠ .dormant ∧ 65536 = (9223653511831486464 : DWord).toNat / 2 ^ 32 % 2 ^ 31 ∧ tap2.lc.tapIr = 0x20
      ∧ tap2.lc.scope = 2 ∧ 0x10000 ≤ 65536 ∧ 65536 < 0x30000 ∧ (9223653511831486464 : DWord).getLsbD 63 = true) ∧
    (tap2.sys.mode ≠ .dormant ∧ 272629760 = (10394307939971104768 : DWord).toNat / 2 ^ 32 % 2 ^ 31 ∧ tap2.lc.tapIr =
      0x20 ∧ tap2.lc.scope = 2 ∧ 0x10400000 ≤ 272629760 ∧ 272629760 < 0x11800000 ∧ (10394307939971104768 :
      DWord).getLsbD 63 = true ∧ storeDword tap2 (debugByte 272629760) = none) ∧
    (tap3.sys.mode ≠ .dormant ∧ 293601279 = (1261007891368771584 : DWord).toNat / 2 ^ 32 % 2 ^ 31 ∧ tap3.lc.tapIr =
      0x20 ∧ tap3.lc.scope = 2 ∧ 0x10400000 ≤ 293601279 ∧ 293601279 < 0x11800000 ∧ (1261007891368771584 :
      DWord).getLsbD 63 = false ∧ (Map.get? tap3.lc.dbgSram 293601279).orElse
      (fun _ => storeDword tap3 (debugByte 293601279)) = some 0xABCD) ∧
    (tap2.sys.mode ≠ .dormant ∧ 272629759 = (10394307935676137472 : DWord).toNat / 2 ^ 32 % 2 ^ 31 ∧ tap2.lc.tapIr =
      0x20 ∧ tap2.lc.scope ≠ 0 ∧ 0x10000000 ≤ 272629759 ∧ (tap2.lc.scope = 1 ∨ 272629759 < 0x10400000 ∨
      0x11800000 ≤ 272629759)) ∧
    (tap2.sys.mode ≠ .dormant ∧ 293601280 = (10484379932518514688 : DWord).toNat / 2 ^ 32 % 2 ^ 31 ∧ tap2.lc.tapIr =
      0x20 ∧ tap2.lc.scope ≠ 0 ∧ 0x10000000 ≤ 293601280 ∧ (tap2.lc.scope = 1 ∨ 293601280 < 0x10400000 ∨
      0x11800000 ≤ 293601280)) := by
  and_intros <;> first | decide +kernel | rfl

end Registers

namespace Monitors

def kSym : Key := key0 0x3010 32 true
def rc : Cmd := { opCmd 0x0310 [] (zeros 8) with  pos := 1, running := [(2, 0)], runSegs := [0], hold := [(2, 0, 4096)] }
def ent1 (p : Nat) (l : List Nat) : CacheEnt := { pset := p, tag := [], tr := [], content := [], size := 5, used := 1, pinned := l, bad := false }
def sRc : State := { opOn rc kSym with eng := { up.eng with cache := [ent1 1 [1], ent1 2 []] } }
def need6 : Cmd := { opCmd 0x0310 [] (zeros 8) with keyA := some 6, berth := some 10 }
def k5 : Key := { key0 0x3020 64 true with tail := [7] }
def kLong (n : Nat) : Key := { key0 0x3020 0 true with len := n, spilled := true }
def bGone : Berth := { berth0 with spilled := true, version := 1 }
/-- The key at granule 6, of `n` bytes, is named by command 1; so is the spilled berth 10; `m` entries are dead. -/
def sSpill (n m : Nat) : State :=
  { on need6 with keys := { up.keys with keys := [(5, k5), (6, kLong n)], berths := [(9, berth0), (10, bGone)],
                                         deadEntry := List.replicate m 0 } }
theorem tail_waits (n m : Nat) (h : 8257376 < n) : tailWaits (sSpill n m) = true := by
  refine List.any_eq_true.mpr ⟨(6, kLong n), by simp [sSpill], ?_⟩
  have h1 : freeGranules (sSpill n m) = 129021 := rfl
  have h2 : keyNeeded (sSpill n m) 6 = true := rfl
  have h3 : (kLong n).len = n := rfl
  have h4 : (kLong n).spilled = true := rfl
  simp only [h1, h2, h3, h4, tailGranules, keyGranules, Bool.and_self, Bool.true_and, decide_eq_true_eq]; omega
theorem spill_room (n m : Nat) (h : n < 4000000000) :
    keySpillUsed (sSpill n m) + spillSize 64 ≤ keySpillBytes (sSpill n m) := by
  have h1 : keySpillUsed (sSpill n m) = spillSize (kLong n).len + 0 := rfl
  have h3 : (kLong n).len = n := rfl
  have h2 : keySpillBytes (sSpill n m) = 4294967296 := rfl
  rw [h1, h2, h3]; simp only [spillSize]; omega
theorem tail_spill_due (n m : Nat) (h : 8257376 < n) (h' : n < 4000000000) : tailSpillDue (sSpill n m) 5 = true := by
  have h1 : serving (sSpill n m) = true := rfl
  have h2 : lruKey (spillable (sSpill n m)) = some 5 := rfl
  have h3 : ((Map.get? (sSpill n m).keys.keys 5).map (·.len)).getD 0 = 64 := rfl
  rw [tailSpillDue, h1, h2, h3, tail_waits n m h, decide_eq_true (spill_room n m h')]; simp
theorem berth_waits (n m : Nat) (h : 65535 ≤ m) : berthWaits (sSpill n m) = true := by
  have h1 : (sSpill n m).keys.berths.any (fun e => e.2.spilled && berthNeeders (sSpill n m) e.1 != []) = true := rfl
  have h2 : ((sSpill n m).keys.berths.filter fun e => !e.2.spilled).length = 1 := rfl
  have h3 : (sSpill n m).keys.deadEntry.length = m := List.length_replicate
  have h4 : entryFree (sSpill n m) = decide (1 + m < Config.berthTotal) := by rw [entryFree, h2, h3]
  rw [berthWaits, h1, h4, decide_eq_false (by rw [Config.berthTotal]; omega)]; rfl
def kSp : Key := headOnly { key0 0x3020 64 true with version := 1 }
/-- The device that holds key 5 with its tail in spill, and the record it reads back. -/
def tail5 : Bytes := tailRecord up 5 { key0 0x3020 64 true with version := 1 }
theorem record_parts (m n : Nat) (ct tg : Bytes) (h : ct.length = n) (hm : n + tg.length ≤ m) :
    padTo n (padTo m (ct ++ tg)) = ct ∧ slice (padTo m (ct ++ tg)) n tg.length = tg := by
  subst h
  have e : padTo m (ct ++ tg) = ct ++ (tg ++ zeros (m - (ct ++ tg).length)) := by
    rw [padTo, List.append_assoc]; refine List.take_of_length_le ?_; simp [zeros]; omega
  rw [e]
  exact ⟨by rw [padTo, List.append_assoc, List.take_left], by rw [slice, List.drop_left, List.take_left]⟩
theorem seal_len (key iv aad pt : Bytes) : (aeadSeal 0x3001 16 key iv aad pt).1.length = pt.length := underStream_length _ _
theorem seal_open (key iv aad pt : Bytes) :
    (aeadOpen 0x3001 key iv aad (aeadSeal 0x3001 16 key iv aad pt).1 (aeadSeal 0x3001 16 key iv aad pt).2).2 = true := by
  rw [aeadOpen_seal]
def need5 : Cmd := opCmd 0x0310 [] (zeros 8)
def sSp : State := { opOn need5 kSp with keys := { (opOn need5 kSp).keys with tails := [(5, (tail5, spillAad kSp))] } }
def sSpNo : State := { sSp with rng := { rngUp with state := .fault } }
theorem tail_there : ∃ pt, tailPlain sSp 5 kSp tail5 = some pt := by
  let r := aeadSeal 0x3001 16 up.bkeys.storage (spillIv 5 1) (spillAad kSp) (List.replicate 32 0x11)
  have e : tail5 = padTo 256 (r.1 ++ r.2) := rfl
  have h2 : r.2.length = 16 := padTo_length _ _
  have h := record_parts 256 32 r.1 r.2 (underStream_length _ _) (by omega)
  rw [h2, ← e] at h
  refine ⟨(aeadOpen 0x3001 up.bkeys.storage (spillIv 5 1) (spillAad kSp) r.1 r.2).1, ?_⟩
  have f : tailPlain sSp 5 kSp tail5 = (if tail5.length == 256 && (aeadOpen 0x3001 up.bkeys.storage (spillIv 5 1)
      (spillAad kSp) (padTo 32 tail5) (slice tail5 32 16)).2 then some (aeadOpen 0x3001 up.bkeys.storage (spillIv 5 1)
      (spillAad kSp) (padTo 32 tail5) (slice tail5 32 16)).1 else none) := rfl
  rw [f, h.1, h.2, seal_open, e, padTo_length]
  rfl
def record9 : Bytes :=
  let r := aeadSeal 0x3001 16 up.bkeys.storage (berthIv 9 1) [] (zeros 256)
  r.1 ++ r.2
def sBs : State := { opOn need5 kSp with keys := { up.keys with keys := [(5, kSp)], berths := [(9, bGone)] } }
def lateUp : State := { up with sys := { up.sys with tick := 0x1000000000 } }
def youngUp : State := { up with sys := { up.sys with tick := 65535 } }
def recQ : State := { up with recorder := { up.recorder with queue := [.record (zeros 64) false true] } }
def recO : State := { recQ with recorder := { recQ.recorder with seq := 1 } }
def recR : State := { recO with recorder := { recO.recorder with queue := [.repeatWord (zeros 8)] }, nvm := { up.nvm with newest := some 3, slots := [(3, zeros 64)] } }
/-- The control store was digested so, at that tick. -/
def marked (d : Bytes) (t : DWord) : State := { up with boot := { up.boot with digest := d, checkFrom := t } }
def dig : State := marked (storeDigest up.boot.store) 0
theorem digest_ne (m : Map (BitVec 256)) : storeDigest m ≠ [1] :=
  fun h => absurd (congrArg List.length h) (by rw [storeDigest, padTo_length]; decide)
theorem digest_there : dig.boot.digest ≠ [] :=
  fun h => absurd (congrArg List.length h) (by
    rw [show dig.boot.digest = padTo 32 (digest 0x12 32 (microBytes up.boot.store)) from rfl, padTo_length]; decide)
def recW : State := { recQ with nvm := { up.nvm with wear := up.nvm.wear.map fun w => { w with worn := true } } }
def alarmed (l : Nat) : State := { up with alarm := { up.alarm with set := [(3, l, zeros 64)] } }
def al0 : State := alarmed 0
def alNow : State := { up with alarm := { up.alarm with set := [(3, 4, overwrite (zeros 64) 8 (leBytes 8 1000000000))] } }
def al1 : State := alarmed 1
def al2 : State := alarmed 2
def al3 : State := alarmed 3
def al4 : State := alarmed 4
def alC : State := { al1 with alarm := { al1.alarm with clearing := true } }
def measured (a : DWord) : State := { up with time := { up.time with measure := some a } }
def lostUp : State := { up with backup := { up.backup with timeLost := true }, sys := { up.sys with vio18Good := true } }
def noVio : State := { up with sys := { up.sys with vio18Good := false } }

theorem meets_MemoryErrors :
    (sRc.sys.mode ≠ .dormant ∧ sramWordOk 0 1048575 = true) ∧
    (sRc.sys.mode ≠ .dormant ∧ sramFits (.keyRegister 5) 47 = true ∧ keyOfGranule sRc 5 = some 5 ∧ Map.get?
      sRc.keys.keys 5 = some kSym ∧ getCmd sRc 1 = some rc ∧ namesKey rc 5 = true ∧ unfinished rc = true) ∧
    (sRc.sys.mode ≠ .dormant ∧ sramFits (.berthTable 9) 288 = true ∧ Map.get? sRc.keys.berths 9 = some berth0 ∧
      berth0.spilled = false ∧ getCmd sRc 1 = some rc ∧ rc.berth = some 9 ∧ unfinished rc = true) ∧
    (sRc.sys.mode ≠ .dormant ∧ sramFits (.scratch 1 31) 2097151 = true ∧ inService sRc 1 31 = true) ∧
    (sRc.sys.mode ≠ .dormant ∧ sramFits (.scratch 4 3) 1048575 = true ∧ inService sRc 4 3 = true) ∧
    (sRc.sys.mode ≠ .dormant ∧ sramFits (.scratch 5 7) 262143 = true ∧ inService sRc 5 7 = true) ∧
    (sRc.sys.mode ≠ .dormant ∧ sramFits (.wharf 1) 2097151 = true ∧ getCmd sRc 1 = some rc) ∧
    (sRc.sys.mode ≠ .dormant ∧ sramFits .controlStore 262143 = true ∧ fused sRc 13 = false) ∧
    (sRc.sys.mode ≠ .dormant ∧ getCmd sRc 1 = some rc ∧ unfinished rc = true ∧ fused sRc 15 = false) ∧
    (sRc.sys.mode ≠ .dormant ∧ gmReads sRc (.cache 1 0) = true ∧ fused sRc 15 = false) ∧
    (sRc.sys.mode ≠ .dormant ∧ 1 ≤ 4 ∧ 4 ≤ 4) ∧
    (∀ x y, GmRegion.keySpill 5 1 ≠ .cache x y) ∧
    (sRc.sys.mode ≠ .dormant ∧ sRc.eng.cache[1]? = some (ent1 2 [])) := by
  and_intros <;> first | decide +kernel | rfl | exact fun _ _ => nofun

theorem view_there : viewOk sBs 9 bGone record9 = true := by
  let r := aeadSeal 0x3001 16 up.bkeys.storage (berthIv 9 1) [] (zeros 256)
  have e : record9 = r.1 ++ r.2 := rfl
  have h1 : r.1.length = 256 := (seal_len _ _ _ _).trans (by rw [zeros, List.length_replicate])
  have h2 : r.2.length = 16 := padTo_length _ _
  have f : viewOk sBs 9 bGone record9 = (record9.length == 272 &&
    (aeadOpen 0x3001 up.bkeys.storage (berthIv 9 1) [] (record9.take 256) (record9.drop 256)).2) := rfl
  rw [f, e, List.length_append, h1, h2, ← h1, List.take_left, List.drop_left, seal_open, h1]
  rfl

theorem meets_BackgroundWork :
    (tailSpillDue (sSpill 8257377 65535) 5 = true ∧ Map.get? (sSpill 8257377 65535).keys.keys 5 = some k5) ∧
    (serving sSp = true ∧ Map.get? sSp.keys.keys 5 = some kSp ∧ kSp.spilled = true ∧ needers sSp 5 = [1] ∧
      gmIsBad sSp (.keySpill 5 1) = false ∧ (lowestFree sSp (tailGranules kSp.len)).length = tailGranules kSp.len ∧
      (∃ pt, tailPlain sSp 5 kSp tail5 = some pt) ∧ DrawsLeft sSp (1 + tailGranules kSp.len)) ∧
    (serving sSpNo = true ∧ Map.get? sSpNo.keys.keys 5 = some kSp ∧ kSp.spilled = true ∧ needers sSpNo 5 = [1] ∧
      gmIsBad sSpNo (.keySpill 5 1) = false ∧ (lowestFree sSpNo (tailGranules kSp.len)).length = tailGranules kSp.len ∧
      (∃ pt, tailPlain sSpNo 5 kSp tail5 = some pt) ∧ canDraw sSpNo = false) ∧
    (serving sSp = true ∧ Map.get? sSp.keys.keys 5 = some kSp ∧ kSp.spilled = true ∧ needers sSp 5 = [1] ∧
      gmIsBad sSp (.keySpill 5 1) = false ∧ tailPlain sSp 5 kSp [] = none ∧ fused sSp 15 = false ∧ Quiet sSp) ∧
    (serving (sSpill 8257377 65535) = true ∧ lruBerth (sSpill 8257377 65535) = some 9 ∧ berthWaits (sSpill 8257377
      65535) = true ∧ Map.get? (sSpill 8257377 65535).keys.berths 9 = some berth0) ∧
    (serving sBs = true ∧ Map.get? sBs.keys.berths 9 = some bGone ∧ bGone.spilled = true ∧ berthNeeders sBs 9 = [1] ∧
      entryFree sBs = true ∧ gmIsBad sBs (.berthSpill 9 1) = false ∧ viewOk sBs 9 bGone record9 = true) ∧
    (serving sBs = true ∧ Map.get? sBs.keys.berths 9 = some bGone ∧ bGone.spilled = true ∧ berthNeeders sBs 9 = [1] ∧
      entryFree sBs = true ∧ gmIsBad sBs (.berthSpill 9 1) = false ∧ viewOk sBs 9 bGone [] = false ∧ fused sBs 15 = false) ∧
    (serving sSp = true ∧ DrawsLeft sSp 1) ∧
    (serving sSpNo = true ∧ canDraw sSpNo = false) ∧
    (up.boot.digest = [] ∧ (marked (zeros 32) 932891137).sys.tick.toNat < (marked (zeros 32) 932891137).boot.checkFrom.toNat + 2 ^ 26) ∧
    (up.sys.mode ≠ .dormant ∧ up.sys.isolated = false ∧ up.alarm.paceFrom.toNat + 65536 ≤ up.sys.tick.toNat) ∧
    (youngUp.sys.tick.toNat < youngUp.alarm.paceFrom.toNat + 65536) ∧
    (youngUp.sys.tick.toNat < youngUp.time.wearFrom.toNat + 2 ^ 36) ∧
    (lateUp.sys.mode ≠ .dormant ∧ lateUp.time.wearFrom.toNat + 2 ^ 36 ≤ lateUp.sys.tick.toNat) ∧
    (recQ.sys.mode ≠ .dormant ∧ recQ.recorder.mounted = true ∧ recQ.recorder.queue ≠ [] ∧ recQ.recorder.seq.getLsbD 0 = false ∧
      (getWear recQ.nvm 0).worn = false) ∧
    (recO.sys.mode ≠ .dormant ∧ recO.recorder.mounted = true ∧ recO.recorder.queue = [.record (zeros 64) false true] ∧
      recO.recorder.seq.getLsbD 0 = true ∧ RegionTakes recO 0 (spareWords 0)) ∧
    (recR.sys.mode ≠ .dormant ∧ recR.recorder.mounted = true ∧ recR.recorder.queue = [.repeatWord (zeros 8)] ∧
      recR.recorder.seq.getLsbD 0 = true ∧ RegionTakes recR 0 (spareWords 0) ∧ recR.nvm.newest = some 3 ∧
      Map.get? recR.nvm.slots 3 = some (zeros 64)) ∧
    (recO.sys.mode ≠ .dormant ∧ recO.recorder.mounted = true ∧ recO.recorder.queue = [.record (zeros 64) false true] ∧
      recO.recorder.seq.getLsbD 0 = true ∧ (getWear recO.nvm 0).worn = false ∧
      spareWords 0 < (spareWords 0 + 1) + (getWear recO.nvm 0).spare) ∧
    (recW.sys.mode ≠ .dormant ∧ recW.recorder.mounted = true ∧ recW.recorder.queue = [RecItem.record (zeros 64) false
      true] ∧ recW.recorder.seq.getLsbD 0 = false ∧ (getWear recW.nvm 0).worn = true) := by
  refine ⟨⟨tail_spill_due _ _ (by decide) (by decide), rfl⟩, ?_, ?_, ?_, ⟨rfl, rfl, berth_waits _ _ (by decide), rfl⟩, ?_⟩ <;>
    and_intros <;> first | decide +kernel | exact tail_there | exact view_there

theorem meets_BackgroundWork_store :
    (dig.boot.digest ≠ [] ∧ dig.boot.checkFrom.toNat + 2 ^ 26 ≤ dig.sys.tick.toNat ∧ monitorsRun dig = true ∧
      storeDigest dig.boot.store = dig.boot.digest) ∧
    ((marked [1] 0).boot.digest ≠ [] ∧ (marked [1] 0).boot.checkFrom.toNat + 2 ^ 26 ≤ (marked [1] 0).sys.tick.toNat ∧
      monitorsRun (marked [1] 0) = true ∧ storeDigest ([(65535, 5)].foldl (fun x w => Map.put x (w.1 % 65536) w.2)
        (marked [1] 0).boot.store) ≠ (marked [1] 0).boot.digest ∧ fused (marked [1] 0) 13 = false) :=
  ⟨⟨digest_there, by decide +kernel, by decide +kernel, rfl⟩, by decide +kernel, by decide +kernel, by decide +kernel,
    digest_ne _, by decide +kernel⟩

theorem meets_MonitorEvents :
    (monitorsRun up = true ∧ fused up ↑(1 : Fin 6) = false ∧ ((glitchBand up ↑(1 : Fin 6)).2 < 900000 ∨ 900000 <
      (glitchBand up ↑(1 : Fin 6)).1)) ∧
    (monitorsRun up = true ∧ (glitchBand up ↑(0 : Fin 6)).1 ≤ 800000 ∧ 800000 ≤ (glitchBand up ↑(0 : Fin 6)).2) ∧
    (monitorsRun up = true ∧ ↑(1 : Fin 6) ≠ 0) ∧
    (monitorsRun up = true ∧ fused up (6 + ↑(1 : Fin 6)) = false ∧ (slowBand up ↑(1 : Fin 6)).2 < 900000) ∧
    (monitorsRun up = true ∧ fused up (6 + ↑(1 : Fin 6)) = false ∧ 700000 < (slowBand up ↑(1 : Fin 6)).1 ∧ 700000 ≤
      (slowBand up ↑(1 : Fin 6)).2) ∧
    (monitorsRun up = true ∧ (slowBand up ↑(0 : Fin 6)).1 ≤ 800000 ∧ 800000 ≤ (slowBand up ↑(0 : Fin 6)).2) ∧
    (monitorsRun up = true ∧ fused up 12 = false) ∧
    (monitorsRun up = true) := by
  and_intros <;> first | decide +kernel | rfl

theorem meets_AlarmResponses :
    (setDue alNow = false) ∧
    (setDue al1 = true ∧ strongest (firstSet al1) = 1) ∧
    (setDue al0 = true ∧ strongest (firstSet al0) ≤ 1) ∧
    (setDue al2 = true ∧ strongest (firstSet al2) = 2 ∧ running al2 = true ∧ opposed al2 7 = false) ∧
    (setDue al3 = true ∧ strongest (firstSet al3) = 3 ∧ serving al3 = true ∧ opposed al3 9 = false) ∧
    (setDue al4 = true ∧ strongest (firstSet al4) = 4 ∧ serving al4 = true ∧ opposed al4 9 = false) ∧
    (alC.alarm.clearing = true) := by
  and_intros <;> first | decide +kernel | rfl

theorem meets_ClocksAndBackup :
    ((measured 99899999).sys.mode ≠ .dormant ∧ (measured 99899999).time.measure = some 99899999 ∧ ((99899999 :
      DWord).toNat < 99900000 ∨ 100100000 < (99899999 : DWord).toNat)) ∧
    ((measured 100100001).sys.mode ≠ .dormant ∧ (measured 100100001).time.measure = some 100100001 ∧ ((100100001 :
      DWord).toNat < 99900000 ∨ 100100000 < (100100001 : DWord).toNat)) ∧
    ((measured 99900000).sys.mode ≠ .dormant ∧ (measured 99900000).time.measure = some 99900000 ∧ 99900000 ≤
      (99900000 : DWord).toNat ∧ (99900000 : DWord).toNat ≤ 100100000) ∧
    (up.time.measure = none) ∧
    (noVio.sys.vio18Good = false) ∧
    (lostUp.sys.vio18Good = true) ∧
    (up.sys.mode ≠ .dormant ∧ up.time.anchored = true) ∧
    (serving up = true ∧ up.backup.timeLost = true ∧ up.time.noticed = false) := by
  and_intros <;> first | decide +kernel | rfl

end Monitors

namespace Links

def linkAt (st : LinkState) : Link := { Link.reset with st := st, peer := some 1, keyTx := List.replicate 32 1, keyRx := List.replicate 32 2 }
def topoOf (l : Link) : Topo :=
  { Topo.reset with set := true, devices := 2, links := Vector.ofFn fun i => if i.val = 7 then l else Link.reset }
def linked (l : Link) : State := { up with topo := topoOf l }
def hello0 : HelloMsg := { nonce := zeros 32, epoch := 4, deviceId := padTo 32 (digest 0x12 32 []), ownerDigest := padTo 32 (digest 0x12 32 []), idKey := [], agreeKey := [] }
def hello3 : HelloMsg := { hello0 with ownerDigest := [] }
theorem next_in {l : Link} {m : LinkMsg} {seq : DWord} (h : (rollRx l (packetCount m) seq).isSome = true) : NextInOrder l m seq := h
theorem hello0_ok (s : State) (h : ownerRoot s = none) : helloCause s hello0 = none := by simp [helloCause, hello0, h]
theorem padTo_ne_nil (n : Nat) (b : Bytes) : padTo (n + 1) b ≠ [] := by
  intro h; have h1 := congrArg List.length h; rw [padTo, List.length_take, List.length_append] at h1
  simp only [zeros, List.length_replicate, List.length_nil] at h1; omega
theorem hello3_bad (s : State) : helloCause s hello3 = some 3 := by
  simp [helloCause, hello3, (padTo_ne_nil 31 _).symm]
theorem no_epoch (s : State) (p : Nat) (x : DWord) (h : s.topo.peerEpoch = []) :
    ∀ e : DWord, s.topo.peerEpoch.get? p = some e → e = x := by simp [h, Map.get?]
def lTr : Link := linkAt .training
def lKey : Link := linkAt .keying
def lKeyH : Link := { lKey with helloRx := some hello0, helloTx := some hello0 }
def lKeyD : Link := { lKeyH with kemDone := true }
def lUp : Link := linkAt .up
def lUpHalf : Link := { linkAt .degraded with retired := 0x0F }
def lMid : Link := { lUp with seqTx := 0x1000000000 }
def lEnd : Link := { lUp with seqTx := 0x2000000000 }
def sent4 : Sent := { seq := 4, msg := .nak, packets := [] }
def sent5 : Sent := { seq := 5, msg := .credit 1 2, packets := [] }
def lRes : Link := { lUp with resend := [sent4, sent5] }
def lResT : Link := { lUp with resend := [sent4, sent5], replays := 3, episode := some 900000001 }
def lResK : Link := { linkAt .keying with resend := [sent4], replays := 3 }
def lRes3 : Link := { lRes with replays := 3 }
def lRet : Link := { lRes with st := .retraining, retired := 0xF0 }
def lFail : Link := { linkAt .failed with failedAt := 0 }
def sTr : State := linked lTr
def sKey : State := linked lKey
def sKeyH : State := linked lKeyH
def sKeyD : State := linked lKeyD
def sUp : State := linked lUp
def sUpHalf : State := linked lUpHalf
def sMid : State := linked lMid
def sEnd : State := linked lEnd
def sRes : State := linked lRes
def sRes3 : State := linked lRes3
def sRet : State := linked lRet
def sFail : State := linked lFail
def lTo1 : Link := { lFail with peer := some 7 }
def sLong : State := { linked lTo1 with topo := { topoOf lTo1 with downSince := [(7, 900000000)] } }
def held (s : State) : State := { s with sys := { s.sys with mode := .held } }
def lUnused : Link := { Link.reset with peer := some 1 }
def sUnused : State := linked lUnused
def sResT : State := linked lResT
def sResK : State := linked lResK
def lNew : Link := { lUp with newRx := List.replicate 32 3, seqRx := 65000 }

theorem meets_LinkSessions :
    (lTr = getLink sTr ↑(7 : Fin 8) ∧ lTr.st = LinkState.training ∧ linksMayTrain sTr = true ∧ (255 : BitVec 8) ≠ (0 :
      BitVec 8) ∧ widthOk lTr.retired (255 : BitVec 8) = true ∧ lTr.peer = some 1 ∧ sTr.topo.devices = 2 ∧ DrawsLeft
      sTr 1 ∧ lTr.back = []) ∧
    (lTr = getLink sTr ↑(7 : Fin 8) ∧ lTr.st = LinkState.training ∧ linksMayTrain sTr = true ∧ (0 : BitVec 8) = (0 :
      BitVec 8) ∧ Quiet sTr) ∧
    (lTr = getLink sTr ↑(7 : Fin 8) ∧ lTr.st = LinkState.training ∧ linksMayTrain sTr = true ∧ (1 : BitVec 8) ≠ 0 ∧
      widthOk lTr.retired (1 : BitVec 8) = false ∧ Quiet sTr) ∧
    ((Instr.hello ⟨7, 4, .good⟩ hello0, LinkMsg.hello hello0) ∈ [(Instr.hello ⟨7, 4, .good⟩ hello0, LinkMsg.hello hello0),
        (.kemSig ⟨7, 4, .good⟩ [] [], .kemSig [] []), (.rekey ⟨7, 4, .good⟩ hello0 [] [], .rekey hello0 [] [])] ∧
      lKey = getLink (held sKey) ↑(7 : Fin 8) ∧ linksMayTrain (held sKey) = false ∧ takes lKey 3 = true ∧
      NextInOrder lKey (.hello hello0) 4) ∧
    (NextInOrder lNew .nak 65000 ∧ NextInOrder { lNew with seqRx := 65536 } (.xferCommit 1) 65536) ∧
    (lTr = getLink sTr ↑(7 : Fin 8) ∧ lTr.st = LinkState.training ∧ linksMayTrain sTr = true ∧ (255 : BitVec 8) ≠ (0
      : BitVec 8) ∧ widthOk lTr.retired (255 : BitVec 8) = true ∧ (lTr.peer ≠ some 1 ∨ sTr.topo.devices ≠ 3) ∧ Quiet
      sTr) ∧
    (lKey = getLink sKey ↑(7 : Fin 8) ∧ lKey.st = LinkState.keying ∧ lKey.helloRx = none ∧ linksMayTrain sKey = true ∧
      lKey.inbox = [] ∧ NextInOrder lKey (.hello hello0) 4 ∧ helloCause sKey hello0 = none ∧ DrawsLeft sKey 1 ∧ (∀ (e : DWord), sKey.topo.peerEpoch.get? (lKey.peer.getD 0) = some e → e =
      hello0.epoch)) ∧
    (lKey = getLink sKey ↑(7 : Fin 8) ∧ lKey.st = LinkState.keying ∧ lKey.helloRx = none ∧ linksMayTrain sKey = true ∧
      lKey.inbox = [] ∧ NextInOrder lKey (.hello hello3) 4 ∧ helloCause sKey hello3 = some 3 ∧ Quiet sKey) ∧
    (lKeyH = getLink sKeyH ↑(7 : Fin 8) ∧ lKeyH.st = LinkState.keying ∧ lKeyH.helloRx.isSome = true ∧ lKeyH.kemDone =
      false ∧ [(1 : Byte)] ≠ [] ∧ linksMayTrain sKeyH = true ∧ lKeyH.inbox = [] ∧
      NextInOrder lKeyH (.kemSig (zeros 1568) [1]) 1 ∧ DrawsLeft sKeyH 1 ∧ Quiet sKeyH) ∧
    (lKeyD = getLink sKeyD ↑(7 : Fin 8) ∧ lKeyD.st = LinkState.keying ∧ lKeyD.kemDone = true ∧ linksMayTrain sKeyD =
      true ∧ lKeyD.back = [] ∧ Quiet sKeyD) ∧
    (lMid = getLink sMid ↑(7 : Fin 8) ∧ carrying lMid = true ∧ 2 ^ 36 ≤ BitVec.toNat lMid.seqTx ∧ BitVec.toNat
      lMid.seqTx < 2 ^ 37 ∧ lMid.rekeying = false ∧ lMid.newTx = [] ∧ linksMayTrain sMid = true ∧ DrawsLeft sMid 1) ∧
    (lEnd = getLink sEnd ↑(7 : Fin 8) ∧ carrying lEnd = true ∧ 2 ^ 37 ≤ BitVec.toNat lEnd.seqTx ∧ Quiet sEnd) ∧
    (lMid = getLink sMid ↑(7 : Fin 8) ∧ carrying lMid = true ∧ lMid.rekeying = false ∧ helloCause sMid hello0 = none
      ∧ linksMayTrain sMid = true ∧ lMid.inbox = [] ∧ NextInOrder lMid (.rekey hello0 [] []) 4 ∧ DrawsLeft sMid 2) ∧
    (lUp = getLink sUp ↑(7 : Fin 8) ∧ carrying lUp = true ∧ helloCause sUp hello3 = some 3 ∧
      linksMayTrain sUp = true ∧ lUp.inbox = [] ∧ NextInOrder lUp (.rekey hello3 [] []) 4 ∧ Quiet sUp) ∧
    (lMid = getLink sMid ↑(7 : Fin 8) ∧ carrying lMid = true ∧ lMid.back = [] ∧ NextInOrder lMid (.credit 3 64) 0) ∧
    (lRes = getLink sRes ↑(7 : Fin 8) ∧ lRes.st ≠ LinkState.failed ∧ lRes.resend = [sent4] ++ sent5 :: [] ∧ sent5.seq = 5 ∧
      (∀ p ∈ [sent4], p.seq ≠ (5 : DWord))) ∧
    (lRes = getLink sRes ↑(7 : Fin 8) ∧ lRes.st ≠ LinkState.failed ∧ lRes.resend = [] ++ [sent4, sent5] ∧ (∀ p ∈ lRes.resend, p.seq ≠
      (3 : DWord)) ∧ (∀ p ∈ ([] : List Sent), p.seq.toNat ≤ (3 : DWord).toNat) ∧ (∀ p, [sent4, sent5].head? = some p → (3 :
      DWord).toNat < p.seq.toNat)) ∧
    (lResT = getLink sResT ↑(7 : Fin 8) ∧ carrying lResT = true ∧ lResT.resend ≠ [] ∧ 3 ≤ lResT.replays ∧ lResT.episode = some
      900000001 ∧ sResT.sys.tick.toNat - (900000001 : DWord).toNat < 100000000 ∧ Quiet sResT) ∧
    (lResK = getLink sResK ↑(7 : Fin 8) ∧ lResK.st = .keying ∧ lResK.resend ≠ [] ∧ 3 ≤ lResK.replays ∧ Quiet sResK) ∧
    (lRes = getLink sRes ↑(7 : Fin 8) ∧ (Instr.nak (7 : Fin 8) = Instr.nak (7 : Fin 8) ∨ Instr.nak (7 : Fin 8) =
      Instr.replayTimeout (7 : Fin 8)) ∧ (carrying lRes = true ∨ lRes.st = LinkState.keying) ∧ lRes.resend ≠ [] ∧
      lRes.replays < 3) ∧
    (lRes3 = getLink sRes3 ↑(7 : Fin 8) ∧ (Instr.nak (7 : Fin 8) = Instr.nak (7 : Fin 8) ∨ Instr.nak (7 : Fin 8) =
      Instr.replayTimeout (7 : Fin 8)) ∧ (carrying lRes3 = true ∨ lRes3.st = LinkState.keying) ∧ lRes3.resend ≠ [] ∧
      3 ≤ lRes3.replays ∧ lRes3.episode = none ∧ carrying lRes3 = true) ∧
    (lMid = getLink sMid ↑(7 : Fin 8) ∧ carrying lMid = true ∧ lMid.retired = (0 : BitVec 8)) ∧
    (lUpHalf = getLink sUpHalf ↑(7 : Fin 8) ∧ carrying lUpHalf = true ∧ lUpHalf.retired ≠ (0 : BitVec 8) ∧
      lUpHalf.retired.getLsbD ↑(7 : Fin 8) = false ∧ Quiet sUpHalf) ∧
    (lRet = getLink sRet ↑(7 : Fin 8) ∧ lRet.st = LinkState.retraining ∧ widthOk lRet.retired (15 : BitVec 8) = true
      ∧ lRet.back = [] ∧ Quiet sRet) ∧
    (lRet = getLink sRet ↑(7 : Fin 8) ∧ lRet.st = LinkState.retraining ∧ widthOk lRet.retired (14 : BitVec 8) = false
      ∧ Quiet sRet) ∧
    (lFail = getLink sFail ↑(7 : Fin 8) ∧ linksMayTrain sFail = true ∧ lFail.peer.isSome = true ∧ lFail.st =
      LinkState.failed ∧ lFail.retired ≠ (255 : BitVec 8) ∧ 10000000 ≤ BitVec.toNat sFail.sys.tick - BitVec.toNat
      lFail.failedAt) ∧
    (lUnused = getLink sUnused ↑(7 : Fin 8) ∧ linksMayTrain sUnused = true ∧ lUnused.peer.isSome = true ∧ lUnused.st = .unused) ∧
    (lTo1 = getLink sLong ↑(7 : Fin 8) ∧ sLong.topo.ended.contains ↑(7 : Fin 8) = false ∧ peerReached sLong ↑(7 : Fin 8) = false ∧
      Map.get? sLong.topo.downSince ↑(7 : Fin 8) = some 900000000 ∧ 100000000 ≤ sLong.sys.tick.toNat - (900000000 : DWord).toNat) ∧
    (lTr = getLink sTr ↑(7 : Fin 8) ∧ lTr.st ≠ LinkState.failed ∧ lTr.st ≠ LinkState.unused ∧ Quiet sTr) ∧
    (lTr = getLink sTr ↑(7 : Fin 8) ∧ Quiet sTr) := by
  and_intros
  all_goals try exact next_in (by decide +kernel)
  all_goals try exact List.mem_cons_self
  all_goals try rfl
  all_goals try first
    | with_reducible exact hello0_ok _ rfl
    | with_reducible exact hello3_bad _
    | with_reducible exact no_epoch _ _ _ rfl
  all_goals decide +kernel

end Links

namespace Peers

def linkAt (st : LinkState) : Link := { Link.reset with st := st, peer := some 1, keyTx := List.replicate 32 1, keyRx := List.replicate 32 2 }
def topoOf (l : Link) : Topo :=
  { Topo.reset with set := true, devices := 2, links := Vector.ofFn fun i => if i.val = 7 then l else Link.reset }
def lUp : Link := linkAt .up
def lUpS (s : State) : State := { s with topo := topoOf lUp }
def sUp : State := lUpS up
def kSym : Key := key0 0x3010 32 true
def fw : Cmd := { opCmd 0x0310 [] (zeros 8) with phase := .forwarded 7 }
def sFw : State := lUpS (on fw)
def fwP : Cmd := { fw with pulls := [(0, 5)], pulled := 1 }
def sFwP : State := { lUpS (on fwP) with fns := [(0, { fnUp with bme := false })] }
def fwA : Cmd := { fw with again := true }
def sFwA : State := lUpS (on fwA)
def lKey : Link := linkAt .keying
def sKey : State := { up with topo := topoOf lKey }
def kHuge : Key := { kSym with len := 131072 * 64 }
theorem no_room (s : State) (g : Nat) (k : Key) (h : Config.generalGranules ≤ tailGranules k.len) : (placeMoved [(g, k)] s).isNone = true := by
  have hl : (lowestFree s (keyGranules k.len)).length ≤ Config.generalGranules := by
    unfold lowestFree; dsimp only
    rw [List.length_take]
    have := List.length_filter_le (fun g => !(usedGranules s).contains g)
      (List.range (min Config.generalGranules ((usedGranules s).length + keyGranules k.len)))
    rw [List.length_range] at this; omega
  unfold placeMoved
  generalize lowestFree s (keyGranules k.len) = l at hl
  cases l with
  | nil => rfl
  | cons a t => simp only [List.length_cons] at hl; dsimp only; rw [if_pos (by omega)]; rfl
def fwO : Cmd := { fw with buf := [1], sent := 1 }
def sFwO : State := lUpS (on fwO)
def pee : Cmd := { opCmd 0x0310 [] (zeros 8) with origin := some (7, 20), originPos := 1, asked := true, input := none, buf := [1, 2] }
def sPee : State := lUpS (on pee)
def bIn : Berth := { berth0 with incoming := some 20 }
def sIn : State := lUpS { up with keys := { up.keys with keys := [(5, kSym)], berths := [(9, bIn)] } }
def mv0 : Move := { id := 20, cid := 1, index := 9, target := 1, link := 7, committed := false, aborted := false, handle := 0 }
def mvc : Cmd := { cmdOf 0x42 [] with phase := .effected, berth := some 9 }
def bMv : Berth := { berth0 with moving := some 1 }
def sMv : State := { on mvc with keys := { up.keys with keys := [(5, kSym)], berths := [(9, bMv)] }, topo := { topoOf lUp with moves := [mv0] } }
/-- `n` berths at the first `n` indexes. -/
def sFull (n : Nat) : State := lUpS { up with keys := { up.keys with berths := (List.range n).map fun i => (i, berth0) } }
theorem get_range (f : Nat → Berth) (l : List Nat) (x : Nat) (h : x ∈ l) : (Map.get? (l.map fun i => (i, f i)) x).isSome = true := by
  induction l with
  | nil => simp at h
  | cons a r ih =>
    by_cases e : a = x
    · simp [Map.get?, e]
    · have : x ∈ r := by simpa [Ne.symm e] using h
      simpa [Map.get?, e] using ih this
theorem none_free (n : Nat) (hn : n = Config.berthTotal) : nextIndex (sFull n) = none := by
  simp only [nextIndex, List.findSome?_eq_none_iff]
  intro k _
  have h : (Map.get? (sFull n).keys.berths (((sFull n).keys.lastBerth + 1 + k) % Config.berthTotal)).isSome = true :=
    get_range (fun _ => berth0) _ _ (List.mem_range.mpr (by rw [hn]; exact Nat.mod_lt _ (by decide)))
  have h2 : (Map.get? (sFull n).keys.berths (((sFull n).keys.lastBerth + 1 + k) % Config.berthTotal)).isNone = false := by
    rw [← Option.not_isSome, h]; rfl
  simp [indexFree, h2]
theorem none_incoming (n : Nat) (c : Nat) : ∀ x ∈ (sFull n).keys.berths, x.2.incoming ≠ some c := by
  intro x hx
  obtain ⟨a, _, rfl⟩ := List.mem_map.mp hx
  simp [berth0]

theorem meets_LinkCommands :
    (lUp = getLink sUp ↑(7 : Fin 8) ∧ Carries (.cmd ⟨7, 9⟩ 20 0 true 3 [] .badCrc) 7 9 .badCrc (lUp.peer.getD 0) (.cmd 1 20 0 true 3 []) ∧
      takes lUp (linkChannel (.cmd 1 20 0 true 3 [])) = true) ∧
    (lUp = getLink sUp ↑(7 : Fin 8) ∧ Carries (.endFunc ⟨7, 9, .badTag⟩ 0 1) 7 9 .badTag (lUp.peer.getD 0) (.endFunc 1 0 1) ∧
      takes lUp (linkChannel (.endFunc 1 0 1)) = true ∧ Quiet sUp) ∧
    (lUp = getLink sUp ↑(7 : Fin 8) ∧ Carries (.xferCommit ⟨7, 9, .good⟩ 20) 7 9 .good (lUp.peer.getD 0) (.xferCommit 20) ∧
      takes lUp (linkChannel (.xferCommit 20)) = true ∧ (rollRx lUp (packetCount (.xferCommit 20)) 9).isSome = false) ∧
    (lKey = getLink sKey ↑(7 : Fin 8) ∧ Carries (.inPull ⟨7, 0⟩ 20 0 5 .good) 7 0 .good (lKey.peer.getD 0) (.inPull 20 0 5) ∧
      takes lKey (linkChannel (.inPull 20 0 5)) = false) ∧
    (lUp = getLink sUp ↑(7 : Fin 8) ∧ carrying lUp = true ∧ NextInOrder lUp (.cmd (lUp.peer.getD 0) 20 0 true 3 []) 0) ∧
    (lUp = getLink sFw ↑(7 : Fin 8) ∧ carrying lUp = true ∧ getCmd sFw 1 = some fw ∧ fw.phase = Phase.forwarded ↑(7 :
      Fin 8) ∧ NextInOrder lUp (.inPull 20 0 5) 0 ∧ fw.pulled = fw.pulls.length ∧ canRead sFw fw.fn false = true) ∧
    (lUp = getLink sFwP ↑(7 : Fin 8) ∧ getCmd sFwP 1 = some fwP ∧ fwP.phase = Phase.forwarded ↑(7 : Fin 8) ∧
      fwP.pulled = fwP.pulls.length ∧ canRead sFwP fwP.fn false = false) ∧
    (lUp = getLink sPee ↑(7 : Fin 8) ∧ carrying lUp = true ∧ List.find? (fun x => x.origin == some (↑(7 : Fin 8), 20)
      && x.asked && x.input.isNone) sPee.cmds = some pee ∧ getCmd sPee pee.id = some pee ∧ NextInOrder lUp (.inData 20 1 [1, 2, 3, 4, 5]) 0 ∧ 1 ≤ List.length pee.buf ∧
      List.length pee.buf ≤ 1 + [(1 : Byte), (2 : Byte), (3 : Byte), (4 : Byte), (5 : Byte)].length ∧ 1 + [(1 :
      Byte), (2 : Byte), (3 : Byte), (4 : Byte), (5 : Byte)].length < inLen pee.entry) ∧
    (lUp = getLink sPee ↑(7 : Fin 8) ∧ carrying lUp = true ∧ List.find? (fun x => x.origin == some (↑(7 : Fin 8), 20)
      && x.asked && x.input.isNone) sPee.cmds = some pee ∧ getCmd sPee pee.id = some pee ∧ NextInOrder lUp (.inData 20 2 [1, 2, 3, 4, 5, 6]) 0 ∧ 2 = List.length pee.buf ∧
      2 + [(1 : Byte), (2 : Byte), (3 : Byte), (4 : Byte), (5 : Byte), (6 : Byte)].length = inLen pee.entry) ∧
    (lUp = getLink sFw ↑(7 : Fin 8) ∧ carrying lUp = true ∧ getCmd sFw 1 = some fw ∧ fw.phase = Phase.forwarded ↑(7 :
      Fin 8) ∧ NextInOrder lUp (.outData 20 0 [1]) 0 ∧ 0 = fw.sent ∧ 0 = List.length fw.buf ∧ canReq sFw fw.fn = true) ∧
    (lUp = getLink sFw ↑(7 : Fin 8) ∧ carrying lUp = true ∧ getCmd sFw 1 = some fw ∧ fw.phase = Phase.forwarded ↑(7 :
      Fin 8) ∧ NextInOrder lUp (.done 1 0 8 0) 0) ∧
    (lUp = getLink sFw ↑(7 : Fin 8) ∧ carrying lUp = true ∧ getCmd sFw 1 = some fw ∧ fw.phase = Phase.forwarded ↑(7 :
      Fin 8) ∧ NextInOrder lUp (.done 1 Status.badParam.code 0 0) 0 ∧ Status.badParam ≠ Status.ok ∧ Status.badParam ≠ Status.berthMoved) ∧
    (lUp = getLink sFwA ↑(7 : Fin 8) ∧ carrying lUp = true ∧ getCmd sFwA 1 = some fwA ∧ fwA.phase = Phase.forwarded ↑(7 : Fin 8) ∧
      NextInOrder lUp (.done 1 Status.berthMoved.code 0 0x20000009) 0 ∧ Status.berthMoved ≠ Status.ok ∧ fwA.again = true) ∧
    (lUp = getLink sFw ↑(7 : Fin 8) ∧ carrying lUp = true ∧ getCmd sFw 1 = some fw ∧ fw.phase = Phase.forwarded ↑(7 : Fin 8) ∧
      NextInOrder lUp (.done 1 Status.berthMoved.code 0 0x20000009) 0 ∧ fw.again = false ∧
      handlePos 0x20000009 ≠ handlePos (handleOf fw.entry)) ∧
    (lUp = getLink sUp ↑(7 : Fin 8) ∧ carrying lUp = true ∧ (∀ x ∈ sUp.keys.berths, x.2.incoming ≠ some 20) ∧
      nextIndex sUp = some 0 ∧ NextInOrder lUp (.berthXfer 20 0 berth0 [(5, kSym)]) 0 ∧ (placeMoved [(5, kSym)] sUp).isSome = true) ∧
    (lUp = getLink sUp ↑(7 : Fin 8) ∧ NextInOrder lUp (.berthXfer 20 0 berth0 [(5, kHuge)]) 8192 ∧
      (placeMoved [(5, kHuge)] sUp).isNone = true ∧ sUp.topo.moves = []) ∧
    (lUp = getLink sIn ↑(7 : Fin 8) ∧ carrying lUp = true ∧ NextInOrder lUp (.berthXfer 20 0 berth0 []) 0 ∧
      (∃ x ∈ sIn.keys.berths, x.2.incoming = some 20)) ∧
    (lUp = getLink (sFull 65536) ↑(7 : Fin 8) ∧ carrying lUp = true ∧ (∀ x ∈ (sFull 65536).keys.berths, x.2.incoming
      ≠ some 20) ∧ nextIndex (sFull 65536) = none ∧ NextInOrder lUp (.berthXfer 20 0 berth0 []) 0) ∧
    (lUp = getLink sMv ↑(7 : Fin 8) ∧ carrying lUp = true ∧ NextInOrder lUp (.xferAck 20 0x20000009) 0 ∧ List.find? (fun x => x.id == 20 && !x.committed &&
      !x.aborted) sMv.topo.moves = some mv0 ∧ sMv.keys.berths.get? mv0.index = some bMv ∧ (getCmd sMv mv0.cid).isSome
      = true) ∧
    (lUp = getLink sIn ↑(7 : Fin 8) ∧ carrying lUp = true ∧ List.find? (fun x => x.2.incoming == some 20)
      sIn.keys.berths = some (9, bIn) ∧ sIn.keys.berths.get? 9 = some bIn ∧ NextInOrder lUp (.xferCommit 20) 0) ∧
    (lUp = getLink sIn ↑(7 : Fin 8) ∧ carrying lUp = true ∧ List.find? (fun x => x.2.incoming == some 20)
      sIn.keys.berths = some (9, bIn) ∧ NextInOrder lUp (.xferAbort 20) 0) ∧
    (lUp = getLink sMv ↑(7 : Fin 8) ∧ carrying lUp = true ∧ (∀ x ∈ sMv.keys.berths, x.2.incoming ≠ some 20) ∧
      List.find? (fun x => x.id == 20 && !x.committed) sMv.topo.moves = some mv0 ∧ mv0.aborted = false ∧ (getCmd sMv
      mv0.cid).isSome = true ∧ NextInOrder lUp (.xferAbort 20) 0) ∧
    (lUp = getLink sUp ↑(7 : Fin 8) ∧ carrying lUp = true ∧ NextInOrder lUp (.endFunc (lUp.peer.getD 0) 0 1) 0 ∧ 1 ≠ 2) ∧
    (lUp = getLink sUp ↑(7 : Fin 8) ∧ carrying lUp = true ∧ NextInOrder lUp (.endFunc (lUp.peer.getD 0) 0 2) 0) := by
  and_intros
  all_goals try with_reducible exact no_room _ _ _ (by decide)
  all_goals try with_reducible exact none_incoming _ _
  all_goals try with_reducible exact none_free _ rfl
  all_goals first | decide +kernel | with_reducible exact Links.next_in (by decide +kernel)

end Peers

end Sys2Proof.Tests
end

section
/-!
PROOFS. A write of a register in the modes that serve registers, and what a write of DBG_CTRL.CLOSE does to an open
debug scope (R402). The statement on register writes (O49) fails there: what CONTROL scope had halted is released too.
-/

namespace Sys2Proof.Machine

open Sys2Proof.Claims

/-! ### Writes in the modes that serve registers (R452, R455) -/

/-- A write acts on the registers at once where BAR 0 acts on writes now. -/
theorem barWrite_of_writable {s : State} {fn : Nat} (off : Nat) (v : Word) (h : Writable s fn) :
    barWrite s fn off v = regWrite s fn off v := by
  obtain ⟨hopen, hflr, hserving⟩ := h
  have hmode : (s.sys.mode = .service ∨ s.sys.mode = .held) ∨ s.sys.mode = .maintenance := by
    simpa only [serving, Bool.or_eq_true, beq_iff_eq] using hserving
  rw [barWrite, if_pos hopen, writeOrHold, if_neg hflr, barWriteNow]
  rcases hmode with (hm | hm) | hm <;> rw [hm]

/-- A write of the keeper function in the keeper block, outside a PF's own recorder registers, acts on the keeper block. -/
theorem barWrite_of_keeperWritable {s : State} {fn off : Nat} (v : Word) (h : KeeperWritable s fn)
    (hlo : 0x1000 ≤ off) (hhi : off < 0x8000) (hindex : off ≠ 0x3004) (hpinned : off ≠ 0x3008) :
    barWrite s fn off v = keeperWrite s off v := by
  obtain ⟨hw, hkeeper⟩ := h
  have hkq : ¬off < 0x0820 := by omega
  have hfast : ¬off < 0x0C80 := by omega
  have hsoft : off ≠ 0x0D00 := by omega
  have hmsix : ¬0x10000 ≤ off := by omega
  rw [barWrite_of_writable off v hw, regWrite]
  simp [hkq, hfast, hsoft, hmsix, hindex, hpinned, hlo, hhi, hkeeper]

/-! ### The end of a debug scope (R402) -/

/-- A scope that closes takes with it the units it has halted (log 105), and nothing else of the debug state. -/
theorem closeScope_lc {s : State} (h : s.lc.scope ≠ 0) :
    (closeScope s).lc = { s.lc with scope := 0, byOwner := false, units := [] } := by
  have hrec := congrArg State.lc (record_keeps { s with lc := { s.lc with scope := 0, byOwner := false, units := [] } }
    0x2006 s.lc.scope ([4, if s.lc.byOwner then 2 else 1, 0, 0] ++ s.lc.nonce))
  rw [closeScope, if_neg h, scopeClosed, if_neg h]
  exact hrec

/-- A write of 1 to DBG_CTRL.CLOSE closes the scope. -/
theorem exec_dbgCtrlClose {s : State} {fn : Nat} {v : Word} (h : KeeperWritable s fn) (hv : v.getLsbD 2 = true) :
    exec (.dbgCtrlClose fn v) s = .next (closeScope s) := by
  have hexec : exec (.dbgCtrlClose fn v) s = .next (barWrite s fn 0x2810 v) := rfl
  rw [hexec, barWrite_of_keeperWritable v h (by decide) (by decide) (by decide) (by decide)]
  simp only [keeperWrite, hv, if_true]

/-- Where CONTROL scope has halted a unit, closing the scope changes more of the debug state than the scope itself. -/
theorem dbgCtrlClose_releases_units {s : State} {fn : Nat} {v : Word} (h : KeeperWritable s fn) (hv : v.getLsbD 2 = true)
    (hscope : s.lc.scope ≠ 0) (hunits : s.lc.units ≠ []) :
    ¬Completes (.dbgCtrlClose fn v) s fun t => t.lc = { s.lc with scope := 0, byOwner := false } := by
  rintro ⟨t, ht, hlc⟩
  rw [exec_dbgCtrlClose h hv] at ht
  cases ht
  rw [closeScope_lc hscope] at hlc
  exact hunits (congrArg LcSt.units hlc).symm

/-! ### Register writes -/

/-- The device in Maintenance with CONTROL scope open and sequencer 15 halted; the BAR of function 0 is open. -/
def controlHalted : State :=
  { State.reset with
    sys := { State.reset.sys with mode := .maintenance, prev := .service, cause := 7, isolated := false },
    fns := [(0, { Fn.reset false true with mse := true })],
    ports := Vector.replicate 8 { Port.reset with linkUp := true },
    lc := { LcSt.reset .owned false with scope := 2, tainted := true, units := [(15, 0)] } }

theorem keeperWritable_controlHalted : KeeperWritable controlHalted 0 := by decide

end Sys2Proof.Machine

namespace Sys2Proof.Proofs

open Sys2Proof.Machine Sys2Proof.Claims

/-- Refutes O49: with CONTROL scope open and sequencer 15 halted, a write of 1 to DBG_CTRL.CLOSE also empties the list of
halted units (log 105), where the statement keeps all of the debug state but the scope and who opened it. -/
theorem not_registerWrites : ¬ Obligations.RegisterWrites := by
  unfold Obligations.RegisterWrites
  rintro ⟨hwrites, -⟩
  obtain ⟨-, -, -, -, -, -, -, -, -, -, -, hclose, -⟩ :=
    hwrites controlHalted 0 0 4 0 [] [] (Sq.fresh 0 64 0 .disabled) (Cq.fresh 0 64 64 0) ⟨0, 0, 4⟩
  obtain ⟨t, ht, -, hlc⟩ := hclose keeperWritable_controlHalted (by decide) (by decide)
  exact dbgCtrlClose_releases_units (fn := 0) (v := 4) keeperWritable_controlHalted (by decide) (by decide) (by decide)
    ⟨t, ht, hlc⟩

end Sys2Proof.Proofs
end

section
/-!
PROOFS. What each shared operation and each meaning leaves of user NVM and of the monitor fuses. The lemmas follow the
model's files in their order, one for each of their functions; those named `_durable` and `_leaves` say that both stay as
they were, those named `_user` that user NVM does.
-/

namespace Sys2Proof.Machine

/-- User NVM, and the monitor fuses in their two copies. -/
abbrev Durable := List Host.Cell × BitVec 16 × BitVec 16

/-- User NVM and the monitor fuses (R174, R370). -/
def durable (s : State) : Durable := (s.nvm.user, s.otp.fuseA, s.otp.fuseB)

/-- The same of the state that a meaning answers. -/
def durableAfter : Out → Option Durable
  | .next t => some (durable t)
  | _ => none

@[simp] theorem durableAfter_next (t : State) : durableAfter (.next t) = some (durable t) := by rfl

@[simp] theorem durable_mk (pending sys boot otp nvm backup time fns ports sqs cqs cmds eng keys rng alarm recorder lc bkeys topo bus
    stamp nextId free) :
    durable ⟨pending, sys, boot, otp, nvm, backup, time, fns, ports, sqs, cqs, cmds, eng, keys, rng, alarm, recorder, lc, bkeys, topo,
      bus, stamp, nextId, free⟩ = (nvm.user, otp.fuseA, otp.fuseB) := by rfl

@[simp] theorem durable_eta (s : State) : (s.nvm.user, s.otp.fuseA, s.otp.fuseB) = durable s := by rfl

@[simp] theorem durable_ite (p : Prop) [Decidable p] (s t : State) :
    durable (if p then s else t) = if p then durable s else durable t :=
  apply_ite durable p s t

@[simp] theorem durable_foldl {α : Type} (f : State → α → State) (h : ∀ t a, durable (f t a) = durable t) (l : List α) (s : State) :
    durable (l.foldl f s) = durable s := foldl_keeps durable f h l s

/-- What keeps a view of the state that shows user NVM and the fuses keeps these. -/
theorem durable_of_keeps {v : State → State} {s t : State} (h : v t = v s)
    (hv : ∀ x, durable (v x) = durable x) : durable t = durable s := by
  rw [← hv t, h, hv s]

/-- Every state that an optional answer gives holds `d` in user NVM and the fuses. -/
def Leaves (d : Durable) (x : Option State) : Prop := ∀ t, x = some t → durable t = d

@[simp] theorem leaves_none (d : Durable) : Leaves d none := fun _ h => by simp at h

@[simp] theorem leaves_some (d : Durable) (t : State) : Leaves d (some t) ↔ durable t = d := by
  simp [Leaves]

@[simp] theorem leaves_ite (d : Durable) (p : Prop) [Decidable p] (x y : Option State) :
    Leaves d (if p then x else y) ↔ if p then Leaves d x else Leaves d y := by
  split <;> rfl

theorem leaves_bind {α : Type} {d : Durable} {x : Option α} {f : α → Option State}
    (h : ∀ a, x = some a → Leaves d (f a)) : Leaves d (x.bind f) := by
  cases x with
  | none => exact leaves_none d
  | some a => exact h a rfl

theorem leaves_map {α : Type} {d : Durable} {x : Option α} {f : α → State}
    (h : ∀ a, x = some a → durable (f a) = d) : Leaves d (x.map f) := by
  cases x with
  | none => exact leaves_none d
  | some a => simpa using h a rfl

theorem leaves_map_keeps {d : Durable} {x : Option State} {f : State → State} (hx : Leaves d x) (hf : ∀ t, durable (f t) = durable t) :
    Leaves d (x.map f) :=
  leaves_map fun t ht => (hf t).trans (hx t ht)

theorem leaves_getD {s : State} {x : Option State} (h : Leaves (durable s) x) : durable (x.getD s) = durable s := by
  cases x with
  | none => rfl
  | some t => exact h t rfl

/-- User NVM alone, in the state that a meaning answers. -/
def userAfter (o : Out) : Option (List Host.Cell) := (durableAfter o).map (·.1)

@[simp] theorem userAfter_next (t : State) : userAfter (.next t) = some (durable t).1 := by rfl

end Sys2Proof.Machine

namespace Sys2Proof.Machine

/-! ### Queues, commands and the bus -/

@[simp] theorem modFn_durable (s : State) (fn : Nat) (f : Fn → Fn) : durable (modFn s fn f) = durable s := by rfl
@[simp] theorem modPort_durable (s : State) (p : Nat) (f : Port → Port) : durable (modPort s p f) = durable s := by rfl
@[simp] theorem putSq_durable (s : State) (fn qid : Nat) (q : Sq) : durable (putSq s fn qid q) = durable s := by rfl
@[simp] theorem putCq_durable (s : State) (fn qid : Nat) (q : Cq) : durable (putCq s fn qid q) = durable s := by rfl
@[simp] theorem modCmd_durable (s : State) (cid : Nat) (f : Cmd → Cmd) : durable (modCmd s cid f) = durable s := by rfl
@[simp] theorem dropCmd_durable (s : State) (cid : Nat) : durable (dropCmd s cid) = durable s := by rfl
@[simp] theorem emit_durable (s : State) (b : Bus) : durable (emit s b) = durable s := by rfl
@[simp] theorem emitWrite_durable (s : State) (fn : Nat) (addr : DWord) (d : Bytes) :
    durable (emitWrite s fn addr d) = durable s := durable_of_keeps (emitWrite_keeps ..) fun _ => rfl
@[simp] theorem emitRead_durable (s : State) (fn : Nat) (addr : DWord) (n : Nat) :
    durable (emitRead s fn addr n) = durable s := durable_of_keeps (emitRead_keeps ..) fun _ => rfl
@[simp] theorem gmFresh_durable (s : State) (r : GmRegion) : durable (gmFresh s r) = durable s := by rfl
@[simp] theorem unitStep_durable (s : State) (u : Nat) : durable (unitStep s u) = durable s := by rfl
@[simp] theorem modLink_durable (s : State) (k : Nat) (f : Link → Link) : durable (modLink s k f) = durable s := by rfl

/-! ### Records, non-volatile writes, interrupts, statuses and completions -/

@[simp] theorem dropRecord_durable (s : State) : durable (dropRecord s) = durable s := by rfl
@[simp] theorem queueRecord_durable (s : State) (b : Bytes) (alarm pin : Bool) :
    durable (queueRecord s b alarm pin) = durable s := durable_of_keeps (queueRecord_keeps ..) fun _ => rfl
@[simp] theorem record_durable (s : State) (trig subj : Nat) (payload : Bytes) :
    durable (record s trig subj payload) = durable s := durable_of_keeps (record_keeps ..) fun _ => rfl
@[simp] theorem recordMode_durable (s : State) :
    durable (recordMode s) = durable s := durable_of_keeps (recordMode_keeps ..) fun _ => rfl
@[simp] theorem alarmEvent_durable (s : State) (src : Nat) (detail : Bytes) :
    durable (alarmEvent s src detail) = durable s := durable_of_keeps (alarmEvent_keeps ..) fun _ => rfl
@[simp] theorem wearWrite_durable (s : State) (region words fails : Nat) :
    durable (wearWrite s region words fails).1 = durable s := durable_of_keeps (wearWrite_keeps ..) fun _ => rfl
@[simp] theorem putCopy_durable (s : State) (region record slot : Nat) (c : Copy) :
    durable (putCopy s region record slot c) = durable s := by rfl
@[simp] theorem commitRec_durable (s : State) (region record : Nat) (gen : BitVec 24) (v : DWord) (fails : Nat) :
    durable (commitRec s region record gen v fails).1 = durable s := durable_of_keeps (commitRec_keeps ..) fun _ => rfl
@[simp] theorem writeMark_durable (s : State) (record v : Nat) :
    durable (writeMark s record v) = durable s := durable_of_keeps (writeMark_keeps ..) fun _ => rfl
@[simp] theorem reportCorrupt_record'_durable (region record : Nat) (t : State) :
    durable (reportCorrupt.record' region record t) = durable t := by simp [reportCorrupt.record']
@[simp] theorem reportCorrupt_durable (s : State) (region record : Nat) :
    durable (reportCorrupt s region record) = durable s := durable_of_keeps (reportCorrupt_keeps ..) fun _ => rfl
@[simp] theorem holdValue_durable (s : State) (region record : Nat) (v : DWord) :
    durable (holdValue s region record v) = durable s := by rfl
@[simp] theorem resolveRec_durable (s : State) (region record fails : Nat) :
    durable (resolveRec s region record fails).1 = durable s := durable_of_keeps (resolveRec_keeps ..) fun _ => rfl
@[simp] theorem modFast_durable (s : State) (fn n : Nat) (f : FastVec → FastVec) :
    durable (modFast s fn n f) = durable s := by rfl
@[simp] theorem flushFast_durable (s : State) (fn n : Nat) :
    durable (flushFast s fn n) = durable s := durable_of_keeps (flushFast_keeps ..) fun _ => rfl
@[simp] theorem flushAllFast_durable (s : State) (fn : Nat) :
    durable (flushAllFast s fn) = durable s := durable_of_keeps (flushAllFast_keeps ..) fun _ => rfl
@[simp] theorem flushSignals_durable (s : State) :
    durable (flushSignals s) = durable s := durable_of_keeps (flushSignals_keeps ..) fun _ => rfl
@[simp] theorem pendFast_durable (s : State) (fn n info : Nat) : durable (pendFast s fn n info) = durable s := by rfl
@[simp] theorem signalFast_durable (s : State) (fn n info : Nat) :
    durable (signalFast s fn n info) = durable s := durable_of_keeps (signalFast_keeps ..) fun _ => rfl
@[simp] theorem clearPending_durable (s : State) (fn v : Nat) : durable (clearPending s fn v) = durable s := by rfl
@[simp] theorem sendNormal_durable (s : State) (fn v : Nat) (addr : DWord) (data : Word) :
    durable (sendNormal s fn v addr data) = durable s := by rfl
@[simp] theorem sendMember_durable (s : State) (fn v m : Nat) (t : Target) :
    durable (sendMember s fn v m t) = durable s := by rfl
@[simp] theorem deliver_durable (s : State) (fn v : Nat) :
    durable (deliver s fn v) = durable s := durable_of_keeps (deliver_keeps ..) fun _ => rfl
@[simp] theorem pendNormal_durable (s : State) (fn v : Nat) :
    durable (pendNormal s fn v) = durable s := durable_of_keeps (pendNormal_keeps ..) fun _ => rfl
@[simp] theorem deliverAll_durable (s : State) (fn : Nat) :
    durable (deliverAll s fn) = durable s := durable_of_keeps (deliverAll_keeps ..) fun _ => rfl
@[simp] theorem deliverPort_durable (s : State) (p : Nat) :
    durable (deliverPort s p) = durable s := durable_of_keeps (deliverPort_keeps ..) fun _ => rfl
@[simp] theorem fireCq_durable (s : State) (fn qid : Nat) (c : Cq) : durable (fireCq s fn qid c) = durable s := by simp [fireCq]
@[simp] theorem moderate_durable (s : State) (fn qid : Nat) (irq : Bool) :
    durable (moderate s fn qid irq) = durable s := durable_of_keeps (moderate_keeps ..) fun _ => rfl
@[simp] theorem logBadWrite_durable (s : State) (fn bitNo : Nat) :
    durable (logBadWrite s fn bitNo) = durable s := by simp [logBadWrite]
@[simp] theorem barData_durable (s : State) (fn : Nat) (d : BarData) (f : Bytes → State) (h : ∀ b, durable (f b) = durable s) :
    durable (barData s fn d f) = durable s := by
  cases d <;> simp [barData, h]
@[simp] theorem barData_user (s : State) (fn : Nat) (d : BarData) (f : Bytes → State) (h : ∀ b, (durable (f b)).1 = (durable s).1) :
    (durable (barData s fn d f)).1 = (durable s).1 := by
  cases d <;> simp [barData, h]
@[simp] theorem statusLine_durable (s : State) (fn qid : Nat) :
    durable (statusLine s fn qid) = durable s := durable_of_keeps (statusLine_keeps ..) fun _ => rfl
@[simp] theorem lastLine_durable (s : State) (fn qid : Nat) :
    durable (lastLine s fn qid) = durable s := durable_of_keeps (lastLine_keeps ..) fun _ => rfl
@[simp] theorem flushLines_durable (s : State) (fn : Nat) : durable (flushLines s fn) = durable s := by
  simp [flushLines]
@[simp] theorem unreserve_durable (s : State) (fn cq n : Nat) :
    durable (unreserve s fn cq n) = durable s := durable_of_keeps (unreserve_keeps ..) fun _ => rfl
@[simp] theorem dropReads_durable (s : State) (fn qid : Nat) (q : Sq) : durable (dropReads s fn qid q) = durable s := by rfl
@[simp] theorem stopSq_durable (s : State) (fn qid : Nat) (st : SqState) (info : Word) :
    durable (stopSq s fn qid st info) = durable s := durable_of_keeps (stopSq_keeps ..) fun _ => rfl
@[simp] theorem disableSq_durable (s : State) (fn qid : Nat) :
    durable (disableSq s fn qid) = durable s := durable_of_keeps (disableSq_keeps ..) fun _ => rfl
@[simp] theorem enableSq_durable (s : State) (fn qid : Nat) :
    durable (enableSq s fn qid) = durable s := durable_of_keeps (enableSq_keeps ..) fun _ => rfl
@[simp] theorem wakePolling_durable (s : State) (fn : Nat) : durable (wakePolling s fn) = durable s := by rfl
@[simp] theorem errorSq_durable (s : State) (fn qid : Nat) (st : SqState) (info : Word) :
    durable (errorSq s fn qid st info) = durable s := durable_of_keeps (errorSq_keeps ..) fun _ => rfl
@[simp] theorem releaseLves_durable (s : State) (cid : Nat) : durable (releaseLves s cid) = durable s := by rfl
@[simp] theorem reapCopies_durable (s : State) : durable (reapCopies s) = durable s := by rfl
@[simp] theorem outputWrites_durable (s : State) (c : Cmd) (r : Result) :
    durable (outputWrites s c r) = durable s := durable_of_keeps (outputWrites_keeps ..) fun _ => rfl
@[simp] theorem issueOut_durable (s : State) (cid : Nat) :
    durable (issueOut s cid) = durable s := durable_of_keeps (issueOut_keeps ..) fun _ => rfl
@[simp] theorem dropInput_durable (s : State) (cid : Nat) :
    durable (dropInput s cid) = durable s := durable_of_keeps (dropInput_keeps ..) fun _ => rfl
@[simp] theorem finish_durable (s : State) (cid : Nat) (r : Result) :
    durable (finish s cid r) = durable s := durable_of_keeps (finish_keeps ..) fun _ => rfl
@[simp] theorem issueStaged_durable (s : State) (fn : Nat) : durable (issueStaged s fn) = durable s := by simp [issueStaged]
@[simp] theorem fail_durable (s : State) (cid : Nat) (st : Status) (detail : Nat) :
    durable (fail s cid st detail) = durable s := durable_of_keeps (fail_keeps ..) fun _ => rfl
@[simp] theorem endForwarded_durable (s : State) (c : Cmd) (st : Status) (detail : Nat) :
    durable (endForwarded s c st detail) = durable s := by simp [endForwarded]
@[simp] theorem okOut_durable (s : State) (cid detail : Nat) (out : Bytes) :
    durable (okOut s cid detail out) = durable s := durable_of_keeps (okOut_keeps ..) fun _ => rfl
@[simp] theorem unpin_durable (s : State) (cid : Nat) : durable (unpin s cid) = durable s := by rfl
@[simp] theorem endCmd_durable (s : State) (cid : Nat) :
    durable (endCmd s cid) = durable s := durable_of_keeps (endCmd_keeps ..) fun _ => rfl
@[simp] theorem reseedInst_durable (s : State) (i : Nat) :
    durable (reseedInst s i) = durable s := durable_of_keeps (reseedInst_keeps ..) fun _ => rfl
@[simp] theorem generateOn_durable (s : State) (i n : Nat) (pr : Bool) :
    durable (generateOn s i n pr).2 = durable s := durable_of_keeps (generateOn_keeps ..) fun _ => rfl
theorem draw_durable {s : State} {n : Nat} {r : Bytes × State} (h : draw s n = some r) : durable r.2 = durable s :=
  durable_of_keeps (draw_keeps s n r h) fun _ => rfl
@[simp] theorem takeFree_durable (s : State) : durable (takeFree s).2 = durable s := by rfl
@[simp] theorem modKey_durable (s : State) (g : Nat) (f : Key → Key) : durable (modKey s g f) = durable s := by rfl
theorem drawMasks_durable {s : State} {n : Nat} {r : Bytes × State} (h : drawMasks n s = some r) : durable r.2 = durable s :=
  durable_of_keeps (drawMasks_keeps n s r h) fun _ => rfl
@[simp] theorem drawMasks_getD_durable (s : State) (n : Nat) (b : Bytes) :
    durable ((drawMasks n s).getD (b, s)).2 = durable s := by
  cases h : drawMasks n s with
  | none => rfl
  | some r => exact drawMasks_durable h
@[simp] theorem remask_durable (s : State) (g : Nat) :
    durable (remask s g) = durable s := durable_of_keeps (remask_keeps ..) fun _ => rfl
@[simp] theorem setAttr_durable (s : State) (g : Nat) (f : Key → Key) :
    durable (setAttr s g f) = durable s := durable_of_keeps (setAttr_keeps ..) fun _ => rfl
@[simp] theorem reshareKey_durable (s : State) (g : Option Nat) : durable (reshareKey s g) = durable s := by
  unfold reshareKey
  repeat' split
  · rename_i hr; simp [drawMasks_durable hr]
  · rfl
  · rfl
@[simp] theorem recordFault_durable (s : State) (cause kind idx planId element addr : Nat) :
    durable (recordFault s cause kind idx planId element addr) = durable s := durable_of_keeps (recordFault_keeps ..) fun _ => rfl
@[simp] theorem faultCmd_durable (s : State) (cid cause kind idx : Nat) :
    durable (faultCmd s cid cause kind idx) = durable s := durable_of_keeps (faultCmd_keeps ..) fun _ => rfl
@[simp] theorem retireEngine_durable (s : State) (kind idx cause : Nat) :
    durable (retireEngine s kind idx cause) = durable s := durable_of_keeps (retireEngine_keeps ..) fun _ => rfl
@[simp] theorem faultEngine_durable (s : State) (kind idx cause : Nat) :
    durable (faultEngine s kind idx cause) = durable s := durable_of_keeps (faultEngine_keeps ..) fun _ => rfl
@[simp] theorem noteStep_durable (s : State) (kind idx : Nat) : durable (noteStep s kind idx) = durable s := by rfl
@[simp] theorem rerunOnly_durable (s : State) (cid cause : Nat) :
    durable (rerunOnly s cid cause) = durable s := durable_of_keeps (rerunOnly_keeps ..) fun _ => rfl

/-! ### Modes, resets of functions and lockdown -/

@[simp] theorem unbindAll_durable (s : State) (g : Nat) : durable (unbindAll s g) = durable s := by rfl
@[simp] theorem zeroiseKey_durable (s : State) (g : Nat) : durable (zeroiseKey s g) = durable s := by rfl
@[simp] theorem eraseTree_durable (s : State) (t : Nat) :
    durable (eraseTree s t) = durable s := durable_of_keeps (eraseTree_keeps ..) fun _ => rfl
@[simp] theorem destroyKey_durable (s : State) (g : Nat) :
    durable (destroyKey s g) = durable s := durable_of_keeps (destroyKey_keeps ..) fun _ => rfl
@[simp] theorem freeBerth_durable (s : State) (i : Nat) : durable (freeBerth s i) = durable s := by rfl
@[simp] theorem putOnLink_durable (s : State) (k : Nat) (m : LinkMsg) : durable (putOnLink s k m) = durable s := by rfl
@[simp] theorem holdBack_durable (s : State) (k : Nat) (m : LinkMsg) : durable (holdBack s k m) = durable s := by rfl
@[simp] theorem linkSend_durable (s : State) (k : Nat) (m : LinkMsg) :
    durable (linkSend s k m) = durable s := durable_of_keeps (linkSend_keeps ..) fun _ => rfl
@[simp] theorem drainList_durable (k : Nat) (msgs : List LinkMsg) (links : List Nat) (s : State) :
    durable (drainList k msgs links s) = durable s := durable_of_keeps (drainList_keeps ..) fun _ => rfl
@[simp] theorem drainBack_durable (s : State) (k : Nat) :
    durable (drainBack s k) = durable s := durable_of_keeps (drainBack_keeps ..) fun _ => rfl
@[simp] theorem startTraining_durable (s : State) (k : Nat) : durable (startTraining s k) = durable s := by rfl
@[simp] theorem destroyQueues_durable (s : State) (fn : Nat) :
    durable (destroyQueues s fn) = durable s := durable_of_keeps (destroyQueues_keeps ..) fun _ => rfl
@[simp] theorem offFn_durable (s : State) (fn : Nat) :
    durable (offFn s fn) = durable s := durable_of_keeps (offFn_keeps ..) fun _ => rfl
@[simp] theorem drainPend_durable (s : State) (fn : Nat) :
    durable (drainPend s fn) = durable s := durable_of_keeps (drainPend_keeps ..) fun _ => rfl
@[simp] theorem drainFn_durable (s : State) (fn : Nat) :
    durable (drainFn s fn) = durable s := durable_of_keeps (drainFn_keeps ..) fun _ => rfl
@[simp] theorem addWaiter_durable (s : State) (fn w : Nat) : durable (addWaiter s fn w) = durable s := by rfl
@[simp] theorem quenchEffect_durable (s : State) (c : Cmd) :
    durable (quenchEffect s c) = durable s := durable_of_keeps (quenchEffect_keeps ..) fun _ => rfl
@[simp] theorem disableEffect_durable (s : State) (c : Cmd) :
    durable (disableEffect s c) = durable s := durable_of_keeps (disableEffect_keeps ..) fun _ => rfl
@[simp] theorem classEffect_durable (s : State) (fn : Nat) : durable (classEffect s fn) = durable s := by rfl
@[simp] theorem resetHoldings_durable (s : State) (fns : List Nat) (pos : Nat) :
    durable (resetHoldings s fns pos) = durable s := durable_of_keeps (resetHoldings_keeps ..) fun _ => rfl
@[simp] theorem sendEndFunc_durable (s : State) (fn kind : Nat) :
    durable (sendEndFunc s fn kind) = durable s := durable_of_keeps (sendEndFunc_keeps ..) fun _ => rfl
@[simp] theorem callOff_durable (s : State) (cut : Berth → Bool) :
    durable (callOff s cut) = durable s := durable_of_keeps (callOff_keeps ..) fun _ => rfl
@[simp] theorem abortMoves_durable (s : State) (fn pos : Nat) :
    durable (abortMoves s fn pos) = durable s := durable_of_keeps (abortMoves_keeps ..) fun _ => rfl
@[simp] theorem lateRings_durable (s : State) (fn : Nat) : durable (lateRings s fn) = durable s := by rfl
@[simp] theorem resetFn_durable (s : State) (fn kind : Nat) :
    durable (resetFn s fn kind) = durable s := durable_of_keeps (resetFn_keeps ..) fun _ => rfl
@[simp] theorem flrWrite_durable (s : State) (fn : Nat) : durable (flrWrite s fn) = durable s := by rfl
@[simp] theorem ceaseVf_durable (s : State) (fn : Nat) : durable (ceaseVf s fn) = durable s := by rfl
@[simp] theorem resetPortNow_durable (s : State) (p : Nat) :
    durable (resetPortNow s p) = durable s := durable_of_keeps (resetPortNow_keeps ..) fun _ => rfl
@[simp] theorem addChange_durable (s : State) (kind id : Nat) : durable (addChange s kind id) = durable s := by rfl
@[simp] theorem dropChange_durable (s : State) (kind id : Nat) : durable (dropChange s kind id) = durable s := by rfl
@[simp] theorem takePort_durable (s : State) (p : Nat) :
    durable (takePort s p) = durable s := durable_of_keeps (takePort_keeps ..) fun _ => rfl
@[simp] theorem setMode_durable (s : State) (m : Mode) (cause : BitVec 4) : durable (setMode s m cause) = durable s := by rfl
@[simp] theorem clearWorking_durable (s : State) : durable (clearWorking s) = durable s := by rfl
@[simp] theorem scopeClosed_durable (s : State) (l : LcSt) : durable (scopeClosed s l) = durable s := by simp [scopeClosed]
@[simp] theorem closeScope_durable (s : State) :
    durable (closeScope s) = durable s := durable_of_keeps (closeScope_keeps ..) fun _ => rfl
@[simp] theorem enterLockdown_durable (s : State) (cause : BitVec 4) :
    durable (enterLockdown s cause) = durable s := durable_of_keeps (enterLockdown_keeps ..) fun _ => rfl
@[simp] theorem noteTimeLost_durable (s : State) : durable (noteTimeLost s) = durable s := by simp [noteTimeLost]
@[simp] theorem recordBoot_durable (s : State) : durable (recordBoot s) = durable s := by simp [recordBoot]
@[simp] theorem bootState_durable (s : State) (cold : Bool) : durable (bootState s cold) = durable s := by rfl
@[simp] theorem warmBoot_durable (s : State) (cause : BitVec 4) : durable (warmBoot s cause) = durable s := by simp [warmBoot]
@[simp] theorem recordClear_durable (s : State) (level phase : Nat) :
    durable (recordClear s level phase) = durable s := by simp [recordClear]
@[simp] theorem countErase_durable (s : State) (r : Nat) : durable (countErase s r) = durable s := by rfl
@[simp] theorem erasePersistent_durable (s : State) : durable (erasePersistent s) = durable s := by rfl
@[simp] theorem startErase_durable (s : State) : durable (startErase s) = durable s := by simp [startErase]
@[simp] theorem clearAndLock_durable (s : State) (level : Nat) :
    durable (clearAndLock s level) = durable s := by simp [clearAndLock]

/-! ### Checks of a command -/

@[simp] theorem cleanHoldings_durable (s : State) (fn pos : Nat) :
    durable (cleanHoldings s fn pos) = durable s := durable_of_keeps (cleanHoldings_keeps ..) fun _ => rfl

/-! ### Starting a command -/

@[simp] theorem modBerth_durable (s : State) (i : Nat) (f : Berth → Berth) : durable (modBerth s i f) = durable s := by rfl
@[simp] theorem touch_durable (s : State) (i : Nat) (ks : List Nat) : durable (touch s i ks) = durable s := by
  simp [touch]
@[simp] theorem askInput_durable (s : State) (cid : Nat) : durable (askInput s cid) = durable s := by
  unfold askInput; repeat' split
  all_goals simp
@[simp] theorem askPullsN_durable (n : Nat) (s : State) (cid : Nat) : durable (askPullsN n s cid) = durable s := by
  induction n generalizing s with
  | zero => rfl
  | succ n ih =>
    unfold askPullsN
    repeat' split
    all_goals simp [ih]
@[simp] theorem askPulls_durable (s : State) (cid : Nat) : durable (askPulls s cid) = durable s := by simp [askPulls]
@[simp] theorem askAll_durable (s : State) (fn : Nat) : durable (askAll s fn) = durable s := by simp [askAll]
@[simp] theorem askPort_durable (s : State) (p : Nat) : durable (askPort s p) = durable s := by simp [askPort]
@[simp] theorem beginRun_durable (s : State) (cid i : Nat) (ka kb : Option Nat) :
    durable (beginRun s cid i ka kb) = durable s := by
  unfold beginRun; dsimp only; repeat' split
  all_goals simp
@[simp] theorem reportStep8_durable (s : State) (cid : Nat) (st : Status) (d : Nat) :
    durable (reportStep8 s cid st d) = durable s := by
  unfold reportStep8; split <;> simp
@[simp] theorem applyVerdict_durable (s : State) (cid : Nat) (v : Verdict) : durable (applyVerdict s cid v) = durable s := by
  unfold applyVerdict; split <;> simp
@[simp] theorem sendCmd_durable (s : State) (c : Cmd) (entry : Bytes) : durable (sendCmd s c entry) = durable s := by
  unfold sendCmd; split <;> simp
@[simp] theorem forwardTo_durable (s : State) (c : Cmd) (entry : Bytes) : durable (forwardTo s c entry) = durable s := by
  unfold forwardTo; split <;> simp
@[simp] theorem startOnce_durable (s : State) (cid : Nat) : durable (startOnce s cid) = durable s := by
  unfold startOnce; repeat' split
  all_goals simp
@[simp] theorem redirect_durable (s : State) (cid handle : Nat) :
    durable (redirect s cid handle) = durable s := by simp [redirect]
@[simp] theorem startCmd_durable (s : State) (cid : Nat) : durable (startCmd s cid) = durable s := by
  unfold startCmd; repeat' split
  all_goals simp
@[simp] theorem retryBerth_durable (s : State) : durable (retryBerth s) = durable s := by simp [retryBerth]
@[simp] theorem retryGate_durable (s : State) (cid : Nat) : durable (retryGate s cid) = durable s := by
  unfold retryGate; repeat' split
  all_goals simp
@[simp] theorem retryRng_durable (s : State) : durable (retryRng s) = durable s := by simp [retryRng]

/-! ### Cached state -/

@[simp] theorem pinEntry_durable (s : State) (cid : Nat) (w : Want) : durable (pinEntry s cid w) = durable s := by rfl
@[simp] theorem dropBad_durable (s : State) (w : Want) : durable (dropBad s w) = durable s := by simp [dropBad]
@[simp] theorem cacheLookup_durable (s : State) (c : Cmd) : durable (cacheLookup s c) = durable s := by simp [cacheLookup]
@[simp] theorem insertEntry_durable (s : State) (w : Want) : durable (insertEntry s w) = durable s := by simp [insertEntry]
@[simp] theorem cacheBuild_durable (s : State) (c : Cmd) : durable (cacheBuild s c) = durable s := by simp [cacheBuild]

/-! ### Work done at once -/

@[simp] theorem monEvent_durable (s : State) (src : Nat) (detail : Bytes) :
    durable (monEvent s src detail) = durable s := by simp [monEvent]
@[simp] theorem bootFail_durable (s : State) (err : BitVec 8) : durable (bootFail s err) = durable s := by simp [bootFail]

/-! ### Rings, push windows and entries -/

@[simp] theorem countBerth_durable (s : State) (c : Cmd) (r : Result) : durable (countBerth s c r) = durable s := by
  unfold countBerth; split <;> simp
@[simp] theorem targetStates_durable (s : State) (c : Cmd) : durable (targetStates s c) = durable s := by simp [targetStates]
@[simp] theorem moderationEffect_durable (s : State) (c : Cmd) : durable (moderationEffect s c) = durable s := by
  unfold moderationEffect; dsimp only; repeat' split
  all_goals simp
@[simp] theorem completionEffect_durable (s : State) (c : Cmd) (r : Result) : durable (completionEffect s c r) = durable s := by
  unfold completionEffect; dsimp only; repeat' split
  all_goals simp
@[simp] theorem chainDone_durable (s : State) (c : Cmd) (ok : Bool) : durable (chainDone s c ok) = durable s := by
  unfold chainDone; dsimp only; repeat' split
  all_goals simp
@[simp] theorem closeOne_durable (s : State) (fn qid : Nat) : durable (closeOne s fn qid) = durable s := by
  unfold closeOne; split <;> simp
@[simp] theorem writeEntry_durable (s : State) (c : Cmd) (r : Result) (q : Cq) :
    durable (writeEntry s c r q) = durable s := by simp [writeEntry]
@[simp] theorem joinWaiting_durable (s : State) (fn cqid : Nat) (q : Cq) (ids : List Nat) :
    durable (joinWaiting s fn cqid q ids) = durable s := by
  simp [joinWaiting]
@[simp] theorem joinFinished_durable (s : State) (fn cqid : Nat) (q : Cq) :
    durable (joinFinished s fn cqid q) = durable s := by simp [joinFinished]
@[simp] theorem answerOrigin_durable (s : State) (c : Cmd) (k n : Nat) (r : Result) :
    durable (answerOrigin s c k n r) = durable s := by simp [answerOrigin]
@[simp] theorem completeWrite_durable (s : State) (cid : Nat) : durable (completeWrite s cid) = durable s := by
  unfold completeWrite; dsimp only; repeat' split
  all_goals simp
@[simp] theorem completeSignalled_durable (s : State) (ids : List Nat) :
    durable (completeSignalled s ids) = durable s := by simp [completeSignalled]
@[simp] theorem drainCq_durable (n : Nat) (s : State) (fn cqid : Nat) : durable (drainCq n s fn cqid) = durable s := by
  induction n generalizing s with
  | zero => rfl
  | succ n ih =>
    unfold drainCq
    repeat' split
    all_goals simp [ih]
@[simp] theorem execCompletionWrite_durable (cid : Nat) (s : State) :
    durableAfter (execCompletionWrite cid s) = some (durable s) := by simp [execCompletionWrite]
@[simp] theorem issueReads_durable (fn : Nat) (l : List (Nat × Bool)) (s : State) :
    durable (issueReads fn l s) = durable s := by
  induction l generalizing s with
  | nil => rfl
  | cons r l ih => simp [issueReads, ih]
@[simp] theorem goOnPass_durable (s : State) (fn : Nat) : durable (goOnPass s fn) = durable s := by simp [goOnPass]
@[simp] theorem endPass_durable (s : State) (fn : Nat) : durable (endPass s fn) = durable s := by simp [endPass]
@[simp] theorem startPass_durable (s : State) (fn : Nat) : durable (startPass s fn) = durable s := by simp [startPass]
@[simp] theorem execPollPass_durable (fn : Nat) (s : State) :
    durableAfter (execPollPass fn s) = some (durable s) := by simp [execPollPass]
@[simp] theorem tagBack_durable (s : State) (fn : Nat) : durable (tagBack s fn) = durable s := by simp [tagBack]
@[simp] theorem readBack_durable (s : State) (fn qid : Nat) (cq : Bool) :
    durable (readBack s fn qid cq) = durable s := by simp [readBack]
@[simp] theorem dropLate_durable (s : State) (fn : Nat) (e : Nat × Nat) :
    durable (dropLate s fn e) = durable s := by simp [dropLate]
@[simp] theorem lineBack_durable (s : State) (fn qid : Nat) (cq : Bool) (f : State → State) (h : durable (f s) = durable s) :
    durable (lineBack s fn qid cq f) = durable s := by
  unfold lineBack
  repeat' split
  all_goals simp [h]
@[simp] theorem readTail_durable (s : State) (fn qid : Nat) (tail : Word) : durable (readTail s fn qid tail) = durable s := by
  unfold readTail; split <;> simp
@[simp] theorem execSqDoorbellRead_durable (fn qid : Nat) (line : Bytes) (s : State) :
    durableAfter (execSqDoorbellRead fn qid line s) = some (durable s) := by simp [execSqDoorbellRead]
@[simp] theorem readHead_durable (s : State) (fn qid : Nat) (head : Word) : durable (readHead s fn qid head) = durable s := by
  unfold readHead; dsimp only; repeat' split
  all_goals simp
@[simp] theorem execCqDoorbellRead_durable (fn qid : Nat) (line : Bytes) (s : State) :
    durableAfter (execCqDoorbellRead fn qid line s) = some (durable s) := by simp [execCqDoorbellRead]
@[simp] theorem recordDbFail_durable (s : State) (fn qid : Nat) (cq : Bool) :
    durable (recordDbFail s fn qid cq) = durable s := by simp [recordDbFail]
@[simp] theorem failedRead_durable (s : State) (fn qid : Nat) (cq : Bool) : durable (failedRead s fn qid cq) = durable s := by
  unfold failedRead; repeat' split
  all_goals simp
@[simp] theorem execDoorbellFail_durable (fn qid : Nat) (cq : Bool) (s : State) :
    durableAfter (execDoorbellFail fn qid cq s) = some (durable s) := by simp [execDoorbellFail]
@[simp] theorem pushWindow_durable (s : State) (fn qid off n : Nat) (d : Bytes) :
    durable (pushWindow s fn qid off n d) = durable s := by
  unfold pushWindow; split <;> simp
@[simp] theorem pushAll_durable (n : Nat) (s : State) (fn off : Nat) (d : Bytes) :
    durable (pushAll s fn n off d) = durable s := by
  induction n generalizing s off d with
  | zero => rfl
  | succ n ih => simp [pushAll, ih]
@[simp] theorem execPushWrite_durable (fn offset : Nat) (data : BarData) (s : State) :
    durableAfter (execPushWrite fn offset data s) = some (durable s) := by simp [execPushWrite]
@[simp] theorem fetchTurn_durable (s : State) (fn qid : Nat) (q : Sq) (c : Cq) :
    durable (fetchTurn s fn qid q c) = durable s := by
  unfold fetchTurn; split <;> simp
@[simp] theorem noteFetch_durable (s : State) (fn qid : Nat) : durable (noteFetch s fn qid) = durable s := by rfl
@[simp] theorem execFetch_durable (fn qid : Nat) (s : State) : durableAfter (execFetch fn qid s) = some (durable s) := by
  unfold execFetch; repeat' split
  all_goals simp
@[simp] theorem entriesRead_durable (s : State) (fn qid : Nat) (q : Sq) (data : Option Bytes) :
    durable (entriesRead s fn qid q data) = durable s := by
  unfold entriesRead; split <;> simp
@[simp] theorem execEntryReadDone_durable (fn qid : Nat) (data : Option Bytes) (s : State) :
    durableAfter (execEntryReadDone fn qid data s) = some (durable s) := by
  unfold execEntryReadDone; repeat' split
  all_goals simp
@[simp] theorem acceptEntry_durable (s : State) (fn qid seqr : Nat) (q : Sq) (e : Bytes) :
    durable (acceptEntry s fn qid seqr q e) = durable s := by
  unfold acceptEntry; repeat' split
  all_goals simp
@[simp] theorem execAccept_durable (fn qid : Nat) (sequencer : Fin 16) (s : State) :
    durableAfter (execAccept fn qid sequencer s) = some (durable s) := by
  unfold execAccept; repeat' split
  all_goals simp
@[simp] theorem sendPull_durable (s : State) (c : Cmd) (k : Nat) (data : Bytes) :
    durable (sendPull s c k data) = durable s := by
  unfold sendPull; split <;> simp
@[simp] theorem inputRead_durable (s : State) (c : Cmd) (data : Bytes) (failed : Option Nat) :
    durable (inputRead s c data failed) = durable s := by
  unfold inputRead; split <;> simp
@[simp] theorem execInputReadDone_durable (cid : Nat) (data : Bytes) (failed : Option Nat) (s : State) :
    durableAfter (execInputReadDone cid data failed s) = some (durable s) := by
  unfold execInputReadDone; repeat' split
  all_goals simp

/-! ### Keeper commands -/

@[simp] theorem runTurn_durable (s : State) (cid op : Nat) (pre : Cmd → Err) (f : Cmd → State) (h : ∀ c, durable (f c) = durable s) :
    durable (runTurn s cid op pre f) = durable s := by
  unfold runTurn
  repeat' split
  all_goals simp [h]
@[simp] theorem runInput_durable (s : State) (cid op : Nat) (pre : Cmd → Err) (f : Cmd → Bytes → State)
    (h : ∀ c d, durable (f c d) = durable s) : durable (runInput s cid op pre f) = durable s := by
  unfold runInput
  refine runTurn_durable _ _ _ _ _ fun c => ?_
  split <;> simp [h]
@[simp] theorem done_durable (s : State) (cid detail : Nat) : durable (done s cid detail) = durable s := by simp [done]
@[simp] theorem execCreateSq_durable (cid : Nat) (s : State) :
    durableAfter (execCreateSq cid s) = some (durable s) := by simp [execCreateSq]
@[simp] theorem execCreateCq_durable (cid : Nat) (s : State) :
    durableAfter (execCreateCq cid s) = some (durable s) := by simp [execCreateCq]
@[simp] theorem execDestroySq_durable (cid : Nat) (s : State) :
    durableAfter (execDestroySq cid s) = some (durable s) := by simp [execDestroySq]
@[simp] theorem execDestroyCq_durable (cid : Nat) (s : State) :
    durableAfter (execDestroyCq cid s) = some (durable s) := by simp [execDestroyCq]
@[simp] theorem execDisableSq_durable (cid : Nat) (s : State) :
    durableAfter (execDisableSq cid s) = some (durable s) := by simp [execDisableSq]
@[simp] theorem execEnableSq_durable (cid : Nat) (s : State) :
    durableAfter (execEnableSq cid s) = some (durable s) := by simp [execEnableSq]
@[simp] theorem execFuncEnable_durable (cid : Nat) (s : State) :
    durableAfter (execFuncEnable cid s) = some (durable s) := by simp [execFuncEnable]
@[simp] theorem requestChange_durable (s : State) (c : Cmd) (effect : State → Cmd → State) (h : durable (effect s c) = durable s) :
    durable (requestChange s c effect) = durable s := by
  simp [requestChange, h]
@[simp] theorem execFuncDisable_durable (cid : Nat) (s : State) :
    durableAfter (execFuncDisable cid s) = some (durable s) := by simp [execFuncDisable]
@[simp] theorem execFuncQuench_durable (cid : Nat) (s : State) :
    durableAfter (execFuncQuench cid s) = some (durable s) := by simp [execFuncQuench]
@[simp] theorem changeEffect_durable (s : State) (c : Cmd) :
    durable (changeEffect s c) = durable s := durable_of_keeps (changeEffect_keeps ..) fun _ => rfl
@[simp] theorem boundaryEffect_durable (s : State) (cid op : Nat) : durable (boundaryEffect s cid op) = durable s := by
  unfold boundaryEffect; split <;> simp
@[simp] theorem execFuncDisableEffect_durable (cid : Nat) (s : State) :
    durableAfter (execFuncDisableEffect cid s) = some (durable s) := by simp [execFuncDisableEffect]
@[simp] theorem execQuenchDone_durable (cid : Nat) (s : State) :
    durableAfter (execQuenchDone cid s) = some (durable s) := by simp [execQuenchDone]
@[simp] theorem execFuncDrained_durable (fn : Nat) (s : State) :
    durableAfter (execFuncDrained fn s) = some (durable s) := by simp [execFuncDrained]
@[simp] theorem execFuncSetLimits_durable (cid : Nat) (s : State) :
    durableAfter (execFuncSetLimits cid s) = some (durable s) := by simp [execFuncSetLimits]
@[simp] theorem execClassGrantsChange_durable (fn : Nat) (s : State) :
    durableAfter (execClassGrantsChange fn s) = some (durable s) := by simp [execClassGrantsChange]
@[simp] theorem execFuncSetWorld_durable (cid : Nat) (s : State) :
    durableAfter (execFuncSetWorld cid s) = some (durable s) := by simp [execFuncSetWorld]
@[simp] theorem execLoadTimetable_durable (cid : Nat) (s : State) :
    durableAfter (execLoadTimetable cid s) = some (durable s) := by simp [execLoadTimetable]
@[simp] theorem replaceTable_durable (s : State) : durable (replaceTable s) = durable s := by
  unfold replaceTable; split <;> simp
@[simp] theorem execTimetableReplace_durable (s : State) :
    durableAfter (execTimetableReplace s) = some (durable s) := by simp [execTimetableReplace]
@[simp] theorem execSetTargets_durable (cid : Nat) (s : State) :
    durableAfter (execSetTargets cid s) = some (durable s) := by simp [execSetTargets]
@[simp] theorem execSetTargetState_durable (cid : Nat) (s : State) :
    durableAfter (execSetTargetState cid s) = some (durable s) := by simp [execSetTargetState]
@[simp] theorem execSetModeration_durable (cid : Nat) (s : State) :
    durableAfter (execSetModeration cid s) = some (durable s) := by simp [execSetModeration]
@[simp] theorem setTopology_durable (s : State) (e : Bytes) : durable (setTopology s e) = durable s := by
  simp [setTopology]
@[simp] theorem execSetTopology_durable (cid : Nat) (s : State) :
    durableAfter (execSetTopology cid s) = some (durable s) := by simp [execSetTopology]
@[simp] theorem setCalendar_durable (s : State) (fn : Nat) (t : DWord) :
    durable (setCalendar s fn t) = durable s := by simp [setCalendar]
@[simp] theorem execSetCalendar_durable (cid : Nat) (s : State) : durableAfter (execSetCalendar cid s) = some (durable s) :=
  congrArg some (runInput_durable _ _ _ _ _ fun c d => by
    dsimp only
    split
    · simp
    · split
      · split <;> simp
      · simp)
@[simp] theorem reportVcore_durable (s : State) (mv : Nat) : durable (reportVcore s mv) = durable s := by rfl
@[simp] theorem putHead_durable (s : State) (r : Bytes) : durable (putHead s r) = durable s := by rfl
@[simp] theorem execSetEnvironment_durable (cid : Nat) (s : State) :
    durableAfter (execSetEnvironment cid s) = some (durable s) :=
  congrArg some (runInput_durable _ _ _ _ _ fun c d => by
    dsimp only
    split
    · simp
    · simp
    · split <;> simp)
@[simp] theorem dropPlan_durable (s : State) (id : Nat) : durable (dropPlan s id) = durable s := by rfl
@[simp] theorem storePlan_durable (s : State) (cid : Nat) (b : Bytes) :
    durable (storePlan s cid b) = durable s := by simp [storePlan]
@[simp] theorem loadLater_durable (s : State) (c : Cmd) :
    durable (loadLater s c) = durable s := durable_of_keeps (loadLater_keeps ..) fun _ => rfl
@[simp] theorem execRecorderMark_durable (cid : Nat) (s : State) :
    durableAfter (execRecorderMark cid s) = some (durable s) := by simp [execRecorderMark]
@[simp] theorem commandEffect_durable (s : State) (c : Cmd) :
    durable (commandEffect s c) = durable s := durable_of_keeps (commandEffect_keeps ..) fun _ => rfl
@[simp] theorem flrEffects_durable (s : State) :
    durable (flrEffects s) = durable s := durable_of_keeps (flrEffects_keeps ..) fun _ => rfl
@[simp] theorem heldEffects_durable (s : State) :
    durable (heldEffects s) = durable s := durable_of_keeps (heldEffects_keeps ..) fun _ => rfl
@[simp] theorem heldFault_durable (s : State) (e : Nat × Nat × Nat) : durable (heldFault s e) = durable s := by simp [heldFault]
@[simp] theorem heldFaults_durable (s : State) :
    durable (heldFaults s) = durable s := durable_of_keeps (heldFaults_keeps ..) fun _ => rfl
@[simp] theorem enterHeld_durable (s : State) (alarm : Bool) :
    durable (enterHeld s alarm) = durable s := durable_of_keeps (enterHeld_keeps ..) fun _ => rfl
@[simp] theorem resumeTimers_durable (s : State) : durable (resumeTimers s) = durable s := by rfl
@[simp] theorem writeChanges_durable (s : State) : durable (writeChanges s) = durable s := by simp [writeChanges]
@[simp] theorem execModeHold_durable (cid : Nat) (s : State) :
    durableAfter (execModeHold cid s) = some (durable s) := by simp [execModeHold]

/-! ### Operands and their place -/

@[simp] theorem waitDraw_durable (s : State) (cid : Nat) : durable (waitDraw s cid) = durable s := by rfl
@[simp] theorem endDraw_durable (s : State) (cid : Nat) (p : Phase) : durable (endDraw s cid p) = durable s := by
  unfold endDraw; split <;> simp
@[simp] theorem runOp_durable (s : State) (cid op : Nat) (k : Cmd → Bytes → Option State) (h : ∀ c d, Leaves (durable s) (k c d)) :
    durable (runOp s cid op k) = durable s := by
  unfold runOp
  split
  · rfl
  · rename_i c d _
    split
    · rename_i t ht; rw [endDraw_durable, h c d t ht]
    · split <;> simp
@[simp] theorem bad_leaves {d : Durable} (s : State) (c : Cmd) (st : Status) (n : Nat) (h : durable s = d) :
    Leaves d (bad s c st n) := by
  simp [bad, h]
@[simp] theorem good_leaves {d : Durable} (s : State) (c : Cmd) (detail n : Nat) (out : Bytes)
    (h : durable s = d) : Leaves d (good s c detail n out) := by
  simp [good, h]
theorem withDraw_leaves_of {d : Durable} {s : State} {n : Nat} {k : Bytes → State → Option State} (h : durable s = d)
    (hk : ∀ r t, durable t = d → Leaves d (k r t)) : Leaves d (withDraw s n k) := by
  unfold withDraw
  split
  · exact hk _ _ h
  · exact leaves_bind fun r hr => hk _ _ ((draw_durable hr).trans h)
@[simp] theorem withDraw_leaves {d : Durable} (s : State) (n : Nat) (k : Bytes → State → Option State) (h : durable s = d)
    (hk : ∀ r t, Leaves (durable t) (k r t)) : Leaves d (withDraw s n k) :=
  withDraw_leaves_of h fun r t ht => ht ▸ hk r t
@[simp] theorem withRnd_leaves {d : Durable} (s : State) (c : Cmd) (k : Bytes → State → Option State) (h : durable s = d)
    (hk : ∀ r t, Leaves (durable t) (k r t)) : Leaves d (withRnd s c k) :=
  withDraw_leaves _ _ _ h fun _ _ => hk _ _
@[simp] theorem putKey_durable (s : State) (g : Nat) (k : Key) : durable (putKey s g k) = durable s := by rfl
@[simp] theorem spillTail_durable (s : State) (g : Nat) (k : Key) : durable (spillTail s g k) = durable s := by rfl
@[simp] theorem place_leaves {d : Durable} (s : State) (c : Cmd) (k : Key) (n : Nat) (out : Bytes) (h : durable s = d) :
    Leaves d (place s c k n out) := by
  unfold place
  split
  · simp [h]
  · split
    · simp [h]
    · simpa using h
    · exact leaves_bind fun r hr => by simp [drawMasks_durable hr, h]
    · exact leaves_bind fun r hr => by simp [drawMasks_durable hr, h]
@[simp] theorem placeDerived_leaves {d : Durable} (s : State) (c : Cmd) (b : Bytes) (n : Nat) (out : Bytes) (h : durable s = d) :
    Leaves d (placeDerived s c b n out) :=
  place_leaves _ _ _ _ _ h
@[simp] theorem sealOut_leaves {d : Durable} (s : State) (c : Cmd) (hdr : Bytes) (h : durable s = d) :
    Leaves d (sealOut s c hdr) := by
  simp [sealOut, h]

/-! ### Berths -/

@[simp] theorem emptyNamers_durable (s : State) (g : Nat) : durable (emptyNamers s g) = durable s := by simp [emptyNamers]
@[simp] theorem loseKey_durable (s : State) (g : Nat) : durable (loseKey s g) = durable s := by simp [loseKey]
@[simp] theorem loseBerth_durable (s : State) (i : Nat) : durable (loseBerth s i) = durable s := by simp [loseBerth]
@[simp] theorem spillBerth_durable (s : State) (i : Nat) (b : Berth) : durable (spillBerth s i b) = durable s := by rfl
@[simp] theorem placeBerth_durable (s : State) (i : Nat) (b : Berth) :
    durable (placeBerth s i b) = durable s := by simp [placeBerth]
@[simp] theorem execBerthAlloc_durable (cid : Nat) (s : State) : durableAfter (execBerthAlloc cid s) = some (durable s) := by
  unfold execBerthAlloc; split <;> simp
@[simp] theorem runBerth_durable (s : State) (cid op : Nat) (pre : Cmd → Err) (may : Cmd → Nat → Nat → Bool)
    (f : Cmd → Nat → Berth → State) (h : ∀ c i b, durable (f c i b) = durable s) :
    durable (runBerth s cid op pre may f) = durable s := by
  unfold runBerth
  repeat' split
  all_goals simp [h]
@[simp] theorem nameBerth_durable (s : State) (cid i : Nat) : durable (nameBerth s cid i) = durable s := by rfl
@[simp] theorem execBerthFree_durable (cid : Nat) (s : State) :
    durableAfter (execBerthFree cid s) = some (durable s) := by simp [execBerthFree]
@[simp] theorem execBerthFreeDone_durable (cid : Nat) (s : State) :
    durableAfter (execBerthFreeDone cid s) = some (durable s) := by
  unfold execBerthFreeDone; repeat' split
  all_goals simp
@[simp] theorem execBerthQuery_durable (cid : Nat) (s : State) :
    durableAfter (execBerthQuery cid s) = some (durable s) := by simp [execBerthQuery]
@[simp] theorem endMove_durable (s : State) (cid i : Nat) (st : Status) (d : Nat) :
    durable (endMove s cid i st d) = durable s := by simp [endMove]
@[simp] theorem moveTry_durable (s : State) (c : Cmd) (i : Nat) (b : Berth) : durable (moveTry s c i b) = durable s := by
  unfold moveTry; dsimp only; repeat' split
  all_goals simp
@[simp] theorem moveStart_durable (s : State) (c : Cmd) (i : Nat) (b : Berth) :
    durable (moveStart s c i b) = durable s := by simp [moveStart]
@[simp] theorem moveAgain_durable (s : State) (cid : Nat) : durable (moveAgain s cid) = durable s := by
  unfold moveAgain; repeat' split
  all_goals simp
@[simp] theorem execBerthMove_durable (cid : Nat) (s : State) :
    durableAfter (execBerthMove cid s) = some (durable s) := by simp [execBerthMove]

/-! ### Key commands -/

@[simp] theorem scrubInput_durable (s : State) (cid : Nat) : durable (scrubInput s cid) = durable s := by rfl
@[simp] theorem execKeyWrite_durable (cid : Nat) (s : State) : durableAfter (execKeyWrite cid s) = some (durable s) :=
  congrArg some (runOp_durable _ _ _ _ fun c d => withRnd_leaves _ _ _ rfl fun _ t =>
    leaves_map_keeps (by simp) fun u => scrubInput_durable u cid)
@[simp] theorem execKeyWritePublic_durable (cid : Nat) (s : State) :
    durableAfter (execKeyWritePublic cid s) = some (durable s) := by simp [execKeyWritePublic]
@[simp] theorem execKeyGenerate_durable (cid : Nat) (s : State) : durableAfter (execKeyGenerate cid s) = some (durable s) :=
  congrArg some (runOp_durable _ _ _ _ fun c d => by simp)
@[simp] theorem execKeyPublic_durable (cid : Nat) (s : State) : durableAfter (execKeyPublic cid s) = some (durable s) :=
  congrArg some (runOp_durable _ _ _ _ fun c d => by
    split <;> simp)
@[simp] theorem execKeyDestroy_durable (cid : Nat) (s : State) :
    durableAfter (execKeyDestroy cid s) = some (durable s) := by simp [execKeyDestroy]
@[simp] theorem endDestroys_durable (s : State) (granule : Nat) :
    durable (endDestroys s granule) = durable s := by simp [endDestroys]
@[simp] theorem execKeyDestroyZeroise_durable (granule : Nat) (s : State) :
    durableAfter (execKeyDestroyZeroise granule s) = some (durable s) := by
  unfold execKeyDestroyZeroise; split <;> simp
@[simp] theorem execKeyQuery_durable (cid : Nat) (s : State) : durableAfter (execKeyQuery cid s) = some (durable s) :=
  congrArg some (runOp_durable _ _ _ _ fun c d => by
    split <;> simp)
@[simp] theorem execKeyShare_durable (cid : Nat) (s : State) :
    durableAfter (execKeyShare cid s) = some (durable s) := by simp [execKeyShare]
@[simp] theorem execKeyBind_durable (cid : Nat) (s : State) :
    durableAfter (execKeyBind cid s) = some (durable s) := by simp [execKeyBind]
@[simp] theorem execWrapOut_durable (cid : Nat) (s : State) : durableAfter (execWrapOut cid s) = some (durable s) :=
  congrArg some (runOp_durable _ _ _ _ fun c d => by
    dsimp only
    split <;> simp)
@[simp] theorem execWrapIn_durable (cid : Nat) (s : State) :
    durableAfter (execWrapIn cid s) = some (durable s) := by simp [execWrapIn]
@[simp] theorem execKwWrap_durable (cid : Nat) (s : State) :
    durableAfter (execKwWrap cid s) = some (durable s) := by simp [execKwWrap]
@[simp] theorem execKwUnwrap_durable (cid : Nat) (s : State) : durableAfter (execKwUnwrap cid s) = some (durable s) :=
  congrArg some (runOp_durable _ _ _ _ fun c d => by
    split <;> simp)
theorem drawFresh_durable {s : State} {n : Nat} {r : Bytes × State} (h : drawFresh s n = some r) : durable r.2 = durable s := by
  unfold drawFresh at h
  split at h
  · obtain ⟨i, -, rfl⟩ := Option.map_eq_some_iff.mp h
    simp
  · cases h
@[simp] theorem execRandom_durable (cid : Nat) (s : State) : durableAfter (execRandom cid s) = some (durable s) :=
  congrArg some (runOp_durable _ _ _ _ fun c d => leaves_bind fun r hr => by
    have h : durable r.2 = durable s := by
      split at hr
      · exact drawFresh_durable hr
      · exact draw_durable hr
    simp [h])

/-! ### Register accesses -/

@[simp] theorem modKq_durable (s : State) (fn : Nat) (f : Kq → Kq) : durable (modKq s fn f) = durable s := by rfl
@[simp] theorem kqResetIdx_durable (s : State) (fn : Nat) : durable (kqResetIdx s fn) = durable s := by
  unfold kqResetIdx; repeat' split
  all_goals simp
@[simp] theorem kqCtrlWrite_durable (s : State) (fn : Nat) (v : Word) :
    durable (kqCtrlWrite s fn v) = durable s := by simp [kqCtrlWrite]
@[simp] theorem kqWrite_durable (s : State) (fn off : Nat) (v : Word) : durable (kqWrite s fn off v) = durable s := by
  unfold kqWrite; split <;> simp
@[simp] theorem fastWrite_durable (s : State) (fn off : Nat) (v : Word) : durable (fastWrite s fn off v) = durable s := by
  unfold fastWrite; split <;> simp
@[simp] theorem softPend_durable (s : State) (fn : Nat) (v : Word) : durable (softPend s fn v) = durable s := by simp [softPend]
@[simp] theorem modeReq_durable (s : State) (v : Word) : durable (modeReq s v) = durable s := by
  unfold modeReq; split <;> simp
@[simp] theorem unlessLocked_durable {s t : State} (h : durable t = durable s) : durable (unlessLocked s t) = durable s := by
  simp [unlessLocked, h]
@[simp] theorem modMon_durable (s : State) (n : Nat) (f : Mon → Mon) : durable (modMon s n f) = durable s := by rfl
@[simp] theorem monWrite_durable (s : State) (off : Nat) (v : Word) : durable (monWrite s off v) = durable s := by
  unfold monWrite
  dsimp only
  split
  case h_4 => rfl
  all_goals exact unlessLocked_durable rfl
@[simp] theorem responseWrite_durable (s : State) (n : Nat) (v : Word) : durable (responseWrite s n v) = durable s :=
  unlessLocked_durable rfl
theorem fuseWrite_user (s : State) (v : Word) : (durable (fuseWrite s v)).1 = (durable s).1 := by
  unfold fuseWrite; split <;> rfl
theorem keeperWrite_user (s : State) (off : Nat) (v : Word) : (durable (keeperWrite s off v)).1 = (durable s).1 := by
  unfold keeperWrite
  repeat' split
  all_goals simp [fuseWrite_user, unlessLocked_durable]
@[simp] theorem modMsix_durable (s : State) (fn v : Nat) (f : MsixEntry → MsixEntry) :
    durable (modMsix s fn v f) = durable s := by simp [modMsix]
@[simp] theorem msixWrite_durable (s : State) (fn off : Nat) (v : Word) : durable (msixWrite s fn off v) = durable s := by
  unfold msixWrite; split <;> simp
@[simp] theorem recWrite_durable (s : State) (fn off : Nat) (v : Word) :
    durable (recWrite s fn off v) = durable s := by simp [recWrite]
theorem regWrite_user (s : State) (fn off : Nat) (v : Word) : (durable (regWrite s fn off v)).1 = (durable s).1 := by
  unfold regWrite
  repeat' split
  all_goals simp [keeperWrite_user]
@[simp] theorem holdWrite_durable (s : State) (fn off : Nat) (v : Word) : durable (holdWrite s fn off v) = durable s := by rfl
@[simp] theorem bootAsk_durable (s : State) : durable (bootAsk s) = durable s := by simp [bootAsk]
@[simp] theorem imageWrite_durable (s : State) (fn off : Nat) (v : Word) :
    durable (imageWrite s fn off v) = durable s := by simp [imageWrite]
theorem barWriteNow_user (s : State) (fn off : Nat) (v : Word) : (durable (barWriteNow s fn off v)).1 = (durable s).1 := by
  unfold barWriteNow
  repeat' split
  all_goals simp [regWrite_user]
theorem writeOrHold_user (s : State) (fn off : Nat) (v : Word) : (durable (writeOrHold s fn off v)).1 = (durable s).1 := by
  unfold writeOrHold
  split
  · rfl
  · exact barWriteNow_user s fn off v
@[simp] theorem barWrite_user (s : State) (fn off : Nat) (v : Word) : (durable (barWrite s fn off v)).1 = (durable s).1 := by
  unfold barWrite
  split
  · exact writeOrHold_user s fn off v
  · rfl
@[simp] theorem applyHeld_user (s : State) (fn : Nat) : (durable (applyHeld s fn)).1 = (durable s).1 :=
  foldl_keeps (fun t => (durable t).1) (fun t (w : Nat × Word) => barWriteNow t fn w.1 w.2) (fun _ _ => barWriteNow_user ..) _ _
@[simp] theorem barWrites_user (s : State) (fn n off : Nat) (d : Bytes) :
    (durable (barWrites s fn n off d)).1 = (durable s).1 := by
  induction n generalizing s off d with
  | zero => rfl
  | succ n ih => simp [barWrites, ih]
@[simp] theorem msixPartial_user (s : State) (fn n off : Nat) : (durable (msixPartial s fn n off)).1 = (durable s).1 := by
  induction n generalizing s off with
  | zero => rfl
  | succ n ih =>
    unfold msixPartial
    split
    · simp [ih, takeFree]
    · rfl
@[simp] theorem barBytes_user (s : State) (fn offset : Nat) (data : Bytes) :
    (durable (barBytes s fn offset data)).1 = (durable s).1 := by
  unfold barBytes
  repeat' split
  all_goals simp
@[simp] theorem readEffect_durable (s : State) (fn off : Nat) :
    durable (readEffect s fn off) = durable s := by simp [readEffect]
@[simp] theorem readDwords_durable (fn n off : Nat) (s : State) : durable (readDwords fn n off s).2 = durable s := by
  induction n generalizing off s with
  | zero => rfl
  | succ n ih => simp [readDwords, ih]
@[simp] theorem barRead_durable (s : State) (r : BarRead) : durable (barRead s r) = durable s := by simp [barRead]
@[simp] theorem execTbNowLoRead_durable (req : BarRead) (s : State) :
    durableAfter (execTbNowLoRead req s) = some (durable s) := by simp [execTbNowLoRead]
@[simp] theorem execCalNowLoRead_durable (req : BarRead) (s : State) :
    durableAfter (execCalNowLoRead req s) = some (durable s) := by simp [execCalNowLoRead]
@[simp] theorem execModerationTimer_durable (fn qid : Nat) (s : State) :
    durableAfter (execModerationTimer fn qid s) = some (durable s) := by
  unfold execModerationTimer; split <;> simp
@[simp] theorem execWakeHoldExpire_durable (fn vec : Nat) (s : State) :
    durableAfter (execWakeHoldExpire fn vec s) = some (durable s) := by simp [execWakeHoldExpire]
@[simp] theorem execKeeperStall_durable (fn : Nat) (s : State) : durableAfter (execKeeperStall fn s) = some (durable s) := by
  unfold execKeeperStall; split <;> simp

/-! ### Life cycle and debug -/

@[simp] theorem recordLc_durable (s : State) (frm dst : Lc) (event : Nat) :
    durable (recordLc s frm dst event) = durable s := by simp [recordLc]
@[simp] theorem putOwnerRoot_durable (s : State) (d : Bytes) : durable (putOwnerRoot s d) = durable s := by rfl
@[simp] theorem acceptMove_durable (s : State) (cid : Nat) (dst : Lc) (d : Bytes) (fails : Nat) :
    durable (acceptMove s cid dst d fails) = durable s := by
  have hroot : durable (if dst = .owned then wearWrite s 2 rootWords fails else (s, true)).1 = durable s := by split <;> simp
  unfold acceptMove
  dsimp only
  generalize (if dst = .owned then wearWrite s 2 rootWords fails else (s, true)) = root at hroot
  split
  · simp [hroot]
  · have hput : durable (if dst = .owned then putOwnerRoot root.1 d else root.1) = durable s := by split <;> simp [hroot]
    generalize (if dst = .owned then putOwnerRoot root.1 d else root.1) = s1 at hput
    have h := (commitRec_durable s1 5 1 (genOf s1 5 1 + 1) (BitVec.ofNat 64 (moveMark s.lc.state dst)) 0).trans hput
    split <;> rename_i hc <;> rw [hc] at h <;> simpa using h
@[simp] theorem execLcTransition_durable (cidFails : Nat × Nat) (s : State) :
    durableAfter (execLcTransition cidFails s) = some (durable s) :=
  congrArg some (runInput_durable _ _ _ _ _ fun c d => by
    split
    · simp
    · split
      · rfl
      · split <;> simp)
@[simp] theorem recordDebug_durable (s : State) (scope : Nat) (event signer : Byte) (nonce : Bytes) :
    durable (recordDebug s scope event signer nonce) = durable s := by simp [recordDebug]
@[simp] theorem giveChallenge_durable (s : State) (cid scope : Nat) (nonce : Bytes) :
    durable (giveChallenge s cid scope nonce) = durable s := by simp [giveChallenge]
@[simp] theorem execDebugChallenge_durable (cid : Nat) (s : State) :
    durableAfter (execDebugChallenge cid s) = some (durable s) :=
  congrArg some (runTurn_durable _ _ _ _ _ fun c => by
    split
    · simp
    · cases h : withRnd s c fun n s1 => some (giveChallenge s1 cid (le c.entry 40 1) n) with
      | none => simp
      | some t => exact withRnd_leaves s c _ rfl (fun _ _ => by simp) t h)
@[simp] theorem loseKeys_durable (s : State) : durable (loseKeys s) = durable s := by simp [loseKeys]
@[simp] theorem restart_durable (s : State) (cid : Nat) : durable (restart s cid) = durable s := by
  unfold restart; split <;> simp
@[simp] theorem taint_durable (s : State) (cid : Nat) : durable (taint s cid) = durable s := by simp [taint]
@[simp] theorem openScope_durable (s : State) (scope : Nat) (nonce : Bytes) :
    durable (openScope s scope nonce) = durable s := by simp [openScope]
@[simp] theorem answerChallenge_durable (s : State) (c : Cmd) (d : Bytes) :
    durable (answerChallenge s c d) = durable s := by simp [answerChallenge]
@[simp] theorem execDebugResponse_durable (cid : Nat) (s : State) : durableAfter (execDebugResponse cid s) = some (durable s) :=
  congrArg some (runTurn_durable _ _ _ _ _ fun c => by
    dsimp only
    split
    · simp
    · simp
    · simp)
@[simp] theorem selectTap_durable (s : State) (code : Nat) : durable (selectTap s code) = durable s := by simp [selectTap]
@[simp] theorem execExtest_durable (s : State) : durableAfter (execExtest s) = some (durable s) := by simp [execExtest]
@[simp] theorem execIdcode_durable (s : State) : durableAfter (execIdcode s) = some (durable s) := by simp [execIdcode]
@[simp] theorem execSamplePreload_durable (s : State) :
    durableAfter (execSamplePreload s) = some (durable s) := by simp [execSamplePreload]
@[simp] theorem execClamp_durable (s : State) : durableAfter (execClamp s) = some (durable s) := by simp [execClamp]
@[simp] theorem execHighz_durable (s : State) : durableAfter (execHighz s) = some (durable s) := by simp [execHighz]
@[simp] theorem execBypass_durable (s : State) : durableAfter (execBypass s) = some (durable s) := by simp [execBypass]
@[simp] theorem execDbgAccess_durable (s : State) : durableAfter (execDbgAccess s) = some (durable s) := by simp [execDbgAccess]
@[simp] theorem setTapData_durable (s : State) (v : DWord) : durable (setTapData s v) = durable s := by rfl
@[simp] theorem freeDebug_durable (s : State) (dr : DWord) (addr : Nat) : durable (freeDebug s dr addr) = durable s := by rfl
@[simp] theorem debugHalt_durable (s : State) (dr : DWord) (addr : Nat) : durable (debugHalt s dr addr) = durable s := by rfl
@[simp] theorem debugRead_durable (s : State) (dr : DWord) (addr : Nat) : durable (debugRead s dr addr) = durable s := by
  unfold debugRead; split <;> simp
@[simp] theorem debugWrite_durable (s : State) (dr : DWord) (addr : Nat) :
    durable (debugWrite s dr addr) = durable s := by simp [debugWrite]

/-! ### Graphics memory -/

@[simp] theorem stay_durable (s : State) (cid : Nat) : durable (stay s cid) = durable s := by rfl
@[simp] theorem loseTail_durable (s : State) (g cid : Nat) : durable (loseTail s g cid) = durable s := by simp [loseTail]
@[simp] theorem loseSpilled_durable (s : State) (i cid : Nat) :
    durable (loseSpilled s i cid) = durable s := by simp [loseSpilled]
@[simp] theorem missPlan_durable (s : State) (id : Nat) : durable (missPlan s id) = durable s := by simp [missPlan]
@[simp] theorem gmLoss_durable (s : State) (r : GmRegion) : durable (gmLoss s r) = durable s := by
  unfold gmLoss; split <;> simp
@[simp] theorem gmFail_durable (s : State) (r : GmRegion) : durable (gmFail s r) = durable s := by simp [gmFail]
@[simp] theorem gmRead_leaves {d : Durable} (s : State) (r : GmRegion) (h : durable s = d) : Leaves d (gmRead s r) := by
  simp [gmRead, h]

/-! ### Plans -/

@[simp] theorem loadPlan_durable (s : State) (cid : Nat) (d : Bytes) :
    durable (loadPlan s cid d) = durable s := by simp [loadPlan]
@[simp] theorem execLoadPlan_durable (cid : Nat) (s : State) : durableAfter (execLoadPlan cid s) = some (durable s) := by
  unfold execLoadPlan; split <;> simp
@[simp] theorem execUnloadPlan_durable (cid : Nat) (s : State) : durableAfter (execUnloadPlan cid s) = some (durable s) := by
  unfold execUnloadPlan; split <;> simp
@[simp] theorem gmReadPlan_leaves {d : Durable} (s : State) (id : Nat) (h : durable s = d) : Leaves d (gmReadPlan s id) :=
  leaves_bind fun _ _ => gmRead_leaves _ _ h
@[simp] theorem execPlanCopyIn_durable (planId : Nat) (s : State) :
    durableAfter (execPlanCopyIn planId s) = some (durable s) := by
  unfold execPlanCopyIn
  split
  · split
    · rename_i ht; rw [durableAfter_next, gmReadPlan_leaves s planId rfl _ ht]
    · simp
    · rfl
  · rfl
@[simp] theorem execPlanRewrite_durable (planId : Nat) (s : State) :
    durableAfter (execPlanRewrite planId s) = some (durable s) := by simp [execPlanRewrite]

/-! ### Counters, signature trees and the journal -/

@[simp] theorem execCtrRead_durable (cid fails : Nat) (s : State) : durableAfter (execCtrRead cid fails s) = some (durable s) :=
  congrArg some (runOp_durable _ _ _ _ fun c d => by
    have h := resolveRec_durable s 3 (le c.entry 40 1) fails
    split
    · simp
    · split <;> rename_i he <;> rw [he] at h
      · exact bad_leaves _ _ _ _ h
      · exact good_leaves _ _ _ _ _ h)
@[simp] theorem increment_durable (s : State) (c : Cmd) (v : DWord) (fails : Nat) :
    durable (increment s c v fails) = durable s := by
  have h := commitRec_durable s 3 (le c.entry 40 1) 0 (v + 1) fails
  unfold increment
  split <;> rename_i hc <;> rw [hc] at h <;> simpa using h
@[simp] theorem counterFull_durable (s : State) (c : Cmd) (fails : Nat) : durable (counterFull s c fails) = durable s := by
  have h := resolveRec_durable s 3 (le c.entry 40 1) fails
  unfold counterFull
  split <;> rename_i hr <;> rw [hr] at h <;> simpa using h
@[simp] theorem execCtrIncrement_durable (cid fails : Nat) (s : State) :
    durableAfter (execCtrIncrement cid fails s) = some (durable s) :=
  congrArg some (runOp_durable _ _ _ _ fun c d => by
    dsimp only
    split
    · simp
    · split
      · simp
      · split
        · split <;> simp
        · simp
        · split <;> simp)
@[simp] theorem resolveTree_durable (s : State) (t fails : Nat) : durable (resolveTree s t fails).1 = durable s := by
  unfold resolveTree
  split
  · rfl
  · split
    · simp
    · rename_i g v _
      have h := commitRec_durable s 4 t g v fails
      split <;> rename_i hc <;> rw [hc] at h <;> simpa using h
@[simp] theorem placeTree_leaves {d : Durable} (s : State) (c : Cmd) (t : Nat) (pub seed : Bytes) (h : durable s = d) :
    Leaves d (placeTree s c t pub seed) :=
  leaves_bind fun r hr => by simp [drawMasks_durable hr, h]
@[simp] theorem keygenTree_leaves {d : Durable} (s : State) (c : Cmd) (t : Nat) (fails : List Nat) (params pub seed : Bytes)
    (h : durable s = d) : Leaves d (keygenTree s c t fails params pub seed) := by
  unfold keygenTree
  split
  · simp [h]
  · rename_i g _ _
    split
    · have ht := (resolveTree_durable s t (fails.getD 0 0)).trans h
      split <;> rename_i he <;> rw [he] at ht <;> exact bad_leaves _ _ _ _ ht
    · have hc := (commitRec_durable s 4 t (g + 1) 0 (fails.getD 0 0)).trans h
      split <;> rename_i s1 he <;> rw [he] at hc
      · exact bad_leaves _ _ _ _ hc
      · dsimp only
        have hw := (wearWrite_durable { s1 with keys := { s1.keys with trees := Map.put s1.keys.trees t (0, 0) } } 2 treeWords
          (fails.getD 1 0)).trans hc
        split <;> rename_i s3 he <;> rw [he] at hw
        · exact bad_leaves _ _ _ _ hw
        · split
          · rename_i s5 hp
            exact (leaves_some _ _).mpr (placeTree_leaves (d := d) _ _ _ _ _ (by simpa using hw) _ hp)
          · exact (leaves_some _ _).mpr (by simpa using hw)
@[simp] theorem keygenRun_durable (cid : Nat) (fails : List Nat) (s : State) : durable (keygenRun cid fails s) = durable s := by
  refine runOp_durable _ _ _ _ fun c d => ?_
  dsimp only
  split
  · simp
  · split
    · simp
    · split
      · simp
      · split <;> simp
@[simp] theorem execHbsKeygen_durable (cid : Nat) (fails : List Nat) (s : State) :
    durableAfter (execHbsKeygen cid fails s) = some (durable s) := by
  unfold execHbsKeygen; split <;> simp
@[simp] theorem reserveBlock_durable (s : State) (c : Cmd) (t r total fails : Nat) :
    durable (reserveBlock s c t r total fails) = durable s := by
  have h := commitRec_durable s 4 t (genOf s 4 t) (BitVec.ofNat 64 (min (r + 64) total)) fails
  unfold reserveBlock
  dsimp only
  split <;> rename_i hc <;> rw [hc] at h <;> simpa using h
@[simp] theorem takeLeaf_durable (s : State) (c : Cmd) (t total fails : Nat) :
    durable (takeLeaf s c t total fails) = durable s := by
  unfold takeLeaf
  split
  · simp
  · split
    · simp
    · have h := resolveTree_durable s t fails
      split <;> rename_i he <;> rw [he] at h <;> simpa using h
  · repeat' split
    all_goals simp
@[simp] theorem execLeafReserve_durable (cid fails : Nat) (s : State) :
    durableAfter (execLeafReserve cid fails s) = some (durable s) := by
  unfold execLeafReserve; repeat' split
  all_goals simp
@[simp] theorem execHbsSign_durable (cid : Nat) (s : State) : durableAfter (execHbsSign cid s) = some (durable s) :=
  congrArg some (runOp_durable _ _ _ _ fun c d => by
    split <;> simp)
@[simp] theorem execHbsQuery_durable (cid fails : Nat) (s : State) :
    durableAfter (execHbsQuery cid fails s) = some (durable s) :=
  congrArg some (runOp_durable _ _ _ _ fun c d => by
    split
    · simp
    · rename_i g _
      have h := resolveTree_durable s (treeOf g) fails
      split <;> rename_i he <;> rw [he] at h
      · exact bad_leaves _ _ _ _ h
      · exact good_leaves _ _ _ _ _ h)
@[simp] theorem execNvmRead_durable (cid : Nat) (s : State) :
    durableAfter (execNvmRead cid s) = some (durable s) := by simp [execNvmRead]
@[simp] theorem execTimeRead_durable (cid : Nat) (s : State) :
    durableAfter (execTimeRead cid s) = some (durable s) := by simp [execTimeRead]
@[simp] theorem execTimestamp_durable (cid : Nat) (s : State) : durableAfter (execTimestamp cid s) = some (durable s) :=
  congrArg some (runOp_durable _ _ _ _ fun c d => by
    split <;> simp)
@[simp] theorem execSealLink_durable (cid : Nat) (s : State) : durableAfter (execSealLink cid s) = some (durable s) := by
  unfold execSealLink; repeat' split
  all_goals simp
@[simp] theorem execSeal_durable (cid : Nat) (s : State) : durableAfter (execSeal cid s) = some (durable s) :=
  congrArg some (runOp_durable _ _ _ _ fun c d => by
    split <;> simp)
@[simp] theorem execPlanRun_durable (cid : Nat) (s : State) :
    durableAfter (execPlanRun cid s) = some (durable s) := by simp [execPlanRun]

/-! ### Supplies and resets -/

@[simp] theorem coldBoot_durable (s : State) (keeperSel : BitVec 3) : durable (coldBoot s keeperSel) = durable s := by rfl
@[simp] theorem execMainPowerGood_durable (keeperSel : BitVec 3) (s : State) :
    durableAfter (execMainPowerGood keeperSel s) = some (durable s) := by simp [execMainPowerGood]
@[simp] theorem execDevResetNRelease_durable (keeperSel : BitVec 3) (s : State) :
    durableAfter (execDevResetNRelease keeperSel s) = some (durable s) := by simp [execDevResetNRelease]
@[simp] theorem execTrstN_durable (s : State) : durableAfter (execTrstN s) = some (durable s) := by simp [execTrstN]
@[simp] theorem portWrite_durable (s : State) (fn : Nat) : durable (portWrite s fn) = durable s := by rfl
@[simp] theorem resetPort_durable (s : State) (p : Nat) : durable (resetPort s p) = durable s := by
  simp [resetPort]
@[simp] theorem linkDown_durable (s : State) (p : Nat) : durable (linkDown s p) = durable s := by rfl
@[simp] theorem linkTrains_durable (s : State) (l : PortLink) : durable (linkTrains s l) = durable s := by rfl
@[simp] theorem execPerstN_durable (port : Fin 8) (s : State) :
    durableAfter (execPerstN port s) = some (durable s) := by simp [execPerstN]
@[simp] theorem execPerstNRelease_durable (l : PortLink) (s : State) :
    durableAfter (execPerstNRelease l s) = some (durable s) := by simp [execPerstNRelease]
@[simp] theorem execHotReset_durable (ev : PortEvent) (s : State) : durableAfter (execHotReset ev s) = some (durable s) := by
  unfold execHotReset; split <;> simp
@[simp] theorem setSriov_durable (s : State) (p : Nat) (f : Port → Port) : durable (setSriov s p f) = durable s := by
  simp [setSriov]
@[simp] theorem flrPort_durable (s : State) (fn : Nat) : durable (flrPort s fn) = durable s := by simp [flrPort]
@[simp] theorem startFlr_durable (s : State) (fn : Nat) : durable (startFlr s fn) = durable s := by simp [startFlr]
@[simp] theorem execFlr_durable (fn : Nat) (s : State) : durableAfter (execFlr fn s) = some (durable s) := by simp [execFlr]
@[simp] theorem execD3hotToD0_durable (fn : Nat) (s : State) :
    durableAfter (execD3hotToD0 fn s) = some (durable s) := by simp [execD3hotToD0]
@[simp] theorem execD0ToD3hot_durable (fn : Nat) (s : State) :
    durableAfter (execD0ToD3hot fn s) = some (durable s) := by simp [execD0ToD3hot]
@[simp] theorem execFlrTakeEffect_durable (fn : Nat) (s : State) :
    durableAfter (execFlrTakeEffect fn s) = some (durable s) := by simp [execFlrTakeEffect]
@[simp] theorem resumeFn_durable (s0 : State) (fn : Nat) : durable (resumeFn s0 fn) = durable s0 := by simp [resumeFn]
@[simp] theorem setTag10_durable (s : State) (fn : Nat) (tag10 : Bool) :
    durable (setTag10 s fn tag10) = durable s := by simp [setTag10]
@[simp] theorem execBusMasterEnableWrite_durable (fn : Nat) (command : BitVec 16) (control : PcieWrite) (s : State) :
    durableAfter (execBusMasterEnableWrite fn command control s) = some (durable s) := by simp [execBusMasterEnableWrite]
@[simp] theorem execSriovConfigWrite_durable (port : Fin 8) (vfEnable : Bool) (sriov : Sriov) (s : State) :
    durableAfter (execSriovConfigWrite port vfEnable sriov s) = some (durable s) := by simp [execSriovConfigWrite]
@[simp] theorem execVio18Good_durable (s : State) : durableAfter (execVio18Good s) = some (durable s) := by simp [execVio18Good]
@[simp] theorem execVio18Lost_durable (s : State) : durableAfter (execVio18Lost s) = some (durable s) := by simp [execVio18Lost]
@[simp] theorem execTbclkStart_durable (s : State) :
    durableAfter (execTbclkStart s) = some (durable s) := by simp [execTbclkStart]

/-! ### Boot -/

@[simp] theorem toPhase_durable (s : State) (n : Nat) : durable (toPhase s n) = durable s := by rfl
@[simp] theorem mount_durable (s : State) : durable (mount s) = durable s := by rfl
@[simp] theorem execRom_durable (integrity : Bool) (s : State) :
    durableAfter (execRom integrity s) = some (durable s) := by simp [execRom]
@[simp] theorem moveCopies_durable (s : State) (failedSlots : List (Nat × Nat)) (dst : Lc) :
    durable (moveCopies s failedSlots dst) = durable s := by rfl
@[simp] theorem resumeErase_durable (s : State) : durable (resumeErase s) = durable s := by simp [resumeErase]
@[simp] theorem startFlash_durable (s : State) : durable (startFlash s) = durable s := by rfl
@[simp] theorem readSlot_durable (s : State) (base : Nat) (slot : Bytes) :
    durable (readSlot s base slot) = durable s := by simp [readSlot]
@[simp] theorem afterOtp_durable (s : State) : durable (afterOtp s) = durable s := by simp [afterOtp]
@[simp] theorem takeImage_durable (s : State) (used : BitVec 2) (b : Bytes) (l : List Section) :
    durable (takeImage s used b l) = durable s := by rfl
@[simp] theorem sourceError_durable (s : State) (src : Nat) (e : BitVec 8) : durable (sourceError s src e) = durable s := by rfl
@[simp] theorem waitHost_durable (s : State) : durable (waitHost s) = durable s := by rfl
@[simp] theorem execUcode_durable (slotA slotB : Bytes) (s : State) :
    durableAfter (execUcode slotA slotB s) = some (durable s) := by
  unfold execUcode; repeat' split
  all_goals simp
@[simp] theorem headerArrived_durable (s : State) (b : Bytes) : durable (headerArrived s b) = durable s := by
  unfold headerArrived; split <;> simp
@[simp] theorem imageArrived_durable (s : State) (b : Bytes) : durable (imageArrived s b) = durable s := by
  unfold imageArrived; split <;> simp
@[simp] theorem execHostImageLoaded_durable (image : Option Bytes) (s : State) :
    durableAfter (execHostImageLoaded image s) = some (durable s) := by
  unfold execHostImageLoaded; repeat' split
  all_goals simp
@[simp] theorem execGmTrainingDone_durable (trained density32 : BitVec 8) (s : State) :
    durableAfter (execGmTrainingDone trained density32 s) = some (durable s) := by simp [execGmTrainingDone]
@[simp] theorem execSelftest_durable (memoryOk katOk : Bool) (s : State) :
    durableAfter (execSelftest memoryOk katOk s) = some (durable s) := by simp [execSelftest]
@[simp] theorem persistFail_durable (s : State) (which tree : Nat) :
    durable (persistFail s which tree) = durable s := by simp [persistFail]
@[simp] theorem checkTrees_durable (s : State) : durable (checkTrees s) = durable s := by rfl
@[simp] theorem reportPersist_durable (s : State) : durable (reportPersist s) = durable s := by simp [reportPersist]
@[simp] theorem installIdentity_leaves {d : Durable} (s : State) (fails : Nat) (h : durable s = d) :
    Leaves d (installIdentity s fails) := by
  unfold installIdentity
  split
  · refine withDraw_leaves _ _ _ h fun r0 s1 => withDraw_leaves _ _ _ rfl fun r1 s2 => ?_
    have hw := wearWrite_durable s2 2 identityWords fails
    split <;> rename_i he <;> rw [he] at hw <;> simpa using hw
  · simpa using h
@[simp] theorem installSwk_leaves {d : Durable} (s : State) (fails : Nat) (h : durable s = d) :
    Leaves d (installSwk s fails) := by
  unfold installSwk
  split
  · refine withDraw_leaves _ _ _ h fun k s1 => ?_
    have hw := wearWrite_durable s1 2 swkWords fails
    split <;> rename_i he <;> rw [he] at hw <;> simpa using hw
  · simpa using h
@[simp] theorem installKeys_leaves {d : Durable} (s : State) (h : durable s = d) : Leaves d (installKeys s) :=
  withDraw_leaves _ _ _ h fun _ _ => withDraw_leaves _ _ _ rfl fun _ _ => withDraw_leaves _ _ _ rfl fun _ _ =>
    withDraw_leaves _ _ _ rfl fun _ _ => withDraw_leaves _ _ _ rfl fun _ _ => withDraw_leaves _ _ _ rfl fun _ _ => by simp
@[simp] theorem readReservation_durable (s : State) (t : Nat) : durable (readReservation s t) = durable s := by
  unfold readReservation; split <;> simp
@[simp] theorem installTrees_durable (s : State) : durable (installTrees s) = durable s := by
  simp [installTrees]
@[simp] theorem installPlans_durable (s : State) : durable (installPlans s) = durable s := by
  rw [installPlans, durable_mk, durable_eta]
@[simp] theorem anchorCalendar_durable (s : State) : durable (anchorCalendar s) = durable s := by simp [anchorCalendar]
@[simp] theorem commitVersion_durable (s : State) : durable (commitVersion s) = durable s := by simp [commitVersion]
theorem enterService_user (s : State) : (durable (enterService s)).1 = (durable s).1 := by
  unfold enterService
  dsimp only
  generalize (if s.lc.state == .owned || s.lc.state == .field then Mode.service else Mode.maintenance) = next
  split
  · rfl
  · rw [recordMode_durable, recordBoot_durable]
    exact (foldl_keeps (fun t => (durable t).1) applyHeld applyHeld_user _ _).trans (by simp)
@[simp] theorem raiseEpoch_durable (s : State) (fails : Nat) : durable (raiseEpoch s fails).1 = durable s := by
  unfold raiseEpoch
  split
  · simp
  · rename_i g v _
    have h := commitRec_durable s 5 0 g (v + 1) fails
    split
    · rfl
    · split <;> rename_i hc <;> rw [hc] at h <;> simpa using h
@[simp] theorem takeDigest_durable (s : State) : durable (takeDigest s) = durable s := by rfl
theorem install_user {s t : State} {fails : List Nat} (h : install s fails = some t) : (durable t).1 = (durable s).1 := by
  have hr := raiseEpoch_durable s (fails.getD 0 0)
  unfold install at h
  split at h <;> rename_i s1 he <;> rw [he] at hr <;> dsimp only at hr
  · cases h
    rw [bootFail_durable, hr]
  · dsimp only at h
    split at h
    · cases h
      rw [bootFail_durable, reportPersist_durable, hr]
    · obtain ⟨s3, h3, h⟩ := Option.bind_eq_some_iff.mp h
      obtain ⟨s4, h4, h⟩ := Option.bind_eq_some_iff.mp h
      obtain ⟨s5, h5, rfl⟩ := Option.map_eq_some_iff.mp h
      rw [enterService_user, takeDigest_durable, installPlans_durable, installTrees_durable, commitVersion_durable,
        noteTimeLost_durable, anchorCalendar_durable, installKeys_leaves s4 rfl s5 h5, installSwk_leaves s3 _ rfl s4 h4,
        installIdentity_leaves _ _ rfl s3 h3, reportPersist_durable, hr]
theorem execInstall_user (fails : List Nat) (s : State) : userAfter (execInstall fails s) = some (durable s).1 := by
  unfold execInstall
  split
  · cases h : install s fails with
    | none => rfl
    | some t => exact congrArg some (install_user h)
  · rfl

/-! ### Writes cut off by a reset -/

@[simp] theorem tornRecord_durable (flight : Bool) (s : State) (b : Bytes) : durable (tornRecord flight s b) = durable s := by
  unfold tornRecord; repeat' split
  all_goals simp
@[simp] theorem tornTree_durable (s : State) (t : Nat) : durable (tornTree s t) = durable s := by
  unfold tornTree; split <;> simp
@[simp] theorem tornTreeRecord_durable (s : State) (t : Nat) : durable (tornTreeRecord s t) = durable s := by
  unfold tornTreeRecord; split <;> simp
@[simp] theorem tornPersist_durable (s : State) (which : Nat) : durable (tornPersist s which) = durable s := by
  unfold tornPersist; dsimp only; repeat' split
  all_goals simp [leaves_getD]
@[simp] theorem beforeCommit_durable (s : State) : durable (beforeCommit s) = durable s := by
  simp [beforeCommit, leaves_getD]
@[simp] theorem tornFuse_durable (s : State) (level : Nat) : durable (tornFuse s level) = durable s := by simp [tornFuse]
theorem tornMonFuse_user (s : State) (value : Word) (fuseA fuseB : BitVec 16) :
    (durable (tornMonFuse s value fuseA fuseB)).1 = (durable s).1 := by
  unfold tornMonFuse; dsimp only; split <;> rfl

/-! ### Vector instructions -/

@[simp] theorem putLve_durable (s : State) (e : Fin 32) (l : Lve) : durable (putLve s e l) = durable s := by rfl
@[simp] theorem lveDone_durable (s : State) (e : Fin 32) (x : LveForm) (c : Cmd) (l : Lve) (frame : List Host.Cell) (frees : Nat) :
    durable (lveDone s e x c l frame frees) = durable s := by rfl
@[simp] theorem lveFault_durable (s : State) (e : Fin 32) (c : Cmd) (l : Lve) (frame : List Host.Cell) (element addr : Nat) :
    durable (lveFault s e c l frame element addr) = durable s := by simp [lveFault]
@[simp] theorem lveStep_durable (s : State) (e : Fin 32) (i : Instr) (k : Cmd → Lve → Nat → LveRes) :
    durable (lveStep s e i k) = durable s := by
  unfold lveStep; repeat' split
  all_goals simp

/-! ### Dispatch and engines -/

@[simp] theorem queueSeeds_durable (key n : Nat) (s : State) :
    durable (queueSeeds key n s) = durable s := durable_of_keeps (queueSeeds_keeps ..) fun _ => rfl
@[simp] theorem refillSeeds_durable (s : State) (kind i : Nat) :
    durable (refillSeeds s kind i) = durable s := durable_of_keeps (refillSeeds_keeps ..) fun _ => rfl
@[simp] theorem refillAll_durable (s : State) :
    durable (refillAll s) = durable s := durable_of_keeps (refillAll_keeps ..) fun _ => rfl
@[simp] theorem takeSeeds_leaves {d : Durable} (s : State) (g : Seg) (i : Nat) (h : durable s = d) :
    Leaves d (takeSeeds s g i) := by
  simp [takeSeeds, h]
@[simp] theorem takeAll_leaves {d : Durable} (gs : List (Nat × Seg)) (es : List (Nat × Nat)) (s : State) (h : durable s = d) :
    Leaves d (takeAll gs es s) := by
  induction gs generalizing es s with
  | nil => simpa [takeAll] using h
  | cons g gs ih =>
    cases es with
    | nil => simpa [takeAll] using h
    | cons e es =>
      exact leaves_bind fun t ht => ih _ _ (by simp [takeSeeds_leaves s g.2 e.2 h t ht])
theorem takeRandom_durable {s : State} {c : Cmd} {es : List (Nat × Nat)} {r : Option Bytes × State} (h : takeRandom s c es = some r) :
    durable r.2 = durable s := by
  obtain ⟨a, ha, hr⟩ := Option.bind_eq_some_iff.mp h
  obtain ⟨t, ht, rfl⟩ := Option.map_eq_some_iff.mp hr
  refine takeAll_leaves _ _ _ ?_ t ht
  split at ha
  · cases ha; rfl
  · obtain ⟨b, hb, rfl⟩ := Option.map_eq_some_iff.mp ha
    exact draw_durable hb
@[simp] theorem usedSeeds_durable (s : State) (kind i n : Nat) : durable (usedSeeds s kind i n) = durable s := by rfl
@[simp] theorem beginVector_durable (s : State) (c : Cmd) (i seg : Nat) (g : Seg) :
    durable (beginVector s c i seg g) = durable s := by rfl
@[simp] theorem loadKey_durable (s : State) (c : Cmd) (gs : List (Nat × Seg)) (es : List (Nat × Nat)) :
    durable (loadKey s c gs es) = durable s := by
  unfold loadKey; split <;> simp
@[simp] theorem firstDispatch_durable (s : State) (c : Cmd) : durable (firstDispatch s c) = durable s := by simp [firstDispatch]
@[simp] theorem startVector_durable (s : State) (c : Cmd) (gs : List (Nat × Seg)) (es : List (Nat × Nat)) :
    durable (startVector s c gs es) = durable s := by
  unfold startVector; split <;> simp
@[simp] theorem grant_leaves {d : Durable} (s : State) (c : Cmd) (h : durable s = d) : Leaves d (grant s c) :=
  leaves_bind fun es _ => leaves_map fun r hr => by simp [takeRandom_durable hr, h]
@[simp] theorem grantClass_leaves {d : Durable} (s : State) (cls : Nat) (h : durable s = d) : Leaves d (grantClass s cls) :=
  leaves_bind fun c _ => leaves_map fun t ht => by simp [grant_leaves s c h t ht]
@[simp] theorem failDead_durable (s : State) (c : Cmd) : durable (failDead s c) = durable s := by
  unfold failDead; split <;> simp
@[simp] theorem markSeedWait_durable (s : State) (c : Cmd) : durable (markSeedWait s c) = durable s := by simp [markSeedWait]
@[simp] theorem nextSlotOf_durable (s : State) : durable (nextSlotOf s) = durable s := by rfl
@[simp] theorem visitGrant_durable (s : State) : durable (visitGrant s) = durable s := by
  unfold visitGrant
  dsimp only
  split
  · rename_i t ht; exact grantClass_leaves s _ rfl t ht
  · exact leaves_getD (grantClass_leaves _ _ rfl)
@[simp] theorem execArbiterVisit_durable (s : State) :
    durableAfter (execArbiterVisit s) = some (durable s) := by simp [execArbiterVisit]
@[simp] theorem endVector_durable (s : State) (c : Cmd) (i : Nat) : durable (endVector s c i) = durable s := by
  unfold endVector; dsimp only; repeat' split
  all_goals simp
@[simp] theorem endGroup_durable (s : State) (c : Cmd) : durable (endGroup s c) = durable s := by
  unfold endGroup; repeat' split
  all_goals simp
@[simp] theorem crossWrites_durable (s : State) (c : Cmd) (ws : List (Nat × Bytes)) :
    durable (crossWrites s c ws) = durable s := by rfl
@[simp] theorem leaveEngine_durable (s : State) (c : Cmd) (kind i : Nat) (g : Seg) :
    durable (leaveEngine s c kind i g) = durable s := by simp [leaveEngine]
@[simp] theorem endSegment_durable (s : State) (c : Cmd) (j kind i : Nat) (flags : Byte) :
    durable (endSegment s c j kind i flags) = durable s := by
  unfold endSegment; dsimp only; repeat' split
  all_goals simp
@[simp] theorem execSegmentEnd_durable (cid kind : Nat) (how : SegEnd) (s : State) :
    durableAfter (execSegmentEnd cid kind how s) = some (durable s) := by
  unfold execSegmentEnd
  split
  · rfl
  · split
    · rfl
    · rename_i t _ ht
      simp [gmRead_leaves s _ rfl t ht]
    · dsimp only
      repeat' split
      all_goals simp
@[simp] theorem passBoundary_durable (s : State) (sequencer : Nat) : durable (passBoundary s sequencer) = durable s := by rfl
@[simp] theorem execDispatchBoundary_durable (sequencer : Fin 16) (s : State) :
    durableAfter (execDispatchBoundary sequencer s) = some (durable s) := by simp [execDispatchBoundary]
@[simp] theorem execEngineStall_durable (kind index : Nat) (s : State) :
    durableAfter (execEngineStall kind index s) = some (durable s) := by simp [execEngineStall]
@[simp] theorem execDualRailFault_durable (kind index : Nat) (s : State) :
    durableAfter (execDualRailFault kind index s) = some (durable s) := by simp [execDualRailFault]
@[simp] theorem execTrapMicroword_durable (_sequencer : Fin 16) (s : State) :
    durableAfter (execTrapMicroword _sequencer s) = some (durable s) := by simp [execTrapMicroword]

/-! ### Masks, seeds and seals -/

@[simp] theorem execKemEncaps_durable (cid : Nat) (s : State) : durableAfter (execKemEncaps cid s) = some (durable s) :=
  congrArg some (runOp_durable _ _ _ _ fun c d => by simp)
@[simp] theorem execKemDecaps_durable (cid : Nat) (s : State) :
    durableAfter (execKemDecaps cid s) = some (durable s) := by simp [execKemDecaps]
@[simp] theorem execDhAgree_durable (cid : Nat) (s : State) : durableAfter (execDhAgree cid s) = some (durable s) :=
  congrArg some (runOp_durable _ _ _ _ fun c d => by simp)
@[simp] theorem execRsaOaepEncap_durable (cid : Nat) (s : State) : durableAfter (execRsaOaepEncap cid s) = some (durable s) :=
  congrArg some (runOp_durable _ _ _ _ fun c d => by simp)
@[simp] theorem execRsaOaepDecap_durable (cid : Nat) (s : State) : durableAfter (execRsaOaepDecap cid s) = some (durable s) :=
  congrArg some (runOp_durable _ _ _ _ fun c d => withRnd_leaves _ _ _ rfl fun _ t => by
    split <;> simp)
@[simp] theorem hybridInitiate_leaves {d : Durable} (s : State) (c : Cmd) (p : Nat) (h : durable s = d) :
    Leaves d (hybridInitiate s c p) := by
  simp [hybridInitiate, h]
@[simp] theorem hybridRespond_leaves {d : Durable} (s : State) (c : Cmd) (p : Nat) (b : Bytes) (h : durable s = d) :
    Leaves d (hybridRespond s c p b) := by
  simp [hybridRespond, h]
@[simp] theorem consumeKey_durable (s : State) (g : Option Nat) : durable (consumeKey s g) = durable s := by
  unfold consumeKey; split <;> simp
@[simp] theorem hybridFinish_leaves {d : Durable} (s : State) (c : Cmd) (p : Nat) (b : Bytes) (h : durable s = d) :
    Leaves d (hybridFinish s c p b) := by
  have hkey : durable (consumeKey (cacheBuild s c) c.keyA) = d := by simp [h]
  unfold hybridFinish
  dsimp only
  split
  · simp [h]
  · split
    · simpa using h
    · refine withDraw_leaves_of hkey fun _ t ht => ?_
      split <;> simp [ht]
@[simp] theorem execHybridKex_durable (cid : Nat) (s : State) : durableAfter (execHybridKex cid s) = some (durable s) :=
  congrArg some (runOp_durable _ _ _ _ fun c d => by
    split <;> simp)
@[simp] theorem execSign_durable (cid : Nat) (s : State) : durableAfter (execSign cid s) = some (durable s) :=
  congrArg some (runOp_durable _ _ _ _ fun c d => by simp)
@[simp] theorem verdict_leaves {d : Durable} (s : State) (c : Cmd) (pk sig rest : Bytes) (h : durable s = d) :
    Leaves d (verdict s c pk sig rest) := by
  simp [verdict, h]
@[simp] theorem verifyInput_leaves {d : Durable} (s : State) (c : Cmd) (b : Bytes) (pl sl : Nat) (h : durable s = d) :
    Leaves d (verifyInput s c b pl sl) := by
  simp [verifyInput, h]
@[simp] theorem execVerify_durable (cid : Nat) (s : State) : durableAfter (execVerify cid s) = some (durable s) :=
  congrArg some (runOp_durable _ _ _ _ fun c d => by
    dsimp only
    split
    · simp
    · split
      · simp
      · split
        · split
          · simp
          · split <;> simp
        · simp)
@[simp] theorem execAeadEncrypt_durable (cid : Nat) (s : State) : durableAfter (execAeadEncrypt cid s) = some (durable s) :=
  congrArg some (runOp_durable _ _ _ _ fun c d => by simp)
@[simp] theorem earlyPieces_durable (s : State) (c : Cmd) (pt : Bytes) : durable (earlyPieces s c pt) = durable s := by
  unfold earlyPieces; split <;> simp
@[simp] theorem execAeadDecrypt_durable (cid : Nat) (s : State) :
    durableAfter (execAeadDecrypt cid s) = some (durable s) := by simp [execAeadDecrypt]
@[simp] theorem execCipherEncrypt_durable (cid : Nat) (s : State) : durableAfter (execCipherEncrypt cid s) = some (durable s) :=
  congrArg some (runOp_durable _ _ _ _ fun c d => by simp)
@[simp] theorem execCipherDecrypt_durable (cid : Nat) (s : State) :
    durableAfter (execCipherDecrypt cid s) = some (durable s) := by simp [execCipherDecrypt]
@[simp] theorem execHash_durable (cid : Nat) (s : State) :
    durableAfter (execHash cid s) = some (durable s) := by simp [execHash]
@[simp] theorem execMacGenerate_durable (cid : Nat) (s : State) :
    durableAfter (execMacGenerate cid s) = some (durable s) := by simp [execMacGenerate]
@[simp] theorem execMacVerify_durable (cid : Nat) (s : State) :
    durableAfter (execMacVerify cid s) = some (durable s) := by simp [execMacVerify]
@[simp] theorem execKdf_durable (cid : Nat) (s : State) : durableAfter (execKdf cid s) = some (durable s) := by simp [execKdf]

/-! ### Memory words, spills and recalls -/

@[simp] theorem freeCause_durable (s : State) : durable (freeCause s).2 = durable s := by rfl
@[simp] theorem loseCopy_durable (s : State) (id : Nat) : durable (loseCopy s id) = durable s := by simp [loseCopy]
@[simp] theorem sramResponse_durable (s : State) (r : SramRegion) : durable (sramResponse s r) = durable s := by
  unfold sramResponse; repeat' split
  all_goals simp
@[simp] theorem execSramCorrected_durable (region word : Nat) (s : State) :
    durableAfter (execSramCorrected region word s) = some (durable s) := by simp [execSramCorrected]
@[simp] theorem execSramUncorrectable_durable (region : SramRegion) (word : Nat) (s : State) :
    durableAfter (execSramUncorrectable region word s) = some (durable s) := by simp [execSramUncorrectable]
@[simp] theorem execGmMacFail_durable (region : GmRegion) (s : State) :
    durableAfter (execGmMacFail region s) = some (durable s) := by simp [execGmMacFail]
@[simp] theorem countRetries_durable (s : State) (retries retrains : Nat) :
    durable (countRetries s retries retrains) = durable s := by rfl
@[simp] theorem badWrite_durable (s : State) (r : GmRegion) : durable (badWrite s r) = durable s := by
  unfold badWrite; split <;> simp
@[simp] theorem execEdcRetry_durable (recovered : Nat) (write : Bool) (region : GmRegion) (s : State) :
    durableAfter (execEdcRetry recovered write region s) = some (durable s) := by simp [execEdcRetry]
@[simp] theorem execGmRefresh_durable (s : State) : durableAfter (execGmRefresh s) = some (durable s) := by simp [execGmRefresh]
@[simp] theorem execGmRetrain_durable (s : State) : durableAfter (execGmRetrain s) = some (durable s) := by simp [execGmRetrain]
@[simp] theorem execTailSpill_durable (granule : Nat) (s : State) :
    durableAfter (execTailSpill granule s) = some (durable s) := by
  unfold execTailSpill; split <;> simp
@[simp] theorem tailBack_durable (s : State) (g : Nat) (k : Key) (pt : Bytes) : durable (tailBack s g k pt) = durable s := by
  unfold tailBack
  dsimp only
  split
  · rfl
  · split
    · rename_i hr; exact drawMasks_durable hr
    · rfl
@[simp] theorem execTailRecall_durable (granule : Nat) (record : Bytes) (s : State) :
    durableAfter (execTailRecall granule record s) = some (durable s) := by
  unfold execTailRecall
  split
  · rfl
  · split
    · split
      · rfl
      · split
        · rename_i ht; rw [durableAfter_next, gmRead_leaves s _ rfl _ ht]
        · simp
        · simp
    · rfl
@[simp] theorem execBerthSpill_durable (index : Nat) (s : State) :
    durableAfter (execBerthSpill index s) = some (durable s) := by
  unfold execBerthSpill; split <;> simp
@[simp] theorem berthBack_durable (s : State) (i : Nat) : durable (berthBack s i) = durable s := rfl
@[simp] theorem execBerthRecall_durable (index : Nat) (record : Bytes) (s : State) :
    durableAfter (execBerthRecall index record s) = some (durable s) := by
  unfold execBerthRecall; repeat' split
  all_goals simp
@[simp] theorem reshareAt_durable (s : State) (g : Nat) (m : Bytes) : durable (reshareAt s g m) = durable s := by
  unfold reshareAt; split <;> simp
@[simp] theorem execKeyReshare_durable (s : State) : durableAfter (execKeyReshare s) = some (durable s) := by
  unfold execKeyReshare
  repeat' split
  · rename_i hr; simp [drawMasks_durable hr]
  · rfl
  · rfl
@[simp] theorem execUcodeCheck_durable (changed : List (Nat × BitVec 256)) (s : State) :
    durableAfter (execUcodeCheck changed s) = some (durable s) := by simp [execUcodeCheck]
@[simp] theorem execPaceWindow_durable (counts : Vector Nat 4) (s : State) :
    durableAfter (execPaceWindow counts s) = some (durable s) := by simp [execPaceWindow]
@[simp] theorem execWearWindow_durable (s : State) :
    durableAfter (execWearWindow s) = some (durable s) := by simp [execWearWindow]
@[simp] theorem writeItem_durable (s : State) (i : RecItem) : durable (writeItem s i) = durable s := by
  unfold writeItem; repeat' split
  all_goals simp
@[simp] theorem raiseSeq_durable (s : State) : durable (raiseSeq s) = durable s := by rfl
@[simp] theorem endRecord_durable (s : State) (i : RecItem) (rest : List RecItem) (fails : Nat) :
    durable (endRecord s i rest fails) = durable s := by
  have h := wearWrite_durable { s with recorder := { s.recorder with queue := rest } } 0 (itemWords i) fails
  unfold endRecord
  split <;> rename_i hw <;> rw [hw] at h <;> simpa using h
@[simp] theorem execRecordCommit_durable (fails : Nat) (s : State) :
    durableAfter (execRecordCommit fails s) = some (durable s) := by
  unfold execRecordCommit; split <;> simp

/-! ### Monitors and time -/

@[simp] theorem execGlitchEvent_durable (rail : Fin 6) (uv : Nat) (s : State) :
    durableAfter (execGlitchEvent rail uv s) = some (durable s) := by
  unfold execGlitchEvent; split <;> simp
@[simp] theorem setRail_durable (s : State) (rail : Nat) (below above : Bool) :
    durable (setRail s rail below above) = durable s := by rfl
@[simp] theorem execSlowExcursion_durable (rail : Fin 6) (uv : Nat) (s : State) :
    durableAfter (execSlowExcursion rail uv s) = some (durable s) := by
  unfold execSlowExcursion; repeat' split
  all_goals simp
@[simp] theorem execVcoreBandSettle_durable (s : State) :
    durableAfter (execVcoreBandSettle s) = some (durable s) := by simp [execVcoreBandSettle]
@[simp] theorem execStateCodeEvent_durable (checker : Fin 4) (unit : Nat) (s : State) :
    durableAfter (execStateCodeEvent checker unit s) = some (durable s) := by simp [execStateCodeEvent]
@[simp] theorem writeAlarms_durable (s : State) (l : List Fired) (carried : Nat) :
    durable (writeAlarms s l carried) = durable s := by simp [writeAlarms]
@[simp] theorem notifyAll_durable (s : State) (info : Nat) : durable (notifyAll s info) = durable s := by simp [notifyAll]
@[simp] theorem endBootLocked_durable (was : Mode) (s : State) :
    durable (endBootLocked was s) = durable s := by simp [endBootLocked]
@[simp] theorem carryOut_durable (s : State) (level : Nat) : durable (carryOut s level) = durable s := by
  unfold carryOut; split <;> simp
@[simp] theorem respond_durable (s : State) : durable (respond s) = durable s := by simp [respond]
@[simp] theorem execAlarmSetResponse_durable (s : State) :
    durableAfter (execAlarmSetResponse s) = some (durable s) := by simp [execAlarmSetResponse]
@[simp] theorem execClearAllErase_durable (s : State) :
    durableAfter (execClearAllErase s) = some (durable s) := by simp [execClearAllErase]
@[simp] theorem execTimebaseCheck_durable (vbakUv : Nat) (s : State) :
    durableAfter (execTimebaseCheck vbakUv s) = some (durable s) := by
  unfold execTimebaseCheck; repeat' split
  all_goals simp
@[simp] theorem execVbakRetentionLoss_durable (s : State) :
    durableAfter (execVbakRetentionLoss s) = some (durable s) := by simp [execVbakRetentionLoss]
@[simp] theorem execBackupPowerOn_durable (s : State) :
    durableAfter (execBackupPowerOn s) = some (durable s) := by simp [execBackupPowerOn]
@[simp] theorem execCrystalStop_durable (s : State) :
    durableAfter (execCrystalStop s) = some (durable s) := by simp [execCrystalStop]
@[simp] theorem execCrystalEdge_durable (s : State) :
    durableAfter (execCrystalEdge s) = some (durable s) := by simp [execCrystalEdge]
@[simp] theorem execTimeLost_durable (s : State) : durableAfter (execTimeLost s) = some (durable s) := by simp [execTimeLost]

/-! ### The random generator -/

@[simp] theorem failWaiting_durable (s : State) : durable (failWaiting s) = durable s := by simp [failWaiting]
@[simp] theorem recordHealth_durable (s : State) (src : Nat) (test : Bool) :
    durable (recordHealth s src test) = durable s := by simp [recordHealth]
@[simp] theorem failFill_durable (s : State) (src : Nat) (test : Bool) :
    durable (failFill s src test) = durable s := by simp [failFill]
@[simp] theorem failReady_durable (s : State) (src : Nat) (test : Bool) :
    durable (failReady s src test) = durable s := by simp [failReady]
@[simp] theorem healthFail_durable (s : State) (src : Nat) (test : Bool) :
    durable (healthFail s src test) = durable s := by simp [healthFail]
@[simp] theorem execNoiseSample_durable (raw : BitVec 28) (s : State) :
    durableAfter (execNoiseSample raw s) = some (durable s) := by simp [execNoiseSample]
@[simp] theorem judgeDraws_durable (s : State) : durable (judgeDraws s) = durable s := by simp [judgeDraws]
@[simp] theorem windowPassed_durable (s : State) : durable (windowPassed s) = durable s := by simp [windowPassed]
@[simp] theorem windowFailed_durable (s : State) : durable (windowFailed s) = durable s := by rfl
@[simp] theorem execTestWindowEnd_durable (s : State) :
    durableAfter (execTestWindowEnd s) = some (durable s) := by simp [execTestWindowEnd]
@[simp] theorem instantiate_durable (s : State) : durable (instantiate s) = durable s := by rfl
@[simp] theorem katResult_durable (s : State) (condOk expOk : Bool) : durable (katResult s condOk expOk) = durable s := by rfl
@[simp] theorem enterReady_durable (s : State) : durable (enterReady s) = durable s := by simp [enterReady]
@[simp] theorem execRefillComplete_durable (condOk expOk : Bool) (s : State) :
    durableAfter (execRefillComplete condOk expOk s) = some (durable s) := by simp [execRefillComplete]
@[simp] theorem execRngKatDone_durable (condOk expOk : Bool) (s : State) :
    durableAfter (execRngKatDone condOk expOk s) = some (durable s) := by simp [execRngKatDone]
@[simp] theorem startFill_durable (s : State) (condOk expOk : Bool) :
    durable (startFill s condOk expOk) = durable s := by simp [startFill]
@[simp] theorem endFill_durable (s : State) : durable (endFill s) = durable s := by rfl
@[simp] theorem execRngFill_durable (condOk expOk : Bool) (s : State) :
    durableAfter (execRngFill condOk expOk s) = some (durable s) := by simp [execRngFill]
@[simp] theorem execRngFillTimeout_durable (s : State) :
    durableAfter (execRngFillTimeout s) = some (durable s) := by simp [execRngFillTimeout]
@[simp] theorem execRngWaitTimeout_durable (cid : Nat) (s : State) :
    durableAfter (execRngWaitTimeout cid s) = some (durable s) := by
  unfold execRngWaitTimeout; split <;> simp
@[simp] theorem execRngDrawTimeout_durable (cid : Nat) (s : State) :
    durableAfter (execRngDrawTimeout cid s) = some (durable s) := by
  unfold execRngDrawTimeout; split <;> simp

/-! ### The Towpath -/

@[simp] theorem endReceived_durable (s : State) (p : Cmd → Bool) :
    durable (endReceived s p) = durable s := by simp [endReceived]
@[simp] theorem endMoves_durable (s : State) (k : Nat) : durable (endMoves s k) = durable s := by simp [endMoves]
@[simp] theorem noteDown_durable (s : State) (pos : Nat) : durable (noteDown s pos) = durable s := by simp [noteDown]
@[simp] theorem linkFail_durable (s : State) (k cause : Nat) : durable (linkFail s k cause) = durable s := by
  unfold linkFail
  split
  · rfl
  · cases (getLink s k).peer <;> simp
@[simp] theorem endPeerFns_durable (s : State) (pos : Nat) (fns : List Nat) :
    durable (endPeerFns s pos fns) = durable s := by simp [endPeerFns]
@[simp] theorem discardIncoming_durable (s : State) (i : Nat) (b : Berth) : durable (discardIncoming s i b) = durable s := by
  simp [discardIncoming]
@[simp] theorem peerRestart_durable (s : State) (pos : Nat) : durable (peerRestart s pos) = durable s := by simp [peerRestart]
@[simp] theorem returnCredits_durable (s : State) (k : Nat) (m : LinkMsg) :
    durable (returnCredits s k m) = durable s := by simp [returnCredits]
@[simp] theorem counted_durable (s : State) (k : Nat) (l : Link) : durable (counted s k l) = durable s := by rfl
@[simp] theorem outOfOrder_durable (s : State) (k : Nat) : durable (outOfOrder s k) = durable s := by simp [outOfOrder]
@[simp] theorem onFrame_durable (s : State) (k : Nat) (m : LinkMsg) (seq : DWord) (chk : PktCheck) (f : State → Option State)
    (h : ∀ t, Leaves (durable t) (f t)) : durable (onFrame s k m seq chk f) = durable s := by
  unfold onFrame
  split
  · rfl
  · split
    · split
      · rename_i l _; exact leaves_getD (counted_durable s k l ▸ h (counted s k l))
      · simp
    · simp
    · simp
@[simp] theorem onPacket_durable (s : State) (k : Nat) (m : LinkMsg) (seq : DWord) (chk : PktCheck) (f : State → State)
    (h : ∀ t, durable (f t) = durable t) : durable (onPacket s k m seq chk f) = durable s :=
  onFrame_durable _ _ _ _ _ _ fun t => by simp [h]
@[simp] theorem replayAll_durable (s : State) (k : Nat) : durable (replayAll s k) = durable s := by
  simp [replayAll]
@[simp] theorem startRetrain_durable (s : State) (k : Nat) : durable (startRetrain s k) = durable s := by rfl
@[simp] theorem replay_durable (s : State) (k : Nat) : durable (replay s k) = durable s := by simp [replay]
@[simp] theorem execAck_durable (link : Fin 8) (seq : DWord) (s : State) :
    durableAfter (execAck link seq s) = some (durable s) := by simp [execAck]
@[simp] theorem execNak_durable (link : Fin 8) (s : State) :
    durableAfter (execNak link s) = some (durable s) := by simp [execNak]
@[simp] theorem execReplayTimeout_durable (link : Fin 8) (s : State) :
    durableAfter (execReplayTimeout link s) = some (durable s) := by simp [execReplayTimeout]
@[simp] theorem execCredit_durable (head : PktHead) (channel : Fin 4) (count : Nat) (s : State) :
    durableAfter (execCredit head channel count s) = some (durable s) :=
  congrArg some (onPacket_durable _ _ _ _ _ _ fun t => by simp)
@[simp] theorem execLinkTrained_durable (link : Fin 8) (lanes : BitVec 8) (peerPosition peerDevices : Nat) (s : State) :
    durableAfter (execLinkTrained link lanes peerPosition peerDevices s) = some (durable s) := by
  unfold execLinkTrained
  dsimp only
  repeat' split
  case h_2 => rename_i hr; simp [draw_durable hr]
  all_goals simp
@[simp] theorem linkEncaps_leaves {d : Durable} (s : State) (k : Nat) (m : HelloMsg) (h : durable s = d) :
    Leaves d (linkEncaps s k m) :=
  leaves_map fun r hr => by simp [draw_durable hr, h]
@[simp] theorem noteEpoch_durable (s : State) (pos : Nat) (epoch : DWord) : durable (noteEpoch s pos epoch) = durable s := by
  unfold noteEpoch; split <;> simp
@[simp] theorem onHello_leaves {d : Durable} (s : State) (k : Nat) (msg : HelloMsg) (h : durable s = d) :
    Leaves d (onHello s k msg) := by
  unfold onHello
  dsimp only
  split
  · simpa using h
  · split
    · simpa using h
    · exact leaves_map fun t ht => by simp [linkEncaps_leaves s k msg h t ht]
@[simp] theorem sendSigned_leaves {d : Durable} (s : State) (k : Nat) (t : Bytes) (mk : Bytes → LinkMsg) (h : durable s = d) :
    Leaves d (sendSigned s k t mk) := by
  unfold sendSigned
  split
  · simpa using h
  · exact leaves_map fun r hr => by simp [draw_durable hr, h]
@[simp] theorem onKemSig_leaves {d : Durable} (s : State) (k : Nat) (ct sig : Bytes) (h : durable s = d) :
    Leaves d (onKemSig s k ct sig) := by
  unfold onKemSig
  dsimp only
  split
  · simpa using h
  · split
    · simpa using h
    · exact leaves_map fun t ht => by split <;> simp [sendSigned_leaves _ _ _ _ h t ht]
@[simp] theorem resumeMoves_durable (s : State) (k : Nat) : durable (resumeMoves s k) = durable s := by simp [resumeMoves]
@[simp] theorem execLinkKeyed_durable (link : Fin 8) (s : State) :
    durableAfter (execLinkKeyed link s) = some (durable s) := by simp [execLinkKeyed]
@[simp] theorem execRekeyStart_durable (link : Fin 8) (s : State) :
    durableAfter (execRekeyStart link s) = some (durable s) := by
  unfold execRekeyStart
  dsimp only
  repeat' split
  case h_2 => rename_i hr; simp [draw_durable hr]
  all_goals simp
@[simp] theorem rekeyPart_leaves {d : Durable} (s : State) (k : Nat) (msg : HelloMsg) (h : durable s = d) :
    Leaves d (rekeyPart s k msg) := by
  unfold rekeyPart
  dsimp only
  refine leaves_bind fun t ht => ?_
  have htd : durable t = d := by
    split at ht
    · cases ht; exact h
    · obtain ⟨r, hr, rfl⟩ := Option.map_eq_some_iff.mp ht
      simp [draw_durable hr, h]
  split <;> simp [htd]
@[simp] theorem rekeyAnswer_leaves {d : Durable} (s : State) (k : Nat) (ct sig : Bytes) (h : durable s = d) :
    Leaves d (rekeyAnswer s k ct sig) := by
  unfold rekeyAnswer
  dsimp only
  repeat' split
  · simpa using h
  · simp [h]
  · simpa using h
  · exact leaves_map fun t ht => by simp [sendSigned_leaves _ _ _ _ h t ht]
@[simp] theorem onRekey_leaves {d : Durable} (s : State) (k : Nat) (msg : HelloMsg) (ct sig : Bytes) (h : durable s = d) :
    Leaves d (onRekey s k msg ct sig) := by
  unfold onRekey
  repeat' split
  · simpa using h
  · simpa using h
  · exact leaves_bind fun t ht => rekeyAnswer_leaves _ _ _ _ (rekeyPart_leaves s k msg h t ht)
@[simp] theorem keyingEffect_leaves {d : Durable} (s : State) (k : Nat) (m : LinkMsg) (h : durable s = d) :
    Leaves d (keyingEffect s k m) := by
  unfold keyingEffect
  split <;> simp [h]
@[simp] theorem takeList_durable (k : Nat) (l : List LinkMsg) (s : State) : durable (takeList k l s) = durable s := by
  induction l generalizing s with
  | nil => rfl
  | cons m l ih =>
    unfold takeList
    split
    · rename_i t ht
      rw [ih, keyingEffect_leaves _ k m rfl t ht]
      simp
    · rfl
@[simp] theorem takeInbox_durable (s : State) (k : Nat) : durable (takeInbox s k) = durable s := by simp [takeInbox]
@[simp] theorem onKeying_durable (s : State) (head : PktHead) (m : LinkMsg) : durable (onKeying s head m) = durable s :=
  onFrame_durable _ _ _ _ _ _ fun t => by simp
@[simp] theorem execHello_durable (head : PktHead) (msg : HelloMsg) (s : State) :
    durableAfter (execHello head msg s) = some (durable s) := by
  simp [execHello]
@[simp] theorem execKemSig_durable (head : PktHead) (ct sig : Bytes) (s : State) :
    durableAfter (execKemSig head ct sig s) = some (durable s) := by
  simp [execKemSig]
@[simp] theorem execRekey_durable (head : PktHead) (msg : HelloMsg) (ct sig : Bytes) (s : State) :
    durableAfter (execRekey head msg ct sig s) = some (durable s) := by
  simp [execRekey]
@[simp] theorem takeInboxes_durable (s : State) : durable (takeInboxes s) = durable s := by simp [takeInboxes]
@[simp] theorem execModeResume_durable (cid : Nat) (s : State) :
    durableAfter (execModeResume cid s) = some (durable s) := by simp [execModeResume]
@[simp] theorem retireHalf_durable (s : State) (k lane : Nat) :
    durable (retireHalf s k lane) = durable s := by simp [retireHalf]
@[simp] theorem execLaneFailure_durable (link lane : Fin 8) (s : State) :
    durableAfter (execLaneFailure link lane s) = some (durable s) := by simp [execLaneFailure]
@[simp] theorem execRetrainDone_durable (link : Fin 8) (lanes : BitVec 8) (s : State) :
    durableAfter (execRetrainDone link lanes s) = some (durable s) := by simp [execRetrainDone]
@[simp] theorem execFailedRetry_durable (link : Fin 8) (s : State) :
    durableAfter (execFailedRetry link s) = some (durable s) := by simp [execFailedRetry]
@[simp] theorem execPeerTimeout_durable (position : Fin 8) (s : State) :
    durableAfter (execPeerTimeout position s) = some (durable s) := by simp [execPeerTimeout]
@[simp] theorem execTprefLoss_durable (s : State) : durableAfter (execTprefLoss s) = some (durable s) := by simp [execTprefLoss]
@[simp] theorem execPeerLost_durable (link : Fin 8) (s : State) :
    durableAfter (execPeerLost link s) = some (durable s) := by simp [execPeerLost]
@[simp] theorem execCmd_durable (head : PktFrom) (number fn : Nat) (worldS : Bool) (cls : BitVec 6) (entry : Bytes) (chk : PktCheck) (s : State) :
    durableAfter (execCmd head number fn worldS cls entry chk s) = some (durable s) :=
  congrArg some (onPacket_durable _ _ _ _ _ _ fun t => by simp)
@[simp] theorem execInPull_durable (head : PktFrom) (number offset len : Nat) (chk : PktCheck) (s : State) :
    durableAfter (execInPull head number offset len chk s) = some (durable s) :=
  congrArg some (onPacket_durable _ _ _ _ _ _ fun t => by split <;> simp)
@[simp] theorem execInData_durable (head : PktFrom) (number offset : Nat) (data : Bytes) (chk : PktCheck) (s : State) :
    durableAfter (execInData head number offset data chk s) = some (durable s) :=
  congrArg some (onPacket_durable _ _ _ _ _ _ fun t => by split <;> simp)
@[simp] theorem execOutData_durable (head : PktFrom) (number offset : Nat) (data : Bytes) (chk : PktCheck) (s : State) :
    durableAfter (execOutData head number offset data chk s) = some (durable s) :=
  congrArg some (onPacket_durable _ _ _ _ _ _ fun t => by split <;> simp)
@[simp] theorem modRemote_durable (s : State) (h : Nat) (f : RemoteBerth → RemoteBerth) :
    durable (modRemote s h f) = durable s := by rfl
@[simp] theorem dischargeKey_durable (s : State) (g : Option Nat) : durable (dischargeKey s g) = durable s := by rfl
@[simp] theorem chargeBerths_durable (s : State) (e : Bytes) (detail : Nat) :
    durable (chargeBerths s e detail) = durable s := by
  unfold chargeBerths; repeat' split
  all_goals simp
@[simp] theorem chargeRemote_durable (s : State) (c : Cmd) (detail : Nat) : durable (chargeRemote s c detail) = durable s := by
  unfold chargeRemote; dsimp only; repeat' split
  all_goals simp
@[simp] theorem onDone_durable (s : State) (c : Cmd) (st : Status) (outLen detail : Nat) :
    durable (onDone s c st outLen detail) = durable s := by simp [onDone]
@[simp] theorem execDone_durable (head : PktFrom) (number status outLen detail : Nat) (chk : PktCheck) (s : State) :
    durableAfter (execDone head number status outLen detail chk s) = some (durable s) :=
  congrArg some (onPacket_durable _ _ _ _ _ _ fun t => by split <;> simp)
theorem placeMoved_durable {ks : List (Nat × Key)} {s : State} {r : State × List (Nat × Nat)} (h : placeMoved ks s = some r) :
    durable r.1 = durable s := by
  induction ks generalizing s r with
  | nil => cases h; rfl
  | cons p ks ih =>
    unfold placeMoved at h
    split at h
    · cases h
    · split at h
      · cases h
      · obtain ⟨q, hq, rfl⟩ := Option.map_eq_some_iff.mp h
        rw [ih hq]
        simp
@[simp] theorem arrive_durable (s : State) (k move : Nat) (b : Berth) (keys : List (Nat × Key)) :
    durable (arrive s k move b keys) = durable s := by
  unfold arrive
  split
  · rename_i hp; simp [placeMoved_durable hp]
  · simp
@[simp] theorem execBerthXfer_durable (head : PktHead) (move : Nat) (berth : Berth) (keys : List (Nat × Key)) (s : State) :
    durableAfter (execBerthXfer head move berth keys s) = some (durable s) :=
  congrArg some (onPacket_durable _ _ _ _ _ _ fun t => by simp)
@[simp] theorem chargeAway_durable (s : State) (b : Berth) (h : Nat) (keys : List (Nat × Key)) :
    durable (chargeAway s b h keys) = durable s := by simp [chargeAway]
@[simp] theorem commitMove_durable (s : State) (k : Nat) (m : Move) (b : Berth) (handle : Word) :
    durable (commitMove s k m b handle) = durable s := by simp [commitMove]
@[simp] theorem execXferAck_durable (head : PktHead) (move : Nat) (handle : Word) (s : State) :
    durableAfter (execXferAck head move handle s) = some (durable s) :=
  congrArg some (onPacket_durable _ _ _ _ _ _ fun t => by
    split
    · rfl
    · split <;> simp)
@[simp] theorem chargeHome_durable (s : State) (b : Berth) (pos : Nat) (old : List Nat) :
    durable (chargeHome s b pos old) = durable s := by simp [chargeHome]
@[simp] theorem execXferCommit_durable (head : PktHead) (move : Nat) (s : State) :
    durableAfter (execXferCommit head move s) = some (durable s) :=
  congrArg some (onPacket_durable _ _ _ _ _ _ fun t => by split <;> simp)
@[simp] theorem execXferAbort_durable (head : PktHead) (move : Nat) (s : State) :
    durableAfter (execXferAbort head move s) = some (durable s) :=
  congrArg some (onPacket_durable _ _ _ _ _ _ fun t => by
    split
    · simp
    · split <;> simp)
@[simp] theorem execEndFunc_durable (head : PktHead) (fn kind : Nat) (s : State) :
    durableAfter (execEndFunc head fn kind s) = some (durable s) :=
  congrArg some (onPacket_durable _ _ _ _ _ _ fun t => by simp)

/-! ### A step with no command -/

@[simp] theorem idle_durable (s : State) : durable (idle s) = durable s := by simp [idle]

end Sys2Proof.Machine
end

section
/-!
PROOFS. The meanings that write user NVM (R26, R174), and the canonical form that all of them keep (O59).
-/

namespace Sys2Proof.Machine

/-! ### Meanings that write user NVM or a fuse -/

/-- Commands whose meaning may write user NVM or the monitor fuses. -/
def writesDurable : Instr → Bool
  | .mainPowerLost .. | .devResetNAssert .. | .devSoftReset .. | .flrCleanupDone .. | .otpLc .. | .bootImageLoad .. | .install ..
  | .nvmWrite .. | .rngKatCtrlRun .. | .intSoftPend .. | .maskClear .. | .clearCount .. | .msixUnmask ..
  | .maintenanceEnter .. | .maintenanceLeave .. | .kqEnable .. | .kqDisable .. | .resetIdx .. | .monWindowWrite .. | .monThreshWrite ..
  | .alarmCfgLock .. | .monFuse .. | .dbgCtrlClose .. | .registerWrite .. | .debugSpaceAccess .. => true
  | _ => false

/-- Every command but these leaves user NVM and the monitor fuses as they were. -/
theorem exec_durable {i : Instr} (s : State) (h : writesDurable i = false) : durableAfter (exec i s) = some (durable s) := by
  cases i
  case mainPowerLost | devResetNAssert | devSoftReset | flrCleanupDone | otpLc | bootImageLoad | install | nvmWrite | rngKatCtrlRun
     | intSoftPend | maskClear | clearCount | msixUnmask | maintenanceEnter | maintenanceLeave | kqEnable | kqDisable | resetIdx
     | monWindowWrite | monThreshWrite | alarmCfgLock | monFuse | dbgCtrlClose | registerWrite | debugSpaceAccess => cases h
  case nop | vadd | vsub | vmadd | vmsub | vmmul | vmmulm | vmmult | vbfly | vibfly | vsadd | vssub | vrshr | vcmpr | vdcmpr | vp2r
     | vdec | vcacc | vsel | vand | vor | vxor | vshl | vshr | vb2a | va2b | vref | vunmask | vmov | vli | viota | vbcast | vext | vcmp
     | vcmpi | vnorm | plog | pfirst | pcnt | vld | vst | vgth | vsct | vldp | vstp | qset | sli | salu | sld | sst =>
    exact congrArg some (lveStep_durable ..)
  all_goals simp [exec]

/-- User NVM in its canonical form (addresses rising, no entry equal to the blank byte). -/
def Canonical (d : Durable) : Prop := memWf userBlank d.1 = true

theorem canonical_congr {d e : Durable} (h : d.1 = e.1) (he : Canonical e) : Canonical d := by
  rwa [Canonical, h]

theorem eraseUser_canonical (s : State) : Canonical (durable (eraseUser s)) := by rfl

theorem runWipe_canonical {s : State} (frm dst : Lc) (h : Canonical (durable s)) : Canonical (durable (runWipe s frm dst)) := by
  unfold runWipe
  split
  · rfl
  · rw [durable_foldl _ eraseTree_durable]
    exact eraseUser_canonical s
  · exact eraseUser_canonical _
  · exact h

theorem carryMove_canonical {s : State} (failedSlots : List (Nat × Nat)) (frm dst : Lc) (h : Canonical (durable s)) :
    Canonical (durable (carryMove s failedSlots frm dst)) := by
  have hw := runWipe_canonical frm dst h
  unfold carryMove
  dsimp only
  rw [recordLc_durable, durable_mk, durable_eta, writeMark_durable, writeMark_durable, moveCopies_durable]
  split
  · exact h
  · rw [writeMark_durable]
    split
    · rwa [recordLc_durable]
    · exact hw

theorem beforeCopy_canonical {s : State} (frm dst : Lc) (copy : Nat) (h : Canonical (durable s)) :
    Canonical (durable (beforeCopy s frm dst copy)) := by
  have hr : Canonical (durable (resumeErase s)) := by rwa [resumeErase_durable]
  unfold beforeCopy
  dsimp only
  rw [durable_mk, durable_eta]
  split
  · exact hr
  · rw [writeMark_durable]
    exact runWipe_canonical frm dst hr

theorem beforeRecord_canonical {s : State} (region index : Nat) (value : DWord) (h : Canonical (durable s)) :
    Canonical (durable (beforeRecord s region index value)) := by
  have hr : Canonical (durable (resumeErase s)) := by rwa [resumeErase_durable]
  unfold beforeRecord
  split
  · split
    · rw [writeMark_durable]
      exact beforeCopy_canonical _ _ _ h
    · split
      · rwa [putOwnerRoot_durable]
      · exact h
  · split
    · split
      · exact runWipe_canonical _ _ hr
      · exact beforeCopy_canonical _ _ _ h
    · exact h
  · split
    · rwa [erasePersistent_durable]
    · exact h
  · exact h

theorem tornBlocks_canonical {s : State} (cid n : Nat) (h : Canonical (durable s)) : Canonical (durable (tornBlocks s cid n)) := by
  unfold tornBlocks
  split
  · exact h
  · split
    · exact h
    · exact List.foldlRecOn (motive := fun t : State => Canonical (durable t)) _ _ h fun t ht b _ => memWf_memWrite _ _ _ _ ht

theorem tornSlot_canonical {s : State} (copy : Nat) (bits : BitVec 16) (h : Canonical (durable s)) :
    Canonical (durable (tornSlot s copy bits)) := by
  unfold tornSlot
  split
  · split
    · exact beforeCopy_canonical (s := s) _ _ copy h
    · exact h
  · exact h

theorem applyTorn_canonical {s : State} (flight : Bool) (t : Torn) (h : Canonical (durable s)) :
    Canonical (durable (applyTorn flight s t)) := by
  cases t with
  | copy region index value gen margin =>
    unfold applyTorn
    dsimp only
    split
    · exact beforeRecord_canonical _ _ _ h
    · exact h
  | half region index value gen =>
    unfold applyTorn
    dsimp only
    split
    · exact beforeRecord_canonical _ _ _ h
    · exact h
  | record b => exact (tornRecord_durable flight s b).symm ▸ h
  | blocks cid n => exact tornBlocks_canonical cid n h
  | treeErase t => exact (tornTree_durable s t).symm ▸ h
  | treeRecord t => exact (tornTreeRecord_durable s t).symm ▸ h
  | persist w => exact (tornPersist_durable s w).symm ▸ h
  | fuse l => exact (tornFuse_durable s l).symm ▸ h
  | slot copy bits => exact tornSlot_canonical copy bits h
  | monFuse v a b =>
    unfold applyTorn
    dsimp only
    split
    · exact canonical_congr (tornMonFuse_user s v a b) h
    · exact h

theorem cut_canonical {s : State} (flight : Bool) (torn : List Torn) (h : Canonical (durable s)) :
    Canonical (durable (cut flight s torn)) :=
  List.foldlRecOn (motive := fun t : State => Canonical (durable t)) _ _ h fun _ ht x _ => applyTorn_canonical flight x ht

theorem nvmCommit_canonical {s : State} (fails : List Nat) (blocks : List (Nat × Bytes)) (h : Canonical (durable s)) :
    Canonical (durable (nvmCommit s fails blocks).1) := by
  induction blocks generalizing s fails with
  | nil => exact h
  | cons b blocks ih =>
    have hw := wearWrite_durable s 1 8 (fails.headD 0)
    unfold nvmCommit
    split <;> rename_i he <;> rw [he] at hw
    · exact canonical_congr (congrArg Prod.fst hw) h
    · exact ih _ (memWf_memWrite _ _ _ _ (canonical_congr (congrArg Prod.fst hw) h))

/-! ### What the step does to user NVM -/

/-- A meaning answers a state with user NVM in its canonical form. -/
def AnswersCanonical (o : Out) : Prop := ∀ t, o = .next t → Canonical (durable t)

theorem answersCanonical_next {t : State} (h : Canonical (durable t)) : AnswersCanonical (.next t) := by
  rintro _ ⟨⟩
  exact h

theorem answersCanonical_of_user {o : Out} {s : State} (h : userAfter o = some (durable s).1) (hs : Canonical (durable s)) :
    AnswersCanonical o := by
  rintro t rfl
  exact canonical_congr (Option.some.inj h) hs

theorem runOp_canonical {s : State} {cid op : Nat} {k : Cmd → Bytes → Option State} (hs : Canonical (durable s))
    (h : ∀ c d t, k c d = some t → Canonical (durable t)) : Canonical (durable (runOp s cid op k)) := by
  unfold runOp
  split
  · exact hs
  · split
    · rename_i ht
      rw [endDraw_durable]
      exact h _ _ _ ht
    · split
      · rwa [fail_durable]
      · rwa [waitDraw_durable]

theorem execNvmWrite_canonical {s : State} (cid : Nat) (fails : List Nat) (h : Canonical (durable s)) :
    AnswersCanonical (execNvmWrite cid fails s) :=
  answersCanonical_next <| runOp_canonical h fun c d t ht => by
    have hc := nvmCommit_canonical fails (nvmBlocks d.length (le c.entry 44 4) d) h
    split at ht
    · cases ht; exact h
    · split at ht <;> rename_i s1 he <;> rw [he] at hc
      · rw [good_leaves s1 _ _ _ _ rfl t ht]; exact hc
      · rw [bad_leaves s1 _ _ _ rfl t ht]; exact hc

theorem execOtpLc_canonical {s : State} (failedSlots : List (Nat × Nat)) (h : Canonical (durable s)) :
    AnswersCanonical (execOtpLc failedSlots s) := by
  have hr : Canonical (durable (resumeErase s)) := by rwa [resumeErase_durable]
  unfold execOtpLc
  refine answersCanonical_next ?_
  split
  · exact h
  · dsimp only
    split
    · rw [afterOtp_durable]
      exact carryMove_canonical _ _ _ hr
    · rw [afterOtp_durable]
      split
      · rwa [recordLc_durable]
      · exact hr

theorem execMainPowerLost_canonical {s : State} (torn : List Torn) (h : Canonical (durable s)) :
    AnswersCanonical (execMainPowerLost torn s) := by
  unfold execMainPowerLost
  refine answersCanonical_next ?_
  split
  · exact h
  · exact cut_canonical true torn h

theorem execDevResetNAssert_canonical {s : State} (torn : List Torn) (h : Canonical (durable s)) :
    AnswersCanonical (execDevResetNAssert torn s) := by
  unfold execDevResetNAssert
  generalize (if s.sys.mode = .lockdown then 11 else 10) = row
  refine answersCanonical_next ?_
  split
  · exact h
  · dsimp only
    rw [durable_mk, durable_eta, warmBoot_durable]
    exact cut_canonical false torn h

theorem execDevSoftReset_canonical {s : State} (fn : Nat) (value : Word) (torn : List Torn) (h : Canonical (durable s)) :
    AnswersCanonical (execDevSoftReset fn value torn s) := by
  unfold execDevSoftReset
  refine answersCanonical_next ?_
  split
  · exact canonical_congr (barWrite_user ..) (cut_canonical false torn h)
  · exact canonical_congr (barWrite_user ..) h

theorem execFlrCleanupDone_user (fn : Nat) (s : State) : userAfter (execFlrCleanupDone fn s) = some (durable s).1 := by
  unfold execFlrCleanupDone
  split
  · exact congrArg some ((applyHeld_user ..).trans (congrArg Prod.fst (by simp)))
  · rfl

theorem execRegisterWrite_user (fn offset : Nat) (data : BarData) (s : State) :
    userAfter (execRegisterWrite fn offset data s) = some (durable s).1 := by
  unfold execRegisterWrite
  split
  · exact congrArg some (barData_user _ _ _ _ fun b => barBytes_user s fn offset b)
  · rfl

theorem execMsixUnmask_user (fn : Nat) (w : MsixWrite) (s : State) : userAfter (execMsixUnmask fn w s) = some (durable s).1 := by
  unfold execMsixUnmask
  split
  all_goals
    split
    · simp
    · rfl

theorem execDebugSpaceAccess_user (dr : DWord) (s : State) : userAfter (execDebugSpaceAccess dr s) = some (durable s).1 := by
  unfold execDebugSpaceAccess
  dsimp only
  rw [userAfter_next]
  repeat' split
  all_goals simp [writeOrHold_user]

/-- A command that writes a register where a bit of the value asks for it leaves user NVM. -/
theorem barWriteIf_user (p : Prop) [Decidable p] (s : State) (fn off : Nat) (v : Word) :
    userAfter (.next (if p then barWrite s fn off v else s)) = some (durable s).1 := by
  split
  · exact congrArg some (barWrite_user ..)
  · rfl

/-- The same where the bit's absence asks for it. -/
theorem barWriteUnless_user (p : Prop) [Decidable p] (s : State) (fn off : Nat) (v : Word) :
    userAfter (.next (if p then s else barWrite s fn off v)) = some (durable s).1 := by
  split
  · rfl
  · exact congrArg some (barWrite_user ..)

/-- Every meaning keeps the canonical form of user NVM. -/
theorem exec_canonical (i : Instr) {s : State} (h : Canonical (durable s)) : AnswersCanonical (exec i s) := by
  by_cases hw : writesDurable i = false
  · intro t ht
    have hd := exec_durable s hw
    rw [ht, durableAfter_next, Option.some.injEq] at hd
    rwa [hd]
  · cases i
    case mainPowerLost torn => exact execMainPowerLost_canonical torn h
    case devResetNAssert torn => exact execDevResetNAssert_canonical torn h
    case devSoftReset fn v torn => exact execDevSoftReset_canonical fn v torn h
    case otpLc failed => exact execOtpLc_canonical failed h
    case nvmWrite cid fails => exact execNvmWrite_canonical cid fails h
    case flrCleanupDone fn => exact answersCanonical_of_user (execFlrCleanupDone_user fn s) h
    case install fails => exact answersCanonical_of_user (execInstall_user fails s) h
    case msixUnmask fn w => exact answersCanonical_of_user (execMsixUnmask_user fn w s) h
    case registerWrite fn off d => exact answersCanonical_of_user (execRegisterWrite_user fn off d s) h
    case debugSpaceAccess dr => exact answersCanonical_of_user (execDebugSpaceAccess_user dr s) h
    case bootImageLoad | rngKatCtrlRun | intSoftPend | monWindowWrite | monThreshWrite | alarmCfgLock | monFuse | dbgCtrlClose =>
      exact answersCanonical_of_user (congrArg some (barWrite_user ..)) h
    case clearCount | maintenanceEnter | maintenanceLeave | kqEnable | resetIdx =>
      exact answersCanonical_of_user (barWriteIf_user ..) h
    case maskClear | kqDisable => exact answersCanonical_of_user (barWriteUnless_user ..) h
    all_goals exact absurd rfl hw

end Sys2Proof.Machine

namespace Sys2Proof.Proofs

open Sys2Proof.Machine Sys2Proof.Claims

/-- Settles O59: of all meanings only NVM_WRITE, the wipes of life cycle moves and writes cut off by a reset touch user
NVM, and each of these writes through `memWrite` or empties it; every other meaning and the idle step leave it alone. -/
theorem userNvmStaysCanonical : Obligations.UserNvmStaysCanonical := by
  intro s t hwf hstep
  unfold step at hstep
  split at hstep
  · cases hstep
    exact (canonical_congr (congrArg Prod.fst (idle_durable s)) hwf : Canonical (durable (idle s)))
  · rename_i c rest _
    exact exec_canonical c (s := { s with pending := rest }) hwf t hstep

end Sys2Proof.Proofs
end

section
/-!
PROOFS. A recorder write of which no word fails drops no record, however many spare words the wear table counts. The statement on
background work (O53) fails there: it counts a region as worn out whose counted spares alone exceed those it has.
-/

namespace Sys2Proof.Machine

/-! ### Recorder writes without a failing word (R262, R384) -/

@[simp] theorem writeItem_dropped (s : State) (i : RecItem) : (writeItem s i).recorder.dropped = s.recorder.dropped := by
  cases i with
  | record b alarm pin => rfl
  | repeatWord w =>
    cases h : s.nvm.newest <;> simp [writeItem, h]

/-- In a region that is not worn a write succeeds where no word fails its verification. -/
theorem wearWrite_noFails {s : State} {region : Nat} (words : Nat) (h : (getWear s.nvm region).worn = false) :
    (wearWrite s region words 0).2 = true := by
  simp [wearWrite, h]

theorem wearWrite_recorder (s : State) (region words fails : Nat) : (wearWrite s region words fails).1.recorder = s.recorder := by
  unfold wearWrite
  dsimp only
  split <;> rfl

theorem endRecord_noFails_dropped {s : State} (i : RecItem) (rest : List RecItem) (h : (getWear s.nvm 0).worn = false) :
    (endRecord s i rest 0).recorder.dropped = s.recorder.dropped := by
  have hok := wearWrite_noFails (s := { s with recorder := { s.recorder with queue := rest } }) (itemWords i) h
  have hrec := wearWrite_recorder { s with recorder := { s.recorder with queue := rest } } 0 (itemWords i) 0
  unfold endRecord
  split <;> rename_i s1 he <;> rw [he] at hok hrec
  · exact (writeItem_dropped s1 i).trans (congrArg RecSt.dropped hrec :)
  · cases hok

/-- The end of a recorder write with no failing word leaves the count of dropped records. -/
theorem recordCommit_noFails_dropped {s t : State} {i : RecItem} {rest : List RecItem} (hmode : s.sys.mode ≠ .dormant)
    (hmounted : s.recorder.mounted = true) (hqueue : s.recorder.queue = i :: rest) (hodd : s.recorder.seq.getLsbD 0 = true)
    (hworn : (getWear s.nvm 0).worn = false) (h : exec (.recordCommit 0) s = .next t) :
    t.recorder.dropped = s.recorder.dropped := by
  have hexec : exec (.recordCommit 0) s = .next (endRecord s i rest 0) := by
    simp [exec, execRecordCommit, beq_eq_false_iff_ne.mpr hmode, hmounted, hqueue, recWriting, hodd]
  rw [hexec] at h
  cases h
  exact endRecord_noFails_dropped i rest hworn

/-- The device in Service with a recorder write under way, and every region's wear table counting more spares than the recorder has. -/
def overspent : State :=
  { State.reset with
    sys := { State.reset.sys with mode := .service },
    nvm := { State.reset.nvm with wear := Vector.replicate 7 { used := 0, window := 0, spare := 65537, worn := false, life := 0 } },
    recorder := { RecSt.reset with mounted := true, queue := [.repeatWord []], seq := 1 } }

end Sys2Proof.Machine

namespace Sys2Proof.Proofs

open Sys2Proof.Machine Sys2Proof.Claims

/-- Refutes O53: its last clause but one lets a recorder write fail wherever the failing words and the spares counted exceed the
spares of the region. Where the count alone exceeds them and no word fails, the write commits and drops no record. No write of the
model counts so many spares, but the statement is about every state. -/
theorem not_backgroundWork : ¬ Obligations.BackgroundWork := by
  unfold Obligations.BackgroundWork
  intro h
  obtain ⟨-, -, -, -, -, -, -, -, -, -, -, -, -, -, -, -, -, hfail, -⟩ :=
    h overspent 0 0 0 0 (nkdKey overspent (newCmd overspent 0 0 0 []) 0 0 false []) (newBerth overspent 0 0 []) [] (Vector.replicate 4 0) [] [] []
  obtain ⟨t, ht, -, -, -, hdropped, -⟩ := hfail (.repeatWord []) [] (by decide) rfl rfl (by decide) (by decide) (by decide)
  have hkept : t.recorder.dropped = 0 := recordCommit_noFails_dropped (by decide) rfl rfl (by decide) (by decide) ht
  rw [hkept] at hdropped
  exact absurd hdropped (by decide)

end Sys2Proof.Proofs
end

section
/-!
PROOFS. Frames: `Only` as the `hide…` equations of the laws give it, and what is left of the other commands when one ends.
-/

namespace Sys2Proof.Machine

open Sys2Proof.Claims

/-! ### Frames from views -/

theorem same_refl (p : Part) (s : State) : p.same s s := by cases p <;> rfl

theorem same_symm {p : Part} {s t : State} (h : p.same s t) : p.same t s := by
  cases p
  case nvm => exact congrArg (fun n : Nvm => { n with user := t.nvm.user }) h.symm
  all_goals exact Eq.symm h

theorem same_trans {p : Part} {s t u : State} (h : p.same s t) (h' : p.same t u) : p.same s u := by
  cases p
  case nvm =>
    have hnvm := congrArg (fun n : Nvm => { n with user := s.nvm.user }) h'
    exact Eq.trans hnvm h
  all_goals exact Eq.trans h' h

theorem only_refl {s : State} {ps : List Part} : Only s s ps := fun p _ => same_refl p s

theorem only_trans {s t u : State} {ps : List Part} (h : Only s t ps) (h' : Only t u ps) : Only s u ps :=
  fun p hp => same_trans (h p hp) (h' p hp)

theorem only_mono {s t : State} {ps qs : List Part} (h : Only s t ps) (hsub : ∀ p ∈ ps, p ∈ qs) : Only s t qs :=
  fun p hp => h p fun hps => hp (hsub p hps)

/-- Two frames make one over the parts of both. -/
theorem only_union {s t u : State} {ps qs rs : List Part} (h : Only s t ps) (h' : Only t u qs)
    (hp : ∀ p ∈ ps, p ∈ rs) (hq : ∀ p ∈ qs, p ∈ rs) : Only s u rs :=
  only_trans (only_mono h hp) (only_mono h' hq)

/-- What keeps a view that shows all parts but some changes only these. -/
theorem only_of_keeps {v : State → State} {s t : State} {ps : List Part} (h : v t = v s) (hv : ∀ x, Only x (v x) ps) :
    Only s t ps :=
  fun p hp => same_trans (h ▸ hv s p hp) (same_symm (hv t p hp))

theorem only_of_recorder {s t : State} (h : hideRecorder t = hideRecorder s) : Only s t [.recorder] :=
  only_of_keeps h fun x p hp => by
    cases p
    case recorder => simp at hp
    all_goals rfl

theorem only_of_alarms {s t : State} (h : hideAlarms t = hideAlarms s) : Only s t [.alarm, .recorder] :=
  only_of_keeps h fun x p hp => by
    cases p
    case alarm | recorder => simp at hp
    all_goals rfl

theorem only_of_run {s t : State} (h : hideRun t = hideRun s) : Only s t [.cmds, .eng, .fns, .bus] :=
  only_of_keeps h fun x p hp => by
    cases p
    case cmds | eng | fns | bus => simp at hp
    all_goals rfl

theorem only_of_fault {s t : State} (h : hideFault t = hideFault s) : Only s t [.eng, .cmds, .recorder, .fns, .bus] :=
  only_of_keeps h fun x p hp => by
    cases p
    case eng | cmds | recorder | fns | bus => simp at hp
    all_goals rfl

theorem only_of_keys {s t : State} (h : hideKeys t = hideKeys s) : Only s t [.keys] :=
  only_of_keeps h fun x p hp => by
    cases p
    case keys => simp at hp
    all_goals rfl

theorem only_of_eng {s : State} {e : Eng} : Only s { s with eng := e } [.eng] := fun p hp => by
  cases p
  case eng => simp at hp
  all_goals rfl

theorem only_of_boot {s : State} {b : BootSt} : Only s { s with boot := b } [.boot] := fun p hp => by
  cases p
  case boot => simp at hp
  all_goals rfl

/-! ### Commands that end -/

theorem mem_of_getCmd {s : State} {cid : Nat} {c : Cmd} (h : getCmd s cid = some c) : c ∈ s.cmds := List.mem_of_find?_eq_some h

theorem getCmd_isSome_of_mem {s : State} {c : Cmd} (h : c ∈ s.cmds) : (getCmd s c.id).isSome = true := by
  rw [getCmd, List.find?_isSome]
  exact ⟨c, h, by simp⟩

theorem modCmd_modCmd (s : State) (cid : Nat) (f g : Cmd → Cmd) (hf : ∀ c, (f c).id = c.id) :
    (modCmd (modCmd s cid f) cid g).cmds = (modCmd s cid fun c => g (f c)).cmds := by
  simp only [modCmd, List.map_map]
  refine List.map_congr_left fun c _ => ?_
  simp only [Function.comp_apply]
  split <;> simp_all

theorem dropInput_cmds (s : State) (cid : Nat) :
    ∃ f : Cmd → Cmd, (dropInput s cid).cmds = (modCmd s cid f).cmds ∧ ∀ c, (f c).id = c.id := by
  unfold dropInput
  split
  · exact ⟨id, by simp [modCmd], fun _ => rfl⟩
  · dsimp only
    split <;> exact ⟨_, rfl, fun _ => rfl⟩

theorem issueOut_cmds (s : State) (cid : Nat) :
    ∃ f : Cmd → Cmd, (issueOut s cid).cmds = (modCmd s cid f).cmds ∧ ∀ c, (f c).id = c.id ∧ (f c).phase = c.phase := by
  have hid : ∃ f : Cmd → Cmd, s.cmds = (modCmd s cid f).cmds ∧ ∀ c, (f c).id = c.id ∧ (f c).phase = c.phase :=
    ⟨id, by simp [modCmd], fun _ => ⟨rfl, rfl⟩⟩
  unfold issueOut
  split
  · exact hid
  · split
    · split
      · refine ⟨fun x => { x with issued := true, staged := 0, hold := [] }, ?_, fun _ => ⟨rfl, rfl⟩⟩
        simp only [modCmd, hideBus_cmds (outputWrites_keeps ..)]
      · exact hid
    · exact hid

/-- The end of a command changes that command alone, and leaves it finished. -/
theorem finish_cmds (s : State) (cid : Nat) (r : Result) :
    ∃ f : Cmd → Cmd, (finish s cid r).cmds = (modCmd s cid f).cmds ∧ ∀ c, (f c).id = c.id ∧ (f c).phase = .fin r := by
  obtain ⟨f, hf, hfid⟩ := dropInput_cmds s cid
  obtain ⟨g, hg, hgid⟩ := issueOut_cmds (modCmd (releaseLves (dropInput s cid) cid) cid fun c => finished s c r) cid
  refine ⟨fun c => g (finished s (f c) r), ?_, fun c => ⟨(hgid _).1.trans (hfid c), (hgid _).2⟩⟩
  have hrest : (modCmd (releaseLves (dropInput s cid) cid) cid fun c => finished s c r).cmds =
      (modCmd s cid fun c => finished s (f c) r).cmds := by
    refine Eq.trans ?_ (modCmd_modCmd s cid f (fun c => finished s c r) hfid)
    simp only [modCmd, releaseLves] at hf ⊢
    rw [hf]
  have hlast := modCmd_modCmd s cid (fun c => finished s (f c) r) g hfid
  rw [← hlast]
  simp only [modCmd] at hg hrest ⊢
  rw [← hrest]
  exact hg

theorem getCmd_congr {s t : State} (h : t.cmds = s.cmds) (x : Nat) : getCmd t x = getCmd s x := by rw [getCmd, h]; rfl

theorem getCmd_fail_ne (s : State) {cid x : Nat} (st : Status) (d : Nat) (h : x ≠ cid) :
    getCmd (fail s cid st d) x = getCmd s x := by
  obtain ⟨f, hf, hfid⟩ := finish_cmds s cid { status := st, detail := d, out := [] }
  exact (getCmd_congr hf x).trans (getCmd_modCmd_ne s f (fun c => (hfid c).1) h)

theorem fail_ended {s : State} {cid : Nat} (st : Status) (d : Nat) (h : (getCmd s cid).isSome = true) :
    Ended (fail s cid st d) cid st d [] := by
  obtain ⟨c, hc⟩ := Option.isSome_iff_exists.mp h
  exact finish_phase s cid _ c hc

theorem getCmd_fail_isSome {s : State} {x : Nat} (cid : Nat) (st : Status) (d : Nat) (h : (getCmd s x).isSome = true) :
    (getCmd (fail s cid st d) x).isSome = true := by
  by_cases hx : x = cid
  · subst hx
    have he := congrArg Option.isSome (fail_ended st d h)
    simpa using he
  · rwa [getCmd_fail_ne s st d hx]

/-- Of commands that end one after another, each is left with the result. -/
theorem foldl_fail_ended {st : Status} {d x : Nat} {l : List Nat} (hx : x ∈ l) {s : State} (h : (getCmd s x).isSome = true) :
    Ended (l.foldl (fun t cid => fail t cid st d) s) x st d [] := by
  have hkeep : ∀ (l : List Nat) (t : State), x ∉ l →
      getCmd (l.foldl (fun t cid => fail t cid st d) t) x = getCmd t x := by
    intro l
    induction l with
    | nil => intro t _; rfl
    | cons a l ih =>
      intro t hl
      rw [List.mem_cons, not_or] at hl
      rw [List.foldl_cons, ih _ hl.2, getCmd_fail_ne t st d hl.1]
  induction l generalizing s with
  | nil => cases hx
  | cons a l ih =>
    rw [List.foldl_cons]
    by_cases hl : x ∈ l
    · exact ih hl (getCmd_fail_isSome a st d h)
    · obtain rfl : x = a := (List.mem_cons.mp hx).resolve_right hl
      rw [Ended, hkeep l _ hl]
      exact fail_ended st d h

/-- Ends of commands change no more than the end of one. -/
theorem foldl_fail_keeps (st : Status) (d : Nat) (l : List Nat) (s : State) :
    hideRun (l.foldl (fun t cid => fail t cid st d) s) = hideRun s :=
  foldl_keeps hideRun _ (fun t cid => fail_keeps t cid st d) l s

/-! ### Alarm events -/

theorem getMon_mapIdx {s t : State} {n : Nat} {m : Mon} (hn : n < 16)
    (h : t.alarm.mons = s.alarm.mons.mapIdx fun i x => if i = n then m else x) (j : Nat) :
    getMon t j = if j = n then m else getMon s j := by
  unfold getMon
  rw [h]
  by_cases hj : j < 16
  · simp [Array.getD, hj, Vector.size_toArray]
  · have hne : j ≠ n := by omega
    simp [Array.getD, hj, Vector.size_toArray, hne]

/-- A source's monitor after an event (R369). -/
def monAfter (s : State) (n : Nat) : Mon :=
  let m := getMon s n
  let u := tickNat s / 100
  let h := (m.hist ++ [u]).filter fun t => decide (u - t < m.w)
  let fires := decide (m.n ≤ h.length)
  { m with hist := if fires then [] else h, inWin := if fires then 0 else h.length, total := satAdd m.total 1 0xFFFFFF }

theorem alarmEvent_mons {s : State} {n : Nat} (d : Bytes) (hfused : fused s n = false) :
    (alarmEvent s n d).alarm.mons = s.alarm.mons.mapIdx fun i x => if i = n then monAfter s n else x := by
  have hrec : ∀ t : State, (record t 0x0001 n d).alarm = t.alarm := fun t => (congrArg State.alarm (record_keeps t 1 n d) :)
  simp only [alarmEvent, hfused, Bool.false_eq_true, if_false, apply_ite State.alarm, apply_ite AlarmSt.mons, hrec, ite_self,
    monAfter]

/-- An event of a source that is not fused off is counted on it. -/
theorem alarmEvent_counted {s : State} {n : Nat} (d : Bytes) (hn : n < 16) (hfused : fused s n = false) :
    Counted s (alarmEvent s n d) n := by
  have hget := getMon_mapIdx hn (alarmEvent_mons d hfused)
  refine ⟨?_, fun j hj => ?_⟩
  · rw [hget, if_pos rfl]
    rfl
  · rw [hget, if_neg hj]

end Sys2Proof.Machine
end

section
/-!
PROOFS. The loss of an engine, a key, a berth (Tables 10 and 70): what stays in service, what stays held, and how the commands that used
it end.
-/

namespace Sys2Proof.Machine

open Sys2Proof.Claims

/-! ### Engines in service -/

/-- Whether engines are in service at all, and those retired. -/
def service (s : State) : Bool × List (Nat × Nat) := (s.eng.inService, s.eng.retired)

theorem inService_congr {s t : State} (h : service t = service s) (kind i : Nat) : inService t kind i = inService s kind i := by
  obtain ⟨hs, hr⟩ := Prod.mk.inj h
  rw [inService, inService, hs, hr]

theorem issueOut_service (s : State) (cid : Nat) : service (issueOut s cid) = service s := by
  unfold issueOut
  split
  · rfl
  · split
    · split
      · have h := congrArg service (outputWrites_keeps s ‹Cmd› ‹Result›)
        exact h
      · rfl
    · rfl

theorem dropInput_service (s : State) (cid : Nat) : service (dropInput s cid) = service s := by
  unfold dropInput
  split
  · rfl
  · dsimp only
    split <;> rfl

theorem finish_service (s : State) (cid : Nat) (r : Result) : service (finish s cid r) = service s :=
  (issueOut_service (modCmd (releaseLves (dropInput s cid) cid) cid fun c => finished s c r) cid).trans (dropInput_service s cid)

theorem fail_service (s : State) (cid : Nat) (st : Status) (d : Nat) : service (fail s cid st d) = service s := finish_service ..

theorem faultCmd_service (s : State) (cid cause kind i : Nat) : service (faultCmd s cid cause kind i) = service s := by
  unfold faultCmd
  split
  · rfl
  · rename_i c _
    dsimp only
    generalize (if c.avoid.contains (kind, i) || decide (i ≥ engCount kind) then c.avoid else c.avoid ++ [(kind, i)]) = avoid
    split
    · exact fail_service ..
    · split
      · exact fail_service ..
      · rfl

/-- A retired engine is noted as such once. -/
theorem retireEngine_service (s : State) (kind i cause : Nat) : service (retireEngine s kind i cause) =
    (s.eng.inService, if s.eng.retired.contains (kind, i) then s.eng.retired else s.eng.retired ++ [(kind, i)]) := by
  unfold retireEngine
  dsimp only
  split <;> exact congrArg service (recordFault_keeps ..)

theorem faultEngine_service (s : State) (kind i cause : Nat) :
    service (faultEngine s kind i cause) = service (retireEngine s kind i cause) :=
  foldl_keeps service (fun t (c : Cmd) => faultCmd t c.id cause kind i) (fun t c => faultCmd_service t c.id cause kind i) _ _

theorem inService_retired {s t : State} {kind i : Nat} (h : service t =
    (s.eng.inService, if s.eng.retired.contains (kind, i) then s.eng.retired else s.eng.retired ++ [(kind, i)])) :
    inService t kind i = false ∧ ∀ k j, (k, j) ≠ (kind, i) → inService t k j = inService s k j := by
  obtain ⟨hs, hr⟩ := Prod.mk.inj h
  refine ⟨?_, fun k j hne => ?_⟩
  · rw [inService, hs, hr]
    split <;> simp_all
  · rw [inService, inService, hs, hr]
    split
    · rfl
    · simp only [List.contains_append, List.contains_cons, List.contains_nil, Bool.or_false, beq_eq_false_iff_ne.mpr hne]

theorem inService_retireEngine (s : State) (kind i cause : Nat) : inService (retireEngine s kind i cause) kind i = false ∧
    ∀ k j, (k, j) ≠ (kind, i) → inService (retireEngine s kind i cause) k j = inService s k j :=
  inService_retired (retireEngine_service ..)

theorem inService_faultEngine (s : State) (kind i cause : Nat) : inService (faultEngine s kind i cause) kind i = false ∧
    ∀ k j, (k, j) ≠ (kind, i) → inService (faultEngine s kind i cause) k j = inService s k j :=
  inService_retired ((faultEngine_service ..).trans (retireEngine_service ..))

/-! ### The command on a faulted engine -/

theorem cmds_of_recorder {s t : State} (h : hideRecorder t = hideRecorder s) : t.cmds = s.cmds := (congrArg State.cmds h :)

theorem recordFault_cmds (s : State) (cause kind i planId element addr : Nat) :
    (recordFault s cause kind i planId element addr).cmds = s.cmds :=
  cmds_of_recorder (recordFault_keeps ..)

theorem retireEngine_cmds (s : State) (kind i cause : Nat) : (retireEngine s kind i cause).cmds = s.cmds := by
  unfold retireEngine
  dsimp only
  split <;> exact recordFault_cmds ..

/-- A command that has been rerun ends when its engine faults again (Table 70). -/
theorem faultEngine_ended {s : State} {kind i : Nat} {c : Cmd} (cause : Nat) (hholds : holders s kind i = [c])
    (hc : getCmd s c.id = some c) (hreran : c.reran = true) :
    Ended (faultEngine s kind i cause) c.id .engineFault (faultDetail cause kind i) [] := by
  have hget : getCmd (retireEngine s kind i cause) c.id = some c := by
    rw [getCmd_congr (retireEngine_cmds s kind i cause), hc]
  rw [faultEngine, hholds, List.foldl_cons, List.foldl_nil, faultCmd, hget]
  simp only [hreran, if_true]
  exact fail_ended _ _ (by rw [hget]; rfl)

/-! ### Lost keys and berths (Table 10) -/

theorem loseKey_only {s : State} {g : Nat} : Only s (loseKey s g) [.keys, .cmds, .eng, .fns, .bus] :=
  only_union (only_of_keys (zeroiseKey_keeps s g)) (only_of_run (foldl_fail_keeps ..)) (by decide) (by decide)

/-- A key that is lost is gone, and no other is. -/
theorem loseKey_keys (s : State) (g x : Nat) :
    Map.get? (loseKey s g).keys.keys x = if x = g then none else Map.get? s.keys.keys x := by
  have h : (loseKey s g).keys = (zeroiseKey s g).keys := (congrArg State.keys (foldl_fail_keeps ..) :)
  rw [h]
  exact Map.get?_del ..

/-- The commands that named it and have not finished end. -/
theorem loseKey_ended {s : State} {g : Nat} {c : Cmd} (hc : c ∈ s.cmds) (hnames : namesKey c g = true)
    (hun : unfinished c = true) : Ended (loseKey s g) c.id .keyEmpty 0 [] := by
  have hmem : c.id ∈ ((zeroiseKey s g).cmds.filter fun c => namesKey c g && unfinished c).map (·.id) :=
    List.mem_map_of_mem (List.mem_filter.mpr ⟨hc, by simp [hnames, hun]⟩)
  exact foldl_fail_ended hmem (getCmd_isSome_of_mem (s := zeroiseKey s g) hc)

theorem loseBerth_only {s : State} {i : Nat} : Only s (loseBerth s i) [.keys, .cmds, .eng, .fns, .bus] :=
  only_union (only_of_keys (freeBerth_keeps s i)) (only_of_run (foldl_fail_keeps ..)) (by decide) (by decide)

/-- A berth that is lost is gone, and no other is. -/
theorem loseBerth_berths (s : State) (i x : Nat) :
    Map.get? (loseBerth s i).keys.berths x = if x = i then none else Map.get? s.keys.berths x := by
  have h : (loseBerth s i).keys = (freeBerth s i).keys := (congrArg State.keys (foldl_fail_keeps ..) :)
  rw [h]
  exact Map.get?_del ..

theorem loseBerth_ended {s : State} {i : Nat} {c : Cmd} (hc : c ∈ s.cmds) (hnames : c.berth = some i)
    (hun : unfinished c = true) : Ended (loseBerth s i) c.id .berthUnknown 0 [] := by
  have hmem : c.id ∈ (s.cmds.filter fun c => c.berth == some i && unfinished c).map (·.id) :=
    List.mem_map_of_mem (List.mem_filter.mpr ⟨hc, by simp [hnames, hun]⟩)
  exact foldl_fail_ended hmem (getCmd_isSome_of_mem (s := freeBerth s i) hc)

end Sys2Proof.Machine
end

section
/-!
PROOFS. Errors of words of on-chip SRAM and of graphics memory (O52): each row's meaning through what it loses.
-/

namespace Sys2Proof.Machine

open Sys2Proof.Claims

/-! ### On-chip SRAM (R24, R25) -/

/-- The state with an uncorrectable word's record in the recorder. -/
def sramNoted (s : State) (r : SramRegion) (w : Nat) : State :=
  record s 0x1002 (sramRow r) (leBytes 4 w ++ leBytes 4 (sramWhat r))

theorem sramNoted_keeps (s : State) (r : SramRegion) (w : Nat) : hideRecorder (sramNoted s r w) = hideRecorder s := record_keeps ..

theorem sramNoted_only {s : State} {r : SramRegion} {w : Nat} : Only s (sramNoted s r w) [.recorder] :=
  only_of_recorder (sramNoted_keeps ..)

theorem sramNoted_keys (s : State) (r : SramRegion) (w : Nat) : (sramNoted s r w).keys = s.keys :=
  (congrArg State.keys (sramNoted_keeps s r w) :)

theorem sramNoted_cmds (s : State) (r : SramRegion) (w : Nat) : (sramNoted s r w).cmds = s.cmds := cmds_of_recorder (sramNoted_keeps ..)

theorem sramNoted_service (s : State) (r : SramRegion) (w : Nat) : service (sramNoted s r w) = service s :=
  (congrArg service (sramNoted_keeps s r w) :)

theorem exec_sramUncorrectable {s : State} {r : SramRegion} {w : Nat} (hm : s.sys.mode ≠ .dormant) (hfits : sramFits r w = true) :
    exec (.sramUncorrectable r w) s = .next (sramResponse (sramNoted s r w) r) := by
  simp [exec, execSramUncorrectable, hm, hfits, sramNoted]

theorem sramCorrected_completes {s : State} {r w : Nat} (hm : s.sys.mode ≠ .dormant) (hok : sramWordOk r w = true) :
    Completes (.sramCorrected r w) s fun t => Only s t [.recorder] :=
  ⟨record s 0x1001 r (leBytes 4 w), by simp [exec, execSramCorrected, hm, hok], only_of_recorder (record_keeps ..)⟩

/-- A failed word of the key register takes the key whose granule it is (log 52). -/
theorem keyRegister_completes {s : State} {w cid g h : Nat} (c : Cmd) (hm : s.sys.mode ≠ .dormant)
    (hfits : sramFits (.keyRegister g) w = true) (hg : keyOfGranule s g = some h) :
    Completes (.sramUncorrectable (.keyRegister g) w) s fun t => Only s t [.keys, .cmds, .eng, .fns, .bus, .recorder] ∧
      Map.get? t.keys.keys h = none ∧ (∀ x, x ≠ h → Map.get? t.keys.keys x = Map.get? s.keys.keys x) ∧
      (getCmd s cid = some c → namesKey c h = true → unfinished c = true → Ended t cid .keyEmpty 0 []) := by
  have hg' : keyOfGranule (sramNoted s (.keyRegister g) w) g = some h := by rw [keyOfGranule, sramNoted_keys, ← hg]; rfl
  refine ⟨loseKey (sramNoted s (.keyRegister g) w) h, ?_, ?_, ?_, fun x hx => ?_, fun hc hnames hun => ?_⟩
  · rw [exec_sramUncorrectable hm hfits, sramResponse, hg']
  · exact only_union sramNoted_only loseKey_only (by decide) (by decide)
  · rw [loseKey_keys, if_pos rfl]
  · rw [loseKey_keys, if_neg hx, sramNoted_keys]
  · have hmem : c ∈ (sramNoted s (.keyRegister g) w).cmds := by
      rw [sramNoted_cmds]
      exact mem_of_getCmd hc
    exact getCmd_id hc ▸ loseKey_ended hmem hnames hun

/-- A failed word of the berth table takes the resident berth there, and its entry for good. -/
theorem berthTable_completes {s : State} {w cid i : Nat} {b : Berth} (c : Cmd) (hm : s.sys.mode ≠ .dormant)
    (hfits : sramFits (.berthTable i) w = true) (hb : Map.get? s.keys.berths i = some b) (hres : b.spilled = false) :
    Completes (.sramUncorrectable (.berthTable i) w) s fun t => Only s t [.keys, .cmds, .eng, .fns, .bus, .recorder] ∧
      Map.get? t.keys.berths i = none ∧ (∀ j, j ≠ i → Map.get? t.keys.berths j = Map.get? s.keys.berths j) ∧
      (getCmd s cid = some c → c.berth = some i → unfinished c = true → Ended t cid .berthUnknown 0 []) := by
  let u := loseBerth (sramNoted s (.berthTable i) w) i
  refine ⟨{ u with keys := { u.keys with deadEntry := insertNat i u.keys.deadEntry } }, ?_, ?_, ?_, fun x hx => ?_,
    fun hc hnames hun => ?_⟩
  · have hany : (Map.get? (sramNoted s (.berthTable i) w).keys.berths i).any (!·.spilled) = true := by
      simp [sramNoted_keys, hb, hres]
    rw [exec_sramUncorrectable hm hfits, sramResponse]
    simp only [hany, if_true]
    rfl
  · have hlose : Only (sramNoted s (.berthTable i) w) u [.keys, .cmds, .eng, .fns, .bus] := loseBerth_only
    exact only_union sramNoted_only (only_union hlose (only_of_keys rfl) (fun _ h => h) (by decide)) (by decide) (by decide)
  · exact (loseBerth_berths ..).trans (if_pos rfl)
  · exact (loseBerth_berths ..).trans ((if_neg hx).trans (by rw [sramNoted_keys]))
  · have hmem : c ∈ (sramNoted s (.berthTable i) w).cmds := by
      rw [sramNoted_cmds]
      exact mem_of_getCmd hc
    exact getCmd_id hc ▸ (loseBerth_ended hmem hnames hun : Ended u c.id .berthUnknown 0 [])

/-- A failed word of an engine's scratch memory retires the engine. -/
theorem scratch_completes {s : State} {w kind i : Nat} (hm : s.sys.mode ≠ .dormant) (hfits : sramFits (.scratch kind i) w = true)
    (hin : inService s kind i = true) :
    Completes (.sramUncorrectable (.scratch kind i) w) s fun t => Only s t [.eng, .cmds, .fns, .bus, .recorder] ∧
      inService t kind i = false ∧ ∀ k j, (k, j) ≠ (kind, i) → inService t k j = inService s k j := by
  have hkeep := inService_congr (sramNoted_service s (.scratch kind i) w)
  obtain ⟨hout, hothers⟩ := inService_faultEngine (sramNoted s (.scratch kind i) w) kind i 4
  refine ⟨_, ?_, ?_, hout, fun k j hne => (hothers k j hne).trans (hkeep k j)⟩
  · rw [exec_sramUncorrectable hm hfits, sramResponse, hkeep, hin]
    rfl
  · exact only_union sramNoted_only (only_of_fault (faultEngine_keeps ..)) (by decide) (by decide)

/-- A failed word of a wharf slot ends its command. -/
theorem wharf_completes {s : State} {w cid : Nat} {c : Cmd} (hm : s.sys.mode ≠ .dormant) (hfits : sramFits (.wharf cid) w = true)
    (hc : getCmd s cid = some c) :
    Completes (.sramUncorrectable (.wharf cid) w) s fun t =>
      Only s t [.cmds, .eng, .fns, .bus, .recorder] ∧ Ended t cid .engineFault 8 [] := by
  have hsome : (getCmd (sramNoted s (.wharf cid) w) cid).isSome = true := by
    rw [getCmd_congr (sramNoted_cmds ..), hc]
    rfl
  refine ⟨fail (sramNoted s (.wharf cid) w) cid .engineFault 8, ?_, ?_, fail_ended _ _ hsome⟩
  · rw [exec_sramUncorrectable hm hfits, sramResponse, if_pos hsome]
  · exact only_union sramNoted_only (only_of_run (fail_keeps ..)) (by decide) (by decide)

/-! ### Events of the monitors (R369) -/

theorem monEvent_keeps (s : State) (n : Nat) (d : Bytes) : hideAlarms (monEvent s n d) = hideAlarms s := by
  unfold monEvent
  split
  · exact alarmEvent_keeps ..
  · rfl

/-- An event is counted while the monitors run, and is nothing while they do not. -/
theorem monEvent_counted {s : State} {n : Nat} (d : Bytes) (hn : n < 16) (hfused : fused s n = false) :
    if monitorsRun s = true then Counted s (monEvent s n d) n else monEvent s n d = s := by
  split
  · rename_i h
    rw [monEvent, if_pos h]
    exact alarmEvent_counted d hn hfused
  · rename_i h
    rw [monEvent, if_neg h]

/-- What counts an event of the alarms as they are, counts it in every state with these alarms. -/
theorem counted_congr {s s' t t' : State} {n : Nat} (hs : s'.alarm = s.alarm) (ht : t'.alarm = t.alarm) (h : Counted s t n) :
    Counted s' t' n := by
  have hget : ∀ {x y : State}, x.alarm = y.alarm → ∀ j, getMon x j = getMon y j := fun hxy j => by rw [getMon, hxy]; rfl
  simp only [Counted, hget hs, hget ht]
  exact h

theorem controlStore_completes {s : State} {w : Nat} (hm : s.sys.mode ≠ .dormant) (hfits : sramFits .controlStore w = true)
    (hfused : fused s 13 = false) :
    Completes (.sramUncorrectable .controlStore w) s fun t => Only s t [.alarm, .recorder] ∧
      if monitorsRun s = true then Counted s t 13 else t.alarm = s.alarm := by
  let u := sramNoted s .controlStore w
  have halarm : u.alarm = s.alarm := (congrArg State.alarm (sramNoted_keeps s .controlStore w) :)
  have hrun : monitorsRun u = monitorsRun s := (congrArg monitorsRun (sramNoted_keeps s .controlStore w) :)
  have hfuse : fused u 13 = false := (congrArg (fused · 13) (sramNoted_keeps s .controlStore w) :).trans hfused
  have hcount := monEvent_counted [2] (by decide : 13 < 16) hfuse
  rw [hrun] at hcount
  refine ⟨monEvent u 13 [2], ?_, ?_, ?_⟩
  · rw [exec_sramUncorrectable hm hfits]
    rfl
  · exact only_trans (only_mono sramNoted_only (by decide)) (only_of_alarms (monEvent_keeps ..))
  · split <;> rename_i h
    · rw [if_pos h] at hcount
      exact counted_congr halarm.symm rfl hcount
    · rw [if_neg h] at hcount
      rw [hcount, halarm]

/-! ### Graphics memory (R30, R440) -/

/-- A block that a command reads and that fails its MAC check is one event, then the loss of its region. -/
theorem gmFail_eq {s : State} {r : GmRegion} (hm : s.sys.mode ≠ .dormant) (hreads : gmReads s r = true) :
    gmFail s r = gmLoss (monEvent s 15 [1]) r := by
  simp [gmFail, hm, hreads]

theorem gmReads_working {s : State} {cid : Nat} {c : Cmd} (hc : getCmd s cid = some c) (hun : unfinished c = true) :
    gmReads s (.working cid) = true := by
  simp [gmReads, hc, hun]

theorem monEvent_cmds (s : State) (n : Nat) (d : Bytes) : (monEvent s n d).cmds = s.cmds :=
  (congrArg State.cmds (monEvent_keeps s n d) :)

theorem monEvent_eng (s : State) (n : Nat) (d : Bytes) : (monEvent s n d).eng = s.eng :=
  (congrArg State.eng (monEvent_keeps s n d) :)

/-- A command whose working memory fails its check ends ST_ENGINE_FAULT. -/
theorem gmFail_working {s : State} {cid : Nat} {c : Cmd} (hm : s.sys.mode ≠ .dormant) (hc : getCmd s cid = some c)
    (hun : unfinished c = true) :
    gmFail s (.working cid) = fail (monEvent s 15 [1]) cid .engineFault 9 ∧
      Only s (gmFail s (.working cid)) [.alarm, .recorder, .cmds, .eng, .fns, .bus] ∧
      Ended (gmFail s (.working cid)) cid .engineFault 9 [] := by
  have heq : gmFail s (.working cid) = fail (monEvent s 15 [1]) cid .engineFault 9 := gmFail_eq hm (gmReads_working hc hun)
  rw [heq]
  refine ⟨rfl, ?_, fail_ended _ _ ?_⟩
  · exact only_union (only_of_alarms (monEvent_keeps ..)) (only_of_run (fail_keeps ..)) (by decide) (by decide)
  · rw [getCmd_congr (monEvent_cmds ..), hc]
    rfl

theorem gmMacFail_working_completes {s : State} {cid : Nat} {c : Cmd} (hm : s.sys.mode ≠ .dormant) (hc : getCmd s cid = some c)
    (hun : unfinished c = true) (hfused : fused s 15 = false) :
    Completes (.gmMacFail (.working cid)) s fun t => Only s t [.alarm, .recorder, .cmds, .eng, .fns, .bus] ∧
      (if monitorsRun s = true then Counted s t 15 else t.alarm = s.alarm) ∧ Ended t cid .engineFault 9 [] := by
  obtain ⟨heq, honly, hended⟩ := gmFail_working hm hc hun
  have halarm : (gmFail s (.working cid)).alarm = (monEvent s 15 [1]).alarm := by
    rw [heq]
    exact (congrArg State.alarm (fail_keeps (monEvent s 15 [1]) cid .engineFault 9) :)
  have hcount := monEvent_counted [1] (by decide : 15 < 16) hfused
  refine ⟨_, rfl, honly, ?_, hended⟩
  split <;> rename_i h
  · rw [if_pos h] at hcount
    exact counted_congr rfl halarm hcount
  · rw [if_neg h] at hcount
    rw [halarm, hcount]

/-- A cached item whose block fails its check leaves the cache. -/
theorem gmMacFail_cache_completes {s : State} {cid i : Nat} (hm : s.sys.mode ≠ .dormant) (hreads : gmReads s (.cache cid i) = true)
    (hfused : fused s 15 = false) :
    Completes (.gmMacFail (.cache cid i)) s fun t => Only s t [.alarm, .recorder, .eng] ∧
      (if monitorsRun s = true then Counted s t 15 else t.alarm = s.alarm) ∧
      t.eng = { s.eng with cache := s.eng.cache.eraseIdx i } := by
  have hcount := monEvent_counted [1] (by decide : 15 < 16) hfused
  refine ⟨gmLoss (monEvent s 15 [1]) (.cache cid i), congrArg Host.Outcome.next (gmFail_eq hm hreads), ?_, ?_, ?_⟩
  · exact only_union (only_of_alarms (monEvent_keeps ..)) only_of_eng (by decide) (by decide)
  · split <;> rename_i h
    · rw [if_pos h] at hcount
      exact counted_congr rfl rfl hcount
    · rw [if_neg h] at hcount
      exact (congrArg State.alarm hcount :)
  · rw [gmLoss, monEvent_eng]

theorem edcRetry_recovered {s : State} {w : Nat} (r : GmRegion) (hm : s.sys.mode ≠ .dormant) (hlo : 1 ≤ w) (hhi : w ≤ 4) :
    exec (.edcRetry w false r) s = .next (countRetries s w 0) := by
  simp [exec, execEdcRetry, hm, hlo, hhi]

theorem edcRetry_retrained {s : State} (r : GmRegion) (hm : s.sys.mode ≠ .dormant) :
    exec (.edcRetry 5 false r) s = .next (countRetries s 4 1) := by
  simp [exec, execEdcRetry, hm]

theorem edcRetry_readFailed {s : State} (r : GmRegion) (hm : s.sys.mode ≠ .dormant) :
    exec (.edcRetry 0 false r) s = .next (gmFail (countRetries s 4 1) r) := by
  simp [exec, execEdcRetry, hm]

theorem edcRetry_writeFailed {s : State} (r : GmRegion) (hm : s.sys.mode ≠ .dormant) :
    exec (.edcRetry 0 true r) s = .next (badWrite (countRetries s 4 1) r) := by
  simp [exec, execEdcRetry, hm]

theorem edcRetry_working_completes {s : State} {cid : Nat} {c : Cmd} (hm : s.sys.mode ≠ .dormant) (hc : getCmd s cid = some c)
    (hun : unfinished c = true) :
    Completes (.edcRetry 0 false (.working cid)) s fun t => Only s t [.boot, .alarm, .recorder, .cmds, .eng, .fns, .bus] ∧
      t.boot.retries = min (s.boot.retries + 4) 65535 ∧ Ended t cid .engineFault 9 [] := by
  obtain ⟨-, honly, hended⟩ := gmFail_working (s := countRetries s 4 1) hm hc hun
  refine ⟨_, edcRetry_readFailed _ hm, ?_, ?_, hended⟩
  · exact only_union only_of_boot honly (by decide) (by decide)
  · exact congrArg BootSt.retries (honly .boot (by decide))

/-- A write that fails every try leaves an item outside the cache spoilt in the list of these. -/
theorem badWrite_listed {s : State} {r : GmRegion} (hr : ∀ x y, r ≠ .cache x y) :
    gmIsBad (badWrite s r) r = true ∧ Only s (badWrite s r) [.boot] ∧ (badWrite s r).boot.retries = s.boot.retries ∧
      (badWrite s r).boot.retrains = s.boot.retrains := by
  have heq : badWrite s r =
      if gmIsBad s r then s else { s with boot := { s.boot with gmBad := s.boot.gmBad ++ [gmItem r] } } := by
    cases r with
    | cache x y => exact absurd rfl (hr x y)
    | planStore | keySpill | berthSpill | working => rfl
  rw [heq]
  split
  · rename_i h
    exact ⟨h, only_refl, rfl, rfl⟩
  · exact ⟨by simp [gmIsBad], only_of_boot, rfl, rfl⟩

theorem edcRetry_badWrite_completes {s : State} {r : GmRegion} (hm : s.sys.mode ≠ .dormant) (hr : ∀ x y, r ≠ .cache x y) :
    Completes (.edcRetry 0 true r) s fun t => Only s t [.boot] ∧ gmIsBad t r = true ∧
      t.boot.retries = min (s.boot.retries + 4) 65535 ∧ t.boot.retrains = min (s.boot.retrains + 1) 255 := by
  obtain ⟨hbad, honly, hretries, hretrains⟩ := badWrite_listed (s := countRetries s 4 1) hr
  exact ⟨_, edcRetry_writeFailed r hm, only_trans only_of_boot honly, hbad, hretries, hretrains⟩

/-- Of a cached item the entry itself is marked. -/
theorem edcRetry_badCache_completes {s : State} {cid i : Nat} {x : CacheEnt} (hm : s.sys.mode ≠ .dormant)
    (hx : s.eng.cache[i]? = some x) :
    Completes (.edcRetry 0 true (.cache cid i)) s fun t => Only s t [.boot, .eng] ∧
      t.eng = { s.eng with cache := s.eng.cache.set i { x with bad := true } } := by
  have hset : (s.eng.cache.mapIdx fun j y => if j = i then { y with bad := true } else y) =
      s.eng.cache.set i { x with bad := true } := by
    apply List.ext_getElem?
    intro j
    rw [List.getElem?_mapIdx, List.getElem?_set]
    by_cases hj : i = j
    · subst hj
      obtain ⟨hlt, hget⟩ := List.getElem?_eq_some_iff.mp hx
      simp [hlt, hget]
    · simp [hj, Ne.symm hj]
  refine ⟨_, edcRetry_writeFailed _ hm, ?_, ?_⟩
  · exact only_union only_of_boot only_of_eng (by decide) (by decide)
  · exact congrArg (fun l => { s.eng with cache := l }) hset

end Sys2Proof.Machine

namespace Sys2Proof.Proofs

open Sys2Proof.Machine Sys2Proof.Claims

/-- Settles O52, a lemma for each row and region of it: a record or an event leaves keys, commands and engines, so the loss that follows
finds what the statement names, and ends the commands that used it one after another. -/
theorem memoryErrors : Obligations.MemoryErrors := by
  intro s w cid i kind c hm
  refine ⟨fun r hok => sramCorrected_completes hm hok, fun g h k hfits hg _ => keyRegister_completes c hm hfits hg,
    fun b hfits hb hres => berthTable_completes c hm hfits hb hres, fun hfits hin => scratch_completes hm hfits hin,
    fun hfits hc => wharf_completes hm hfits hc, fun hfits hfused => controlStore_completes hm hfits hfused,
    fun hc hun hfused => gmMacFail_working_completes hm hc hun hfused,
    fun hreads hfused => gmMacFail_cache_completes hm hreads hfused,
    fun hlo hhi r => ⟨_, edcRetry_recovered r hm hlo hhi, only_of_boot, rfl⟩,
    fun r => ⟨_, edcRetry_retrained r hm, only_of_boot, rfl⟩,
    fun hc hun => edcRetry_working_completes hm hc hun, fun r hr => edcRetry_badWrite_completes hm hr,
    fun x hx => edcRetry_badCache_completes hm hx, rfl, rfl⟩

end Sys2Proof.Proofs
end

section
/-!
PROOFS. What waits for a dispatch boundary, the FLR of each function and the ports: what ends or starts a command, what resets a
function and what sends an interrupt leave of them.
-/

namespace Sys2Proof.Machine

open Sys2Proof.Claims

/-! ### The view -/

/-- The FLR state of a function. -/
def flrIn (m : Map Fn) (fn : Nat) : Flr := ((Map.get? m fn).map (·.flr)).getD .none

/-- What waits for a dispatch boundary, the FLR of each function, and the ports. -/
def atBoundary (s : State) : List (Nat × Nat × BitVec 16) × (Nat → Flr) × Vector Port 8 := (s.eng.changes, flrIn s.fns, s.ports)

theorem getFn_flr (s : State) (fn : Nat) : (getFn s fn).flr = flrIn s.fns fn := by
  unfold getFn flrIn Map.getD
  cases Map.get? s.fns fn <;> rfl

theorem portsWaiting_of_atBoundary {s t : State} (h : atBoundary t = atBoundary s) : portsWaiting t = portsWaiting s := by
  have hchanges : t.eng.changes = s.eng.changes := congrArg (·.1) h
  rw [portsWaiting, portsWaiting, hchanges]

theorem flrIn_of_atBoundary {s t : State} (h : atBoundary t = atBoundary s) : flrIn t.fns = flrIn s.fns := congrArg (·.2.1) h

theorem getPort_of_atBoundary {s t : State} (h : atBoundary t = atBoundary s) (p : Nat) : getPort t p = getPort s p := by
  have hports : t.ports = s.ports := congrArg (·.2.2) h
  rw [getPort, getPort, hports]

theorem atBoundary_of_keeps {v : State → State} {s t : State} (h : v t = v s) (hv : ∀ x, atBoundary (v x) = atBoundary x) :
    atBoundary t = atBoundary s := by
  rw [← hv t, h, hv s]

theorem flrIn_modFn (s : State) (fn : Nat) (f : Fn → Fn) (x : Nat) :
    flrIn (modFn s fn f).fns x = if x = fn then (f (getFn s fn)).flr else flrIn s.fns x := by
  rw [← getFn_flr, getFn_modFn, ← getFn_flr]
  split <;> rfl

/-- A change of a function that leaves its FLR. -/
theorem atBoundary_modFn (s : State) (fn : Nat) {f : Fn → Fn} (hf : ∀ x, (f x).flr = x.flr) :
    atBoundary (modFn s fn f) = atBoundary s := by
  have hflr : flrIn (modFn s fn f).fns = flrIn s.fns := by
    funext x
    rw [flrIn_modFn]
    split
    · rename_i h
      rw [hf, getFn_flr, h]
    · rfl
  exact congrArg (fun m => (s.eng.changes, m, s.ports)) hflr

theorem flrIn_update (m : Map Fn) {f : Nat → Fn → Fn} (hf : ∀ k x, (f k x).flr = x.flr) : flrIn (Map.update m f) = flrIn m := by
  funext x
  rw [flrIn, flrIn, Map.get?_update]
  cases Map.get? m x with
  | none => rfl
  | some y => exact hf x y

/-! ### Ends of commands -/

@[simp] theorem modCmd_atBoundary (s : State) (cid : Nat) (f : Cmd → Cmd) : atBoundary (modCmd s cid f) = atBoundary s := by rfl

@[simp] theorem dropInput_atBoundary (s : State) (cid : Nat) : atBoundary (dropInput s cid) = atBoundary s := by
  unfold dropInput
  split
  · rfl
  · dsimp only
    split
    · rfl
    · exact atBoundary_modFn _ _ fun _ => rfl

@[simp] theorem issueOut_atBoundary (s : State) (cid : Nat) : atBoundary (issueOut s cid) = atBoundary s := by
  unfold issueOut
  split
  · rfl
  · split
    · split
      · exact (modCmd_atBoundary ..).trans (atBoundary_of_keeps (outputWrites_keeps ..) fun _ => rfl)
      · rfl
    · rfl

@[simp] theorem finish_atBoundary (s : State) (cid : Nat) (r : Result) : atBoundary (finish s cid r) = atBoundary s :=
  (issueOut_atBoundary (modCmd (releaseLves (dropInput s cid) cid) cid fun c => finished s c r) cid).trans (dropInput_atBoundary s cid)

@[simp] theorem fail_atBoundary (s : State) (cid : Nat) (st : Status) (d : Nat) : atBoundary (fail s cid st d) = atBoundary s :=
  finish_atBoundary ..

theorem reapCopies_atBoundary (s : State) : atBoundary (reapCopies s) = atBoundary s := by rfl

theorem unpin_atBoundary (s : State) (cid : Nat) : atBoundary (unpin s cid) = atBoundary s := by rfl

@[simp] theorem endCmd_atBoundary (s : State) (cid : Nat) : atBoundary (endCmd s cid) = atBoundary s := by
  unfold endCmd
  dsimp only
  exact (reapCopies_atBoundary (dropCmd (unpin (dropInput s cid) cid) cid)).trans
    ((unpin_atBoundary (dropInput s cid) cid).trans (dropInput_atBoundary s cid))

/-! ### Starts of commands -/

@[simp] theorem linkSend_atBoundary (s : State) (k : Nat) (m : LinkMsg) : atBoundary (linkSend s k m) = atBoundary s :=
  atBoundary_of_keeps (linkSend_keeps ..) fun _ => rfl

@[simp] theorem emitRead_atBoundary (s : State) (fn : Nat) (a : DWord) (n : Nat) :
    atBoundary (emitRead s fn a n) = atBoundary s :=
  atBoundary_of_keeps (emitRead_keeps ..) fun _ => rfl

@[simp] theorem setAttr_atBoundary (s : State) (g : Nat) (f : Key → Key) : atBoundary (setAttr s g f) = atBoundary s :=
  atBoundary_of_keeps (setAttr_keeps ..) fun _ => rfl

@[simp] theorem reportCorrupt_atBoundary (s : State) (region record : Nat) :
    atBoundary (reportCorrupt s region record) = atBoundary s :=
  atBoundary_of_keeps (reportCorrupt_report ..) fun _ => rfl

@[simp] theorem record_atBoundary (s : State) (trig subj : Nat) (payload : Bytes) :
    atBoundary (record s trig subj payload) = atBoundary s :=
  atBoundary_of_keeps (record_keeps ..) fun _ => rfl

@[simp] theorem touch_atBoundary (s : State) (i : Nat) (ks : List Nat) : atBoundary (touch s i ks) = atBoundary s :=
  foldl_keeps atBoundary (fun t g => modKey t g fun k => { k with used := s.stamp + 1 }) (fun _ _ => rfl) ks
    (modBerth s i fun b => { b with used := s.stamp + 1 })

@[simp] theorem askInput_atBoundary (s : State) (cid : Nat) : atBoundary (askInput s cid) = atBoundary s := by
  unfold askInput
  split
  · rfl
  · split
    · rfl
    · split
      · simp
      · split
        · simp
        · rfl

@[simp] theorem beginRun_atBoundary (s : State) (cid i : Nat) (ka kb : Option Nat) :
    atBoundary (beginRun s cid i ka kb) = atBoundary s := by
  unfold beginRun
  dsimp only
  repeat' split
  all_goals simp

@[simp] theorem reportStep8_atBoundary (s : State) (cid : Nat) (st : Status) (d : Nat) :
    atBoundary (reportStep8 s cid st d) = atBoundary s := by
  unfold reportStep8
  split
  · split
    · simp
    · rfl
  · rfl

@[simp] theorem applyVerdict_atBoundary (s : State) (cid : Nat) (v : Verdict) :
    atBoundary (applyVerdict s cid v) = atBoundary s := by
  cases v <;> simp [applyVerdict]

@[simp] theorem sendCmd_atBoundary (s : State) (c : Cmd) (entry : Bytes) : atBoundary (sendCmd s c entry) = atBoundary s := by
  unfold sendCmd
  split <;> simp

@[simp] theorem forwardTo_atBoundary (s : State) (c : Cmd) (entry : Bytes) :
    atBoundary (forwardTo s c entry) = atBoundary s := by
  unfold forwardTo
  dsimp only
  repeat' split
  all_goals simp

@[simp] theorem startOnce_atBoundary (s : State) (cid : Nat) : atBoundary (startOnce s cid) = atBoundary s := by
  unfold startOnce
  split
  · rfl
  · split
    · simp
    · repeat' split
      all_goals simp

@[simp] theorem redirect_atBoundary (s : State) (cid handle : Nat) :
    atBoundary (redirect s cid handle) = atBoundary s := by simp [redirect]

@[simp] theorem startCmd_atBoundary (s : State) (cid : Nat) : atBoundary (startCmd s cid) = atBoundary s := by
  unfold startCmd
  split
  · rfl
  · repeat' split
    all_goals simp

@[simp] theorem retryBerth_atBoundary (s : State) :
    atBoundary (retryBerth s) = atBoundary s := foldl_keeps atBoundary _ startCmd_atBoundary _ s

/-! ### Interrupts -/

@[simp] theorem modFast_atBoundary (s : State) (fn n : Nat) (f : FastVec → FastVec) :
    atBoundary (modFast s fn n f) = atBoundary s :=
  atBoundary_modFn _ _ fun _ => rfl

@[simp] theorem pendFast_atBoundary (s : State) (fn n info : Nat) :
    atBoundary (pendFast s fn n info) = atBoundary s := modFast_atBoundary ..

@[simp] theorem flushFast_atBoundary (s : State) (fn n : Nat) : atBoundary (flushFast s fn n) = atBoundary s := by
  unfold flushFast
  dsimp only
  split
  · exact modFast_atBoundary s fn n _
  · rfl

@[simp] theorem flushSignals_atBoundary (s : State) : atBoundary (flushSignals s) = atBoundary s :=
  foldl_keeps atBoundary flushAllFast (fun t fn => foldl_keeps atBoundary _ (fun u n => flushFast_atBoundary u fn n) _ t) _ s

/-! ### Resets of functions -/

@[simp] theorem callOff_atBoundary (s : State) (cut : Berth → Bool) : atBoundary (callOff s cut) = atBoundary s :=
  foldl_keeps atBoundary (fun (t : State) (m : Move) => linkSend t m.link (.xferAbort m.id)) (fun _ _ => linkSend_atBoundary ..) _ s

@[simp] theorem abortMoves_atBoundary (s : State) (fn pos : Nat) : atBoundary (abortMoves s fn pos) = atBoundary s :=
  (callOff_atBoundary ..).trans
    (foldl_keeps atBoundary (fun t (e : Nat × Berth) => fail t (e.2.moving.getD 0) .aborted 0x10) (fun _ _ => fail_atBoundary ..) _ s)

@[simp] theorem lateRings_atBoundary (s : State) (fn : Nat) :
    atBoundary (lateRings s fn) = atBoundary s := atBoundary_modFn _ _ fun _ => rfl

@[simp] theorem resetHoldings_atBoundary (s : State) (fns : List Nat) (pos : Nat) :
    atBoundary (resetHoldings s fns pos) = atBoundary s :=
  atBoundary_of_keeps (resetHoldings_keeps ..) fun _ => rfl

@[simp] theorem sendEndFunc_atBoundary (s : State) (fn kind : Nat) : atBoundary (sendEndFunc s fn kind) = atBoundary s :=
  atBoundary_of_keeps (sendEndFunc_keeps ..) fun _ => rfl

/-- Up to the change of the function itself a reset leaves the FLR of all: it ends commands, drops queues and signals those that wait. -/
theorem flrIn_beforeReset (s : State) (fn : Nat) (ended ws : List Nat) (drains : Bool) (f : Nat → Fn → Fn)
    (hf : ∀ k x, (f k x).flr = x.flr) (sqs : Map Sq) (cqs : Map Cq) :
    let s1 := lateRings (ended.foldl endCmd (abortMoves s fn s.topo.position)) fn
    let s2 : State := { s1 with sqs := sqs, cqs := cqs, fns := Map.update s1.fns f }
    flrIn (if drains then ws.foldl (fun t w => if w = fn then t else pendFast t w 3 fn) s2 else s2).fns = flrIn s.fns := by
  intro s1 s2
  have hs1 : atBoundary s1 = atBoundary s :=
    (lateRings_atBoundary ..).trans ((foldl_keeps atBoundary endCmd endCmd_atBoundary ended _).trans (abortMoves_atBoundary ..))
  have hs2 : flrIn s2.fns = flrIn s.fns := (flrIn_update s1.fns hf).trans (flrIn_of_atBoundary hs1)
  split
  · refine Eq.trans (flrIn_of_atBoundary (foldl_keeps atBoundary _ (fun t w => ?_) ws s2)) hs2
    split
    · rfl
    · exact pendFast_atBoundary ..
  · exact hs2

/-- The reset of a function ends with its clean-up, and leaves the FLR of every other. -/
theorem flrIn_resetFn (s : State) (fn kind x : Nat) :
    flrIn (resetFn s fn kind).fns x = if x = fn then .cleanup else flrIn s.fns x := by
  unfold resetFn
  dsimp only
  rw [flrIn_of_atBoundary (record_atBoundary ..), flrIn_of_atBoundary (sendEndFunc_atBoundary ..)]
  dsimp only
  rw [flrIn_modFn]
  split
  · rfl
  · rw [flrIn_of_atBoundary (resetHoldings_atBoundary ..)]
    split
    on_goal 1 => rw [flrIn_of_atBoundary (fail_atBoundary ..)]
    all_goals
      refine congrFun (flrIn_beforeReset s fn _ _ _ _ ?_ _ _) x
      exact fun _ _ => rfl

/-! ### Resets of ports -/

/-- What a port's reset does to each of its functions (R321). -/
def resetByPort (s : State) (fn : Nat) : State := modFn (resetFn (flrWrite s fn) fn 1) fn fun x => { x with late := [] }

theorem flrIn_resetByPort (s : State) (fn x : Nat) : flrIn (resetByPort s fn).fns x = if x = fn then .cleanup else flrIn s.fns x := by
  rw [resetByPort, flrIn_of_atBoundary (atBoundary_modFn _ fn (f := fun x => { x with late := [] }) fun _ => rfl), flrIn_resetFn]
  split
  · rfl
  · rename_i h
    rw [flrWrite, flrIn_modFn, if_neg h]

theorem flrIn_foldl_resetByPort {l : List Nat} {x : Nat} (hx : x ∈ l) (s : State) :
    flrIn (l.foldl resetByPort s).fns x = .cleanup := by
  have hkeep : ∀ (l : List Nat) (t : State), flrIn t.fns x = .cleanup → flrIn (l.foldl resetByPort t).fns x = .cleanup := by
    intro l
    induction l with
    | nil => exact fun _ h => h
    | cons a l ih =>
      intro t ht
      rw [List.foldl_cons]
      refine ih _ ?_
      rw [flrIn_resetByPort, ht, ite_self]
  induction l generalizing s with
  | nil => cases hx
  | cons a l ih =>
    rw [List.foldl_cons]
    rcases List.mem_cons.mp hx with rfl | hl
    · exact hkeep l _ ((flrIn_resetByPort ..).trans (if_pos rfl))
    · exact ih hl _

theorem ceaseVf_atBoundary (s : State) (fn : Nat) :
    atBoundary (ceaseVf s fn) = atBoundary s := atBoundary_modFn _ _ fun _ => rfl

/-- The state in which a port's functions are reset, before its own configuration is. -/
def fnsReset (s : State) (p : Nat) : State :=
  ((portFns s p).filter fun f => vfOf f != 0).foldl ceaseVf
    ((portFns s p).foldl resetByPort (resetHoldings s (portFns s p) s.topo.position))

/-- A port's configuration after its reset (R472). -/
def portCleared (x : Port) : Port :=
  { x with vfEnable := false, numVfs := 0, targets := [], sets := [], tag10 := false, lastFetch := none, vfBar0 := 0x4, vfBar2 := 0xC }

theorem resetPortNow_fns (s : State) (p : Nat) : (resetPortNow s p).fns = (fnsReset s p).fns := by
  unfold resetPortNow
  dsimp only
  split <;> rfl

theorem resetPortNow_ports (s : State) (p : Nat) : (resetPortNow s p).ports = (modPort (fnsReset s p) p portCleared).ports := by
  unfold resetPortNow
  dsimp only
  split <;> rfl

/-- Every function of the port is in clean-up. -/
theorem resetPortNow_flr {s : State} {p f : Nat} (hf : f ∈ portFns s p) : flrIn (resetPortNow s p).fns f = .cleanup := by
  rw [resetPortNow_fns, fnsReset, flrIn_of_atBoundary (foldl_keeps atBoundary ceaseVf ceaseVf_atBoundary _ _)]
  exact flrIn_foldl_resetByPort hf _

theorem resetPortNow_port (s : State) {p : Nat} (hp : p < 8) :
    getPort (resetPortNow s p) p = portCleared (getPort (fnsReset s p) p) := by
  have h := getPort_modPort (fnsReset s p) p p portCleared hp
  rw [if_pos rfl] at h
  rw [← h, getPort, resetPortNow_ports]
  rfl

theorem takePort_notWaiting (s : State) (p : Nat) : p ∉ portsWaiting (takePort s p) := by
  simp [portsWaiting, takePort, dropChange]

end Sys2Proof.Machine
end

section
/-!
PROOFS. Dispatch boundaries and the faults of engines (O47).
-/

namespace Sys2Proof.Machine

open Sys2Proof.Claims

/-! ### Dispatch boundaries (R188, R321) -/

/-- The state after a sequencer's step past a boundary, before what is due takes place. -/
def boundaryNoted (s : State) (q : Nat) : State := passBoundary (unitStep s q) q

theorem exec_dispatchBoundary_notDue {s : State} {q : Fin 16} (hrun : running s = true) (hunit : unitRuns s q.val = true)
    (h : (portsWaiting (boundaryNoted s q)).filter (changeDue (boundaryNoted s q) 3) = []) :
    exec (.dispatchBoundary q) s = .next (boundaryNoted s q) := by
  simp only [exec, execDispatchBoundary, hrun, hunit, Bool.and_self, if_true]
  exact congrArg Host.Outcome.next (if_pos h)

theorem exec_dispatchBoundary_due {s : State} {q : Fin 16} {p : Nat} (hrun : running s = true) (hunit : unitRuns s q.val = true)
    (h : (portsWaiting (boundaryNoted s q)).filter (changeDue (boundaryNoted s q) 3) = [p]) :
    exec (.dispatchBoundary q) s = .next (retryBerth (flushSignals (takePort (boundaryNoted s q) p))) := by
  have hne : ¬(portsWaiting (boundaryNoted s q)).filter (changeDue (boundaryNoted s q) 3) = [] := by
    rw [h]
    exact List.cons_ne_nil _ _
  have hfold : ((portsWaiting (boundaryNoted s q)).filter (changeDue (boundaryNoted s q) 3)).foldl takePort (boundaryNoted s q) =
      takePort (boundaryNoted s q) p := by
    rw [h]
    rfl
  simp only [exec, execDispatchBoundary, hrun, hunit, Bool.and_self, if_true]
  rw [← hfold]
  exact congrArg Host.Outcome.next (if_neg hne)

/-- Noting a boundary leaves which ports wait. -/
theorem portsWaiting_boundaryNoted (s : State) (q : Nat) : portsWaiting (boundaryNoted s q) = portsWaiting s := by
  simp [portsWaiting, boundaryNoted, passBoundary, unitStep, List.filter_map, Function.comp_def]

theorem boundaryNoted_only {s : State} {q : Nat} : Only s (boundaryNoted s q) [.eng, .lc] := fun p hp => by
  cases p
  case eng | lc => simp at hp
  all_goals rfl

theorem dispatchBoundary_notDue {s : State} {q : Fin 16} (hrun : running s = true) (hunit : unitRuns s q.val = true)
    (hdue : ∀ p ∈ portsWaiting s, changeDue (passBoundary s q.val) 3 p = false) :
    Completes (.dispatchBoundary q) s fun t => Only s t [.eng, .lc] ∧ { t.lc with units := s.lc.units } = s.lc ∧
      t.eng = { s.eng with changes := s.eng.changes.map fun e => (e.1, e.2.1, e.2.2 ||| BitVec.ofNat 16 (2 ^ q.val)) } := by
  have hnone : (portsWaiting (boundaryNoted s q)).filter (changeDue (boundaryNoted s q) 3) = [] := by
    rw [portsWaiting_boundaryNoted, List.filter_eq_nil_iff]
    exact fun p hp => Bool.not_eq_true _ ▸ hdue p hp
  exact ⟨boundaryNoted s q, exec_dispatchBoundary_notDue hrun hunit hnone, boundaryNoted_only, rfl, rfl⟩

theorem dispatchBoundary_halted {s : State} {q : Fin 16} (hunit : unitRuns s q.val = false) :
    exec (.dispatchBoundary q) s = .next s := by
  simp [exec, execDispatchBoundary, hunit]

/-- With the last sequencer's passing the reset of a port that waits takes place. -/
theorem dispatchBoundary_portReset {s : State} {q : Fin 16} {p : Nat} (hrun : running s = true) (hunit : unitRuns s q.val = true)
    (hp : p < 8) (hwait : portsWaiting s = [p]) (hdue : changeDue (passBoundary s q.val) 3 p = true) :
    Completes (.dispatchBoundary q) s fun t => p ∉ portsWaiting t ∧ (getPort t p).vfEnable = false ∧
      (getPort t p).targets = [] ∧ (getPort t p).sets = [] ∧ ∀ f ∈ portFns s p, (getFn t f).flr = .cleanup := by
  have hdue' : (portsWaiting (boundaryNoted s q)).filter (changeDue (boundaryNoted s q) 3) = [p] := by
    have hsame : changeDue (boundaryNoted s q) 3 p = true := hdue
    rw [portsWaiting_boundaryNoted, hwait, List.filter_cons, if_pos hsame, List.filter_nil]
  have hview : atBoundary (retryBerth (flushSignals (takePort (boundaryNoted s q) p))) =
      atBoundary (takePort (boundaryNoted s q) p) :=
    (retryBerth_atBoundary _).trans (flushSignals_atBoundary _)
  have hport : getPort (retryBerth (flushSignals (takePort (boundaryNoted s q) p))) p =
      portCleared (getPort (fnsReset (boundaryNoted s q) p) p) :=
    (getPort_of_atBoundary hview p).trans (resetPortNow_port (boundaryNoted s q) hp)
  refine ⟨retryBerth (flushSignals (takePort (boundaryNoted s q) p)), exec_dispatchBoundary_due hrun hunit hdue', ?_, ?_, ?_, ?_,
    fun f hf => ?_⟩
  · rw [portsWaiting_of_atBoundary hview]
    exact takePort_notWaiting _ p
  · rw [hport]
    rfl
  · rw [hport]
    rfl
  · rw [hport]
    rfl
  · rw [getFn_flr]
    exact (congrFun (flrIn_of_atBoundary hview) f).trans (resetPortNow_flr (s := boundaryNoted s q) hf)

/-! ### Engines that stall or fail (Table 70) -/

/-- The end of every fault of an engine in service: it is retired, and a command that has been rerun completes. -/
theorem faultEngine_outcome {s : State} {kind i cause : Nat} (c : Cmd) :
    inService (faultEngine s kind i cause) kind i = false ∧
    Only s (faultEngine s kind i cause) [.eng, .cmds, .recorder, .fns, .bus] ∧
    (∀ k j, (k, j) ≠ (kind, i) → inService (faultEngine s kind i cause) k j = inService s k j) ∧
    (holders s kind i = [c] → getCmd s c.id = some c → c.reran = true →
      Ended (faultEngine s kind i cause) c.id .engineFault (faultDetail cause kind i) []) := by
  obtain ⟨hout, hothers⟩ := inService_faultEngine s kind i cause
  exact ⟨hout, only_of_fault (faultEngine_keeps ..), hothers, fun hholds hc hreran => faultEngine_ended cause hholds hc hreran⟩

theorem engineStall_completes {s : State} {kind i : Nat} (c : Cmd) (hrun : running s = true) (hin : inService s kind i = true)
    (hbusy : engineBusy s kind i = true) (hstall : stalled4us s kind i = true) :
    Completes (.engineStall kind i) s fun t => inService t kind i = false ∧ Only s t [.eng, .cmds, .recorder, .fns, .bus] ∧
      (∀ k j, (k, j) ≠ (kind, i) → inService t k j = inService s k j) ∧
      (holders s kind i = [c] → getCmd s c.id = some c → c.reran = true →
        Ended t c.id .engineFault (faultDetail 3 kind i) []) :=
  ⟨_, by simp [exec, execEngineStall, hrun, hin, hbusy, hstall], faultEngine_outcome c⟩

theorem engineStall_stepping {s : State} {kind i : Nat} (hstall : stalled4us s kind i = false) :
    exec (.engineStall kind i) s = .next s := by
  simp [exec, execEngineStall, hstall]

/-- A failed output check is a fault of the engine that ran the segment. -/
theorem exec_segmentEnd_checkFailed {s : State} {kind i cid : Nat} {x : Cmd} (hrun : running s = true)
    (hin : inService s kind i = true) (hunit : unitRuns s (engUnit kind i) = true) (hx : getCmd s cid = some x)
    (hon : x.running = [(kind, i)]) (hread : gmRead s (.working cid) = none) (hcheck : checksOutput x kind = true) :
    exec (.segmentEnd cid kind .checkFailed) s = .next (faultEngine s kind i 7) := by
  have hfind : x.running.findIdx? (fun r => r.1 == kind && inService s kind r.2 && unitRuns s (engUnit kind r.2)) = some 0 := by
    simp [hon, List.findIdx?_cons, hin, hunit]
  simp only [exec, execSegmentEnd, hrun, hx, hread, hfind, hcheck, if_true, Bool.not_true, Bool.false_eq_true, if_false]
  rw [hon]
  rfl

theorem segmentEnd_checkFailed_completes {s : State} {kind i cid : Nat} {x : Cmd} (c : Cmd) (hrun : running s = true)
    (hin : inService s kind i = true) (hunit : unitRuns s (engUnit kind i) = true) (hx : getCmd s cid = some x)
    (hon : x.running = [(kind, i)]) (hread : gmRead s (.working cid) = none) (hcheck : checksOutput x kind = true) :
    Completes (.segmentEnd cid kind .checkFailed) s fun t => inService t kind i = false ∧
      Only s t [.eng, .cmds, .recorder, .fns, .bus] ∧
      (holders s kind i = [c] → getCmd s c.id = some c → c.reran = true →
        Ended t c.id .engineFault (faultDetail 7 kind i) []) := by
  obtain ⟨hout, honly, -, hended⟩ := faultEngine_outcome (s := s) (kind := kind) (i := i) (cause := 7) c
  exact ⟨_, exec_segmentEnd_checkFailed hrun hin hunit hx hon hread hcheck, hout, honly, hended⟩

/-! ### Events that compare or trap (R56) -/

theorem fused_unfusable (s : State) {n : Nat} (h : fusable n = false) : fused s n = false := by
  rw [fused, h, Bool.false_and]

/-- The state in which a dual-rail fault is counted. -/
def railCounted (s : State) (i : Nat) : State := monEvent s 12 ([5] ++ leBytes 1 i)

theorem railCounted_only {s : State} {i : Nat} : Only s (railCounted s i) [.alarm, .recorder] := only_of_alarms (monEvent_keeps ..)

theorem railCounted_total {s : State} {i : Nat} (h : monitorsRun s = true) :
    (getMon (railCounted s i) 12).total = min ((getMon s 12).total + 1) 0xFFFFFF := by
  have hcount := monEvent_counted (s := s) ([5] ++ leBytes 1 i) (by decide : 12 < 16) (fused_unfusable s rfl)
  rw [if_pos h] at hcount
  exact hcount.1

/-- The alarms after the count are those of the count. -/
theorem railCounted_total_of_alarm {s t : State} {i : Nat} (ht : t.alarm = (railCounted s i).alarm) (h : monitorsRun s = true) :
    (getMon t 12).total = min ((getMon s 12).total + 1) 0xFFFFFF := by
  rw [getMon, ht]
  exact railCounted_total h

/-- The engine is retired at once; what becomes of its commands is left to the alarm's response from level 2 on (R375). -/
theorem exec_dualRailFault_engine {s : State} {kind i : Nat} (hm : s.sys.mode ≠ .dormant) (hkind : kind ≤ 6)
    (hin : inService s kind i = true) : ∃ t, exec (.dualRailFault kind i) s = .next t ∧
      ((∃ l, t = let u := retireEngine (railCounted s i) kind i 2; { u with eng := { u.eng with faulted := l } }) ∨
        t = faultEngine (railCounted s i) kind i 2) := by
  have hnot : ¬6 < kind := by omega
  simp only [exec, execDualRailFault, if_neg hm, if_neg hnot, hin, Bool.not_true, Bool.false_eq_true, if_false]
  rw [← railCounted]
  generalize (if (railCounted s i).alarm.set.length = s.alarm.set.length then 0 else strongest (latestSet (railCounted s i))) = level
  split
  · exact ⟨_, rfl, .inl ⟨_, rfl⟩⟩
  · split
    · exact ⟨_, rfl, .inl ⟨_, rfl⟩⟩
    · exact ⟨_, rfl, .inr rfl⟩

/-- Whatever the level of the alarm, a dual-rail fault of an engine in service retires it, and leaves the alarms as they were counted. -/
theorem dualRailFault_engine_completes {s : State} {kind i : Nat} (hm : s.sys.mode ≠ .dormant) (hkind : kind ≤ 6)
    (hin : inService s kind i = true) :
    Completes (.dualRailFault kind i) s fun t => inService t kind i = false ∧
      Only s t [.eng, .cmds, .recorder, .alarm, .fns, .bus] ∧
      (monitorsRun s = true → (getMon t 12).total = min ((getMon s 12).total + 1) 0xFFFFFF) := by
  have hframe : ∀ {t : State}, Only (railCounted s i) t [.eng, .cmds, .recorder, .fns, .bus] →
      Only s t [.eng, .cmds, .recorder, .alarm, .fns, .bus] ∧
      (monitorsRun s = true → (getMon t 12).total = min ((getMon s 12).total + 1) 0xFFFFFF) := fun ht =>
    ⟨only_union railCounted_only ht (by decide) (by decide), railCounted_total_of_alarm (ht .alarm (by decide))⟩
  obtain ⟨t, hexec, ⟨l, rfl⟩ | rfl⟩ := exec_dualRailFault_engine hm hkind hin
  · have hretire := only_of_fault (retireEngine_keeps (railCounted s i) kind i 2)
    exact ⟨_, hexec, (inService_retireEngine (railCounted s i) kind i 2).1,
      hframe (only_union hretire only_of_eng (fun _ h => h) (by decide))⟩
  · exact ⟨_, hexec, (inService_faultEngine ..).1, hframe (only_of_fault (faultEngine_keeps ..))⟩

/-- A dual-rail fault of a block that is no engine is counted and recorded (log 70). -/
theorem dualRailFault_block_completes {s : State} {kind i : Nat} (hm : s.sys.mode ≠ .dormant) (hkind : 6 < kind) :
    Completes (.dualRailFault kind i) s fun t => Only s t [.recorder, .alarm] ∧
      (monitorsRun s = true → (getMon t 12).total = min ((getMon s 12).total + 1) 0xFFFFFF) := by
  have hrec := recordFault_keeps (railCounted s i) 2 kind i 0 0 0
  refine ⟨recordFault (railCounted s i) 2 kind i 0 0 0, ?_, ?_, railCounted_total_of_alarm (congrArg State.alarm hrec :)⟩
  · simp only [exec, execDualRailFault, if_neg hm, if_pos hkind, railCounted]
  · exact only_union railCounted_only (only_of_recorder hrec) (by decide) (by decide)

theorem trapMicroword_quiet {s : State} (q : Fin 16) (h : monitorsRun s = false) : exec (.trapMicroword q) s = .next s := by
  simp [exec, execTrapMicroword, monEvent, h]

theorem trapMicroword_completes {s : State} (q : Fin 16) (h : monitorsRun s = true) (hfused : fused s 13 = false) :
    Completes (.trapMicroword q) s fun t => Only s t [.alarm, .recorder] ∧
      (getMon t 13).total = min ((getMon s 13).total + 1) 0xFFFFFF ∧ ∀ n, n ≠ 13 → getMon t n = getMon s n := by
  have hcount := monEvent_counted [1] (by decide : 13 < 16) hfused
  rw [if_pos h] at hcount
  exact ⟨_, rfl, only_of_alarms (monEvent_keeps ..), hcount⟩

end Sys2Proof.Machine

namespace Sys2Proof.Proofs

open Sys2Proof.Machine Sys2Proof.Claims

/-- Settles O47. A reset of a port passes through the resets of its functions, each of which ends in clean-up, and nothing that follows
touches an FLR, a port or what waits; every fault of an engine goes through `faultEngine` or `retireEngine`. -/
theorem boundariesAndEngineFaults : Obligations.BoundariesAndEngineFaults := by
  intro s kind i q c
  exact ⟨dispatchBoundary_notDue, fun _ hunit => dispatchBoundary_halted hunit,
    fun p hrun hunit hp hwait hdue => dispatchBoundary_portReset hrun hunit hp hwait hdue,
    fun hrun hin hbusy hstall => engineStall_completes c hrun hin hbusy hstall,
    fun _ hstall => engineStall_stepping hstall,
    fun cid x hrun hin hunit hx hon hread hcheck => segmentEnd_checkFailed_completes c hrun hin hunit hx hon hread hcheck,
    dualRailFault_engine_completes, dualRailFault_block_completes, trapMicroword_quiet q, trapMicroword_completes q⟩

end Sys2Proof.Proofs
end

section
/-!
PROOFS. The monitors (O54): an excursion outside a band is one event of its source, and the rails' bits say on which side it lies.
-/

namespace Sys2Proof.Machine

open Sys2Proof.Claims

/-! ### Events on alarms whose rail bits have changed (R366, R369) -/

/-- The rails' bits (Table 163): below and above the band, and glitched. -/
def railBits (s : State) : BitVec 6 × BitVec 6 × BitVec 6 := (s.alarm.below, s.alarm.above, s.alarm.glitched)

theorem alarmEvent_railBits (s : State) (n : Nat) (d : Bytes) : railBits (alarmEvent s n d) = railBits s := by
  have hrec : ∀ t : State, railBits (record t 0x0001 n d) = railBits t := fun t => (congrArg railBits (record_keeps t 1 n d) :)
  unfold alarmEvent
  dsimp only
  repeat' split
  all_goals first
    | rfl
    | exact hrec _

theorem getMon_of_mons {s t : State} (h : t.alarm.mons = s.alarm.mons) (j : Nat) : getMon t j = getMon s j := by rw [getMon, getMon, h]

/-- An event of a source that is not fused off, after a change of the rails' bits: it is counted, and the bits stand as they were set. -/
theorem alarmEvent_afterBits {s u : State} {n : Nat} (d : Bytes) (hn : n < 16) (hfused : fused s n = false)
    (hu : hideAlarms u = hideAlarms s) (hmons : u.alarm.mons = s.alarm.mons) :
    Only s (alarmEvent u n d) [.alarm, .recorder] ∧ Counted s (alarmEvent u n d) n ∧ railBits (alarmEvent u n d) = railBits u := by
  have hotp : u.otp = s.otp := (congrArg State.otp hu :)
  have hfuse : fused u n = false := by rw [← hfused, fused, fused, hotp]
  obtain ⟨htotal, hothers⟩ := alarmEvent_counted d hn hfuse
  refine ⟨only_of_alarms ((alarmEvent_keeps ..).trans hu), ⟨?_, fun j hj => ?_⟩, alarmEvent_railBits ..⟩
  · rw [htotal, getMon_of_mons hmons]
  · rw [hothers j hj, getMon_of_mons hmons]

theorem only_of_alarm {s : State} {a : AlarmSt} : Only s { s with alarm := a } [.alarm] := fun p hp => by
  cases p
  case alarm => simp at hp
  all_goals rfl

theorem railMask_get : ∀ r : Fin 6, (2#6 ^ r.val)[r.val] = true := by decide

theorem setRail_bits (s : State) (r : Fin 6) (below above : Bool) :
    (setRail s r.val below above).alarm.below.getLsbD r.val = below ∧ (setRail s r.val below above).alarm.above.getLsbD r.val = above := by
  cases below <;> cases above <;> simp [setRail, railMask_get]

/-! ### The rows -/

theorem outside_inside {band : Nat × Nat} {uv : Nat} (hlo : band.1 ≤ uv) (hhi : uv ≤ band.2) : outside band uv = none := by
  rw [outside, if_neg (by omega), if_neg (by omega)]

theorem outside_above {band : Nat × Nat} {uv : Nat} (h : band.2 < uv) : outside band uv = some 1 := if_pos h

theorem outside_below {band : Nat × Nat} {uv : Nat} (h : uv < band.1) (hhi : uv ≤ band.2) : outside band uv = some 2 := by
  rw [outside, if_neg (by omega), if_pos h]

theorem outside_beyond {band : Nat × Nat} {uv : Nat} (h : band.2 < uv ∨ uv < band.1) : ∃ d, outside band uv = some d := by
  by_cases hhi : band.2 < uv
  · exact ⟨1, outside_above hhi⟩
  · exact ⟨2, outside_below (h.resolve_left hhi) (by omega)⟩

theorem glitchEvent_beyond {s : State} {r : Fin 6} {uv : Nat} (hrun : monitorsRun s = true) (hfused : fused s r.val = false)
    (h : (glitchBand s r.val).2 < uv ∨ uv < (glitchBand s r.val).1) :
    Completes (.glitchEvent r uv) s fun t => Only s t [.alarm, .recorder] ∧ Counted s t r.val ∧
      t.alarm.glitched.getLsbD r.val = true := by
  obtain ⟨d, hd⟩ := outside_beyond h
  obtain ⟨honly, hcounted, hbits⟩ := alarmEvent_afterBits (s := s)
    (u := { s with alarm := { s.alarm with glitched := s.alarm.glitched ||| BitVec.ofNat 6 (2 ^ r.val) } }) [d] (by omega) hfused rfl rfl
  refine ⟨_, by simp only [exec, execGlitchEvent, hrun, hd], honly, hcounted, ?_⟩
  have hglitched := congrArg (·.2.2) hbits
  simp only [railBits] at hglitched
  rw [hglitched]
  simp [railMask_get]

theorem glitchEvent_inside {s : State} {r : Fin 6} {uv : Nat} (hlo : (glitchBand s r.val).1 ≤ uv) (hhi : uv ≤ (glitchBand s r.val).2) :
    exec (.glitchEvent r uv) s = .next s := by
  simp only [exec, execGlitchEvent, outside_inside hlo hhi]
  cases monitorsRun s <;> rfl

/-- Outside the band of a slow comparator: `d` is 1 above it and 2 below. -/
theorem slowExcursion_beyond {s : State} {r : Fin 6} {uv : Nat} {d : Byte} (hrun : monitorsRun s = true)
    (hfused : fused s (6 + r.val) = false) (h : outside (slowBand s r.val) uv = some d) :
    Completes (.slowExcursion r uv) s fun t => Only s t [.alarm, .recorder] ∧ Counted s t (6 + r.val) ∧
      t.alarm.above.getLsbD r.val = (d == 1) ∧ t.alarm.below.getLsbD r.val = (d == 2) := by
  obtain ⟨honly, hcounted, hbits⟩ :=
    alarmEvent_afterBits (s := s) (u := setRail s r.val (d == 2) (d == 1)) [d] (by omega) hfused rfl rfl
  obtain ⟨hbelow, habove⟩ := setRail_bits s r (d == 2) (d == 1)
  refine ⟨_, by simp [exec, execSlowExcursion, hrun, h], honly, hcounted, ?_, ?_⟩
  · exact (congrArg (·.2.1.getLsbD r.val) hbits).trans habove
  · exact (congrArg (·.1.getLsbD r.val) hbits).trans hbelow

theorem slowExcursion_inside {s : State} {r : Fin 6} {uv : Nat} (hrun : monitorsRun s = true) (hlo : (slowBand s r.val).1 ≤ uv)
    (hhi : uv ≤ (slowBand s r.val).2) :
    Completes (.slowExcursion r uv) s fun t => Only s t [.alarm] ∧ t.alarm.mons = s.alarm.mons ∧
      t.alarm.above.getLsbD r.val = false ∧ t.alarm.below.getLsbD r.val = false := by
  obtain ⟨hbelow, habove⟩ := setRail_bits s r false false
  refine ⟨setRail s r.val false false, ?_, only_of_alarm, rfl, habove, hbelow⟩
  simp [exec, execSlowExcursion, hrun, outside_inside hlo hhi]

theorem stateCodeEvent_completes {s : State} {k : Fin 4} {unit : Nat} (hrun : monitorsRun s = true) (hfused : fused s 12 = false) :
    Completes (.stateCodeEvent k unit) s fun t => Only s t [.alarm, .recorder] ∧ Counted s t 12 := by
  have hcount := monEvent_counted ([BitVec.ofNat 8 (k.val + 1)] ++ leBytes 1 unit) (by decide : 12 < 16) hfused
  rw [if_pos hrun] at hcount
  exact ⟨_, rfl, only_of_alarms (monEvent_keeps ..), hcount⟩

theorem vcoreBandSettle_completes (s : State) :
    Completes .vcoreBandSettle s fun t => Only s t [.alarm] ∧ t.alarm = { s.alarm with reports := t.alarm.reports } ∧
      ∀ x, x ∈ t.alarm.reports ↔ x ∈ s.alarm.reports ∧ s.sys.tick.toNat < x.2.2.toNat :=
  ⟨_, rfl, only_of_alarm, rfl, fun _ => List.mem_filter.trans (and_congr_right fun _ => decide_eq_true_iff)⟩

end Sys2Proof.Machine

namespace Sys2Proof.Proofs

open Sys2Proof.Machine Sys2Proof.Claims

/-- Settles O54, a lemma for each row: outside its band a reading changes the rail's bits and then counts one event; inside it only ends
an excursion of the slow comparators. -/
theorem monitorEvents : Obligations.MonitorEvents := by
  intro s r uv unit k hrun
  refine ⟨fun hfused h => glitchEvent_beyond hrun hfused h, glitchEvent_inside, fun hr => ⟨if_neg hr, if_neg hr⟩, fun hfused h => ?_,
    fun hfused hlo hhi => ?_, slowExcursion_inside hrun, stateCodeEvent_completes hrun, vcoreBandSettle_completes s⟩
  · exact slowExcursion_beyond hrun hfused (outside_above h)
  · exact slowExcursion_beyond hrun hfused (outside_below hlo hhi)

end Sys2Proof.Proofs
end

section
/-!
PROOFS. Causes of transitions at one instant while Boot runs (R37), entry to Lockdown (R40) and a Boot that ends there (Table 17).
-/

namespace Sys2Proof.Machine

open Sys2Proof.Claims

/-! ### Causes in Boot (R37, Table 15) -/

/-- Row of Table 15 that a command other than the alarms' response causes in Boot; 0 for none. -/
def bootCause (i : Instr) : Nat :=
  match i with
  | .mainPowerLost _ => 12
  | .devResetNAssert _ => 10
  | _ => 0

/-- Neither registers nor queues are served in Boot, so only a loss of power and DEV_RESET_N are causes beside the alarms. -/
theorem causeRow_inBoot {s : State} {i : Instr} (h : s.sys.mode = .boot) (hi : i ≠ .alarmSetResponse) : causeRow s i = bootCause i := by
  have hsoft : ∀ fn off v, softReset s fn off v = false := fun fn off v => by simp [softReset, serving, h]
  have hrun : running s = false := by simp [running, h]
  cases i
  case alarmSetResponse => exact absurd rfl hi
  case registerWrite fn off d => cases d <;> simp [causeRow, bootCause, hsoft]
  all_goals simp [causeRow, bootCause, hsoft, hrun, h]

theorem alarmRow_inBoot {s : State} (h : s.sys.mode = .boot) : alarmRow s ≤ 8 := by
  simp only [alarmRow, h]
  generalize (if setDue s = true then strongest (firstSet s) else 0) = level
  split <;> omega

/-- What a transition of Boot gives way to, where the alarms' response is no lower row or does not wait: it rests on no register, queue or
command. -/
theorem opposed_inBoot {s : State} {row : Nat} (h : s.sys.mode = .boot) (hrow : 8 ≤ row ∨ Instr.alarmSetResponse ∉ s.pending) :
    opposed s row = (s.sys.moved.any (fun m => m.1 == s.sys.tick && decide (row < m.2)) ||
      s.pending.any fun i => decide (row < bootCause i)) := by
  have hsame : ∀ i ∈ s.pending, decide (row < causeRow s i) = decide (row < bootCause i) := fun i hi => by
    by_cases hresp : i = .alarmSetResponse
    · subst hresp
      have hlow : 8 ≤ row := hrow.resolve_right fun h => h hi
      have halarm := alarmRow_inBoot h
      have hcause : causeRow s .alarmSetResponse = alarmRow s := rfl
      have hzero : bootCause .alarmSetResponse = 0 := rfl
      rw [hcause, hzero, decide_eq_false (by omega), decide_eq_false (Nat.not_lt_zero row)]
    · rw [causeRow_inBoot h hresp]
  have hany : (s.pending.any fun i => decide (row < causeRow s i)) = s.pending.any fun i => decide (row < bootCause i) := by
    rw [Bool.eq_iff_iff, List.any_eq_true, List.any_eq_true]
    exact exists_congr fun i => and_congr_right fun hi => by rw [hsame i hi]
  rw [opposed, hany]

/-- Two states of Boot with the same last transition, tick and waiting commands give way to the same rows. -/
theorem opposed_congr_inBoot {s t : State} {row : Nat} (hs : s.sys.mode = .boot) (ht : t.sys.mode = .boot)
    (hmoved : t.sys.moved = s.sys.moved) (htick : t.sys.tick = s.sys.tick) (hp : t.pending = s.pending)
    (hrow : 8 ≤ row ∨ Instr.alarmSetResponse ∉ s.pending) : opposed t row = opposed s row := by
  rw [opposed_inBoot hs hrow, opposed_inBoot ht (hp ▸ hrow), hmoved, htick, hp]

/-! ### Frames of resets and of Lockdown -/

/-- What the reset of a function may change. -/
abbrev resetParts : List Part := [.fns, .ports, .bus, .sqs, .cqs, .cmds, .eng, .keys, .topo, .recorder, .rng, .free]

theorem only_of_reset {s t : State} (h : hideReset t = hideReset s) : Only s t resetParts :=
  only_of_keeps h fun x p hp => by
    cases p
    case fns | ports | bus | sqs | cqs | cmds | eng | keys | topo | recorder | rng | free => simp at hp
    all_goals rfl

theorem only_of_port {s t : State} (h : hidePort t = hidePort s) : Only s t (.boot :: resetParts) :=
  only_of_keeps h fun x p hp => by
    cases p
    case fns | ports | bus | sqs | cqs | cmds | eng | keys | topo | recorder | rng | free | boot => simp at hp
    all_goals rfl

theorem only_of_mode {s t : State} (h : hideMode t = hideMode s) : Only s t (.sys :: .lc :: .boot :: resetParts) :=
  only_of_keeps h fun x p hp => by
    cases p
    case fns | ports | bus | sqs | cqs | cmds | eng | keys | topo | recorder | rng | free | boot | sys | lc => simp at hp
    all_goals rfl

theorem only_of_signals {s t : State} (h : hideSignals t = hideSignals s) : Only s t [.fns, .ports, .bus] :=
  only_of_keeps h fun x p hp => by
    cases p
    case fns | ports | bus => simp at hp
    all_goals rfl

theorem only_of_time {s : State} {x : TimeSt} : Only s { s with time := x } [.time] := fun p hp => by
  cases p
  case time => simp at hp
  all_goals rfl

theorem only_of_lc {s : State} {x : LcSt} : Only s { s with lc := x } [.lc] := fun p hp => by
  cases p
  case lc => simp at hp
  all_goals rfl

/-! ### Entry to Lockdown (R40) -/

theorem fnsReset_keeps (s : State) (p : Nat) : hideReset (fnsReset s p) = hideReset s := by
  have hreset : ∀ (t : State) (fn : Nat), hideReset (resetByPort t fn) = hideReset t := fun t fn =>
    (hideReset_of_drain (hideDrain_modFn ..)).trans ((resetFn_keeps ..).trans (hideReset_of_drain (hideDrain_modFn ..)))
  exact (foldl_keeps hideReset ceaseVf (fun t fn => hideReset_of_drain (hideDrain_modFn ..)) _ _).trans
    ((foldl_keeps hideReset resetByPort hreset _ _).trans (hideReset_of_masks (resetHoldings_keeps ..)))

/-- The reset of a port takes from Boot's registers no more than the load of an image. -/
theorem takePort_bootError (s : State) (p : Nat) : (takePort s p).boot.error = s.boot.error := by
  have hboot := only_of_reset (fnsReset_keeps s p) .boot (by decide)
  have herror : (resetPortNow s p).boot.error = (fnsReset s p).boot.error := by
    unfold resetPortNow
    dsimp only
    split <;> rfl
  exact herror.trans (congrArg BootSt.error hboot)

theorem foldl_only {α : Type} {ps : List Part} {f : State → α → State} (h : ∀ t a, Only t (f t a) ps) (l : List α) (s : State) :
    Only s (l.foldl f s) ps := by
  induction l generalizing s with
  | nil => exact only_refl
  | cons a l ih => exact only_trans (h s a) (ih (f s a))

theorem scopeClosed_only (s : State) (l : LcSt) : Only s (scopeClosed s l) [.recorder] := by
  unfold scopeClosed
  by_cases h : l.scope = 0
  · rw [if_pos h]
    exact only_refl
  · rw [if_neg h]
    exact only_of_recorder (record_keeps ..)

theorem closeScope_only (s : State) : Only s (closeScope s) [.lc, .recorder] := by
  unfold closeScope
  by_cases h : s.lc.scope = 0
  · rw [if_pos h]
    exact only_refl
  · rw [if_neg h]
    exact only_union (only_of_lc (x := { s.lc with scope := 0, byOwner := false, units := [] })) (scopeClosed_only _ _) (by decide) (by decide)

/-- The state that enters Lockdown, before its commands and queues go. -/
def lockedDown (s : State) (cause : BitVec 4) : State := closeScope (setMode (flushSignals ((portsWaiting s).foldl takePort s)) .lockdown cause)

theorem lockedDown_sys (s : State) (cause : BitVec 4) :
    (lockedDown s cause).sys.mode = .lockdown ∧ (lockedDown s cause).sys.cause = cause ∧ (lockedDown s cause).boot.error = s.boot.error := by
  have hports := foldl_keeps (fun t => t.boot.error) takePort takePort_bootError (portsWaiting s) s
  have hflush := only_of_signals (flushSignals_keeps ((portsWaiting s).foldl takePort s)) .boot (by decide)
  have hclose := closeScope_only (setMode (flushSignals ((portsWaiting s).foldl takePort s)) .lockdown cause)
  have hsys := hclose .sys (by decide)
  refine ⟨congrArg Sys.mode hsys, congrArg Sys.cause hsys, ?_⟩
  exact (congrArg BootSt.error (hclose .boot (by decide))).trans ((congrArg BootSt.error hflush).trans hports)

theorem enterLockdown_enters (s : State) (cause : BitVec 4) :
    (enterLockdown s cause).sys.mode = .lockdown ∧ (enterLockdown s cause).sys.cause = cause ∧
      (enterLockdown s cause).boot.error = s.boot.error ∧ (enterLockdown s cause).cmds = [] := by
  obtain ⟨hmode, hcause, herror⟩ := lockedDown_sys s cause
  exact ⟨hmode, hcause, herror, rfl⟩

/-! ### Boot that ends in Lockdown (Table 17) -/

theorem noteTimeLost_only (s : State) : Only s (noteTimeLost s) [.time, .recorder] := by
  unfold noteTimeLost
  split
  · exact only_union only_of_time (only_of_recorder (record_keeps ..)) (by decide) (by decide)
  · exact only_refl

/-- The records at the end of a Boot change the recorder, and note the lost time (R297). -/
theorem bootRecords_only (s : State) : Only s (recordMode (recordBoot (noteTimeLost s))) [.time, .recorder] :=
  only_union (noteTimeLost_only s)
    (only_of_recorder ((recordMode_keeps (recordBoot (noteTimeLost s))).trans (record_keeps ..))) (by decide) (by decide)

/-- Boot fails with a code where no lower row of Table 15 comes in the same tick (Table 17, R47). -/
theorem bootFail_lockdown {s : State} (err : BitVec 8) (h : opposed s 8 = false) :
    (bootFail s err).sys.mode = .lockdown ∧ (bootFail s err).sys.cause = 0xB ∧ (bootFail s err).boot.error = err := by
  obtain ⟨hmode, hcause, herror, -⟩ := enterLockdown_enters { s with boot := { s.boot with error := err } } 0xB
  have honly := bootRecords_only (enterLockdown { s with boot := { s.boot with error := err } } 0xB)
  have hsys := honly .sys (by decide)
  have hboot := honly .boot (by decide)
  rw [bootFail, if_neg (by simp [h])]
  exact ⟨(congrArg Sys.mode hsys).trans hmode, (congrArg Sys.cause hsys).trans hcause, (congrArg BootSt.error hboot).trans herror⟩

end Sys2Proof.Machine
end

section
/-!
PROOFS. The phases of Boot up to the host's image (O20), from that image to the self-tests (O22).
-/

namespace Sys2Proof.Machine

open Sys2Proof.Claims

theorem inPhase_iff {s : State} {n : Nat} : inPhase s n = true ↔ s.sys.mode = .boot ∧ s.sys.resetLow = false ∧ s.boot.phase = n := by
  simp [inPhase, and_assoc]

/-! ### ROM (R47, R437) -/

theorem mount_port (s : State) {p : Nat} (h : p < 8) : (getPort (mount s) p).linkUp = !(getPort s p).perst := by
  simp [getPort, mount, Array.getD, h]

theorem mount_only (s : State) : Only s (mount s) [.sys, .boot, .recorder, .ports] := fun p hp => by
  cases p
  case sys | boot | recorder | ports => simp at hp
  all_goals rfl

theorem toPhase_only (s : State) (n : Nat) : Only s (toPhase s n) [.boot] := only_of_boot

theorem rom_good {s : State} (hphase : inPhase s 1 = true) (hrom : s.boot.romDone = false) :
    Completes (.rom true) s fun t => t.boot.romDone = true ∧ t.sys.isolated = false ∧ t.recorder.mounted = true ∧
      t.boot.phase = (if s.sys.tbclk then 2 else 1) ∧ (∀ p, p < 8 → (getPort t p).linkUp = !(getPort s p).perst) ∧
      Only s t [.sys, .boot, .recorder, .ports] := by
  obtain ⟨-, -, hone⟩ := inPhase_iff.mp hphase
  have hexec : exec (.rom true) s = .next (if s.sys.tbclk then toPhase (mount s) 2 else mount s) := by
    simp [exec, execRom, hphase, hrom]
  refine ⟨_, hexec, ?_⟩
  cases htb : s.sys.tbclk
  · exact ⟨rfl, rfl, rfl, hone, fun p hp => mount_port s hp, mount_only s⟩
  · exact ⟨rfl, rfl, rfl, rfl, fun p hp => mount_port s hp, only_union (mount_only s) (toPhase_only _ 2) (by decide) (by decide)⟩

theorem rom_bad {s : State} (hphase : inPhase s 1 = true) (hrom : s.boot.romDone = false) (hopp : opposed s 8 = false) :
    Completes (.rom false) s fun t => t.sys.mode = .lockdown ∧ t.sys.cause = 0xB ∧ t.boot.error = 0x01 := by
  have hboot : s.sys.mode = .boot := (inPhase_iff.mp hphase).1
  have hsame : opposed (mount s) 8 = opposed s 8 := opposed_congr_inBoot hboot hboot rfl rfl rfl (.inl (le_refl 8))
  exact ⟨bootFail (mount s) 0x01, by simp [exec, execRom, hphase, hrom], bootFail_lockdown 0x01 (hsame.trans hopp)⟩

/-! ### OTP_LC (R394, R396, R441) -/

theorem otpLc_quiet {s : State} {failed : List (Nat × Nat)} (hphase : inPhase s 2 = true) (hclear : clearMark s.nvm = false)
    (hmove : pendingMove s.nvm = none) :
    exec (.otpLc failed) s =
      .next (afterOtp (if copiesDisagree s.otp then recordLc s (lcDecode s.otp).1 (lcDecode s.otp).1 5 else s)) := by
  have hresume : resumeErase s = s := by simp [resumeErase, hclear]
  simp [exec, execOtpLc, hphase, hresume, hmove]

/-- The life-cycle registers as OTP decodes (R387, R388). -/
def withOtpState (s : State) : State :=
  { s with lc := { s.lc with
      state := (lcDecode s.otp).1, noMajor := (lcDecode s.otp).2, tapIr := tapAllowed (lcDecode s.otp).1 s.lc.tapIr } }

theorem otpLc_goesOn {s : State} (h : (lcDecode s.otp).1 ≠ .scrap) :
    afterOtp s = startFlash { toPhase (withOtpState s) 3 with sys := { s.sys with qspiActive := true } } := by
  rw [afterOtp]
  exact if_neg h

theorem otpLc_scrap {s : State} (h : (lcDecode s.otp).1 = .scrap) (hopp : opposed (withOtpState s) 8 = false) :
    afterOtp s = recordMode (recordBoot (noteTimeLost (enterLockdown (withOtpState s) 0xA))) := by
  rw [afterOtp]
  exact (if_pos h).trans (if_neg (by simpa [withOtpState] using hopp))

theorem otpLc_toUcode {s : State} (failed : List (Nat × Nat)) (hphase : inPhase s 2 = true) (hclear : clearMark s.nvm = false)
    (hmove : pendingMove s.nvm = none) (hagree : copiesDisagree s.otp = false) (hlc : (lcDecode s.otp).1 ≠ .scrap) :
    Completes (.otpLc failed) s fun t => t.boot.phase = 3 ∧ t.lc.state = (lcDecode s.otp).1 ∧
      t.sys = { s.sys with qspiActive := true } ∧ Only s t [.sys, .boot, .lc, .bus] ∧
      t.bus = s.bus ++ [.flashReset true, .flash 0x66 0 0, .flash 0x99 0 0, .flash 0x5A 0 16] := by
  have hexec := otpLc_quiet (failed := failed) hphase hclear hmove
  rw [hagree, if_neg Bool.false_ne_true, otpLc_goesOn hlc] at hexec
  refine ⟨_, hexec, rfl, rfl, rfl, fun p hp => ?_, by simp [startFlash, emit, toPhase, withOtpState]⟩
  cases p
  case sys | boot | lc | bus => simp at hp
  all_goals rfl

theorem otpLc_toLockdown {s : State} (failed : List (Nat × Nat)) (hphase : inPhase s 2 = true) (hclear : clearMark s.nvm = false)
    (hmove : pendingMove s.nvm = none) (hlc : (lcDecode s.otp).1 = .scrap) (hopp : opposed s 8 = false) :
    Completes (.otpLc failed) s fun t => t.sys.mode = .lockdown ∧ t.sys.cause = 0xA := by
  obtain ⟨s1, hs1, hrec⟩ : ∃ s1, s1 = (if copiesDisagree s.otp then recordLc s (lcDecode s.otp).1 (lcDecode s.otp).1 5 else s) ∧
      Only s s1 [.recorder] := by
    refine ⟨_, rfl, ?_⟩
    cases copiesDisagree s.otp
    · exact only_refl
    · exact only_of_recorder (record_keeps ..)
  have hexec := otpLc_quiet (failed := failed) hphase hclear hmove
  rw [← hs1] at hexec
  have hboot : s.sys.mode = .boot := (inPhase_iff.mp hphase).1
  have hotp : s1.otp = s.otp := hrec .otp (by decide)
  have hsys : s1.sys = s.sys := hrec .sys (by decide)
  have hpend : s1.pending = s.pending := hrec .pending (by decide)
  have hsame : opposed (withOtpState s1) 8 = opposed s 8 :=
    opposed_congr_inBoot hboot ((congrArg Sys.mode hsys).trans hboot) (congrArg Sys.moved hsys) (congrArg Sys.tick hsys) hpend (.inl (le_refl 8))
  rw [otpLc_scrap (by rw [hotp, hlc]) (hsame.trans hopp)] at hexec
  obtain ⟨hmode, hcause, -, -⟩ := enterLockdown_enters (withOtpState s1) 0xA
  have hend := bootRecords_only (enterLockdown (withOtpState s1) 0xA) .sys (by decide)
  exact ⟨_, hexec, (congrArg Sys.mode hend).trans hmode, (congrArg Sys.cause hend).trans hcause⟩

/-! ### UCODE (R54, R55, R441) -/

theorem checkImage_magic {v : Nat} {b : Bytes} {l : List Section} (h : checkImage v b = .ok l) : slice b 0 4 = [0x54, 0x44, 0x58, 0x49] := by
  by_contra hmagic
  rw [checkImage, if_pos hmagic] at h
  nomatch h

theorem readSlot_only (s : State) (base : Nat) (slot : Bytes) : Only s (readSlot s base slot) [.bus] := fun p hp => by
  unfold readSlot
  cases p
  case bus => simp at hp
  all_goals dsimp only; split <;> rfl

theorem readSlot_magic {s : State} {base : Nat} {slot : Bytes} (h : slice slot 0 4 = [0x54, 0x44, 0x58, 0x49]) :
    (readSlot s base slot).bus = s.bus ++ [.flash 0xEE base 64, .flash 0xEE base (le slot 12 4)] := by
  simp [readSlot, h, emit]

theorem takeImage_only (s : State) (used : BitVec 2) (b : Bytes) (l : List Section) : Only s (takeImage s used b l) [.sys, .boot] := fun p hp => by
  cases p
  case sys | boot => simp at hp
  all_goals rfl

theorem sourceError_only (s : State) (src : Nat) (e : BitVec 8) : Only s (sourceError s src e) [.boot] := only_of_boot

theorem waitHost_only (s : State) : Only s (waitHost s) [.sys, .boot] := fun p hp => by
  cases p
  case sys | boot => simp at hp
  all_goals rfl

theorem ucode_slotA {s : State} {a : Bytes} (b : Bytes) {l : List Section} (hphase : inPhase s 3 = true) (ha : checkImage s.otp.minVer a = .ok l) :
    exec (.ucode a b) s = .next (takeImage (readSlot s 0 a) 1 a l) := by
  simp [exec, execUcode, hphase, ha]

theorem ucode_slotB {s : State} {a b : Bytes} {x : BitVec 8} {l : List Section} (hphase : inPhase s 3 = true)
    (ha : checkImage s.otp.minVer a = .error x) (hb : checkImage s.otp.minVer b = .ok l) :
    exec (.ucode a b) s = .next (takeImage (sourceError (readSlot (readSlot s 0 a) 0x400000 b) 0 x) 2 b l) := by
  simp [exec, execUcode, hphase, ha, hb]

theorem ucode_noSlot {s : State} {a b : Bytes} {x y : BitVec 8} (hphase : inPhase s 3 = true)
    (ha : checkImage s.otp.minVer a = .error x) (hb : checkImage s.otp.minVer b = .error y) :
    exec (.ucode a b) s = .next (waitHost (sourceError (sourceError (readSlot (readSlot s 0 a) 0x400000 b) 0 x) 1 y)) := by
  simp [exec, execUcode, hphase, ha, hb]

theorem ucode_reads (s : State) (a b : Bytes) : Only s (readSlot (readSlot s 0 a) 0x400000 b) [.bus] :=
  only_trans (readSlot_only _ _ _) (readSlot_only _ _ _)

theorem ucode_outcomes {s : State} (a b : Bytes) (hphase : inPhase s 3 = true) :
    Completes (.ucode a b) s fun t => Only s t [.sys, .boot, .bus] ∧
      (∀ l, checkImage s.otp.minVer a = .ok l → t.boot.phase = 5 ∧ t.boot.used = 1 ∧ t.boot.secVer = le a 8 1 ∧
        t.sys = { s.sys with qspiActive := false } ∧
        t.bus = s.bus ++ [.flash 0xEE 0 64, .flash 0xEE 0 (le a 12 4)]) ∧
      (∀ x l, checkImage s.otp.minVer a = .error x → checkImage s.otp.minVer b = .ok l →
        t.boot.phase = 5 ∧ t.boot.used = 2 ∧ t.boot.errA = x ∧ t.boot.error = x) ∧
      ∀ x y, checkImage s.otp.minVer a = .error x → checkImage s.otp.minVer b = .error y →
        t.boot.phase = 4 ∧ t.boot.errA = x ∧ t.boot.errB = y ∧ t.boot.error = y := by
  cases ha : checkImage s.otp.minVer a with
  | ok l =>
    have hsys : (readSlot s 0 a).sys = s.sys := readSlot_only s 0 a .sys (by decide)
    refine ⟨_, ucode_slotA b hphase ha, only_union (readSlot_only _ _ _) (takeImage_only _ _ _ _) (by decide) (by decide), ?_, ?_, ?_⟩
    · exact fun _ _ => ⟨rfl, rfl, rfl, congrArg (fun y : Sys => { y with qspiActive := false }) hsys, readSlot_magic (checkImage_magic ha)⟩
    · exact fun x l' hx => nomatch hx
    · exact fun x y hx => nomatch hx
  | error x =>
    cases hb : checkImage s.otp.minVer b with
    | ok l =>
      have htake : Only (readSlot (readSlot s 0 a) 0x400000 b) (takeImage (sourceError (readSlot (readSlot s 0 a) 0x400000 b) 0 x) 2 b l)
          [.sys, .boot] := only_union (sourceError_only _ _ _) (takeImage_only _ _ _ _) (by decide) (by decide)
      refine ⟨_, ucode_slotB hphase ha hb, only_union (ucode_reads s a b) htake (by decide) (by decide), ?_, ?_, ?_⟩
      · exact fun l' h => nomatch h
      · intro x' l' hx _
        injection hx with hx
        exact ⟨rfl, rfl, hx, hx⟩
      · exact fun x' y _ h => nomatch h
    | error y =>
      have hwait : Only (readSlot (readSlot s 0 a) 0x400000 b)
          (waitHost (sourceError (sourceError (readSlot (readSlot s 0 a) 0x400000 b) 0 x) 1 y)) [.sys, .boot] :=
        only_union (only_trans (sourceError_only _ _ _) (sourceError_only _ _ _)) (waitHost_only _) (by decide) (by decide)
      refine ⟨_, ucode_noSlot hphase ha hb, only_union (ucode_reads s a b) hwait (by decide) (by decide), ?_, ?_, ?_⟩
      · exact fun l' h => nomatch h
      · exact fun x' l' _ h => nomatch h
      · intro x' y' hx hy
        injection hx with hx
        injection hy with hy
        exact ⟨rfl, hx, hy, hy⟩

end Sys2Proof.Machine

namespace Sys2Proof.Proofs

open Sys2Proof.Machine Sys2Proof.Claims

/-- Settles O20, phase by phase: ROM, OTP_LC without a move under way, and the two slots of the flash. -/
theorem bootPhasesToImage : Obligations.BootPhasesToImage := by
  unfold Obligations.BootPhasesToImage
  exact fun s failed a b => ⟨rom_good, rom_bad, otpLc_toUcode failed, otpLc_toLockdown failed, ucode_outcomes a b⟩

end Sys2Proof.Proofs
end

section
/-!
PROOFS. The phases of Boot from WAIT_HOST to SELFTEST (O22): the load of the host's image, memory training and the self-tests.
-/

namespace Sys2Proof.Machine

open Sys2Proof.Claims

/-! ### The reads of a load (R54, R431) -/

theorem emitRead_only (s : State) (fn : Nat) (a : DWord) (n : Nat) : Only s (emitRead s fn a n) [.bus] :=
  only_of_keeps (emitRead_keeps s fn a n) fun x p hp => by
    cases p
    case bus => simp at hp
    all_goals rfl

theorem foldl_emit_bus {α : Type} (f : α → Bus) (l : List α) (s : State) : (l.foldl (fun t p => emit t (f p)) s).bus = s.bus ++ l.map f := by
  induction l generalizing s with
  | nil => simp
  | cons p l ih =>
    have hemit : (emit s (f p)).bus = s.bus ++ [f p] := rfl
    rw [List.foldl_cons, ih, hemit, List.map_cons, List.append_assoc, List.singleton_append]

theorem emitRead_bus (s : State) (fn : Nat) (a : DWord) (n : Nat) :
    (emitRead s fn a n).bus = s.bus ++ (spans (maxRead s fn) n a.toNat n).map fun p => .read fn (BitVec.ofNat 64 p.1) p.2 :=
  foldl_emit_bus ..

/-- What a load that has come to a read of `n` bytes leaves: the read is out once the device may issue it. -/
theorem bootAsk_reads {s : State} (b : BootSt) (hload : b.loading = true) (hasked : b.asked = false) :
    Only s (bootAsk { s with boot := b }) [.boot, .bus] ∧ (bootAsk { s with boot := b }).boot = { b with asked := bootReq s } ∧
      (bootAsk { s with boot := b }).bus = if bootReq s then
        (emitRead s (keeperFn s) (b.addrHi ++ b.addrLo : BitVec 64) (match b.header with | none => 64 | some h => le h 12 4)).bus else s.bus := by
  have hreq : bootReq { s with boot := b } = bootReq s := rfl
  unfold bootAsk
  dsimp only
  rw [hload, hasked, hreq]
  cases bootReq s
  · have hsame : b = { b with loading := true, asked := false } := by rw [← hload, ← hasked]
    exact ⟨only_mono (ps := [.boot]) only_of_boot (by decide), hsame, rfl⟩
  · refine ⟨only_union (ps := [.boot]) only_of_boot (emitRead_only _ _ _ _) (by decide) (by decide), emitRead_boot .., ?_⟩
    rw [if_pos rfl, emitRead_bus]
    exact (emitRead_bus ..).trans rfl

theorem imageLoad_starts {s : State} {fn : Nat} (v : Word) (hboot : s.sys.mode = .boot) (hphase : s.boot.phase = 4)
    (hopen : barOpen s fn = true) (hflr : (getFn s fn).flr ≠ .cleanup) (hkeeper : fn = keeperFn s) :
    Completes (.bootImageLoad fn v) s fun t => Only s t [.boot, .bus] ∧
      t.boot = { s.boot with addrHi := v, loading := true, header := none, asked := bootReq s } ∧
      t.bus = if bootReq s then (emitRead s fn (v ++ s.boot.addrLo : BitVec 64) 64).bus else s.bus := by
  have hexec : exec (.bootImageLoad fn v) s =
      .next (bootAsk { s with boot := { s.boot with addrHi := v, loading := true, asked := false, header := none } }) := by
    simp [exec, execBootImageLoad, barWrite, hopen, writeOrHold, hflr, barWriteNow, hboot, imageWrite, ← hkeeper, hphase]
  obtain ⟨honly, hstate, hbus⟩ := bootAsk_reads (s := s) { s.boot with addrHi := v, loading := true, asked := false, header := none } rfl rfl
  exact ⟨_, hexec, honly, hstate, hkeeper ▸ hbus⟩

/-! ### The host's image (R54, R55) -/

theorem imageLoaded_header {s : State} (b : Bytes) (hphase : inPhase s 4 = true) (hload : s.boot.loading = true)
    (hasked : s.boot.asked = true) (hheader : s.boot.header = none) :
    Completes (.hostImageLoaded (some b)) s fun t => Only s t [.boot, .bus] ∧
      (∀ x, headerError b (le b 12 4) = some x → t.boot = { s.boot with error := x, errHost := x, loading := false } ∧ t.bus = s.bus) ∧
      (headerError b (le b 12 4) = none → t.boot = { s.boot with header := some (b.take 64), asked := bootReq s } ∧
        t.bus = if bootReq s then
          (emitRead s (keeperFn s) (s.boot.addrHi ++ s.boot.addrLo : BitVec 64) (le (b.take 64) 12 4)).bus else s.bus) := by
  have hexec : exec (.hostImageLoaded (some b)) s = .next (headerArrived s b) := by
    simp [exec, execHostImageLoaded, hphase, hload, hasked, hheader]
  refine ⟨_, hexec, ?_⟩
  unfold headerArrived
  cases herr : headerError b (le b 12 4) with
  | some e =>
    refine ⟨only_mono (sourceError_only _ _ _) (by decide), fun x hx => ?_, fun h => nomatch h⟩
    injection hx with hx
    exact ⟨hx ▸ rfl, rfl⟩
  | none =>
    obtain ⟨honly, hstate, hbus⟩ := bootAsk_reads (s := s) { s.boot with header := some (b.take 64), asked := false } hload rfl
    refine ⟨honly, ?_, fun _ => ⟨hstate, hbus⟩⟩
    exact fun x hx => nomatch hx

theorem imageLoaded_whole {s : State} (b : Bytes) (hphase : inPhase s 4 = true) (hload : s.boot.loading = true)
    (hasked : s.boot.asked = true) (hheader : s.boot.header ≠ none) :
    Completes (.hostImageLoaded (some b)) s fun t => Only s t [.sys, .boot] ∧
      (∀ l, checkImage s.otp.minVer b = .ok l → t.boot.phase = 5 ∧ t.boot.used = 3) ∧
      ∀ x, checkImage s.otp.minVer b = .error x → t.sys = s.sys ∧ t.boot = { s.boot with error := x, errHost := x, loading := false } := by
  obtain ⟨h, hh⟩ := Option.ne_none_iff_exists'.mp hheader
  have hexec : exec (.hostImageLoaded (some b)) s = .next (imageArrived s b) := by
    simp [exec, execHostImageLoaded, hphase, hload, hasked, hh]
  refine ⟨_, hexec, ?_⟩
  unfold imageArrived
  cases himage : checkImage s.otp.minVer b with
  | ok l => exact ⟨takeImage_only _ _ _ _, fun _ _ => ⟨rfl, rfl⟩, fun _ h => nomatch h⟩
  | error e =>
    refine ⟨only_mono (sourceError_only _ _ _) (by decide), fun _ h => (nomatch h), fun x hx => ?_⟩
    injection hx with hx
    exact ⟨rfl, hx ▸ rfl⟩

theorem imageLoaded_failed {s : State} (hphase : inPhase s 4 = true) (hload : s.boot.loading = true) (hasked : s.boot.asked = true) :
    Completes (.hostImageLoaded none) s fun t => Only s t [.boot] ∧
      t.boot = { s.boot with error := 0x17, errHost := 0x17, loading := false } :=
  ⟨sourceError s 2 0x17, by simp [exec, execHostImageLoaded, hphase, hload, hasked], sourceError_only _ _ _, rfl⟩

/-! ### Training and SELFTEST (R47, R439) -/

/-- No memory device failed: each is trained and has the density wanted. -/
theorem trainedAll_iff (tr de want : BitVec 8) : (~~~tr ||| (de ^^^ want) == 0) = decide (tr = 0xFF ∧ de = want) := by
  rw [beq_eq_decide]
  refine decide_eq_decide.mpr ⟨fun h => ?_, fun ⟨htr, hde⟩ => by subst htr hde; simp⟩
  obtain ⟨htr, hde⟩ := BitVec.or_eq_zero_iff.mp h
  exact ⟨by rw [← BitVec.not_not (b := tr), htr]; rfl, BitVec.xor_eq_zero_iff.mp hde⟩

theorem gmTraining_ends {s : State} (tr de : BitVec 8) (hboot : s.sys.mode = .boot) (hlow : 3 ≤ s.boot.phase) (hhigh : s.boot.phase ≤ 5)
    (hgm : s.boot.gmDone = false) :
    Completes (.gmTrainingDone tr de) s fun t => Only s t [.boot, .free] ∧ t.boot.gmDone = true ∧
      t.boot.gmTrained = decide (tr = 0xFF ∧ de = if s.otp.variant32 then 0xFF else 0) ∧
      (de = 0 → t.boot.density = 1) ∧ (de = 0xFF → t.boot.density = 2) := by
  have hexec : exec (.gmTrainingDone tr de) s = .next { s with free := s.free + 1, boot := { s.boot with
      gmDone := true, gmFail := ~~~tr ||| (de ^^^ if s.otp.variant32 then 0xFF else 0),
      gmTrained := ~~~tr ||| (de ^^^ if s.otp.variant32 then 0xFF else 0) == 0, density := foundDensity de s.free } } := by
    simp [exec, execGmTrainingDone, hboot, hlow, hhigh, hgm]
  refine ⟨_, hexec, fun p hp => ?_, rfl, trainedAll_iff .., fun h => by subst h; rfl, fun h => by subst h; rfl⟩
  cases p
  case boot | free => simp at hp
  all_goals rfl

theorem selftest_trained {s : State} (hphase : inPhase s 5 = true) (hgm : s.boot.gmDone = true) (htrained : s.boot.gmTrained = true) :
    (Completes (.selftest true true) s fun t => Only s t [.boot, .eng, .rng] ∧ t.boot.phase = 6 ∧
      t.eng = { s.eng with inService := true } ∧ t.rng = { s.rng with start := s.sys.tick }) ∧
    (opposed s 8 = false → Completes (.selftest true false) s fun t => t.sys.mode = .lockdown ∧ t.boot.error = 0x22) ∧
    (opposed s 8 = false → ∀ k, Completes (.selftest false k) s fun t => t.sys.mode = .lockdown ∧ t.boot.error = 0x21) := by
  have hfail : ∀ m k err, exec (.selftest m k) s = .next (bootFail s err) → opposed s 8 = false →
      Completes (.selftest m k) s fun t => t.sys.mode = .lockdown ∧ t.boot.error = err := fun m k err h hopp =>
    ⟨_, h, (bootFail_lockdown err hopp).1, (bootFail_lockdown err hopp).2.2⟩
  refine ⟨⟨toPhase { s with eng := { s.eng with inService := true }, rng := { s.rng with start := s.sys.tick } } 6,
      by simp [exec, execSelftest, hphase, hgm, htrained], fun p hp => ?_, rfl, rfl, rfl⟩,
    hfail _ _ _ (by simp [exec, execSelftest, hphase, hgm, htrained]),
    fun hopp k => hfail _ _ _ (by simp [exec, execSelftest, hphase, hgm, htrained]) hopp⟩
  cases p
  case boot | eng | rng => simp at hp
  all_goals rfl

theorem selftest_untrained {s : State} (hphase : inPhase s 5 = true) (hgm : s.boot.gmDone = true) (htrained : s.boot.gmTrained = false)
    (hopp : opposed s 8 = false) (m k : Bool) :
    Completes (.selftest m k) s fun t => t.sys.mode = .lockdown ∧ t.boot.error = 0x20 := by
  obtain ⟨hmode, -, herror⟩ := bootFail_lockdown 0x20 hopp
  exact ⟨bootFail s 0x20, by simp [exec, execSelftest, hphase, hgm, htrained], hmode, herror⟩

end Sys2Proof.Machine

namespace Sys2Proof.Proofs

open Sys2Proof.Machine Sys2Proof.Claims

/-- Settles O22, by the reads of a load, what they bring, training's end and the self-tests. -/
theorem bootPhasesToSelftest : Obligations.BootPhasesToSelftest := by
  unfold Obligations.BootPhasesToSelftest
  exact fun s fn v b tr de => ⟨imageLoad_starts v, imageLoaded_header b, imageLoaded_whole b, imageLoaded_failed, gmTraining_ends tr de,
    selftest_trained, selftest_untrained⟩

end Sys2Proof.Proofs
end

section
/-!
PROOFS. Supplies and device resets (O17): what a cut write may leave, and what the entry to Boot keeps.
-/

namespace Sys2Proof.Machine

open Sys2Proof.Claims

/-! ### What a cut write may change (R242, R243, R259, log 7) -/

/-- The state without what the work of a cut write may have changed: OTP, NVM, keys, alarms, the recorder, the calendar and the generator. -/
def hideStores (s : State) : State :=
  { s with otp := State.reset.otp, nvm := State.reset.nvm, keys := KeySt.reset, alarm := AlarmSt.reset, recorder := RecSt.reset,
           time := State.reset.time, rng := RngSt.reset, free := 0 }

theorem hideStores_of_nvm {s t : State} (h : hideNvm t = hideNvm s) : hideStores t = hideStores s := (congrArg hideStores h :)

theorem hideStores_of_report {s t : State} (h : hideReport t = hideReport s) : hideStores t = hideStores s := (congrArg hideStores h :)

theorem hideStores_of_recorder {s t : State} (h : hideRecorder t = hideRecorder s) : hideStores t = hideStores s := (congrArg hideStores h :)

theorem hideStores_of_rng {s t : State} (h : hideRng t = hideRng s) : hideStores t = hideStores s := (congrArg hideStores h :)

theorem hideStores_of_holdings {s t : State} (h : hideHoldings t = hideHoldings s) : hideStores t = hideStores s := (congrArg hideStores h :)

theorem writeMark_stores (s : State) (n v : Nat) : hideStores (writeMark s n v) = hideStores s := hideStores_of_nvm (writeMark_keeps ..)

theorem resumeErase_stores (s : State) : hideStores (resumeErase s) = hideStores s := by
  unfold resumeErase
  split
  · exact (hideStores_of_recorder (record_keeps ..)).trans ((writeMark_stores ..).trans rfl)
  · rfl

theorem runWipe_stores (s : State) (frm dst : Lc) : hideStores (runWipe s frm dst) = hideStores s := by
  unfold runWipe
  split
  · rfl
  · exact (foldl_keeps hideStores eraseTree (fun t n => hideStores_of_holdings (eraseTree_keeps t n)) _ _).trans rfl
  · rfl
  · rfl

theorem beforeCopy_stores (s : State) (frm dst : Lc) (copy : Nat) : hideStores (beforeCopy s frm dst copy) = hideStores s := by
  have hwipe : ∀ t : State, hideStores (if wipeDone t.nvm then t else writeMark (runWipe t frm dst) 2 1) = hideStores t := fun t => by
    split
    · rfl
    · exact (writeMark_stores ..).trans (runWipe_stores ..)
  exact (hwipe (resumeErase s)).trans (resumeErase_stores s)

theorem beforeRecord_stores (s : State) (region index : Nat) (v : DWord) : hideStores (beforeRecord s region index v) = hideStores s := by
  unfold beforeRecord
  repeat' split
  · exact (writeMark_stores ..).trans (beforeCopy_stores ..)
  · rfl
  · rfl
  · exact (runWipe_stores ..).trans (resumeErase_stores s)
  · exact beforeCopy_stores ..
  · rfl
  · rfl
  · rfl
  · rfl

theorem raiseEpoch_stores (s : State) (fails : Nat) : hideStores (raiseEpoch s fails).1 = hideStores s := by
  unfold raiseEpoch
  split
  · exact hideStores_of_report (reportCorrupt_report ..)
  · rename_i g v _
    have hcommit := hideStores_of_nvm (commitRec_keeps s 5 0 g (v + 1) fails)
    split
    · rfl
    · split
      · rename_i s1 h
        rw [h] at hcommit
        exact hcommit
      · rename_i s1 h
        rw [h] at hcommit
        exact hcommit

theorem withDraw_stores {s t : State} {n : Nat} {k : Bytes → State → Option State}
    (hk : ∀ r u, k r u = some t → hideStores t = hideStores u) (h : withDraw s n k = some t) : hideStores t = hideStores s := by
  unfold withDraw at h
  split at h
  · exact hk _ _ h
  · obtain ⟨r, hr, ht⟩ := Option.bind_eq_some_iff.mp h
    exact (hk _ _ ht).trans (hideStores_of_rng (draw_keeps s n r hr))

theorem installIdentity_stores (s : State) (fails : Nat) : hideStores ((installIdentity s fails).getD s) = hideStores s := by
  cases h : installIdentity s fails with
  | none => rfl
  | some t =>
    unfold installIdentity at h
    split at h
    · refine withDraw_stores (fun r0 u h0 => withDraw_stores (fun r1 w h1 => ?_) h0) h
      have hwear := hideStores_of_nvm (wearWrite_keeps w 2 identityWords fails)
      split at h1 <;> rename_i e <;> rw [e] at hwear <;> injection h1 with h1 <;> subst h1 <;> exact hwear
    · injection h with h
      exact h ▸ rfl

theorem installSwk_stores (s : State) (fails : Nat) : hideStores ((installSwk s fails).getD s) = hideStores s := by
  cases h : installSwk s fails with
  | none => rfl
  | some t =>
    unfold installSwk at h
    split at h
    · refine withDraw_stores (fun r u h0 => ?_) h
      have hwear := hideStores_of_nvm (wearWrite_keeps u 2 swkWords fails)
      split at h0 <;> rename_i e <;> rw [e] at hwear <;> injection h0 with h0 <;> subst h0 <;> exact hwear
    · injection h with h
      exact h ▸ rfl

theorem beforeCommit_stores (s : State) : hideStores (beforeCommit s) = hideStores s :=
  (installSwk_stores ..).trans ((installIdentity_stores ..).trans (raiseEpoch_stores s 0))

theorem tornRecord_stores (flight : Bool) (s : State) (b : Bytes) : hideStores (tornRecord flight s b) = hideStores s := by
  unfold tornRecord
  dsimp only
  repeat' split
  all_goals rfl

theorem tornBlocks_stores (s : State) (cid n : Nat) : hideStores (tornBlocks s cid n) = hideStores s := by
  unfold tornBlocks
  split
  · rfl
  · split
    · rfl
    · exact foldl_keeps hideStores
        (fun t (p : Nat × Bytes) => { t with nvm := { t.nvm with user := memWrite userBlank t.nvm.user p.1 p.2 } }) (fun _ _ => rfl) _ s

theorem tornTree_stores (s : State) (t : Nat) : hideStores (tornTree s t) = hideStores s := by
  unfold tornTree
  repeat' split
  all_goals rfl

theorem tornTreeRecord_stores (s : State) (t : Nat) : hideStores (tornTreeRecord s t) = hideStores s := by
  unfold tornTreeRecord
  split
  · split
    · rfl
    · exact (hideStores_of_nvm (commitRec_keeps ..) :)
  · rfl

theorem tornPersist_stores (s : State) (which : Nat) : hideStores (tornPersist s which) = hideStores s := by
  unfold tornPersist
  repeat' split
  · rfl
  · exact raiseEpoch_stores s 0
  · rfl
  · rfl
  · rfl
  · exact (installIdentity_stores (raiseEpoch s 0).1 0).trans (raiseEpoch_stores s 0)
  · rfl

theorem tornFuse_stores (s : State) (level : Nat) : hideStores (tornFuse s level) = hideStores s := by
  unfold tornFuse
  split
  · exact beforeCommit_stores s
  · rfl

theorem tornSlot_stores (s : State) (copy : Nat) (bits : BitVec 16) : hideStores (tornSlot s copy bits) = hideStores s := by
  unfold tornSlot
  split
  · split
    · exact beforeCopy_stores s _ _ copy
    · rfl
  · rfl

theorem tornMonFuse_stores (s : State) (v : Word) (a b : BitVec 16) : hideStores (tornMonFuse s v a b) = hideStores s := by
  unfold tornMonFuse
  dsimp only
  split <;> rfl

theorem applyTorn_stores (flight : Bool) (s : State) (t : Torn) : hideStores (applyTorn flight s t) = hideStores s := by
  unfold applyTorn
  cases t <;> dsimp only
  case copy region index v gen margin | half region index v gen =>
    split
    · exact (hideStores_of_nvm (putCopy_keeps ..)).trans (beforeRecord_stores ..)
    · rfl
  case record b => exact tornRecord_stores ..
  case blocks cid n => exact tornBlocks_stores ..
  case treeErase t => exact tornTree_stores ..
  case treeRecord t => exact tornTreeRecord_stores ..
  case persist w => exact tornPersist_stores ..
  case fuse l => exact tornFuse_stores ..
  case slot c b => exact tornSlot_stores ..
  case monFuse v a b =>
    split
    · exact tornMonFuse_stores ..
    · rfl

/-- What a cut leaves differs from the state before in the stores and in what the work of the writes keeps with them. -/
theorem cut_stores (flight : Bool) (s : State) (torn : List Torn) : hideStores (cut flight s torn) = hideStores s :=
  foldl_keeps hideStores (applyTorn flight) (applyTorn_stores flight) _ s

theorem cut_sys (flight : Bool) (s : State) (torn : List Torn) : (cut flight s torn).sys = s.sys :=
  (congrArg State.sys (cut_stores flight s torn) :)

theorem cut_lc (flight : Bool) (s : State) (torn : List Torn) : (cut flight s torn).lc = s.lc :=
  (congrArg State.lc (cut_stores flight s torn) :)

theorem cut_backup (flight : Bool) (s : State) (torn : List Torn) : (cut flight s torn).backup = s.backup :=
  (congrArg State.backup (cut_stores flight s torn) :)

/-! ### The entry to Boot (Table 20, R472) -/

theorem record_queue (s : State) (trig subj : Nat) (p : Bytes) :
    (record s trig subj p).recorder.queue.length ≤ s.recorder.queue.length + 1 := by
  unfold record queueRecord
  repeat' split
  all_goals simp [dropRecord]

theorem scopeClosed_queue (s : State) (l : LcSt) :
    (scopeClosed s l).recorder.queue.length ≤ s.recorder.queue.length + if l.scope = 0 then 0 else 1 := by
  unfold scopeClosed
  split
  · exact le_refl _
  · exact record_queue ..

theorem bootState_kept (s : State) (cold : Bool) : NonVolatileKept s (bootState s cold) := ⟨rfl, rfl, rfl, rfl, rfl, rfl, rfl, rfl⟩

/-- What every warm entry to Boot leaves: the volatile contents are gone, and the recorder's queue holds the records of the entry alone. -/
structure WarmBooted (s : State) (cause : BitVec 4) (t : State) : Prop where
  mode : t.sys.mode = .boot
  prev : t.sys.prev = s.sys.mode
  cause : t.sys.cause = cause
  resetLow : t.sys.resetLow = s.sys.resetLow
  isolated : t.sys.isolated = s.sys.resetLow
  boot : t.boot = BootSt.reset
  keys : t.keys = KeySt.reset
  bkeys : t.bkeys = BootKeys.reset
  cmds : t.cmds = []
  fns : t.fns = []
  queue : t.recorder.queue.length ≤ 2
  noScope : s.lc.scope = 0 → t.recorder.queue.length ≤ 1
  backup : t.backup = s.backup
  kept : NonVolatileKept s t

/-- The state of a warm entry to Boot before its records. -/
def bootEntered (s : State) (cause : BitVec 4) : State :=
  { bootState s false with sys := { (bootState s false).sys with prev := s.sys.mode, cause := cause } }

theorem warmBoot_only (s : State) (cause : BitVec 4) : Only (bootEntered s cause) (warmBoot s cause) [.recorder] :=
  only_trans (scopeClosed_only _ s.lc) (only_of_recorder (recordMode_keeps _))

theorem warmBoot_queue (s : State) (cause : BitVec 4) : (warmBoot s cause).recorder.queue.length ≤ if s.lc.scope = 0 then 1 else 2 := by
  have hscope := scopeClosed_queue (bootEntered s cause) s.lc
  have hmode : (warmBoot s cause).recorder.queue.length ≤ (scopeClosed (bootEntered s cause) s.lc).recorder.queue.length + 1 := record_queue ..
  have hzero : (bootEntered s cause).recorder.queue.length = 0 := rfl
  by_cases h : s.lc.scope = 0
  · rw [if_pos h] at hscope ⊢
    omega
  · rw [if_neg h] at hscope ⊢
    omega

theorem warmBoot_boots (s : State) (cause : BitVec 4) : WarmBooted s cause (warmBoot s cause) := by
  have honly := warmBoot_only s cause
  have hqueue := warmBoot_queue s cause
  have hsys : (warmBoot s cause).sys = (bootEntered s cause).sys := honly .sys (by decide)
  have hnvm : (warmBoot s cause).nvm = (bootState s false).nvm := by
    have huser : (warmBoot s cause).nvm.user = (bootState s false).nvm.user := honly .user (by decide)
    have hrest : { (warmBoot s cause).nvm with user := (bootState s false).nvm.user } = (bootState s false).nvm := honly .nvm (by decide)
    rw [← hrest, ← huser]
  have hotp : (warmBoot s cause).otp = s.otp := honly .otp (by decide)
  exact {
    mode := by rw [hsys]; rfl
    prev := by rw [hsys]; rfl
    cause := by rw [hsys]; rfl
    resetLow := by rw [hsys]; rfl
    isolated := by rw [hsys]; rfl
    boot := honly .boot (by decide)
    keys := honly .keys (by decide)
    bkeys := honly .bkeys (by decide)
    cmds := honly .cmds (by decide)
    fns := honly .fns (by decide)
    queue := by split at hqueue <;> omega
    noScope := fun h => by rwa [if_pos h] at hqueue
    backup := honly .backup (by decide)
    kept := by
      unfold NonVolatileKept
      rw [hnvm, hotp]
      exact bootState_kept s false }

/-! ### The rows -/

theorem only_of_sys {s : State} {x : Sys} : Only s { s with sys := x } [.sys] := fun p hp => by
  cases p
  case sys => simp at hp
  all_goals rfl

theorem only_of_sys_lc {s : State} {x : Sys} {l : LcSt} : Only s { s with sys := x, lc := l } [.sys, .lc] := fun p hp => by
  cases p
  case sys | lc => simp at hp
  all_goals rfl

theorem only_of_sys_boot {s : State} {x : Sys} {b : BootSt} : Only s { s with sys := x, boot := b } [.sys, .boot] := fun p hp => by
  cases p
  case sys | boot => simp at hp
  all_goals rfl

/-- Row of Table 15 of a loss of power or a device reset; 0 for every other cause. -/
def resetCause (m : Mode) (i : Instr) : Nat :=
  match i with
  | .mainPowerLost _ => if m = .dormant then 0 else 12
  | .devResetNAssert _ => if m = .dormant then 0 else if m = .lockdown then 11 else 10
  | _ => 0

theorem alarmRow_le (s : State) : alarmRow s ≤ 9 := by
  unfold alarmRow
  dsimp only
  repeat' split
  all_goals omega

theorem causeRow_above (s : State) (i : Instr) {row : Nat} (hrow : 10 ≤ row) :
    decide (row < causeRow s i) = decide (row < resetCause s.sys.mode i) := by
  have hnone : ∀ n, n ≤ 10 → decide (row < n) = decide (row < 0) := fun n hn => by
    rw [decide_eq_false (by omega), decide_eq_false (Nat.not_lt_zero row)]
  have hif : ∀ (c : Prop) [Decidable c] (n : Nat), n ≤ 10 → (if c then n else 0) ≤ 10 := fun c _ n hn => by split <;> omega
  cases i
  case mainPowerLost | devResetNAssert => rfl
  case devSoftReset => exact hnone _ (hif _ 10 (le_refl _))
  case registerWrite fn off d =>
    cases d
    case good d => exact hnone _ (hif _ 10 (le_refl _))
    all_goals rfl
  case alarmSetResponse => exact hnone _ ((alarmRow_le s).trans (by decide))
  case modeHold => exact hnone _ (hif _ 7 (by decide))
  all_goals rfl

/-- What a reset gives way to rests on the mode, the last transition and the commands that wait. -/
theorem opposed_reset_congr {s t : State} {row : Nat} (hrow : 10 ≤ row) (hsys : t.sys = s.sys) (hp : t.pending = s.pending) :
    opposed t row = opposed s row := by
  simp only [opposed, causeRow_above _ _ hrow, hsys, hp]

/-! ### The supplies and the clock (R43, R45, R434, R437, R473) -/

theorem mainPower_boots {s : State} {k : BitVec 3} (hmode : s.sys.mode = .dormant) (hmain : s.sys.mainGood = false)
    (hlow : s.sys.resetLow = false) :
    Completes (.mainPowerGood k) s fun t =>
      t.sys.mode = .boot ∧ t.sys.prev = .dormant ∧ t.sys.cause = 0 ∧ t.sys.keeperSel = k ∧ t.sys.isolated = true ∧
      t.boot = BootSt.reset ∧ t.keys = KeySt.reset ∧ t.cmds = [] ∧ t.fns = [] ∧
      t.otp = s.otp ∧ t.backup = s.backup ∧ t.nvm.user = s.nvm.user ∧ t.nvm.recs = s.nvm.recs ∧ t.pending = s.pending :=
  ⟨coldBoot { s with sys := { s.sys with vio18Good := true } } k, by simp [exec, execMainPowerGood, hmode, hmain, hlow],
    rfl, rfl, rfl, rfl, rfl, rfl, rfl, rfl, rfl, rfl, rfl, rfl, rfl, rfl⟩

theorem mainPower_waits {s : State} {k : BitVec 3} (hmode : s.sys.mode = .dormant) (hmain : s.sys.mainGood = false)
    (hlow : s.sys.resetLow = true) :
    Completes (.mainPowerGood k) s fun t => Only s t [.sys] ∧ t.sys.mode = .dormant ∧ t.sys.mainGood = true :=
  ⟨{ s with sys := { s.sys with mainGood := true, vio18Good := true } }, by simp [exec, execMainPowerGood, hmode, hmain, hlow],
    only_of_sys, hmode, rfl⟩

theorem release_running {s : State} {k : BitVec 3} (hlow : s.sys.resetLow = true) (hmode : s.sys.mode ≠ .dormant) :
    Completes (.devResetNRelease k) s fun t => Only s t [.sys, .lc] ∧
      t.sys.resetLow = false ∧ t.sys.keeperSel = k ∧ t.sys.mode = s.sys.mode :=
  ⟨{ s with sys := { s.sys with resetLow := false, keeperSel := k }, lc := { s.lc with tapDrive := false } },
    by simp [exec, execDevResetNRelease, hmode, hlow], only_of_sys_lc, rfl, rfl, rfl⟩

theorem release_boots {s : State} {k : BitVec 3} (hlow : s.sys.resetLow = true) (hmode : s.sys.mode = .dormant)
    (hmain : s.sys.mainGood = true) :
    Completes (.devResetNRelease k) s fun t => t.sys.mode = .boot ∧ t.sys.resetLow = false ∧ t.boot.phase = 1 :=
  ⟨coldBoot { s with sys := { s.sys with resetLow := false }, lc := { s.lc with tapDrive := false } } k,
    by simp [exec, execDevResetNRelease, hmode, hlow, hmain], rfl, rfl, rfl⟩

theorem tbclk_starts {s : State} (hclk : s.sys.tbclk = false) (hmode : s.sys.mode ≠ .dormant) :
    Completes .tbclkStart s fun t => Only s t [.sys, .boot] ∧ t.sys.tbclk = true ∧
      t.boot.phase = if s.sys.mode = .boot ∧ s.boot.romDone = true ∧ s.boot.phase = 1 then 2 else s.boot.phase := by
  refine ⟨{ s with
      sys := { s.sys with tbclk := true },
      boot := if s.sys.mode = .boot && s.boot.romDone && s.boot.phase = 1 then { s.boot with phase := 2 } else s.boot },
    by simp [exec, execTbclkStart, hclk, hmode], only_of_sys_boot, rfl, ?_⟩
  simp only [Bool.and_eq_true, decide_eq_true_eq, and_assoc]
  split <;> rfl

/-! ### Loss of main power and the resets (R44, R58, R472, R473) -/

theorem kept_of_cut_nil {flight : Bool} {s t : State} {torn : List Torn} (h : NonVolatileKept (cut flight s torn) t) :
    torn = [] → NonVolatileKept s t := fun hnil => by
  subst hnil
  exact h

theorem mainPower_lost {s : State} (torn : List Torn) (hmode : s.sys.mode ≠ .dormant) :
    Completes (.mainPowerLost torn) s fun t =>
      t.sys.mode = .dormant ∧ t.sys.mainGood = false ∧ t.sys.isolated = true ∧ t.sys.tbclk = false ∧
      t.keys = KeySt.reset ∧ t.bkeys = BootKeys.reset ∧ t.cmds = [] ∧ t.sqs = [] ∧ t.cqs = [] ∧ t.fns = [] ∧
      t.rng = RngSt.reset ∧ t.alarm = AlarmSt.reset ∧ t.topo = Topo.reset ∧ t.eng = Eng.reset ∧
      t.recorder.queue = [] ∧ t.backup = s.backup ∧ (torn = [] → NonVolatileKept s t) :=
  ⟨{ bootState (cut true s torn) true with
      sys := { (bootState (cut true s torn) true).sys with
        mode := .dormant, mainGood := false, tbclk := false, isolated := true, prev := .dormant, cause := 0 } },
    by simp [exec, execMainPowerLost, hmode],
    rfl, rfl, rfl, rfl, rfl, rfl, rfl, rfl, rfl, rfl, rfl, rfl, rfl, rfl, rfl, cut_backup .., kept_of_cut_nil (bootState_kept _ true)⟩

theorem devReset_boots {s : State} (torn : List Torn) (hmode : s.sys.mode ≠ .dormant)
    (hopp : opposed s (if s.sys.mode = .lockdown then 11 else 10) = false) :
    Completes (.devResetNAssert torn) s fun t =>
      t.sys.mode = .boot ∧ t.sys.prev = s.sys.mode ∧ t.sys.cause = 8 ∧ t.sys.resetLow = true ∧ t.sys.isolated = true ∧
      t.boot = BootSt.reset ∧ t.keys = KeySt.reset ∧ t.bkeys = BootKeys.reset ∧ t.cmds = [] ∧ t.fns = [] ∧
      t.recorder.queue.length ≤ 2 ∧ (s.lc.scope = 0 → t.recorder.queue.length ≤ 1) ∧ t.backup = s.backup ∧
      (torn = [] → NonVolatileKept s t) := by
  obtain ⟨s0, hs0⟩ : ∃ s0, s0 = cut false s torn := ⟨_, rfl⟩
  have hsys : s0.sys = s.sys := hs0 ▸ cut_sys ..
  have hlc : s0.lc = s.lc := hs0 ▸ cut_lc ..
  have hbackup : s0.backup = s.backup := hs0 ▸ cut_backup ..
  obtain ⟨s1, hs1⟩ : ∃ s1, s1 = warmBoot { s0 with sys := { s0.sys with resetLow := true } } 8 := ⟨_, rfl⟩
  have hexec : exec (.devResetNAssert torn) s = .next { s1 with lc := { s1.lc with tapDrive := drives s1.lc.tapIr } } := by
    simp [exec, execDevResetNAssert, hmode, hopp, hs1, hs0]
  have h : WarmBooted { s0 with sys := { s0.sys with resetLow := true } } 8 s1 := hs1 ▸ warmBoot_boots ..
  have hkept : NonVolatileKept (cut false s torn) s1 := hs0 ▸ h.kept
  have hprev : s1.sys.prev = s.sys.mode := by rw [h.prev, ← hsys]
  exact ⟨_, hexec, h.mode, hprev, h.cause, h.resetLow, h.isolated, h.boot, h.keys, h.bkeys, h.cmds, h.fns,
    h.queue, fun hscope => h.noScope ((congrArg LcSt.scope hlc).trans hscope), h.backup.trans hbackup, kept_of_cut_nil hkept⟩

/-- Where BAR 0 of a function acts on a write rests on nothing a cut write changes. -/
theorem keeperWritable_of_stores {s t : State} {fn : Nat} (h : hideStores t = hideStores s) (hw : KeeperWritable s fn) : KeeperWritable t fn := by
  obtain ⟨⟨hopen, hflr, hserving⟩, hkeeper⟩ := hw
  have hbar : barOpen t fn = barOpen s fn := (congrArg (fun x => barOpen x fn) h :)
  have hfn : getFn t fn = getFn s fn := (congrArg (fun x => getFn x fn) h :)
  have hserve : serving t = serving s := (congrArg serving h :)
  have hkeep : keeperFn t = keeperFn s := (congrArg keeperFn h :)
  exact ⟨⟨hbar.trans hopen, hfn ▸ hflr, hserve.trans hserving⟩, hkeeper.trans hkeep.symm⟩

theorem softResetKey_boots {s : State} {fn : Nat} {v : Word} (hw : KeeperWritable s fn) (hv : v.toNat % 65536 = 0x5A5A)
    (hopp : opposed s 10 = false) : barWrite s fn 0x1008 v = warmBoot s 9 := by
  have hkey : bits v.toNat 0 16 = 0x5A5A := by simpa [bits] using hv
  rw [barWrite_of_keeperWritable v hw (by decide) (by decide) (by decide) (by decide), keeperWrite]
  exact if_pos (by simp [hkey, hopp])

theorem softReset_boots {s : State} {fn : Nat} {v : Word} (torn : List Torn) (hw : KeeperWritable s fn) (hv : v.toNat % 65536 = 0x5A5A)
    (hopp : opposed s 10 = false) :
    Completes (.devSoftReset fn v torn) s fun t =>
      t.sys.mode = .boot ∧ t.sys.prev = s.sys.mode ∧ t.sys.cause = 9 ∧ t.sys.resetLow = s.sys.resetLow ∧
      t.boot = BootSt.reset ∧ t.keys = KeySt.reset ∧ t.bkeys = BootKeys.reset ∧ t.cmds = [] ∧ t.fns = [] ∧
      t.recorder.queue.length ≤ 2 ∧ (s.lc.scope = 0 → t.recorder.queue.length ≤ 1) ∧ t.backup = s.backup ∧
      (torn = [] → NonVolatileKept s t) := by
  obtain ⟨s0, hs0⟩ : ∃ s0, s0 = cut false s torn := ⟨_, rfl⟩
  have hstores : hideStores s0 = hideStores s := hs0 ▸ cut_stores ..
  have hsys : s0.sys = s.sys := hs0 ▸ cut_sys ..
  have hlc : s0.lc = s.lc := hs0 ▸ cut_lc ..
  have hbackup : s0.backup = s.backup := hs0 ▸ cut_backup ..
  have hopp0 : opposed s0 10 = false := (opposed_reset_congr (le_refl 10) hsys (congrArg State.pending hstores :)).trans hopp
  have hwrite : barWrite s0 fn 0x1008 v = warmBoot s0 9 := softResetKey_boots (keeperWritable_of_stores hstores hw) hv hopp0
  have hmode : s.sys.mode ≠ .boot := fun hboot => by
    have hserving := hw.1.2.2
    simp [serving, hboot] at hserving
  have hnow : (barWrite s fn 0x1008 v).sys.mode = .boot := softResetKey_boots hw hv hopp ▸ (warmBoot_boots s 9).mode
  have hexec : exec (.devSoftReset fn v torn) s = .next (warmBoot s0 9) := by
    simp only [exec, execDevSoftReset, hnow, ← hs0, hwrite]
    simp [hmode]
  have h := warmBoot_boots s0 9
  have hkept : NonVolatileKept (cut false s torn) (warmBoot s0 9) := hs0 ▸ h.kept
  exact ⟨_, hexec, h.mode, h.prev.trans (congrArg Sys.mode hsys), h.cause, h.resetLow.trans (congrArg Sys.resetLow hsys), h.boot, h.keys, h.bkeys,
    h.cmds, h.fns, h.queue, fun hscope => h.noScope ((congrArg LcSt.scope hlc).trans hscope), h.backup.trans hbackup, kept_of_cut_nil hkept⟩

end Sys2Proof.Machine

namespace Sys2Proof.Proofs

open Sys2Proof.Machine Sys2Proof.Claims

/-- Settles O17: the supplies and the clock by their rows, the resets by what every warm entry to Boot leaves of the state the cut writes leave. -/
theorem suppliesAndResets : Obligations.SuppliesAndResets := by
  unfold Obligations.SuppliesAndResets
  refine ⟨fun s k => ⟨mainPower_boots, mainPower_waits, release_running, release_boots, tbclk_starts, ?_, ?_, ?_⟩,
    fun s torn fn v => ⟨mainPower_lost torn, devReset_boots torn, softReset_boots torn⟩⟩
  · exact ⟨_, rfl, only_of_sys, rfl⟩
  · exact ⟨_, rfl, only_of_sys, rfl⟩
  · exact ⟨_, rfl, only_of_lc, rfl⟩

end Sys2Proof.Proofs
end

section
/-!
PROOFS. Completions and the mode: writing a completion, and what it lets start, leaves the mode and the changes that wait for a boundary (R38).
-/

namespace Sys2Proof.Machine

/-! ### What a completion leaves of the mode (R38, R93) -/

/-- The mode, and the changes that wait for a dispatch boundary. -/
def modeAndChanges (s : State) : Sys × List (Nat × Nat × BitVec 16) := (s.sys, s.eng.changes)

theorem modeAndChanges_of_queues {s t : State} (h : hideQueues t = hideQueues s) : modeAndChanges t = modeAndChanges s :=
  (congrArg modeAndChanges h :)

theorem modeAndChanges_of_links {s t : State} (h : hideLinks t = hideLinks s) : modeAndChanges t = modeAndChanges s :=
  (congrArg modeAndChanges h :)

theorem modeAndChanges_of_signals {s t : State} (h : hideSignals t = hideSignals s) : modeAndChanges t = modeAndChanges s :=
  (congrArg modeAndChanges h :)

theorem modeAndChanges_of_start {s t : State} (h : hideStart t = hideStart s) (hb : atBoundary t = atBoundary s) :
    modeAndChanges t = modeAndChanges s := by
  have hkept : ∀ x : State, (hideStart x).sys = x.sys := fun x => by
    simp only [hideStart, hideLinks, hideRun, hideMasks, hideKeys, hideAlarms, hideRecorder]
  have hsys : t.sys = s.sys := by rw [← hkept t, h, hkept s]
  have hchanges : t.eng.changes = s.eng.changes := congrArg (·.1) hb
  exact Prod.ext hsys hchanges

theorem retryBerth_mode (s : State) : modeAndChanges (retryBerth s) = modeAndChanges s :=
  modeAndChanges_of_start (retryBerth_keeps s) (retryBerth_atBoundary s)

theorem countBerth_mode (s : State) (c : Cmd) (r : Result) : modeAndChanges (countBerth s c r) = modeAndChanges s := by
  unfold countBerth
  split <;> rfl

theorem targetStates_mode (s : State) (c : Cmd) : modeAndChanges (targetStates s c) = modeAndChanges s :=
  (modeAndChanges_of_signals (deliverPort_keeps ..)).trans rfl

theorem moderationEffect_mode (s : State) (c : Cmd) : modeAndChanges (moderationEffect s c) = modeAndChanges s := by
  unfold moderationEffect
  dsimp only
  split
  · rfl
  · split
    · exact (modeAndChanges_of_signals (pendNormal_keeps ..)).trans rfl
    · rfl

theorem completionEffect_mode (s : State) (c : Cmd) (r : Result) : modeAndChanges (completionEffect s c r) = modeAndChanges s := by
  have hattr : ∀ g f, modeAndChanges (setAttr s g f) = modeAndChanges s := fun g f => (congrArg modeAndChanges (setAttr_keeps s g f) :)
  unfold completionEffect
  dsimp only
  split
  · split
    · exact hattr ..
    · rfl
  · split <;> rfl
  · exact targetStates_mode s c
  · exact moderationEffect_mode s c
  · rfl

theorem answerOrigin_mode (s : State) (c : Cmd) (k n : Nat) (r : Result) : modeAndChanges (answerOrigin s c k n r) = modeAndChanges s := by
  have hsend : ∀ (t : State) (m : LinkMsg), modeAndChanges (linkSend t k m) = modeAndChanges t := fun t m =>
    modeAndChanges_of_links (linkSend_keeps t k m)
  unfold answerOrigin
  exact (retryBerth_mode _).trans ((completionEffect_mode _ c r).trans ((countBerth_mode _ c r).trans ((hsend ..).trans
    (foldl_keeps modeAndChanges (fun t (p : Nat × Bytes) => linkSend t k (.outData n p.1 p.2)) (fun t _ => hsend t _) _ s))))

theorem chainDone_mode (s : State) (c : Cmd) (ok : Bool) : modeAndChanges (chainDone s c ok) = modeAndChanges s := by
  have hstart : ∀ (t : State) (i : Nat), modeAndChanges (startCmd t i) = modeAndChanges t := fun t i =>
    modeAndChanges_of_start (startCmd_keeps t i) (startCmd_atBoundary t i)
  have hfail : ∀ (t : State) (i : Nat) (st : Status) (d : Nat), modeAndChanges (fail t i st d) = modeAndChanges t := fun t i st d =>
    modeAndChanges_of_start (fail_start t i st d) (fail_atBoundary t i st d)
  unfold chainDone
  dsimp only
  refine (retryBerth_mode _).trans ?_
  repeat' split
  all_goals first
    | rfl
    | exact hfail ..
    | exact hstart ..

theorem closeOne_mode (s : State) (fn qid : Nat) : modeAndChanges (closeOne s fn qid) = modeAndChanges s := by
  unfold closeOne
  split
  · rfl
  · exact (modeAndChanges_of_queues (statusLine_keeps ..)).trans rfl

theorem writeEntry_mode (s : State) (c : Cmd) (r : Result) (q : Cq) : modeAndChanges (writeEntry s c r q) = modeAndChanges s := by
  have hout : modeAndChanges (if c.issued then s else outputWrites s c r) = modeAndChanges s := by
    split
    · rfl
    · exact (congrArg modeAndChanges (outputWrites_keeps s c r) :)
  have hmoderate : ∀ (t : State) fn cq irq, modeAndChanges (moderate t fn cq irq) = modeAndChanges t := fun t fn cq irq =>
    modeAndChanges_of_queues (moderate_keeps t fn cq irq)
  unfold writeEntry
  dsimp only
  refine (chainDone_mode ..).trans ((countBerth_mode _ c r).trans ((closeOne_mode ..).trans ((hmoderate ..).trans
    ((completionEffect_mode ..).trans ?_))))
  split <;> exact hout

theorem joinFinished_mode (s : State) (fn cqid : Nat) (q : Cq) : modeAndChanges (joinFinished s fn cqid q) = modeAndChanges s := by
  have hwait : ∀ (t : State) (ids : List Nat) (f : Cmd → Cmd), modeAndChanges (ids.foldl (fun t i => modCmd t i f) t) = modeAndChanges t :=
    fun t ids f => foldl_keeps modeAndChanges (fun t i => modCmd t i f) (fun _ _ => rfl) ids t
  have hflush : ∀ (t : State) (g : Nat), modeAndChanges (flushAllFast t g) = modeAndChanges t := fun t g =>
    modeAndChanges_of_signals (flushAllFast_keeps t g)
  unfold joinFinished joinWaiting
  dsimp only
  generalize List.filter _ _ = ids
  split
  · rfl
  · split
    · refine (hflush ..).trans ?_
      split <;> exact hwait ..
    · split <;> exact hwait ..

theorem completeWrite_mode (s : State) (cid : Nat) : modeAndChanges (completeWrite s cid) = modeAndChanges s := by
  unfold completeWrite
  split
  · rfl
  · split
    · exact answerOrigin_mode ..
    · dsimp only
      split
      · rfl
      · split
        · rfl
        · split
          · exact joinFinished_mode ..
          · exact writeEntry_mode ..
    · rfl

/-- Completions that are written change neither the mode nor the changes that wait. -/
theorem completeSignalled_mode (s : State) (ids : List Nat) : modeAndChanges (completeSignalled s ids) = modeAndChanges s :=
  (foldl_keeps modeAndChanges completeWrite completeWrite_mode _ _).trans ((modeAndChanges_of_signals (flushSignals_keeps _)).trans
    (foldl_keeps modeAndChanges completeWrite completeWrite_mode _ s))

theorem writeChanges_mode (s : State) : modeAndChanges (writeChanges s) = modeAndChanges s := completeSignalled_mode ..

theorem sys_of_mode {s t : State} (h : modeAndChanges t = modeAndChanges s) : t.sys = s.sys := congrArg Prod.fst h

theorem changes_of_mode {s t : State} (h : modeAndChanges t = modeAndChanges s) : t.eng.changes = s.eng.changes := congrArg Prod.snd h

/-! ### Entry to Held (R38) -/

theorem heldEffects_sys (s : State) : (heldEffects s).sys = s.sys := only_of_port (heldEffects_keeps s) .sys (by decide)

theorem heldFaults_sys (s : State) : (heldFaults s).sys = s.sys := only_of_run (heldFaults_keeps s) .sys (by decide)

theorem recordMode_sys (s : State) : (recordMode s).sys = s.sys := only_of_recorder (recordMode_keeps s) .sys (by decide)

theorem enterHeld_sys (s : State) (alarm : Bool) :
    (enterHeld s alarm).sys = { s.sys with
      heldReturn := s.sys.mode, byAlarm := alarm, heldSince := s.sys.tick, prev := s.sys.mode, mode := .held,
      cause := if alarm then 3 else 2, moved := some (s.sys.tick, transRow s.sys.mode .held) } :=
  (heldEffects_sys _).trans ((heldFaults_sys _).trans (recordMode_sys _))

end Sys2Proof.Machine
end

section
/-!
PROOFS. The responses to alarms (O55): the records and signals of a set, what a reset of functions leaves alone, Held, and the clearings.
-/

namespace Sys2Proof.Machine

open Sys2Proof.Claims

/-! ### What every reset keeps (R316, R321) -/

/-- A property of the commands, the keys and the generator that every step of the reset of a function keeps. -/
structure ResetInvariant (P : State → Prop) : Prop where
  quiet : ∀ {s t : State}, P s → t.cmds = s.cmds → t.keys.keys = s.keys.keys → t.rng = s.rng → P t
  failed : ∀ {s : State} (cid : Nat) (st : Status) (d : Nat), P s → P (fail s cid st d)
  ended : ∀ {s : State} (cid : Nat), P s → P (endCmd s cid)
  holdings : ∀ {s : State} (fns : List Nat) (pos : Nat), P s → P (resetHoldings s fns pos)

theorem foldl_holds {α : Type} {P : State → Prop} {f : State → α → State} (h : ∀ t a, P t → P (f t a)) (l : List α) {s : State} (hs : P s) :
    P (l.foldl f s) := by
  induction l generalizing s with
  | nil => exact hs
  | cons a l ih => exact ih (h s a hs)

namespace ResetInvariant

variable {P : State → Prop} (hP : ResetInvariant P)

include hP

theorem of_signals {s t : State} (h : hideSignals t = hideSignals s) (hs : P s) : P t :=
  hP.quiet hs (congrArg State.cmds h :) (congrArg (fun x => x.keys.keys) h :) (congrArg State.rng h :)

theorem of_links {s t : State} (h : hideLinks t = hideLinks s) (hs : P s) : P t :=
  hP.quiet hs (congrArg State.cmds h :) (congrArg (fun x => x.keys.keys) h :) (congrArg State.rng h :)

theorem of_recorder {s t : State} (h : hideRecorder t = hideRecorder s) (hs : P s) : P t :=
  hP.quiet hs (congrArg State.cmds h :) (congrArg (fun x => x.keys.keys) h :) (congrArg State.rng h :)

theorem modFn {s : State} (fn : Nat) (f : Fn → Fn) (h : P s) : P (modFn s fn f) := hP.quiet h rfl rfl rfl

theorem abortMoves {s : State} (fn pos : Nat) (h : P s) : P (abortMoves s fn pos) := by
  have hfail := foldl_holds (f := fun t (e : Nat × Berth) => fail t (e.2.moving.getD 0) .aborted 0x10) (fun t e ht => hP.failed _ _ _ ht)
    (s.keys.berths.filter fun e => moveCut s fn pos e.2) h
  unfold Machine.abortMoves callOff
  dsimp only
  exact hP.quiet (foldl_holds (f := fun t (m : Move) => linkSend t m.link (.xferAbort m.id))
    (fun t m ht => hP.of_links (linkSend_keeps t m.link _) ht) _ hfail) rfl rfl rfl

theorem waitersTold {s : State} (fn : Nat) (ws : List Nat) (h : P s) :
    P (ws.foldl (fun t w => if w = fn then t else pendFast t w 3 fn) s) := by
  refine foldl_holds (f := fun t w => if w = fn then t else pendFast t w 3 fn) (fun t w ht => ?_) ws h
  split
  · exact ht
  · exact hP.of_signals (pendFast_keeps t w 3 fn) ht

theorem resetFn {s : State} (fn kind : Nat) (h : P s) : P (resetFn s fn kind) := by
  have hended := foldl_holds (f := endCmd) (fun t c ht => hP.ended c ht)
    ((s.cmds.filter fun c => c.fn == fn && c.origin.isNone).map (·.id)) (hP.abortMoves fn s.topo.position h)
  unfold Machine.resetFn
  dsimp only
  generalize List.foldl endCmd _ _ = s1 at hended
  refine hP.of_recorder (record_keeps ..) (hP.of_links (sendEndFunc_keeps ..) ?_)
  refine hP.quiet (hP.holdings [fn] s.topo.position ?_) rfl rfl rfl
  split
  · refine hP.failed _ _ _ ?_
    split
    · exact hP.waitersTold fn _ (hP.quiet hended rfl rfl rfl)
    · exact hP.quiet hended rfl rfl rfl
  · split
    · exact hP.waitersTold fn _ (hP.quiet hended rfl rfl rfl)
    · exact hP.quiet hended rfl rfl rfl

theorem takePort {s : State} (p : Nat) (h : P s) : P (takePort s p) := by
  have hreset := foldl_holds (f := fun t f => Machine.modFn (Machine.resetFn (flrWrite t f) f 1) f fun x => { x with late := [] })
    (fun t f ht => hP.modFn f _ (hP.resetFn f 1 (hP.modFn f _ ht))) (portFns s p)
    (hP.holdings (portFns s p) s.topo.position h)
  have hcease := foldl_holds (f := ceaseVf) (fun t f ht => hP.modFn f _ ht) ((portFns s p).filter fun f => vfOf f != 0) hreset
  unfold Machine.takePort resetPortNow
  dsimp only
  refine hP.quiet hcease ?_ ?_ ?_
  all_goals
    unfold dropChange
    dsimp only
    split <;> rfl

end ResetInvariant

/-- No command is open. -/
def Idle (s : State) : Prop := s.cmds = []

theorem fail_idle {s : State} (cid : Nat) (st : Status) (d : Nat) (h : Idle s) : Idle (fail s cid st d) := by
  obtain ⟨f, hf, -⟩ := finish_cmds s cid { status := st, detail := d, out := [] }
  have hnil : (modCmd s cid f).cmds = [] := by rw [modCmd, h]; rfl
  exact hf.trans hnil

theorem endCmd_idle {s : State} (cid : Nat) (h : Idle s) : Idle (endCmd s cid) := by
  obtain ⟨f, hf, -⟩ := dropInput_cmds s cid
  have hnil : (dropInput s cid).cmds = [] := by rw [hf, modCmd, h]; rfl
  have hcmds : (endCmd s cid).cmds = (dropInput s cid).cmds.filter fun c => c.id != cid := rfl
  rw [Idle, hcmds, hnil]
  rfl

theorem idle_resets : ResetInvariant Idle where
  quiet h hc _ _ := hc.trans h
  failed := fail_idle
  ended := endCmd_idle
  holdings {s} fns pos h := (congrArg State.cmds (resetHoldings_keeps s fns pos) :).trans h

/-- The secrets that CLEAR_WORKING takes are gone: the keys and the generator's instances. -/
def Erased (s : State) : Prop := s.keys.keys = [] ∧ s.rng.inst = []

theorem resetHoldings_erased {s : State} (fns : List Nat) (pos : Nat) (h : Erased s) : Erased (resetHoldings s fns pos) := by
  obtain ⟨hkeys, hrng⟩ := h
  unfold resetHoldings
  dsimp only
  rw [hkeys]
  exact ⟨by simp [keysAfter, hkeys, Map.update], hrng⟩

theorem erased_of_run {s t : State} (hrun : hideRun t = hideRun s) (h : Erased s) : Erased t :=
  ⟨(congrArg (fun x => x.keys.keys) hrun :).trans h.1, (congrArg (fun x => x.rng.inst) hrun :).trans h.2⟩

theorem erased_resets : ResetInvariant Erased where
  quiet h _ hk hr := ⟨hk.trans h.1, (congrArg RngSt.inst hr).trans h.2⟩
  failed _ _ _ h := erased_of_run (fail_keeps ..) h
  ended _ h := erased_of_run (endCmd_keeps ..) h
  holdings := resetHoldings_erased

/-! ### Entry to Held without commands (R38) -/

theorem faultCmd_idle {s : State} (cid cause kind i : Nat) (h : Idle s) : Idle (faultCmd s cid cause kind i) := by
  have hnone : getCmd s cid = none := by rw [getCmd, h]; rfl
  rw [faultCmd, hnone]
  exact h

theorem heldFault_idle {s : State} (e : Nat × Nat × Nat) (h : Idle s) : Idle (heldFault s e) :=
  foldl_holds (f := fun t (c : Cmd) => faultCmd t c.id e.2.2 e.1 e.2.1) (fun _ c ht => faultCmd_idle c.id _ _ _ ht) _ h

theorem heldFaults_idle {s : State} (h : Idle s) : Idle (heldFaults s) := by
  have hfold : Idle (s.eng.faulted.foldl heldFault s) := foldl_holds (fun t e ht => heldFault_idle e ht) s.eng.faulted h
  exact hfold

theorem heldEffects_idle {s : State} (h : Idle s) : Idle (heldEffects s) := by
  have hwait : (s.cmds.filter changeWaits).foldl commandEffect s = s := by rw [h]; rfl
  have hflr : Idle (flrEffects s) := foldl_holds (f := fun t f => resetFn t f 0) (fun t f ht => idle_resets.resetFn f 0 ht) _ h
  have hports := foldl_holds (fun t p ht => idle_resets.takePort p ht) (portsWaiting (flrEffects s)) hflr
  unfold heldEffects
  rw [hwait]
  exact foldl_holds (f := classEffect) (fun t f ht => idle_resets.modFn f _ ht) _ hports

theorem enterHeld_idle {s : State} (alarm : Bool) (h : Idle s) : Idle (enterHeld s alarm) :=
  heldEffects_idle (heldFaults_idle (idle_resets.of_recorder (recordMode_keeps _) h))

/-- Without open commands an entry to Held has no completion to write. -/
theorem writeChanges_idle {s : State} (h : Idle s) : writeChanges s = flushSignals s := by
  have hnone : ((s.cmds.filter fun c => (opcode c.entry == 0x11 || opcode c.entry == 0x12) && c.origin.isNone).map (·.id)) = [] := by rw [h]; rfl
  rw [writeChanges, hnone, completeSignalled, List.filter_nil, List.filter_nil, List.foldl_nil, List.foldl_nil]

/-! ### Records and signals of a set (R329, R374) -/

theorem modFast_only (s : State) (fn n : Nat) (f : FastVec → FastVec) : Only s (modFast s fn n f) [.fns] := fun p hp => by
  cases p
  case fns => simp at hp
  all_goals rfl

theorem emit_only (s : State) (b : Bus) : Only s (emit s b) [.bus] := fun p hp => by
  cases p
  case bus => simp at hp
  all_goals rfl

theorem flushFast_only (s : State) (fn n : Nat) : Only s (flushFast s fn n) [.fns, .bus] := by
  unfold flushFast
  dsimp only
  split
  · exact only_union (modFast_only _ _ _ _) (emit_only _ _) (by decide) (by decide)
  · exact only_refl

theorem signalFast_only (s : State) (fn n info : Nat) : Only s (signalFast s fn n info) [.fns, .bus] :=
  only_trans (only_mono (modFast_only _ _ _ _) (by decide)) (flushFast_only _ fn n)

theorem notifyAll_only (s : State) (info : Nat) : Only s (notifyAll s info) [.fns, .bus] :=
  foldl_only (f := fun t p => signalFast t (128 * p) 0 info) (fun t p => signalFast_only t (128 * p) 0 info) _ s

theorem getFast_modFast (s : State) (fn x : Nat) (f : FastVec → FastVec) :
    getFast (modFast s fn 0 f) x 0 = if x = fn then f (getFast s fn 0) else getFast s x 0 := by
  unfold getFast modFast
  rw [getFn_modFn]
  split
  · simp [Array.getD]
  · rfl

/-- What the message of a fast vector leaves of its registers: the count and INFO. -/
theorem getFast_flushFast (s : State) (fn x : Nat) :
    (getFast (flushFast s fn 0) x 0).count = (getFast s x 0).count ∧ (getFast (flushFast s fn 0) x 0).info = (getFast s x 0).info := by
  unfold flushFast
  dsimp only
  split
  · have hemit : ∀ b : Bus, getFast (emit (modFast s fn 0 fun v => { v with pending := false }) b) x 0 =
        getFast (modFast s fn 0 fun v => { v with pending := false }) x 0 := fun _ => rfl
    rw [hemit, getFast_modFast]
    split
    · rename_i h
      exact ⟨by rw [h], by rw [h]⟩
    · exact ⟨rfl, rfl⟩
  · exact ⟨rfl, rfl⟩

theorem getFast_signalFast_self (s : State) (fn info : Nat) :
    (getFast (signalFast s fn 0 info) fn 0).count = satAdd (getFast s fn 0).count 1 255 ∧
      (getFast (signalFast s fn 0 info) fn 0).info = BitVec.ofNat 16 info := by
  obtain ⟨hcount, hinfo⟩ := getFast_flushFast (pendFast s fn 0 info) fn fn
  rw [signalFast, hcount, hinfo, pendFast, getFast_modFast, if_pos rfl]
  exact ⟨rfl, rfl⟩

theorem getFast_signalFast_ne (s : State) {fn x : Nat} (info : Nat) (h : x ≠ fn) :
    (getFast (signalFast s fn 0 info) x 0).count = (getFast s x 0).count ∧
      (getFast (signalFast s fn 0 info) x 0).info = (getFast s x 0).info := by
  obtain ⟨hcount, hinfo⟩ := getFast_flushFast (pendFast s fn 0 info) fn x
  rw [signalFast, hcount, hinfo, pendFast, getFast_modFast, if_neg h]
  exact ⟨rfl, rfl⟩

theorem signalAll_others (s : State) (info : Nat) {p : Nat} {l : List Nat} (hp : p ∉ l) :
    (getFast (l.foldl (fun t q => signalFast t (128 * q) 0 info) s) (128 * p) 0).count = (getFast s (128 * p) 0).count ∧
      (getFast (l.foldl (fun t q => signalFast t (128 * q) 0 info) s) (128 * p) 0).info = (getFast s (128 * p) 0).info := by
  induction l generalizing s with
  | nil => exact ⟨rfl, rfl⟩
  | cons q l ih =>
    obtain ⟨hq, hl⟩ := not_or.mp (mt List.mem_cons.mpr hp)
    obtain ⟨hcount, hinfo⟩ := ih (signalFast s (128 * q) 0 info) hl
    obtain ⟨hcount', hinfo'⟩ := getFast_signalFast_ne s (fn := 128 * q) (x := 128 * p) info (by omega)
    exact ⟨hcount.trans hcount', hinfo.trans hinfo'⟩

theorem signalAll_each (s : State) (info : Nat) {p : Nat} {l : List Nat} (hl : l.Nodup) (hp : p ∈ l) :
    (getFast (l.foldl (fun t q => signalFast t (128 * q) 0 info) s) (128 * p) 0).count = satAdd (getFast s (128 * p) 0).count 1 255 ∧
      (getFast (l.foldl (fun t q => signalFast t (128 * q) 0 info) s) (128 * p) 0).info = BitVec.ofNat 16 info := by
  induction l generalizing s with
  | nil => cases hp
  | cons q l ih =>
    obtain ⟨hq, hnodup⟩ := List.nodup_cons.mp hl
    rw [List.foldl_cons]
    by_cases heq : p = q
    · subst heq
      obtain ⟨hcount, hinfo⟩ := signalAll_others (signalFast s (128 * p) 0 info) info hq
      obtain ⟨hcount', hinfo'⟩ := getFast_signalFast_self s (128 * p) info
      exact ⟨hcount.trans hcount', hinfo.trans hinfo'⟩
    · obtain ⟨hcount, hinfo⟩ := ih (signalFast s (128 * q) 0 info) hnodup (List.mem_of_ne_of_mem heq hp)
      obtain ⟨hcount', -⟩ := getFast_signalFast_ne s (fn := 128 * q) (x := 128 * p) info (by omega)
      exact ⟨hcount.trans (by rw [hcount']), hinfo⟩

theorem notifyAll_counts (s : State) (info : Nat) {p : Nat} (hp : p < 8) :
    (getFast (notifyAll s info) (128 * p) 0).count = satAdd (getFast s (128 * p) 0).count 1 255 ∧
      (getFast (notifyAll s info) (128 * p) 0).info = BitVec.ofNat 16 info :=
  signalAll_each s info List.nodup_range (List.mem_range.mpr hp)

theorem writeAlarms_keeps (s : State) (l : List Fired) (carried : Nat) : hideRecorder (writeAlarms s l carried) = hideRecorder s :=
  foldl_keeps hideRecorder (fun t (a : Fired) => queueRecord t (stampRecord a.2.2 carried) true (bit (le a.2.2 2 1) 3))
    (fun t _ => queueRecord_keeps t _ _ _) _ s

/-- Alarms of a later microsecond (R374). -/
def laterSet (s : State) : List Fired := s.alarm.set.filter fun a => !(firstSet s).contains a

/-- The state with a set taken and its alarms recorded. -/
def alarmsRecorded (s : State) : State :=
  writeAlarms { s with alarm := { s.alarm with
      set := laterSet s, maxLevel := max s.alarm.maxLevel (carriedOut s (strongest (firstSet s))) } }
    (firstSet s) (carriedOut s (strongest (firstSet s)))

/-- And signalled, from level 1 on. -/
def alarmsNoted (s : State) : State :=
  if 1 ≤ strongest (firstSet s) then notifyAll (alarmsRecorded s) (infoOf (firstSet s)) else alarmsRecorded s

theorem respond_eq (s : State) :
    respond s = if 2 ≤ strongest (firstSet s) && !opposed s (alarmRow s) then carryOut (alarmsNoted s) (strongest (firstSet s)) else alarmsNoted s := rfl

theorem alarmsRecorded_alarm (s : State) :
    (alarmsRecorded s).alarm = { s.alarm with set := laterSet s, maxLevel := max s.alarm.maxLevel (carriedOut s (strongest (firstSet s))) } :=
  only_of_recorder (writeAlarms_keeps ..) .alarm (by decide)

theorem alarmsRecorded_only (s : State) : Only s (alarmsRecorded s) [.alarm, .recorder] :=
  only_union (ps := [.alarm]) (qs := [.recorder]) (fun p hp => by
    cases p
    case alarm => simp at hp
    all_goals rfl) (only_of_recorder (writeAlarms_keeps ..)) (by decide) (by decide)

theorem alarmsNoted_notes (s : State) : Only (alarmsRecorded s) (alarmsNoted s) [.fns, .bus] := by
  unfold alarmsNoted
  split
  · exact notifyAll_only _ _
  · exact only_refl

theorem alarmsNoted_only (s : State) : Only s (alarmsNoted s) [.alarm, .recorder, .fns, .bus] :=
  only_union (alarmsRecorded_only s) (alarmsNoted_notes s) (by decide) (by decide)

theorem alarmsNoted_set (s : State) : (alarmsNoted s).alarm.set = laterSet s := by
  have hkept : (alarmsNoted s).alarm = (alarmsRecorded s).alarm := alarmsNoted_notes s .alarm (by decide)
  rw [hkept, alarmsRecorded_alarm]

/-! ### Held and the clearings (Table 118, R375) -/

theorem exec_response_carried {s : State} {level row : Nat} (hdue : setDue s = true) (hlevel : strongest (firstSet s) = level) (htwo : 2 ≤ level)
    (hrow : alarmRow s = row) (hopp : opposed s row = false) : exec .alarmSetResponse s = .next (carryOut (alarmsNoted s) level) := by
  have hexec : exec .alarmSetResponse s = .next (respond s) := by simp [exec, execAlarmSetResponse, hdue]
  rw [hexec, respond_eq, hlevel, hrow, hopp]
  simp [htwo]

theorem carryOut_running {s : State} (hmode : s.sys.mode = .service ∨ s.sys.mode = .maintenance) :
    carryOut s 2 = writeChanges (enterHeld s true) := by
  unfold carryOut
  rcases hmode with h | h
  · rw [h]
    exact if_pos rfl
  · rw [h]
    exact if_pos rfl

theorem held_response {s : State} (hdue : setDue s = true) (hlevel : strongest (firstSet s) = 2) (hrun : running s = true)
    (hopp : opposed s 7 = false) :
    Completes .alarmSetResponse s fun t => (s.cmds = [] → t.alarm.set = laterSet s) ∧ t.sys.mode = .held ∧ t.sys.prev = s.sys.mode ∧
      t.sys.heldReturn = s.sys.mode ∧ t.sys.byAlarm = true ∧ t.sys.cause = 3 := by
  have hmode : s.sys.mode = .service ∨ s.sys.mode = .maintenance := by simpa [running] using hrun
  have hrow : alarmRow s = 7 := by rcases hmode with h | h <;> simp [alarmRow, h, hdue, hlevel]
  have hexec := exec_response_carried hdue hlevel (le_refl 2) hrow hopp
  have hnoted : (alarmsNoted s).sys = s.sys := alarmsNoted_only s .sys (by decide)
  have hcarry : carryOut (alarmsNoted s) 2 = writeChanges (enterHeld (alarmsNoted s) true) := carryOut_running (hnoted ▸ hmode)
  have hsys : (writeChanges (enterHeld (alarmsNoted s) true)).sys = (enterHeld (alarmsNoted s) true).sys := sys_of_mode (writeChanges_mode _)
  rw [enterHeld_sys, hnoted] at hsys
  refine ⟨_, by rw [hexec, hcarry], fun hidle => ?_, by rw [hsys], by rw [hsys], by rw [hsys], by rw [hsys],
    by rw [hsys]; rfl⟩
  have hcmds : Idle (alarmsNoted s) := (alarmsNoted_only s .cmds (by decide) :).trans hidle
  have halarm : (enterHeld (alarmsNoted s) true).alarm = (alarmsNoted s).alarm := only_of_mode (enterHeld_keeps ..) .alarm (by decide)
  have hflush : (flushSignals (enterHeld (alarmsNoted s) true)).alarm = (enterHeld (alarmsNoted s) true).alarm :=
    only_of_signals (flushSignals_keeps _) .alarm (by decide)
  rw [writeChanges_idle (enterHeld_idle true hcmds), hflush, halarm, alarmsNoted_set]

/-- What a clearing with its entry to Lockdown may change. -/
abbrev lockParts : List Part := .sys :: .lc :: .boot :: .bkeys :: resetParts

theorem clearWorking_only (s : State) : Only s (clearWorking s) [.keys, .bkeys, .rng, .eng, .cmds] := fun p hp => by
  cases p
  case keys | bkeys | rng | eng | cmds => simp at hp
  all_goals rfl

theorem recordClear_only (s : State) (level phase : Nat) : Only s (recordClear s level phase) [.recorder] := only_of_recorder (record_keeps ..)

theorem recordMode_only (s : State) : Only s (recordMode s) [.recorder] := only_of_recorder (recordMode_keeps s)

theorem enterLockdown_only (s : State) (cause : BitVec 4) : Only s (enterLockdown s cause) (.sys :: .lc :: .boot :: resetParts) :=
  only_of_mode (enterLockdown_keeps ..)

theorem enterLockdown_erased {s : State} (cause : BitVec 4) (h : Erased s) : Erased (enterLockdown s cause) := by
  have hports := foldl_holds (fun t p ht => erased_resets.takePort p ht) (portsWaiting s) h
  obtain ⟨hkeys, hrng⟩ := erased_resets.of_signals (flushSignals_keeps _) hports
  have hclose := closeScope_only (setMode (flushSignals ((portsWaiting s).foldl takePort s)) .lockdown cause)
  exact ⟨(congrArg KeySt.keys (hclose .keys (by decide)) :).trans hkeys, (congrArg RngSt.inst (hclose .rng (by decide)) :).trans hrng⟩

/-- The working secrets cleared and Lockdown entered, before the last record. -/
def clearedLocked (s : State) (level : Nat) : State :=
  recordMode (enterLockdown (clearWorking (recordClear s level 1)) (if level = 4 then 6 else 5))

theorem clearAndLock_eq (s : State) (level : Nat) :
    clearAndLock s level = if level = 4 then startErase (clearedLocked s level) else recordClear (clearedLocked s level) level 2 := rfl

theorem clearedLocked_clears (s : State) (level : Nat) :
    Only s (clearedLocked s level) lockParts ∧ (clearedLocked s level).sys.mode = .lockdown ∧
      (clearedLocked s level).sys.cause = (if level = 4 then 6 else 5) ∧ Erased (clearedLocked s level) ∧
      (clearedLocked s level).bkeys = BootKeys.reset ∧ (clearedLocked s level).cmds = [] := by
  obtain ⟨s1, hs1⟩ : ∃ s1, s1 = clearWorking (recordClear s level 1) := ⟨_, rfl⟩
  have hclear : Only s s1 [.keys, .bkeys, .rng, .eng, .cmds, .recorder] :=
    hs1 ▸ only_union (recordClear_only _ _ _) (clearWorking_only _) (by decide) (by decide)
  have hbkeys : s1.bkeys = BootKeys.reset := by rw [hs1]; rfl
  have herased : Erased s1 := hs1 ▸ ⟨rfl, rfl⟩
  have hdef : clearedLocked s level = recordMode (enterLockdown s1 (if level = 4 then 6 else 5)) := by rw [hs1]; rfl
  generalize (if level = 4 then (6 : BitVec 4) else 5) = cause at hdef ⊢
  obtain ⟨hmode, hcause, -, hcmds⟩ := enterLockdown_enters s1 cause
  have hlock := enterLockdown_only s1 cause
  have herased' := enterLockdown_erased cause herased
  have hbkeys' : (enterLockdown s1 cause).bkeys = BootKeys.reset := (hlock .bkeys (by decide) :).trans hbkeys
  generalize enterLockdown s1 cause = s2 at *
  have hrec := recordMode_only s2
  rw [hdef]
  refine ⟨only_union hclear (only_union hlock hrec (rs := .sys :: .lc :: .boot :: resetParts) (by decide) (by decide)) (by decide) (by decide),
    (congrArg Sys.mode (recordMode_sys s2)).trans hmode, (congrArg Sys.cause (recordMode_sys s2)).trans hcause,
    erased_resets.of_recorder (recordMode_keeps s2) herased', (hrec .bkeys (by decide) :).trans hbkeys', (hrec .cmds (by decide) :).trans hcmds⟩

theorem writeMark_only (s : State) (n v : Nat) : Only s (writeMark s n v) [.nvm] :=
  only_of_keeps (writeMark_keeps s n v) fun x p hp => by
    cases p
    case nvm => simp at hp
    all_goals rfl

theorem startErase_only (s : State) : Only s (startErase s) [.nvm, .alarm] :=
  only_union (ps := [.nvm]) (qs := [.alarm]) (writeMark_only s 3 1) (fun p hp => by
    cases p
    case alarm => simp at hp
    all_goals rfl) (by decide) (by decide)

theorem startErase_alarm (s : State) : (startErase s).alarm = { s.alarm with clearing := true, erased := true } := by
  have hmark : (writeMark s 3 1).alarm = s.alarm := writeMark_only s 3 1 .alarm (by decide)
  rw [startErase, hmark]

theorem carryOut_clears {s : State} {level : Nat} (hserve : serving s = true) (hlevel : 3 ≤ level) : carryOut s level = clearAndLock s level := by
  have hmode : (s.sys.mode = .service ∨ s.sys.mode = .held) ∨ s.sys.mode = .maintenance := by simpa [serving] using hserve
  have htwo : ¬level = 2 := by omega
  unfold carryOut
  rcases hmode with (h | h) | h
  · rw [h]
    exact if_neg htwo
  · rw [h]
    exact if_neg htwo
  · rw [h]
    exact if_neg htwo

theorem alarmRow_clears {s : State} (hdue : setDue s = true) (hlevel : 3 ≤ strongest (firstSet s)) (hserve : serving s = true) :
    alarmRow s = 9 := by
  have hmode : (s.sys.mode = .service ∨ s.sys.mode = .held) ∨ s.sys.mode = .maintenance := by simpa [serving] using hserve
  rcases hmode with (h | h) | h <;> simp [alarmRow, h, hdue, hlevel]

theorem exec_response_clears {s : State} {level : Nat} (hdue : setDue s = true) (hlevel : strongest (firstSet s) = level) (hthree : 3 ≤ level)
    (hserve : serving s = true) (hopp : opposed s 9 = false) :
    exec .alarmSetResponse s = .next (clearAndLock (alarmsNoted s) level) := by
  have hmode : (alarmsNoted s).sys = s.sys := alarmsNoted_only s .sys (by decide)
  have hserve' : serving (alarmsNoted s) = true := by rw [serving, hmode]; exact hserve
  rw [exec_response_carried hdue hlevel (by omega) (alarmRow_clears hdue (by omega) hserve) hopp, carryOut_clears hserve' hthree]

theorem working_response {s : State} (hdue : setDue s = true) (hlevel : strongest (firstSet s) = 3) (hserve : serving s = true)
    (hopp : opposed s 9 = false) :
    Completes .alarmSetResponse s fun t => t.alarm.set = laterSet s ∧ t.sys.mode = .lockdown ∧ t.sys.cause = 5 ∧
      t.keys.keys = [] ∧ t.bkeys = BootKeys.reset ∧ t.rng.inst = [] ∧ t.cmds = [] ∧ t.nvm.trees = s.nvm.trees := by
  obtain ⟨honly, hmode, hcause, ⟨hkeys, hrng⟩, hbkeys, hcmds⟩ := clearedLocked_clears (alarmsNoted s) 3
  have hexec := exec_response_clears hdue hlevel (le_refl 3) hserve hopp
  rw [clearAndLock_eq, if_neg (by decide)] at hexec
  have hrec := recordClear_only (clearedLocked (alarmsNoted s) 3) 3 2
  have halarm : (recordClear (clearedLocked (alarmsNoted s) 3) 3 2).alarm = (alarmsNoted s).alarm :=
    only_trans (ps := .recorder :: lockParts) (only_mono honly (by decide)) (only_mono hrec (by decide)) .alarm (by decide)
  have hnvm := only_union (only_union (alarmsNoted_only s) honly (rs := .alarm :: lockParts) (by decide) (by decide)) hrec
    (rs := .alarm :: lockParts) (by decide) (by decide) .nvm (by decide)
  have hsys := hrec .sys (by decide)
  exact ⟨_, hexec, halarm ▸ alarmsNoted_set s, (congrArg Sys.mode hsys).trans hmode, (congrArg Sys.cause hsys).trans hcause,
    (congrArg KeySt.keys (hrec .keys (by decide)) :).trans hkeys, (hrec .bkeys (by decide) :).trans hbkeys,
    (congrArg RngSt.inst (hrec .rng (by decide)) :).trans hrng, (hrec .cmds (by decide) :).trans hcmds, (congrArg Nvm.trees hnvm :)⟩

theorem all_response {s : State} (hdue : setDue s = true) (hlevel : strongest (firstSet s) = 4) (hserve : serving s = true)
    (hopp : opposed s 9 = false) :
    Completes .alarmSetResponse s fun t => t.alarm.set = laterSet s ∧ t.sys.mode = .lockdown ∧ t.sys.cause = 6 ∧
      t.keys.keys = [] ∧ t.bkeys = BootKeys.reset ∧ t.cmds = [] ∧ t.alarm.clearing = true ∧ t.alarm.erased = true := by
  obtain ⟨honly, hmode, hcause, ⟨hkeys, -⟩, hbkeys, hcmds⟩ := clearedLocked_clears (alarmsNoted s) 4
  have hexec := exec_response_clears hdue hlevel (by decide) hserve hopp
  rw [clearAndLock_eq, if_pos rfl] at hexec
  have herase := startErase_only (clearedLocked (alarmsNoted s) 4)
  have halarm := startErase_alarm (clearedLocked (alarmsNoted s) 4)
  have hkept : (clearedLocked (alarmsNoted s) 4).alarm = (alarmsNoted s).alarm := honly .alarm (by decide)
  have hsys := herase .sys (by decide)
  refine ⟨_, hexec, ?_, (congrArg Sys.mode hsys).trans hmode, (congrArg Sys.cause hsys).trans hcause,
    (congrArg KeySt.keys (herase .keys (by decide)) :).trans hkeys, (herase .bkeys (by decide) :).trans hbkeys,
    (herase .cmds (by decide) :).trans hcmds, by rw [halarm], by rw [halarm]⟩
  rw [halarm, hkept]
  exact alarmsNoted_set s

theorem signal_response {s : State} (hdue : setDue s = true) (hlevel : strongest (firstSet s) ≤ 1) :
    Completes .alarmSetResponse s fun t => Only s t [.alarm, .recorder, .fns, .bus] ∧ t.alarm.set = laterSet s ∧
      (strongest (firstSet s) = 1 → ∀ p, p < 8 → (getFast t (128 * p) 0).info = BitVec.ofNat 16 (infoOf (firstSet s)) ∧
        (getFast t (128 * p) 0).count = min ((getFast s (128 * p) 0).count + 1) 255) := by
  have htwo : ¬2 ≤ strongest (firstSet s) := by omega
  have hexec : exec .alarmSetResponse s = .next (alarmsNoted s) := by
    simp [exec, execAlarmSetResponse, hdue, respond_eq, htwo]
  refine ⟨_, hexec, alarmsNoted_only s, alarmsNoted_set s, fun hone p hp => ?_⟩
  obtain ⟨hcount, hinfo⟩ := notifyAll_counts (alarmsRecorded s) (infoOf (firstSet s)) hp
  have hnoted : alarmsNoted s = notifyAll (alarmsRecorded s) (infoOf (firstSet s)) := if_pos (by omega)
  have hfns : (alarmsRecorded s).fns = s.fns := alarmsRecorded_only s .fns (by decide)
  have hsys : (alarmsRecorded s).sys = s.sys := alarmsRecorded_only s .sys (by decide)
  have hfast : getFast (alarmsRecorded s) (128 * p) 0 = getFast s (128 * p) 0 := by
    simp only [getFast, getFn, keeperFn, hfns, hsys]
  rw [hnoted]
  exact ⟨hinfo, by rw [hcount, hfast]; rfl⟩

/-! ### The CLEAR_ALL erase (R376) -/

/-- The persistent keys region (Table 79): the identity, the owner root, the storage wrapping key and the trees' records. -/
def persistentKeys (s : State) : Persist × Persist × Persist × Map TreeRec := (s.nvm.identity, s.nvm.ownerRoot, s.nvm.swk, s.nvm.trees)

theorem wearWrite_persistent (s : State) (r w k : Nat) : persistentKeys (wearWrite s r w k).1 = persistentKeys s := by
  unfold wearWrite
  dsimp only
  split <;> rfl

theorem commitRec_persistent (s : State) (r n : Nat) (g : BitVec 24) (v : DWord) (k : Nat) :
    persistentKeys (commitRec s r n g v k).1 = persistentKeys s := by
  have hwear := wearWrite_persistent s r 2 k
  unfold commitRec
  split <;> rename_i h <;> rw [h] at hwear <;> exact hwear

theorem erasePersistent_only (s : State) : Only s (erasePersistent s) [.nvm] := fun p hp => by
  cases p
  case nvm => simp at hp
  all_goals rfl

theorem clearAll_erases {s : State} (hclear : s.alarm.clearing = true) :
    Completes .clearAllErase s fun t => Only s t [.nvm, .alarm, .recorder] ∧ t.alarm.clearing = false ∧
      t.nvm.identity = .blank ∧ t.nvm.ownerRoot = .blank ∧ t.nvm.swk = .blank ∧ t.nvm.trees = [] := by
  obtain ⟨s1, hs1⟩ : ∃ s1, s1 = writeMark (erasePersistent s) 3 0 := ⟨_, rfl⟩
  have herase : Only s s1 [.nvm] := hs1 ▸ only_trans (erasePersistent_only s) (writeMark_only _ 3 0)
  have hblank : persistentKeys s1 = (.blank, .blank, .blank, []) := hs1 ▸ commitRec_persistent (erasePersistent s) 5 3 _ _ 0
  have hrec := recordClear_only { s1 with alarm := { s1.alarm with clearing := false } } 4 2
  have hexec : exec .clearAllErase s = .next (recordClear { s1 with alarm := { s1.alarm with clearing := false } } 4 2) := by
    simp [exec, execClearAllErase, hclear, hs1]
  have hlast : Only s1 (recordClear { s1 with alarm := { s1.alarm with clearing := false } } 4 2) [.alarm, .recorder] :=
    only_union (ps := [.alarm]) (fun p hp => by
      cases p
      case alarm => simp at hp
      all_goals rfl) hrec (by decide) (by decide)
  have halarm := hrec .alarm (by decide)
  have hnvm : (recordClear { s1 with alarm := { s1.alarm with clearing := false } } 4 2).nvm = s1.nvm := by
    exact (congrArg State.nvm (record_keeps { s1 with alarm := { s1.alarm with clearing := false } } 0x2004 4 [BitVec.ofNat 8 2]) :)
  refine ⟨_, hexec, only_union herase hlast (by decide) (by decide), congrArg AlarmSt.clearing halarm, ?_⟩
  rw [hnvm]
  simpa [persistentKeys] using hblank

end Sys2Proof.Machine

namespace Sys2Proof.Proofs

open Sys2Proof.Machine Sys2Proof.Claims

/-- Settles O55, by the strongest level of the set whose microsecond has ended. -/
theorem alarmResponses : Obligations.AlarmResponses := by
  unfold Obligations.AlarmResponses
  rintro s _ _ rfl rfl
  refine ⟨fun hdue => ?_, signal_response, held_response, working_response, all_response, clearAll_erases⟩
  simp [exec, execAlarmSetResponse, hdue]

end Sys2Proof.Proofs
end

section
/-!
PROOFS. What a link's exchange leaves alone (R406 to R413): the mode.
-/

namespace Sys2Proof.Machine

/-! ### Links and the mode (R407, R413, R424) -/

theorem sys_of_run {s t : State} (h : hideRun t = hideRun s) : t.sys = s.sys := (congrArg State.sys h :)

theorem sys_of_links {s t : State} (h : hideLinks t = hideLinks s) : t.sys = s.sys := (congrArg State.sys h :)

theorem sys_of_reset {s t : State} (h : hideReset t = hideReset s) : t.sys = s.sys := only_of_reset h .sys (by decide)

theorem sys_of_masks {s t : State} (h : hideMasks t = hideMasks s) : t.sys = s.sys := (congrArg State.sys h :)

theorem sys_of_holdings {s t : State} (h : hideHoldings t = hideHoldings s) : t.sys = s.sys := (congrArg State.sys h :)

theorem retryBerth_sys (s : State) : (retryBerth s).sys = s.sys := sys_of_mode (retryBerth_mode s)

theorem linkSend_sys (s : State) (k : Nat) (m : LinkMsg) : (linkSend s k m).sys = s.sys := sys_of_links (linkSend_keeps ..)

theorem draw_sys {s : State} {n : Nat} {r : Bytes × State} (h : draw s n = some r) : r.2.sys = s.sys :=
  (congrArg State.sys (draw_keeps s n r h) :)

theorem callOff_sys (s : State) (f : Berth → Bool) : (callOff s f).sys = s.sys := sys_of_reset (callOff_keeps s f)

theorem abortMoves_sys (s : State) (fn pos : Nat) : (abortMoves s fn pos).sys = s.sys := sys_of_reset (abortMoves_keeps s fn pos)

theorem endReceived_sys (s : State) (p : Cmd → Bool) : (endReceived s p).sys = s.sys :=
  (foldl_keeps State.sys endCmd (fun t c => sys_of_run (endCmd_keeps t c)) _ _).trans (callOff_sys ..)

theorem noteDown_sys (s : State) (pos : Nat) : (noteDown s pos).sys = s.sys := by
  unfold noteDown
  split <;> rfl

theorem endForwarded_sys (s : State) (c : Cmd) (st : Status) (d : Nat) : (endForwarded s c st d).sys = s.sys :=
  (sys_of_run (fail_keeps ..)).trans rfl

theorem endMove_sys (s : State) (cid i : Nat) (st : Status) (d : Nat) : (endMove s cid i st d).sys = s.sys :=
  (retryBerth_sys _).trans ((sys_of_run (fail_keeps ..)).trans rfl)

theorem endMoves_sys (s : State) (k : Nat) : (endMoves s k).sys = s.sys :=
  (foldl_keeps State.sys (fun t (m : Move) => endMove t m.cid m.index .busy 9) (fun t m => endMove_sys t m.cid m.index .busy 9) _ _).trans rfl

theorem linkFail_sys (s : State) (k cause : Nat) : (linkFail s k cause).sys = s.sys := by
  have hdown : (((getLink s k).peer.map (noteDown (modLink s k (downLink s cause)))).getD (modLink s k (downLink s cause))).sys = s.sys := by
    cases (getLink s k).peer with
    | none => rfl
    | some p => exact noteDown_sys (modLink s k (downLink s cause)) p
  unfold linkFail
  dsimp only
  split
  · rfl
  · exact (retryBerth_sys _).trans ((endMoves_sys ..).trans ((endReceived_sys ..).trans ((foldl_keeps State.sys
      (fun t (c : Cmd) => endForwarded t c .engineFault (0x0A + 65536 * k)) (fun t c => endForwarded_sys t c _ _) _ _).trans hdown)))

theorem endPeerFns_sys (s : State) (pos : Nat) (fns : List Nat) : (endPeerFns s pos fns).sys = s.sys := by
  have habort := foldl_keeps State.sys (fun t f => abortMoves t f pos) (fun t f => abortMoves_sys t f pos) fns s
  have hclean := fun t : State => foldl_keeps State.sys (fun t f => cleanHoldings t f pos)
    (fun t f => sys_of_holdings (cleanHoldings_keeps t f pos)) fns t
  unfold endPeerFns
  exact (retryBerth_sys _).trans ((hclean _).trans ((sys_of_masks (resetHoldings_keeps ..)).trans ((endReceived_sys ..).trans habort)))

theorem discardIncoming_sys (s : State) (i : Nat) (b : Berth) : (discardIncoming s i b).sys = s.sys :=
  (foldl_keeps State.sys zeroiseKey (fun _ _ => rfl) (boundKeys b) s)

theorem peerRestart_sys (s : State) (pos : Nat) : (peerRestart s pos).sys = s.sys :=
  (endPeerFns_sys ..).trans (foldl_keeps State.sys (fun t (e : Nat × Berth) => discardIncoming t e.1 e.2)
    (fun t e => discardIncoming_sys t e.1 e.2) _ s)

theorem noteEpoch_sys (s : State) (pos : Nat) (epoch : DWord) : (noteEpoch s pos epoch).sys = s.sys := by
  unfold noteEpoch
  dsimp only
  split
  · split
    · rfl
    · exact peerRestart_sys s pos
  · rfl

theorem returnCredits_sys (s : State) (k : Nat) (m : LinkMsg) : (returnCredits s k m).sys = s.sys := by
  unfold returnCredits
  dsimp only
  split
  · split
    · rfl
    · exact (linkSend_sys ..).trans rfl
  · exact linkSend_sys ..

theorem linkEncaps_sys {s t : State} {k : Nat} {m : HelloMsg} (h : linkEncaps s k m = some t) : t.sys = s.sys := by
  obtain ⟨r, hr, rfl⟩ := Option.map_eq_some_iff.mp h
  exact draw_sys hr

theorem onHello_sys {s t : State} {k : Nat} {msg : HelloMsg} (h : onHello s k msg = some t) : t.sys = s.sys := by
  unfold onHello at h
  dsimp only at h
  split at h
  · injection h with h
    exact h ▸ rfl
  · split at h
    · injection h with h
      exact h ▸ linkFail_sys ..
    · obtain ⟨u, hu, rfl⟩ := Option.map_eq_some_iff.mp h
      have hepoch := (noteEpoch_sys u ((getLink s k).peer.getD 0) msg.epoch).trans (linkEncaps_sys hu)
      split
      · exact (linkSend_sys ..).trans hepoch
      · exact hepoch

theorem sendSigned_sys {s u : State} {k : Nat} {t : Bytes} {mk : Bytes → LinkMsg} (h : sendSigned s k t mk = some u) : u.sys = s.sys := by
  unfold sendSigned at h
  split at h
  · injection h with h
    exact h ▸ rfl
  · obtain ⟨r, hr, rfl⟩ := Option.map_eq_some_iff.mp h
    exact (linkSend_sys ..).trans (draw_sys hr)

theorem onKemSig_sys {s t : State} {k : Nat} {ct sig : Bytes} (h : onKemSig s k ct sig = some t) : t.sys = s.sys := by
  unfold onKemSig at h
  dsimp only at h
  split at h
  · injection h with h
    exact h ▸ rfl
  · split at h
    · injection h with h
      exact h ▸ linkFail_sys ..
    · obtain ⟨u, hu, rfl⟩ := Option.map_eq_some_iff.mp h
      have hsent := sendSigned_sys hu
      split
      · exact hsent
      · exact hsent

theorem rekeyPart_sys {s t : State} {k : Nat} {msg : HelloMsg} (h : rekeyPart s k msg = some t) : t.sys = s.sys := by
  obtain ⟨u, hu, ht⟩ := Option.bind_eq_some_iff.mp h
  have hpart : u.sys = s.sys := by
    split at hu
    · injection hu with hu
      exact hu ▸ rfl
    · obtain ⟨r, hr, rfl⟩ := Option.map_eq_some_iff.mp hu
      exact draw_sys hr
  split at ht
  · injection ht with ht
    exact ht ▸ hpart
  · exact (linkEncaps_sys ht).trans hpart

theorem rekeyAnswer_sys {s t : State} {k : Nat} {ct sig : Bytes} (h : rekeyAnswer s k ct sig = some t) : t.sys = s.sys := by
  unfold rekeyAnswer at h
  dsimp only at h
  split at h
  · injection h with h
    exact h ▸ linkSend_sys ..
  · split at h
    · exact sendSigned_sys h
    · split at h
      · injection h with h
        exact h ▸ linkFail_sys ..
      · obtain ⟨u, hu, rfl⟩ := Option.map_eq_some_iff.mp h
        have hsent := sendSigned_sys hu
        exact hsent

theorem onRekey_sys {s t : State} {k : Nat} {msg : HelloMsg} {ct sig : Bytes} (h : onRekey s k msg ct sig = some t) : t.sys = s.sys := by
  unfold onRekey at h
  split at h
  · injection h with h
    exact h ▸ rfl
  · split at h
    · injection h with h
      exact h ▸ linkFail_sys ..
    · obtain ⟨u, hu, ht⟩ := Option.bind_eq_some_iff.mp h
      exact (rekeyAnswer_sys ht).trans (rekeyPart_sys hu)

theorem keyingEffect_sys {s t : State} {k : Nat} {m : LinkMsg} (h : keyingEffect s k m = some t) : t.sys = s.sys := by
  unfold keyingEffect at h
  split at h
  · exact onHello_sys h
  · exact onKemSig_sys h
  · exact onRekey_sys h
  · injection h with h
    exact h ▸ rfl

theorem takeList_sys (k : Nat) (l : List LinkMsg) (s : State) : (takeList k l s).sys = s.sys := by
  induction l generalizing s with
  | nil => rfl
  | cons m l ih =>
    unfold takeList
    split
    · rename_i t ht
      exact (ih t).trans ((keyingEffect_sys ht).trans ((returnCredits_sys ..).trans rfl))
    · rfl

/-- What the inboxes of the links held leaves the mode alone. -/
theorem takeInboxes_sys (s : State) : (takeInboxes s).sys = s.sys :=
  foldl_keeps State.sys takeInbox (fun t k => by
    unfold takeInbox
    split
    · exact takeList_sys ..
    · rfl) _ s

end Sys2Proof.Machine
end

section
/-!
PROOFS. Environment, mark, hold, resume and SET_CALENDAR (O32): how a keeper command whose output is settled ends, and what each of them does.
-/

namespace Sys2Proof.Machine

open Sys2Proof.Claims

/-! ### The end of a command that has nothing out (R69, R92) -/

theorem getCmd_dropInput_settled {s : State} {cid : Nat} {c : Cmd} (h : getCmd s cid = some c) (hreads : inputReads c = 0) :
    dropInput s cid = modCmd s cid fun x => { x with asked := false, pulls := [], pulled := 0 } := by
  unfold dropInput
  rw [h]
  exact if_pos hreads

theorem outputWrites_none {s : State} {c : Cmd} {r : Result} (hzero : c.zeroDue = 0) (hout : r.out = []) : outputWrites s c r = s := by
  have hlen : resultLen r = 0 := by rw [resultLen, hout]; split <;> rfl
  unfold outputWrites
  dsimp only
  rw [if_pos hzero, if_pos hlen]

theorem issueOut_none {s : State} {cid : Nat} {c : Cmd} {r : Result} (h : getCmd s cid = some c) (hphase : c.phase = .fin r)
    (hzero : c.zeroDue = 0) (hout : r.out = []) : Only s (issueOut s cid) [.cmds] := by
  unfold issueOut
  rw [h]
  dsimp only
  rw [hphase]
  dsimp only
  split
  · rw [outputWrites_none hzero hout]
    intro p hp
    cases p
    case cmds => simp at hp
    all_goals rfl
  · exact only_refl

theorem reapCopies_only (s : State) : Only s (reapCopies s) [.eng] := only_of_eng

/-- A command as it finishes, with its reads of input given up. -/
def ended (s : State) (r : Result) (c : Cmd) : Cmd := finished s { c with asked := false, pulls := [], pulled := 0 } r

/-- The end of a command without output that has nothing out changes the commands and the engines alone. -/
theorem finish_settled {s : State} {cid : Nat} {c : Cmd} {r : Result} (h : getCmd s cid = some c) (hc : Settled c) (hout : r.out = []) :
    Only s (finish s cid r) [.cmds, .eng] := by
  obtain ⟨hreads, hzero, hsent⟩ := hc
  have hdrop := getCmd_dropInput_settled h hreads
  obtain ⟨s1, hs1⟩ : ∃ s1, s1 = modCmd (releaseLves (dropInput s cid) cid) cid fun c => finished s c r := ⟨_, rfl⟩
  have hone : Only s s1 [.cmds, .eng] := by
    rw [hs1, hdrop]
    intro p hp
    cases p
    case cmds | eng => simp at hp
    all_goals rfl
  have hcmd : getCmd s1 cid = some (ended s r c) := by
    have hsame : getCmd (releaseLves (dropInput s cid) cid) cid = getCmd (dropInput s cid) cid := rfl
    rw [hs1, getCmd_modCmd_self, hsame, hdrop, getCmd_modCmd_self, h]
    · rfl
    · exact fun _ => rfl
    · exact fun _ => rfl
  have hdue : (ended s r c).zeroDue = 0 := by simp [ended, finished, hzero, hsent]
  have hdef : finish s cid r = reapCopies (issueOut s1 cid) := by rw [hs1]; rfl
  rw [hdef]
  exact only_union (only_union hone (issueOut_none hcmd rfl hdue hout) (rs := [.cmds, .eng]) (by decide) (by decide)) (reapCopies_only _)
    (by decide) (by decide)

/-- A command with nothing out that completes after a change of other parts than the commands. -/
theorem done_after {s t : State} {cid : Nat} {c : Cmd} {ps : List Part} (hst : Only s t ps) (hps : Part.cmds ∉ ps)
    (h : getCmd s cid = some c) (hc : Settled c) :
    Only s (done t cid 0) (ps ++ [.cmds, .eng]) ∧ Only t (done t cid 0) [.cmds, .eng] ∧ Ended (done t cid 0) cid .ok 0 [] := by
  have hget : getCmd t cid = some c := (getCmd_congr (hst .cmds hps) cid).trans h
  have hend : Only t (done t cid 0) [.cmds, .eng] := finish_settled hget hc rfl
  exact ⟨only_union hst hend (fun _ hp => List.mem_append_left _ hp) (fun _ hp => List.mem_append_right _ hp), hend, finish_phase t cid _ c hget⟩

theorem fail_settled {s : State} {cid : Nat} {c : Cmd} (st : Status) (d : Nat) (h : getCmd s cid = some c) (hc : Settled c) :
    Only s (fail s cid st d) [.cmds, .eng] ∧ Ended (fail s cid st d) cid st d [] :=
  ⟨finish_settled h hc rfl, finish_phase s cid _ c h⟩

/-! ### The turn of a keeper command (R106) -/

theorem getCmd_of_turn {s : State} {cid op : Nat} {c : Cmd} (h : turnOf s cid op = some c) : getCmd s cid = some c := by
  unfold turnOf at h
  split at h
  · cases h
  · exact (Option.filter_eq_some_iff.mp h).1

theorem runTurn_of_turn {s : State} {cid op : Nat} {c : Cmd} {pre : Cmd → Err} {f : Cmd → State} (h : turnOf s cid op = some c)
    (hpre : pre c = none) : runTurn s cid op pre f = f c := by
  rw [runTurn, h]
  dsimp only
  rw [hpre]

/-- A keeper command whose checks pass, with its input or none. -/
theorem runInput_of_turn {s : State} {cid op : Nat} {c : Cmd} {pre : Cmd → Err} {f : Cmd → Bytes → State} (h : turnOf s cid op = some c)
    (hpre : pre c = none) (hin : c.input.isSome = true ∨ inLen c.entry = 0) : runInput s cid op pre f = f c (c.input.getD []) := by
  rw [runInput, runTurn_of_turn h hpre]
  cases hinput : c.input with
  | some d => rfl
  | none => exact if_pos (hin.resolve_left (by simp [hinput]))

theorem keeperOperands_none {c : Cmd} (h : reservedBad c.entry = []) : keeperOperands c [] = none := by
  rw [keeperOperands, h]
  rfl

/-! ### SET_ENVIRONMENT and RECORDER_MARK (R46, R128, R132) -/

/-- The checks of SET_ENVIRONMENT before its input. -/
def environmentChecks (c : Cmd) : Err :=
  firstErr [keeperOperands c (environmentBad c.entry), require (inLen c.entry == environmentLen c.entry) .badLength (environmentLen c.entry)]

/-- What SET_ENVIRONMENT does with its input, by KIND. -/
def environmentEffect (s : State) (cid : Nat) (c : Cmd) (d : Bytes) : State :=
  match le c.entry 40 1 with
  | 1 => done (reportVcore s (le c.entry 42 2)) cid 0
  | 2 => done (record { s with lc := { s.lc with boardId := some d } } 0x3002 c.fn (slice d 0 16)) cid 0
  | _ =>
    match firstErr ((records d (le c.entry 44 4) 64).mapIdx fun i r => headErr s c i r) with
    | some (st, x) => fail s cid st x
    | none => done ((records d (le c.entry 44 4) 64).foldl putHead s) cid 0

theorem environment_runs {s : State} {cid : Nat} {c : Cmd} (hturn : Turn s cid 0x32 c) (hbad : environmentBad c.entry = [])
    (hlen : inLen c.entry = environmentLen c.entry) (hin : c.input.isSome = true ∨ inLen c.entry = 0) :
    exec (.setEnvironment cid) s = .next (environmentEffect s cid c (c.input.getD [])) := by
  obtain ⟨hgo, hres, -⟩ := hturn
  have hpre : environmentChecks c = none := by
    rw [environmentChecks, hbad, keeperOperands_none hres, hlen]
    simp [firstErr, require]
  have hexec : exec (.setEnvironment cid) s = .next (runInput s cid 0x32 environmentChecks (environmentEffect s cid)) := rfl
  rw [hexec, runInput_of_turn hgo hpre hin]

theorem environment_vcore {s : State} {cid : Nat} {c : Cmd} (hturn : Turn s cid 0x32 c) (hkind : le c.entry 40 1 = 1)
    (hlo : 600 ≤ le c.entry 42 2) (hhi : le c.entry 42 2 ≤ 900) (hcount : le c.entry 44 4 = 0) (hlen : inLen c.entry = 0) :
    Completes (.setEnvironment cid) s fun t => Only s t [.alarm, .cmds, .eng] ∧ Ended t cid .ok 0 [] ∧
      t.alarm.vcoreSet = le c.entry 42 2 ∧ t.alarm.reported = true := by
  have hbad : environmentBad c.entry = [] := by simp [environmentBad, hkind, hlo, hhi, hcount, need]
  have hexec := environment_runs hturn hbad (by simp [environmentLen, hkind, hlen]) (.inr hlen)
  obtain ⟨hgo, -, hc⟩ := hturn
  have hreport : Only s (reportVcore s (le c.entry 42 2)) [.alarm] := fun p hp => by
    cases p
    case alarm => simp at hp
    all_goals rfl
  obtain ⟨honly, hend, hended⟩ := done_after hreport (by decide) (getCmd_of_turn hgo) hc
  have halarm := hend .alarm (by decide)
  simp only [environmentEffect, hkind] at hexec
  exact ⟨_, hexec, honly, hended, congrArg AlarmSt.vcoreSet halarm, congrArg AlarmSt.reported halarm⟩

theorem environment_board {s : State} {cid : Nat} {c : Cmd} {d : Bytes} (hturn : Turn s cid 0x32 c) (hin : c.input = some d)
    (hkind : le c.entry 40 1 = 2) (hmv : le c.entry 42 2 = 0) (hcount : le c.entry 44 4 = 0) (hlen : inLen c.entry = 64) :
    Completes (.setEnvironment cid) s fun t => Only s t [.lc, .recorder, .cmds, .eng] ∧ Ended t cid .ok 0 [] ∧ t.lc.boardId = some d := by
  have hbad : environmentBad c.entry = [] := by simp [environmentBad, hkind, hmv, hcount, need]
  have hexec := environment_runs hturn hbad (by simp [environmentLen, hkind, hlen]) (.inl (by simp [hin]))
  obtain ⟨hgo, -, hc⟩ := hturn
  have hrec : Only s (record { s with lc := { s.lc with boardId := some d } } 0x3002 c.fn (slice d 0 16)) [.lc, .recorder] :=
    only_union (only_of_lc (x := { s.lc with boardId := some d })) (only_of_recorder (record_keeps ..)) (by decide) (by decide)
  have hlc : (record { s with lc := { s.lc with boardId := some d } } 0x3002 c.fn (slice d 0 16)).lc = { s.lc with boardId := some d } :=
    only_of_recorder (record_keeps ..) .lc (by decide)
  obtain ⟨honly, hend, hended⟩ := done_after hrec (by decide) (getCmd_of_turn hgo) hc
  simp only [environmentEffect, hkind, hin, Option.getD_some] at hexec
  exact ⟨_, hexec, honly, hended, congrArg LcSt.boardId ((hend .lc (by decide) :).trans hlc)⟩

theorem environment_head {s : State} {cid i : Nat} {b : Berth} {c : Cmd} {d : Bytes} (hturn : Turn s cid 0x32 c) (hin : c.input = some d)
    (hkind : le c.entry 40 1 = 3) (hmv : le c.entry 42 2 = 0) (hcount : le c.entry 44 4 = 1) (hlen : inLen c.entry = 64)
    (hi : i = le d 0 2) (hzero : allZero (slice d 2 14) = true) (hberth : Map.get? s.keys.berths i = some b)
    (hvisible : berthVisible s c i b = true) (hflag : b.bflags.getLsbD 1 = true) (hepoch : b.lastEpoch ≠ s.time.epoch) (hd : d.length = 64) :
    Completes (.setEnvironment cid) s fun t => Only s t [.keys, .cmds, .eng] ∧ Ended t cid .ok 0 [] ∧
      Map.get? t.keys.berths i = some { b with chainHead := slice d 16 48, resume := true } := by
  subst hi
  have hbad : environmentBad c.entry = [] := by simp [environmentBad, hkind, hmv, hcount, need]
  have hexec := environment_runs hturn hbad (by simp [environmentLen, hkind, hcount, hlen]) (.inl (by simp [hin]))
  obtain ⟨hgo, -, hc⟩ := hturn
  have hone : records d 1 64 = [d] := by simp [records, slice, ← hd]
  have hhead : headErr s c 0 d = none := by
    have hbit : bit b.bflags.toNat 1 = true := by
      simpa [bit, BitVec.getLsbD, Nat.testBit, Nat.shiftRight_eq_div_pow] using hflag
    simp [headErr, hzero, hberth, firstErr, require, hvisible, hbit, hepoch]
  have hkeys : Only s (putHead s d) [.keys] := fun p hp => by
    cases p
    case keys => simp at hp
    all_goals rfl
  obtain ⟨honly, hend, hended⟩ := done_after hkeys (by decide) (getCmd_of_turn hgo) hc
  have hput : Map.get? (putHead s d).keys.berths (le d 0 2) = some { b with chainHead := slice d 16 48, resume := true } := by
    have hmod : (putHead s d).keys.berths =
        Map.modify s.keys.berths (le d 0 2) fun b => { b with chainHead := slice d 16 48, resume := true } := rfl
    rw [hmod, Map.get?_modify, if_pos rfl, hberth]
    rfl
  simp only [environmentEffect, hkind, hin, Option.getD_some, hcount, hone, List.mapIdx_cons, List.mapIdx_nil, hhead, firstErr,
    List.foldl_cons, List.foldl_nil] at hexec
  refine ⟨_, hexec, honly, hended, ?_⟩
  have hlast : (done (putHead s d) cid 0).keys = (putHead s d).keys := hend .keys (by decide)
  rw [hlast]
  exact hput

theorem recorderMark_queues {s : State} (trig subj : Nat) (p : Bytes) (hmounted : s.recorder.mounted = true)
    (hworn : (getWear s.nvm 0).worn = false) (hroom : s.recorder.queue.length + Config.recorderKept < Config.recorderQueue) :
    (record s trig subj p).recorder.queue.length = s.recorder.queue.length + 1 := by
  have hfull : ¬s.recorder.queue.length ≥ Config.recorderQueue := by omega
  have hkept : ¬s.recorder.queue.length ≥ Config.recorderQueue - Config.recorderKept := by omega
  unfold record queueRecord
  simp only [hmounted, hworn, hfull, hkept]
  simp only [Bool.not_true, Bool.false_eq_true, if_false, decide_false, Bool.and_false]
  split <;> simp

theorem recorderMark_marks {s : State} {cid : Nat} {c : Cmd} (hturn : Turn s cid 0x70 c) :
    Completes (.recorderMark cid) s fun t => Only s t [.recorder, .cmds, .eng] ∧ Ended t cid .ok 0 [] ∧
      (s.recorder.mounted = true → (getWear s.nvm 0).worn = false → s.recorder.queue.length + Config.recorderKept < Config.recorderQueue →
        t.recorder.queue.length = s.recorder.queue.length + 1) := by
  obtain ⟨hgo, hres, hc⟩ := hturn
  have hrun : runTurn s cid 0x70 (fun c => keeperOperands c []) (fun c => done (record s 0x3001 c.fn (slice c.entry 40 16)) cid 0) =
      done (record s 0x3001 c.fn (slice c.entry 40 16)) cid 0 := runTurn_of_turn hgo (keeperOperands_none hres)
  have hexec : exec (.recorderMark cid) s = .next (done (record s 0x3001 c.fn (slice c.entry 40 16)) cid 0) := by
    rw [← hrun]
    rfl
  obtain ⟨honly, hend, hended⟩ := done_after (only_of_recorder (record_keeps s 0x3001 c.fn (slice c.entry 40 16))) (by decide) (getCmd_of_turn hgo) hc
  refine ⟨_, hexec, honly, hended, fun hmounted hworn hroom => ?_⟩
  have hlast := hend .recorder (by decide)
  exact (congrArg (fun r : RecSt => r.queue.length) hlast).trans (recorderMark_queues _ _ _ hmounted hworn hroom)

/-! ### MODE_HOLD and MODE_RESUME (R38, R39) -/

theorem enterHeld_changes (s : State) (alarm : Bool) : ∀ x ∈ (enterHeld s alarm).eng.changes, x.1 = 0 ∧ x.2.2 = 0xFFFF := by
  have hset : ∀ t : State, ∃ l : List Cmd, (heldEffects t).eng.changes = l.map fun c => (0, c.id, 0xFFFF) := fun t => ⟨_, rfl⟩
  obtain ⟨l, hl⟩ := hset (heldFaults (recordMode (setMode
    { s with sys := { s.sys with heldReturn := s.sys.mode, byAlarm := alarm, heldSince := s.sys.tick } } .held (if alarm then 3 else 2))))
  intro x hx
  have hmem : x ∈ l.map fun c => (0, c.id, (0xFFFF : BitVec 16)) := hl ▸ hx
  obtain ⟨c, -, rfl⟩ := List.mem_map.mp hmem
  exact ⟨rfl, rfl⟩

theorem modeHold_runs {s : State} {cid : Nat} {c : Cmd} (hturn : Turn s cid 0x71 c) :
    exec (.modeHold cid) s = .next (if s.sys.mode = .held then done s cid 0 else if opposed s 7 then s
      else writeChanges (enterHeld (done s cid 0) false)) := by
  obtain ⟨hgo, hres, -⟩ := hturn
  have hrun := runTurn_of_turn (pre := fun c => keeperOperands c []) (f := fun _ => if s.sys.mode = .held then done s cid 0
    else if opposed s 7 then s else writeChanges (enterHeld (done s cid 0) false)) hgo (keeperOperands_none hres)
  rw [← hrun]
  rfl

theorem modeHold_holds {s : State} {cid : Nat} {c : Cmd} (hturn : Turn s cid 0x71 c) (hmode : s.sys.mode ≠ .held) (hopp : opposed s 7 = false) :
    Completes (.modeHold cid) s fun t => t.sys.mode = .held ∧ t.sys.prev = s.sys.mode ∧ t.sys.heldReturn = s.sys.mode ∧
      t.sys.byAlarm = false ∧ t.sys.cause = 2 ∧ ∀ x ∈ t.eng.changes, x.1 = 0 ∧ x.2.2 = 0xFFFF := by
  have hexec := modeHold_runs hturn
  rw [if_neg hmode, hopp, if_neg Bool.false_ne_true] at hexec
  obtain ⟨hgo, -, hc⟩ := hturn
  have hdone : (done s cid 0).sys = s.sys := (finish_settled (getCmd_of_turn hgo) hc rfl) .sys (by decide)
  have hwrite := writeChanges_mode (enterHeld (done s cid 0) false)
  have hsys := sys_of_mode hwrite
  rw [enterHeld_sys, hdone] at hsys
  refine ⟨_, hexec, by rw [hsys], by rw [hsys], by rw [hsys], by rw [hsys], by rw [hsys]; rfl, fun x hx => ?_⟩
  rw [changes_of_mode hwrite] at hx
  exact enterHeld_changes _ _ x hx

theorem modeHold_held {s : State} {cid : Nat} {c : Cmd} (hturn : Turn s cid 0x71 c) (hmode : s.sys.mode = .held) :
    Completes (.modeHold cid) s fun t => Only s t [.cmds, .eng] ∧ Ended t cid .ok 0 [] := by
  have hexec := modeHold_runs hturn
  rw [if_pos hmode] at hexec
  obtain ⟨hgo, -, hc⟩ := hturn
  obtain ⟨-, honly, hended⟩ := done_after (only_refl (s := s) (ps := [])) (by decide) (getCmd_of_turn hgo) hc
  exact ⟨_, hexec, honly, hended⟩

/-- The mode that was left for Held, entered again. -/
def resumed (s : State) : State :=
  { setMode s s.sys.heldReturn 4 with sys := { (setMode s s.sys.heldReturn 4).sys with byAlarm := false, heldReturn := .dormant } }

/-- The checks of MODE_RESUME. -/
def resumeChecks (s : State) (c : Cmd) : Err := firstErr [keeperOperands c [], require (s.sys.mode == .held) .badParam 0]

theorem modeResume_eq (s : State) (cid : Nat) :
    exec (.modeResume cid) s = .next (runTurn s cid 0x72 (resumeChecks s) fun _ =>
      if opposed s 2 then s else takeInboxes (retryBerth (done (recordMode (resumeTimers (resumed s))) cid 0))) := rfl

theorem modeResume_resumes {s : State} {cid : Nat} {c : Cmd} (hturn : Turn s cid 0x72 c) (hmode : s.sys.mode = .held)
    (hopp : opposed s 2 = false) :
    Completes (.modeResume cid) s fun t => t.sys.mode = s.sys.heldReturn ∧ t.sys.prev = .held ∧ t.sys.cause = 4 ∧
      t.sys.byAlarm = false ∧ t.sys.heldReturn = .dormant := by
  obtain ⟨hgo, hres, hc⟩ := hturn
  have hpre : resumeChecks s c = none := by
    rw [resumeChecks, keeperOperands_none hres]
    simp [firstErr, require, hmode]
  have hexec := modeResume_eq s cid
  rw [runTurn_of_turn hgo hpre, hopp, if_neg Bool.false_ne_true] at hexec
  have hchange : Only s (resumeTimers (resumed s)) [.sys, .eng] := fun p hp => by
    cases p
    case sys | eng => simp at hp
    all_goals rfl
  have hrec : Only s (recordMode (resumeTimers (resumed s))) [.sys, .eng, .recorder] :=
    only_union hchange (only_of_recorder (recordMode_keeps _)) (by decide) (by decide)
  obtain ⟨-, hend, -⟩ := done_after hrec (by decide) (getCmd_of_turn hgo) hc
  have hsys := ((takeInboxes_sys _).trans (retryBerth_sys (done (recordMode (resumeTimers (resumed s))) cid 0))).trans
    ((hend .sys (by decide) :).trans (recordMode_sys (resumeTimers (resumed s))))
  exact ⟨_, hexec, congrArg Sys.mode hsys, (congrArg Sys.prev hsys).trans hmode, congrArg Sys.cause hsys, congrArg Sys.byAlarm hsys,
    congrArg Sys.heldReturn hsys⟩

theorem modeResume_refused {s : State} {cid : Nat} {c : Cmd} (hturn : Turn s cid 0x72 c) (hmode : s.sys.mode ≠ .held) :
    Completes (.modeResume cid) s fun t => Only s t [.cmds, .eng] ∧ ∃ x, Ended t cid .badParam x [] := by
  obtain ⟨hgo, hres, hc⟩ := hturn
  have hpre : resumeChecks s c = some (.badParam, 0) := by
    rw [resumeChecks, keeperOperands_none hres]
    simp [firstErr, require, hmode]
  have hexec : exec (.modeResume cid) s = .next (fail s cid .badParam 0) := by
    rw [modeResume_eq, runTurn, hgo]
    dsimp only
    rw [hpre]
  obtain ⟨honly, hended⟩ := fail_settled .badParam 0 (getCmd_of_turn hgo) hc
  exact ⟨_, hexec, honly, 0, hended⟩

/-! ### SET_CALENDAR (R127, R298, R301) -/

theorem leVal_lt (b : Bytes) : leVal b < 2 ^ (8 * b.length) := by
  induction b with
  | nil => decide
  | cons x r ih =>
    have hx : x.toNat < 256 := x.isLt
    have hcons : leVal (x :: r) = x.toNat + 256 * leVal r := rfl
    have hpow : 2 ^ (8 * (x :: r).length) = 256 * 2 ^ (8 * r.length) := by
      rw [List.length_cons, Nat.mul_add, Nat.pow_add, Nat.mul_comm]
    rw [hcons, hpow]
    omega

theorem le_lt (b : Bytes) (off n : Nat) : le b off n < 2 ^ (8 * n) := by
  have hlen : (slice b off n).length ≤ n := by simp [slice]
  exact (leVal_lt _).trans_le (Nat.pow_le_pow_right (by decide) (by omega))

/-- The calendar's time at its anchor: the operand to 2^−15 s (R298, R299). -/
theorem time64At_anchor {n : Nat} (hn : n < 2 ^ 64) (tick : Nat) :
    time64At ((BitVec.ofNat 64 n >>> 24).setWidth 40) ((BitVec.ofNat 64 n >>> 9).setWidth 15) tick tick = BitVec.ofNat 64 (n / 512 * 512) := by
  have hsec : ((BitVec.ofNat 64 n >>> 24).setWidth 40).toNat = n / 2 ^ 24 := by
    rw [BitVec.toNat_setWidth, BitVec.toNat_ushiftRight, BitVec.toNat_ofNat, Nat.mod_eq_of_lt hn, Nat.shiftRight_eq_div_pow]
    exact Nat.mod_eq_of_lt (by omega)
  have hfrac : ((BitVec.ofNat 64 n >>> 9).setWidth 15).toNat = n / 2 ^ 9 % 2 ^ 15 := by
    rw [BitVec.toNat_setWidth, BitVec.toNat_ushiftRight, BitVec.toNat_ofNat, Nat.mod_eq_of_lt hn, Nat.shiftRight_eq_div_pow]
  have hsum : n / 2 ^ 24 * 2 ^ 24 + n / 2 ^ 9 % 2 ^ 15 * 512 = n / 512 * 512 := by omega
  rw [time64At, hsec, hfrac, Nat.sub_self, Nat.zero_mul, Nat.zero_div, Nat.min_zero, Nat.add_zero, hsum]

/-- The state with the calendar set, before its record. -/
def calendarSet (s : State) (t : DWord) : State :=
  { s with
    backup := { s.backup with
      sec := (t >>> 24).setWidth 40, frac := (t >>> 9).setWidth 15, timeLost := s.backup.stopped, timeUnset := false,
      cause := if s.backup.stopped then 2 else 0 },
    time := { s.time with
      anchorSec := (t >>> 24).setWidth 40, anchorFrac := (t >>> 9).setWidth 15, anchorTick := s.sys.tick, anchored := true,
      calSets := satAdd s.time.calSets 1 255, noticed := false, second := none } }

theorem setCalendar_only (s : State) (fn : Nat) (t : DWord) :
    Only (calendarSet s t) (setCalendar s fn t) [.recorder] := only_of_recorder (record_keeps ..)

theorem calendarSet_only (s : State) (t : DWord) : Only s (calendarSet s t) [.backup, .time] := fun p hp => by
  cases p
  case backup | time => simp at hp
  all_goals rfl

/-- What SET_CALENDAR has set once its command is done, whatever token it notes. -/
theorem calendar_done {s : State} {cid : Nat} {c : Cmd} (fn : Nat) {n : Nat} (hn : n < 2 ^ 64) (token : Option DWord)
    (hget : getCmd s cid = some c) (hc : Settled c) (u : State)
    (hu : u = { setCalendar s fn (BitVec.ofNat 64 n) with time := { (setCalendar s fn (BitVec.ofNat 64 n)).time with lastToken := token } }) :
    Only s (done u cid 0) [.backup, .time, .recorder, .cmds, .eng] ∧ Ended (done u cid 0) cid .ok 0 [] ∧
      time64Now (done u cid 0) = BitVec.ofNat 64 (n / 512 * 512) ∧ (done u cid 0).backup.timeUnset = false ∧
      (done u cid 0).backup.timeLost = s.backup.stopped ∧ (done u cid 0).time.lastToken = token ∧
      (done u cid 0).time.calSets = min (s.time.calSets + 1) 255 := by
  have hset := setCalendar_only s fn (BitVec.ofNat 64 n)
  have hfirst : Only s (setCalendar s fn (BitVec.ofNat 64 n)) [.backup, .time, .recorder] :=
    only_union (calendarSet_only s (BitVec.ofNat 64 n)) hset (by decide) (by decide)
  have hnote : Only s u [.backup, .time, .recorder] := hu ▸ only_trans hfirst (only_mono only_of_time (by decide))
  have htime : u.time = { (calendarSet s (BitVec.ofNat 64 n)).time with lastToken := token } := by
    have hkept : (setCalendar s fn (BitVec.ofNat 64 n)).time = (calendarSet s (BitVec.ofNat 64 n)).time := hset .time (by decide)
    rw [hu, hkept]
  have hbackup : u.backup = (calendarSet s (BitVec.ofNat 64 n)).backup := hu ▸ (hset .backup (by decide) :)
  have hsys : u.sys = s.sys := hnote .sys (by decide)
  obtain ⟨honly, hend, hended⟩ := done_after hnote (by decide) hget hc
  have htime' := (hend .time (by decide) :).trans htime
  have hbackup' := (hend .backup (by decide) :).trans hbackup
  have hsys' := (hend .sys (by decide) :).trans hsys
  refine ⟨honly, hended, ?_, by rw [hbackup']; rfl, by rw [hbackup']; rfl, by rw [htime'], by rw [htime']; rfl⟩
  rw [time64Now, tickNat, htime', hsys']
  exact time64At_anchor hn _

/-- The checks of SET_CALENDAR before its token. -/
def calendarChecks (s : State) (c : Cmd) : Err :=
  firstErr [keeperOperands c [], require (inLen c.entry == tokenLen s || c.input.isSome) .badLength (tokenLen s), planErr s c]

/-- What SET_CALENDAR does with its token, or without one. -/
def calendarEffect (s : State) (cid : Nat) (c : Cmd) (d : Bytes) : State :=
  let t := le c.entry 40 8
  if !segsDone c || !running s then modCmd s cid fun x => { x with input := some d }
  else if s.lc.state = .field then
    match tokenErr s t d with
    | some (st, x) => fail s cid st x
    | none =>
      let s1 := setCalendar s c.fn (BitVec.ofNat 64 t)
      done { s1 with time := { s1.time with lastToken := some (BitVec.ofNat 64 t) } } cid 0
  else done (setCalendar s c.fn (BitVec.ofNat 64 t)) cid 0

theorem setCalendar_runs {s : State} {cid : Nat} {c : Cmd} (hturn : Turn s cid 0x31 c)
    (hlen : (inLen c.entry == tokenLen s || c.input.isSome) = true) (hplan : planErr s c = none)
    (hin : c.input.isSome = true ∨ inLen c.entry = 0) :
    exec (.setCalendar cid) s = .next (calendarEffect s cid c (c.input.getD [])) := by
  obtain ⟨hgo, hres, -⟩ := hturn
  have hpre : calendarChecks s c = none := by
    rw [calendarChecks, keeperOperands_none hres, hlen, hplan]
    rfl
  have hexec : exec (.setCalendar cid) s = .next (runInput s cid 0x31 (calendarChecks s) (calendarEffect s cid)) := rfl
  rw [hexec, runInput_of_turn hgo hpre hin]

theorem calendar_unsigned {s : State} {cid : Nat} {c : Cmd} (hturn : Turn s cid 0x31 c) (hlc : s.lc.state ≠ .field)
    (hsegs : segsDone c = true) (hrun : running s = true) (hlen : inLen c.entry = 0) (hplan : planResident s c.planId = true) :
    Completes (.setCalendar cid) s fun t => Only s t [.backup, .time, .recorder, .cmds, .eng] ∧ Ended t cid .ok 0 [] ∧
      time64Now t = BitVec.ofNat 64 (le c.entry 40 8 / 512 * 512) ∧ t.backup.timeUnset = false ∧
      t.backup.timeLost = s.backup.stopped ∧ t.time.calSets = min (s.time.calSets + 1) 255 := by
  have hexec := setCalendar_runs hturn (by simp [tokenLen, hlc, hlen]) (by simp [planErr, require, hplan]) (.inr hlen)
  simp only [calendarEffect, hsegs, hrun, hlc, Bool.not_true, Bool.or_self, Bool.false_eq_true, if_false] at hexec
  obtain ⟨hgo, -, hc⟩ := hturn
  obtain ⟨honly, hended, htime, hunset, hlost, -, hsets⟩ := calendar_done c.fn (le_lt c.entry 40 8)
    (setCalendar s c.fn (BitVec.ofNat 64 (le c.entry 40 8))).time.lastToken (getCmd_of_turn hgo) hc _ rfl
  exact ⟨_, hexec, honly, hended, htime, hunset, hlost, hsets⟩

theorem calendar_signed {s : State} {cid : Nat} {c : Cmd} {d : Bytes} (hturn : Turn s cid 0x31 c) (hlc : s.lc.state = .field)
    (hin : c.input = some d) (hsegs : segsDone c = true) (hrun : running s = true) :
    Completes (.setCalendar cid) s fun t =>
      match tokenErr s (le c.entry 40 8) d with
      | some (st, x) => Only s t [.cmds, .eng] ∧ Ended t cid st x []
      | none => Only s t [.backup, .time, .recorder, .cmds, .eng] ∧ Ended t cid .ok 0 [] ∧
          time64Now t = BitVec.ofNat 64 (le c.entry 40 8 / 512 * 512) ∧ t.backup.timeUnset = false ∧
          t.time.lastToken = some (BitVec.ofNat 64 (le c.entry 40 8)) ∧ t.time.calSets = min (s.time.calSets + 1) 255 := by
  have hexec := setCalendar_runs hturn (by simp [hin]) (by simp [planErr, require, hin]) (.inl (by simp [hin]))
  simp only [calendarEffect, hsegs, hrun, hlc, hin, Option.getD_some, Bool.not_true, Bool.or_self, Bool.false_eq_true, if_false, if_true] at hexec
  obtain ⟨hgo, -, hc⟩ := hturn
  cases htoken : tokenErr s (le c.entry 40 8) d with
  | some e =>
    obtain ⟨st, x⟩ := e
    rw [htoken] at hexec
    exact ⟨_, hexec, fail_settled st x (getCmd_of_turn hgo) hc⟩
  | none =>
    rw [htoken] at hexec
    obtain ⟨honly, hended, htime, hunset, -, hlast, hsets⟩ := calendar_done c.fn (le_lt c.entry 40 8)
      (some (BitVec.ofNat 64 (le c.entry 40 8))) (getCmd_of_turn hgo) hc _ rfl
    exact ⟨_, hexec, honly, hended, htime, hunset, hlast, hsets⟩

theorem firstErr_require (ok : Bool) (st : Status) (d : Nat) (r : List Err) :
    firstErr (require ok st d :: r) = none ↔ ok = true ∧ firstErr r = none := by
  cases ok <;> simp [require, firstErr]

theorem tokenErr_none {s : State} {v : Nat} {d : Bytes} : tokenErr s v d = none ↔
    (∃ pk, ownerRoot s = some pk ∧ Config.verify (0x1003, 0, 0) pk [] (slice d 0 64) (slice d 64 4627) = true) ∧
    slice (slice d 0 64) 0 4 = [0x54, 0x43, 0x41, 0x4C] ∧ le (slice d 0 64) 4 4 = 0 ∧ le (slice d 0 64) 8 8 = v ∧
    allZero (slice (slice d 0 64) 56 8) = true ∧ le (slice d 0 64) 16 8 = s.time.epoch.toNat ∧
    slice (slice d 0 64) 24 32 = deviceId s ∧ ∀ l, s.time.lastToken = some l → l.toNat < v := by
  have hnil : firstErr [] = none := rfl
  simp only [tokenErr, firstErr_require, hnil, and_true, Option.any_eq_true, Option.all_eq_true, Bool.and_eq_true, beq_iff_eq,
    decide_eq_true_eq, and_assoc]

end Sys2Proof.Machine

namespace Sys2Proof.Proofs

open Sys2Proof.Machine Sys2Proof.Claims

/-- Settles O32, command by command, and the checks of a calendar token one by one. -/
theorem calendarEnvironmentAndMode : Obligations.CalendarEnvironmentAndMode := by
  unfold Obligations.CalendarEnvironmentAndMode
  exact ⟨fun s cid c d => ⟨environment_vcore, environment_board, fun i b => environment_head, recorderMark_marks, modeHold_holds, modeHold_held,
      modeResume_resumes, modeResume_refused⟩,
    fun s cid c => calendar_unsigned, fun s cid c d => calendar_signed, fun s v d => tokenErr_none⟩

end Sys2Proof.Proofs
end

section
/-!
PROOFS. INSTALL (O23): the commit of the seal epoch, the draws of the per-boot keys, and what each step keeps for the entry that ends Boot.
-/

namespace Sys2Proof.Machine

open Sys2Proof.Claims

/-! ### The copies of a record (R240, R241) -/

theorem Map.mem_of_get? {α : Type} {m : Map α} {x : Nat} {v : α} (h : Map.get? m x = some v) : (x, v) ∈ m := by
  induction m with
  | nil => cases h
  | cons e r ih =>
    obtain ⟨k, w⟩ := e
    unfold Map.get? at h
    split at h
    · rename_i hk
      injection h with h
      exact hk ▸ h ▸ List.mem_cons_self
    · exact List.mem_cons_of_mem _ (ih h)

theorem bestCopy_none {region record : Nat} {m : Map Copy} (h : bestCopy region record m = none) :
    ∀ e ∈ m, copyValid region record e.2 = false := by
  induction m with
  | nil => exact fun e he => nomatch he
  | cons e r ih =>
    obtain ⟨j, d⟩ := e
    unfold bestCopy at h
    cases hr : bestCopy region record r with
    | none =>
      rw [hr] at h
      dsimp only at h
      split at h
      · cases h
      · rename_i hd
        exact List.forall_mem_cons.mpr ⟨by simpa using hd, ih hr⟩
    | some b =>
      rw [hr] at h
      dsimp only at h
      split at h <;> cases h

/-- The best copy is a valid one, and none ranks above it. -/
theorem bestCopy_best {region record : Nat} {m : Map Copy} {i : Nat} {c : Copy} (h : bestCopy region record m = some (i, c)) :
    (i, c) ∈ m ∧ copyValid region record c = true ∧ ∀ e ∈ m, copyValid region record e.2 = true → copyRank e.2 ≤ copyRank c := by
  induction m generalizing i c with
  | nil => cases h
  | cons e r ih =>
    obtain ⟨j, d⟩ := e
    unfold bestCopy at h
    cases hr : bestCopy region record r with
    | none =>
      rw [hr] at h
      dsimp only at h
      split at h
      · rename_i hd
        cases h
        refine ⟨List.mem_cons_self, hd, List.forall_mem_cons.mpr ⟨fun _ => le_refl _, fun e he hvalid => ?_⟩⟩
        rw [bestCopy_none hr e he] at hvalid
        cases hvalid
      · cases h
    | some b =>
      obtain ⟨k, f⟩ := b
      obtain ⟨hmem, hvalid, hmax⟩ := ih hr
      rw [hr] at h
      dsimp only at h
      split at h
      · rename_i hd
        simp only [Bool.and_eq_true, decide_eq_true_eq] at hd
        cases h
        exact ⟨List.mem_cons_self, hd.1, List.forall_mem_cons.mpr ⟨fun _ => le_refl _, fun e he hv => (hmax e he hv).trans hd.2⟩⟩
      · rename_i hd
        cases h
        simp only [Bool.and_eq_true, decide_eq_true_eq, not_and, Nat.not_le] at hd
        exact ⟨List.mem_cons_of_mem _ hmem, hvalid, List.forall_mem_cons.mpr ⟨fun hv => (hd hv).le, hmax⟩⟩

/-- A valid copy that ranks above every other is the best once it is put. -/
theorem bestCopy_put {region record : Nat} {m : Map Copy} (slot : Nat) {c : Copy} (hc : copyValid region record c = true)
    (habove : ∀ e ∈ m, copyValid region record e.2 = true → copyRank e.2 < copyRank c) :
    ∃ i, bestCopy region record (Map.put m slot c) = some (i, c) := by
  have hput : (slot, c) ∈ Map.put m slot c := Map.mem_of_get? (Map.get?_put_self ..)
  cases hbest : bestCopy region record (Map.put m slot c) with
  | none =>
    have hnot := bestCopy_none hbest _ hput
    rw [hc] at hnot
    cases hnot
  | some b =>
    obtain ⟨i, d⟩ := b
    obtain ⟨hmem, hvalid, hmax⟩ := bestCopy_best hbest
    rcases Map.mem_put _ _ _ _ hmem with heq | hold
    · exact ⟨i, by rw [(Prod.mk.inj heq).2]⟩
    · have hlow := habove _ hold hvalid
      have hhigh := hmax _ hput hc
      dsimp only at hlow hhigh
      omega

/-- Valid copies rank no higher than the record's value. -/
theorem rank_of_recVal {n : Nvm} {region record : Nat} {g : BitVec 24} {v : DWord} (h : recVal n region record = .value g v) :
    ∀ e ∈ copiesOf n region record, copyValid region record e.2 = true → copyRank e.2 ≤ g.toNat * 2 ^ 64 + v.toNat := by
  intro e he hvalid
  unfold recVal at h
  cases hbest : bestCopy region record (copiesOf n region record) with
  | none =>
    rw [bestCopy_none hbest e he] at hvalid
    cases hvalid
  | some b =>
    obtain ⟨i, c⟩ := b
    rw [hbest] at h
    injection h with hg hv
    rw [← hg, ← hv]
    exact (bestCopy_best hbest).2.2 e he hvalid

theorem newCopy_valid (region record : Nat) (g : BitVec 24) (v : DWord) :
    copyValid region record { value := v, gen := g, resv := 0, check := copyCheck region record v g 0, margin := true } = true := by
  simp [copyValid, copyBlank]

/-- A record put in order above its value reads as the new copy. -/
theorem recVal_putCopy {s : State} {region record : Nat} {g g' : BitVec 24} {v v' : DWord} (slot : Nat)
    (h : recVal s.nvm region record = .value g v) (habove : g.toNat * 2 ^ 64 + v.toNat < g'.toNat * 2 ^ 64 + v'.toNat) :
    recVal (putCopy s region record slot
      { value := v', gen := g', resv := 0, check := copyCheck region record v' g' 0, margin := true }).nvm region record = .value g' v' := by
  have hcopies : copiesOf (putCopy s region record slot
      { value := v', gen := g', resv := 0, check := copyCheck region record v' g' 0, margin := true }).nvm region record =
      Map.put (copiesOf s.nvm region record) slot
        { value := v', gen := g', resv := 0, check := copyCheck region record v' g' 0, margin := true } := by
    simp only [copiesOf, putCopy, Map.getD, Map.get?_put_self, Option.getD_some]
  obtain ⟨i, hbest⟩ := bestCopy_put (m := copiesOf s.nvm region record) slot (newCopy_valid region record g' v')
    fun e he hv => (rank_of_recVal h e he hv).trans_lt habove
  rw [recVal, hcopies, hbest]

/-! ### The seal epoch (R51, R245) -/

theorem wearWrite_recs (s : State) (r w k : Nat) : (wearWrite s r w k).1.nvm.recs = s.nvm.recs := by
  unfold wearWrite
  dsimp only
  split <;> rfl

theorem wearWrite_takes {s : State} {r k : Nat} (w : Nat) (h : RegionTakes s r k) : (wearWrite s r w k).2 = true := by
  obtain ⟨hworn, hspare⟩ := h
  unfold wearWrite
  dsimp only
  rw [hworn, if_neg Bool.false_ne_true]
  exact decide_eq_true (by omega)

/-- A commit that the region takes, above the record's value. -/
theorem commitRec_takes {s : State} {region record k : Nat} {g g' : BitVec 24} {v v' : DWord} (htakes : RegionTakes s region k)
    (h : recVal s.nvm region record = .value g v) (habove : g.toNat * 2 ^ 64 + v.toNat < g'.toNat * 2 ^ 64 + v'.toNat) :
    (commitRec s region record g' v' k).2 = true ∧ recVal (commitRec s region record g' v' k).1.nvm region record = .value g' v' := by
  have hok := wearWrite_takes 2 htakes
  have hrecs := wearWrite_recs s region 2 k
  unfold commitRec
  generalize wearWrite s region 2 k = r at hok hrecs ⊢
  obtain ⟨s1, ok⟩ := r
  dsimp only at hok hrecs
  subst hok
  have hval : recVal s1.nvm region record = .value g v := by rw [← h]; unfold recVal copiesOf; rw [hrecs]
  exact ⟨rfl, recVal_putCopy _ hval habove⟩

theorem commitRec_only (s : State) (region record : Nat) (g : BitVec 24) (v : DWord) (k : Nat) :
    Only s (commitRec s region record g v k).1 [.nvm] :=
  only_of_keeps (commitRec_keeps s region record g v k) fun x p hp => by
    cases p
    case nvm => simp at hp
    all_goals rfl

theorem toNat_succ {v : DWord} (h : v ≠ BitVec.allOnes 64) : (v + 1).toNat = v.toNat + 1 := by
  have hne : v.toNat ≠ (BitVec.allOnes 64).toNat := fun he => h (BitVec.eq_of_toNat_eq he)
  have hall : (BitVec.allOnes 64).toNat = 2 ^ 64 - 1 := BitVec.toNat_allOnes
  have hone : (1 : DWord).toNat = 1 := rfl
  have hlt := v.isLt
  rw [BitVec.toNat_add, hone]
  omega

/-- The seal epoch is raised by one where its region takes the commit. -/
theorem raiseEpoch_raises {s : State} {fails : Nat} {g : BitVec 24} {v : DWord} (hval : recVal s.nvm 5 0 = .value g v)
    (hv : v ≠ BitVec.allOnes 64) (htakes : RegionTakes s 5 fails) :
    ∃ t, raiseEpoch s fails = (t, true) ∧ Only s t [.nvm, .time] ∧ t.time = { s.time with epoch := v + 1 } ∧
      persistentKeys t = persistentKeys s ∧ recVal t.nvm 5 0 = .value g (v + 1) := by
  have hsucc := toNat_succ hv
  obtain ⟨hok, hrec⟩ := commitRec_takes (g' := g) (v' := v + 1) htakes hval (by omega)
  have honly := commitRec_only s 5 0 g (v + 1) fails
  have hkeys := commitRec_persistent s 5 0 g (v + 1) fails
  have hraise : raiseEpoch s fails =
      match commitRec s 5 0 g (v + 1) fails with
      | (s1, true) => ({ s1 with time := { s1.time with epoch := v + 1 } }, true)
      | (s1, false) => (s1, false) := by
    unfold raiseEpoch
    rw [hval]
    exact if_neg hv
  rw [hraise]
  generalize commitRec s 5 0 g (v + 1) fails = r at hok hrec honly hkeys ⊢
  obtain ⟨s1, ok⟩ := r
  dsimp only at hok hrec honly hkeys
  subst hok
  have htime : s1.time = s.time := honly .time (by decide)
  exact ⟨{ s1 with time := { s1.time with epoch := v + 1 } }, rfl, only_union honly only_of_time (by decide) (by decide), by rw [htime], hkeys, hrec⟩

theorem raiseEpoch_corrupt {s : State} {fails : Nat} (h : recVal s.nvm 5 0 = .corrupt) : raiseEpoch s fails = (reportCorrupt s 5 0, false) := by
  rw [raiseEpoch, h]

/-! ### Draws (R353, R355) -/

theorem inst_of_drawsLeft {s : State} {n i : Nat} (h : DrawsLeft s n) (hi : i < 8) :
    ∃ e, s.rng.inst[i]? = some e ∧ e.2 + n ≤ 2 ^ s.rng.reseed := by
  obtain ⟨-, -, hinst⟩ := h
  have hany := hinst i hi
  cases he : s.rng.inst[i]? with
  | none => simp [he] at hany
  | some e => exact ⟨e, rfl, by simpa [he] using hany⟩

theorem nextInst_of_drawsLeft {s : State} {n : Nat} (h : DrawsLeft s (n + 1)) : ∃ i, nextInst s = some i ∧ i < 8 := by
  have hready : ∀ i, i < 8 → instReady s i = true := fun i hi => by
    obtain ⟨e, he, hle⟩ := inst_of_drawsLeft h hi
    have hlt : e.2 < 2 ^ s.rng.reseed := by omega
    rw [instReady, he]
    exact Bool.or_eq_true_iff.mpr (.inl (decide_eq_true hlt))
  cases hnext : nextInst s with
  | none =>
    have hnone := List.findSome?_eq_none_iff.mp hnext 0 (by decide)
    rw [if_pos (hready _ (Nat.mod_lt _ (by decide)))] at hnone
    cases hnone
  | some i =>
    obtain ⟨k, -, hk⟩ := List.exists_of_findSome?_eq_some hnext
    split at hk
    · injection hk with hk
      exact ⟨i, rfl, hk ▸ Nat.mod_lt _ (by decide)⟩
    · cases hk

/-- The generator after a call on an instance that leaves it in a state with a count. -/
def drawnFrom (s : State) (i : Nat) (e : Bytes × Nat) : State :=
  { s with rng := { s.rng with inst := s.rng.inst.set i e, next := (i + 1) % 8 } }

theorem drawnFrom_left {s : State} {n i : Nat} {e : Bytes × Nat} (h : DrawsLeft s (n + 1)) (hi : i < 8) (he : e.2 + n ≤ 2 ^ s.rng.reseed) :
    DrawsLeft (drawnFrom s i e) n := by
  refine ⟨h.1, h.2.1, fun j hj => ?_⟩
  have hset : (drawnFrom s i e).rng.inst[j]? = if i = j then some e else s.rng.inst[j]? := by
    obtain ⟨x, hx, -⟩ := inst_of_drawsLeft h hi
    have hlen : i < s.rng.inst.length := (List.getElem?_eq_some_iff.mp hx).1
    have hdef : (drawnFrom s i e).rng.inst = s.rng.inst.set i e := rfl
    rw [hdef, List.getElem?_set, if_pos hlen]
  rw [hset]
  split
  · exact decide_eq_true he
  · obtain ⟨x, hx, hle⟩ := inst_of_drawsLeft h hj
    have hone : x.2 + n ≤ 2 ^ s.rng.reseed := by omega
    rw [hx]
    exact decide_eq_true hone

/-- A draw is served while each instance is below its reseed count, and takes one off the draws that are left. -/
theorem draw_serves {s : State} {n : Nat} (k : Nat) (h : DrawsLeft s (n + 1)) (hmode : s.sys.mode ≠ .lockdown) :
    ∃ b t, draw s k = some (b, t) ∧ b.length = k ∧ DrawsLeft t n := by
  obtain ⟨i, hnext, hi⟩ := nextInst_of_drawsLeft h
  obtain ⟨⟨st, c⟩, hinst, hle⟩ := inst_of_drawsLeft h hi
  dsimp only at hle
  have hserves : serves s = true := by simp [serves, h.1, h.2.1, hmode]
  have hbelow : ¬2 ^ s.rng.reseed ≤ c := by omega
  have hgen : generateOn s i k false = (padTo k (Config.drbgGenerate st k).1, drawnFrom s i ((Config.drbgGenerate st k).2, c + 1)) := by
    simp [generateOn, hinst, hbelow, drawnFrom]
  have hdraw : draw s k = some (padTo k (Config.drbgGenerate st k).1, drawnFrom s i ((Config.drbgGenerate st k).2, c + 1)) := by
    rw [draw, if_pos hserves, hnext, Option.map_some, hgen]
  have hafter : c + 1 + n ≤ 2 ^ s.rng.reseed := by omega
  exact ⟨_, _, hdraw, padTo_length .., drawnFrom_left h hi hafter⟩

theorem withDraw_serves {s : State} {n : Nat} (k : Nat) (hk : k ≠ 0) (h : DrawsLeft s (n + 1)) (hmode : s.sys.mode ≠ .lockdown) :
    ∃ b t, (∀ f, withDraw s k f = f b t) ∧ b.length = k ∧ DrawsLeft t n ∧ hideRng t = hideRng s := by
  obtain ⟨b, t, hdraw, hlen, hleft⟩ := draw_serves k h hmode
  refine ⟨b, t, fun f => ?_, hlen, hleft, draw_keeps s k _ hdraw⟩
  rw [withDraw, if_neg hk, hdraw]
  rfl

theorem only_of_rng {s t : State} (h : hideRng t = hideRng s) : Only s t [.rng] :=
  only_of_keeps h fun x p hp => by
    cases p
    case rng => simp at hp
    all_goals rfl

/-- The per-boot keys are drawn where the generator has six draws left (R267, R277). -/
theorem installKeys_draws {s : State} (h : DrawsLeft s 6) (hmode : s.sys.mode ≠ .lockdown) :
    ∃ u, installKeys s = some u ∧ Only s u [.rng, .bkeys] ∧ u.bkeys.xts.length = 64 ∧ u.bkeys.mac.length = 32 ∧
      u.bkeys.maskA.length = 32 ∧ u.bkeys.maskB.length = 32 ∧ u.bkeys.scramble.length = 32 ∧ u.bkeys.nonce.length = 32 := by
  have hgo : ∀ {t u : State}, hideRng u = hideRng t → t.sys.mode ≠ .lockdown → u.sys.mode ≠ .lockdown := fun hr hm => by
    have hsys := only_of_rng hr .sys (by decide)
    exact fun hu => hm ((congrArg Sys.mode hsys).symm.trans hu)
  obtain ⟨xts, s1, hxts, lxts, h1, r1⟩ := withDraw_serves 64 (by decide) h hmode
  have m1 := hgo r1 hmode
  obtain ⟨mac, s2, hmac, lmac, h2, r2⟩ := withDraw_serves 32 (by decide) h1 m1
  have m2 := hgo r2 m1
  obtain ⟨maskA, s3, hmaskA, lmaskA, h3, r3⟩ := withDraw_serves 32 (by decide) h2 m2
  have m3 := hgo r3 m2
  obtain ⟨maskB, s4, hmaskB, lmaskB, h4, r4⟩ := withDraw_serves 32 (by decide) h3 m3
  have m4 := hgo r4 m3
  obtain ⟨scr, s5, hscr, lscr, h5, r5⟩ := withDraw_serves 32 (by decide) h4 m4
  have m5 := hgo r5 m4
  obtain ⟨nonce, s6, hnonce, lnonce, -, r6⟩ := withDraw_serves 32 (by decide) h5 m5
  have hrng : Only s s6 [.rng] := only_of_rng (r6.trans (r5.trans (r4.trans (r3.trans (r2.trans r1)))))
  refine ⟨{ s6 with bkeys := { xts, mac, maskA, maskB, scramble := scr, storage := _, nonce } },
    by rw [installKeys, hxts, hmac, hmaskA, hmaskB, hscr, hnonce], only_union hrng (qs := [.bkeys]) (fun p hp => ?_) (by decide) (by decide),
    lxts, lmac, lmaskA, lmaskB, lscr, lnonce⟩
  cases p
  case bkeys => simp at hp
  all_goals rfl

/-! ### The persistent records (R276 to R278) -/

theorem persistFail_only (s : State) (which tree : Nat) : Only s (persistFail s which tree) [.alarm, .recorder] :=
  only_union (only_of_recorder (record_keeps s 0x1005 which (leBytes 2 tree))) (only_of_alarms (alarmEvent_keeps ..)) (by decide) (by decide)

theorem reportBad_only (s : State) (p : Persist) (which : Nat) : Only s (if persistBad p then persistFail s which 0 else s) [.alarm, .recorder] := by
  split
  · exact persistFail_only s which 0
  · exact only_refl

/-- NVM without the trees' records. -/
def besideTrees (s : State) : Nvm := { s.nvm with trees := [] }

theorem nvm_of_only {s t : State} {ps : List Part} (h : Only s t ps) (huser : Part.user ∉ ps) (hnvm : Part.nvm ∉ ps) : t.nvm = s.nvm := by
  have hu : t.nvm.user = s.nvm.user := h .user huser
  have hn : { t.nvm with user := s.nvm.user } = s.nvm := h .nvm hnvm
  rw [← hn, ← hu]

theorem reportPersist_only (s : State) : Only s (reportPersist s) [.alarm, .recorder, .nvm] ∧ besideTrees (reportPersist s) = besideTrees s := by
  obtain ⟨s1, hs1⟩ : ∃ s1, s1 = if persistBad s.nvm.identity then persistFail s 1 0 else s := ⟨_, rfl⟩
  obtain ⟨s2, hs2⟩ : ∃ s2, s2 = if persistBad s.nvm.ownerRoot then persistFail s1 2 0 else s1 := ⟨_, rfl⟩
  obtain ⟨s3, hs3⟩ : ∃ s3, s3 = if persistBad s.nvm.swk then persistFail s2 3 0 else s2 := ⟨_, rfl⟩
  have hbad : Only s s3 [.alarm, .recorder] :=
    only_trans (hs1 ▸ reportBad_only s _ 1) (only_trans (hs2 ▸ reportBad_only s1 _ 2) (hs3 ▸ reportBad_only s2 _ 3))
  have htrees : Only s3 (checkTrees s3) [.nvm] := fun p hp => by
    cases p
    case nvm => simp at hp
    all_goals rfl
  have hfold : Only (checkTrees s3) (((checkTrees s3).nvm.trees.filter fun e => !e.2.authentic).foldl (fun t e => persistFail t 4 e.1) (checkTrees s3))
      [.alarm, .recorder] := foldl_only (f := fun t (e : Nat × TreeRec) => persistFail t 4 e.1) (fun t e => persistFail_only t 4 e.1) _ _
  have hdef : reportPersist s =
      ((checkTrees s3).nvm.trees.filter fun e => !e.2.authentic).foldl (fun t e => persistFail t 4 e.1) (checkTrees s3) := by
    rw [hs3, hs2, hs1]
    rfl
  rw [hdef]
  refine ⟨only_union (only_union hbad htrees (rs := [.alarm, .recorder, .nvm]) (by decide) (by decide)) hfold (by decide) (by decide), ?_⟩
  have hkept : besideTrees (checkTrees s3) = besideTrees s3 := rfl
  rw [besideTrees, nvm_of_only hfold (by decide) (by decide)]
  exact hkept.trans (by rw [besideTrees, nvm_of_only hbad (by decide) (by decide), besideTrees])

/-! ### The last steps of INSTALL (R47, R57, R250, R300, R368) -/

theorem only_of_report {s t : State} (h : hideReport t = hideReport s) : Only s t [.alarm, .recorder, .keys] :=
  only_of_keeps h fun x p hp => by
    cases p
    case alarm | recorder | keys => simp at hp
    all_goals rfl

theorem readReservation_only (s : State) (t : Nat) : Only s (readReservation s t) [.alarm, .recorder, .keys] := by
  unfold readReservation
  split
  · exact only_of_report (reportCorrupt_report ..)
  · exact only_refl

theorem drawMasks_only (s : State) (n : Nat) : Only s ((drawMasks n s).getD ([], s)).2 [.rng] := by
  cases h : drawMasks n s with
  | none => exact only_refl
  | some r => exact only_of_rng (drawMasks_keeps n s r h)

theorem putKey_only (s : State) (g : Nat) (k : Key) : Only s (putKey s g k) [.stamp, .keys] := fun p hp => by
  cases p
  case stamp | keys => simp at hp
  all_goals rfl

theorem installTrees_only (s : State) : Only s (installTrees s) [.alarm, .recorder, .keys, .rng, .stamp] := by
  have hread := foldl_only readReservation_only (s.nvm.trees.map (·.1)) s
  have hput : ∀ (t : State) (e : Nat × TreeRec), Only t (let m := (drawMasks 1 t).getD ([], t)
      putKey m.2 (Config.treeBase + e.1) (Key.granuled (treeKeyOf t e.1 e.2) m.1)) [.alarm, .recorder, .keys, .rng, .stamp] := fun t e =>
    only_union (drawMasks_only t 1) (putKey_only _ _ _) (by decide) (by decide)
  exact only_trans (only_mono hread (by decide)) (foldl_only hput _ _)

theorem anchorCalendar_only (s : State) : Only s (anchorCalendar s) [.time] := by
  unfold anchorCalendar
  split
  · exact only_refl
  · exact only_of_time

theorem commitVersion_only (s : State) : Only s (commitVersion s) [.otp, .boot] := by
  unfold commitVersion
  split
  · intro p hp
    cases p
    case otp | boot => simp at hp
    all_goals rfl
  · exact only_refl

theorem takeDigest_only (s : State) : Only s (takeDigest s) [.boot] := only_of_boot

theorem installPlans_only (s : State) : Only s (installPlans s) [.eng] := only_of_eng

/-- What INSTALL does once its keys are drawn, up to the mode. -/
def installEnd (s : State) : State := takeDigest (installPlans (installTrees (commitVersion (noteTimeLost (anchorCalendar s)))))

/-- What the last steps may change. -/
abbrev endParts : List Part := [.time, .recorder, .otp, .boot, .alarm, .keys, .rng, .stamp, .eng]

theorem afterCalendar_only (s : State) : Only (noteTimeLost (anchorCalendar s)) (installEnd s) [.otp, .boot, .recorder, .alarm, .keys, .rng, .stamp, .eng] :=
  only_union (commitVersion_only _) (only_union (installTrees_only _) (only_union (installPlans_only _) (takeDigest_only _)
    (rs := [.eng, .boot]) (by decide) (by decide)) (rs := [.boot, .recorder, .alarm, .keys, .rng, .stamp, .eng]) (by decide) (by decide))
    (by decide) (by decide)

theorem installEnd_only (s : State) : Only s (installEnd s) endParts :=
  only_union (only_union (anchorCalendar_only s) (noteTimeLost_only _) (rs := [.time, .recorder]) (by decide) (by decide)) (afterCalendar_only s)
    (by decide) (by decide)

theorem commitVersion_store (s : State) : (commitVersion s).boot.store = s.boot.store := by
  unfold commitVersion
  split <;> rfl

theorem takeDigest_digest (s : State) : (takeDigest s).boot.digest = storeDigest s.boot.store := rfl

/-- The digest is that of the control store as the image left it (R368). -/
theorem installEnd_digest (s : State) : (installEnd s).boot.digest = storeDigest s.boot.store := by
  obtain ⟨t, ht⟩ : ∃ t, t = commitVersion (noteTimeLost (anchorCalendar s)) := ⟨_, rfl⟩
  have hbefore : (noteTimeLost (anchorCalendar s)).boot = s.boot :=
    only_union (anchorCalendar_only s) (noteTimeLost_only _) (rs := [.time, .recorder]) (by decide) (by decide) .boot (by decide)
  have hstore : t.boot.store = s.boot.store := by rw [ht, commitVersion_store, hbefore]
  have hafter : (installPlans (installTrees t)).boot = t.boot :=
    only_union (installTrees_only t) (installPlans_only _) (rs := [.alarm, .recorder, .keys, .rng, .stamp, .eng]) (by decide) (by decide)
      .boot (by decide)
  rw [installEnd, ← ht, takeDigest_digest, hafter, hstore]

/-- The calendar's anchor and the seal epoch. -/
structure Anchored (t : TimeSt) (sec : BitVec 40) (frac : BitVec 15) (tick epoch : DWord) : Prop where
  anchored : t.anchored = true
  sec : t.anchorSec = sec
  frac : t.anchorFrac = frac
  tick : t.anchorTick = tick
  epoch : t.epoch = epoch

theorem noteTimeLost_anchored {s : State} {sec : BitVec 40} {frac : BitVec 15} {tick epoch : DWord} (h : Anchored s.time sec frac tick epoch) :
    Anchored (noteTimeLost s).time sec frac tick epoch := by
  have hrec : ∀ (t : State) (p : Bytes), (record t 0x1009 0 p).time = t.time := fun t p => only_of_recorder (record_keeps ..) .time (by decide)
  unfold noteTimeLost
  split
  · rw [hrec]
    exact ⟨h.anchored, h.sec, h.frac, h.tick, h.epoch⟩
  · exact h

/-- The calendar at the end of INSTALL is the one its anchor gave. -/
theorem installEnd_anchored {s : State} {sec : BitVec 40} {frac : BitVec 15} {tick epoch : DWord}
    (h : Anchored (anchorCalendar s).time sec frac tick epoch) : Anchored (installEnd s).time sec frac tick epoch := by
  have hkept : (installEnd s).time = (noteTimeLost (anchorCalendar s)).time := afterCalendar_only s .time (by decide)
  rw [hkept]
  exact noteTimeLost_anchored h

theorem anchorCalendar_held {s : State} (h : s.time.anchored = true) :
    Anchored (anchorCalendar s).time s.time.anchorSec s.time.anchorFrac s.time.anchorTick s.time.epoch := by
  have hkept : anchorCalendar s = s := if_pos h
  rw [hkept]
  exact ⟨h, rfl, rfl, rfl, rfl⟩

theorem anchorCalendar_taken {s : State} (h : s.time.anchored = false) :
    Anchored (anchorCalendar s).time s.backup.sec s.backup.frac s.sys.tick s.time.epoch := by
  have htaken : anchorCalendar s = { s with time := { s.time with
      anchorSec := s.backup.sec, anchorFrac := s.backup.frac, anchorTick := s.sys.tick, anchored := true } } := if_neg (by simp [h])
  rw [htaken]
  exact ⟨rfl, rfl, rfl, rfl, rfl⟩

/-! ### The end of Boot (R47, R386) -/

/-- The mode Boot ends in. -/
def bootEndMode (s : State) : Mode := if s.lc.state = .owned ∨ s.lc.state = .field then .service else .maintenance

/-- The state in which Boot has ended, before the held writes apply. -/
def bootEnded (s : State) : State :=
  { setMode s (bootEndMode s) 1 with eng := { (setMode s (bootEndMode s) 1).eng with walking := true, slot := 0 } }

theorem bootEnded_mode (s : State) : (bootEnded s).sys.mode = bootEndMode s := rfl

theorem bootEnded_prev (s : State) : (bootEnded s).sys.prev = s.sys.mode := rfl

theorem bootEnded_cause (s : State) : (bootEnded s).sys.cause = 1 := rfl

theorem bootEnded_eng (s : State) : (bootEnded s).eng.walking = true ∧ (bootEnded s).eng.slot = 0 := ⟨rfl, rfl⟩

theorem bootEnded_only (s : State) : Only s (bootEnded s) [.sys, .eng] := fun p hp => by
  cases p
  case sys | eng => simp at hp
  all_goals rfl

theorem enterService_enters {s : State} (h : opposed s (if s.lc.state = .owned ∨ s.lc.state = .field then 5 else 6) = false) :
    enterService s = recordMode (recordBoot ((((bootEnded s).fns.filter fun e => e.2.flr != .cleanup).map (·.1)).foldl applyHeld (bootEnded s))) := by
  have hnext : (if s.lc.state == .owned || s.lc.state == .field then Mode.service else Mode.maintenance) = bootEndMode s := by
    simp only [bootEndMode, Bool.or_eq_true, beq_iff_eq]
  have hrow : transRow .boot (bootEndMode s) = if s.lc.state = .owned ∨ s.lc.state = .field then 5 else 6 := by
    unfold bootEndMode
    split <;> rfl
  unfold enterService
  dsimp only
  rw [hnext, hrow, h]
  exact if_neg Bool.false_ne_true

/-- INSTALL with its records in place and its draws served. -/
theorem install_ends {s t u : State} {fails : List Nat} (hraise : raiseEpoch s (fails.getD 0 0) = (t, true))
    (hpresent : recordsPresent (reportPersist t) = true) (hidentity : (reportPersist t).nvm.identity ≠ .blank)
    (hswk : (reportPersist t).nvm.swk ≠ .blank) (hkeys : installKeys (reportPersist t) = some u) :
    install s fails = some (enterService (installEnd u)) := by
  have hid : installIdentity (reportPersist t) (fails.getD 1 0) = some (reportPersist t) := by
    rw [installIdentity]
    exact if_neg (by simp [hidentity])
  have hsw : installSwk (reportPersist t) (fails.getD 2 0) = some (reportPersist t) := if_neg hswk
  unfold install
  rw [hraise]
  dsimp only
  rw [hpresent, hid, Option.bind_some, hsw, Option.bind_some, hkeys]
  rfl

theorem install_runs {s w : State} {fails : List Nat} (hphase : inPhase s 7 = true) (hready : s.time.anchored = true ∨ s.backup.stopped = true)
    (h : install s fails = some w) : exec (.install fails) s = .next w := by
  have hgo : (inPhase s 7 && (s.time.anchored || s.backup.stopped)) = true := by simpa [hphase] using hready
  simp only [exec, execInstall, hgo, if_true, h, Option.getD_some]

theorem recVal_of_recs {n m : Nvm} (h : m.recs = n.recs) (region record : Nat) : recVal m region record = recVal n region record := by
  unfold recVal copiesOf
  rw [h]

theorem recordsPresent_of {s : State}
    (h : s.lc.state = .owned ∨ s.lc.state = .field → identityRec s ≠ none ∧ ownerRoot s ≠ none) : recordsPresent s = true := by
  by_cases hlc : s.lc.state = .owned ∨ s.lc.state = .field
  · obtain ⟨hid, hroot⟩ := h hlc
    simp [recordsPresent, Option.isSome_iff_ne_none, hid, hroot]
  · obtain ⟨howned, hfield⟩ := not_or.mp hlc
    simp [recordsPresent, howned, hfield]

/-- The persistent records as INSTALL's report leaves them, after the epoch's commit. -/
theorem persist_kept {s t : State} (h : persistentKeys t = persistentKeys s) :
    (reportPersist t).nvm.identity = s.nvm.identity ∧ (reportPersist t).nvm.ownerRoot = s.nvm.ownerRoot ∧
      (reportPersist t).nvm.swk = s.nvm.swk ∧ (reportPersist t).nvm.recs = t.nvm.recs := by
  have hbeside := (reportPersist_only t).2
  exact ⟨(congrArg Nvm.identity hbeside :).trans (congrArg (·.1) h), (congrArg Nvm.ownerRoot hbeside :).trans (congrArg (·.2.1) h),
    (congrArg Nvm.swk hbeside :).trans (congrArg (·.2.2.1) h), (congrArg Nvm.recs hbeside :)⟩

theorem installEndsBoot_good {s : State} (fails : List Nat) (g : BitVec 24) (v : DWord) (hphase : inPhase s 7 = true)
    (hready : s.time.anchored = true ∨ s.backup.stopped = true)
    (hopp : opposed s (if s.lc.state = .owned ∨ s.lc.state = .field then 5 else 6) = false) (hresp : Instr.alarmSetResponse ∉ s.pending)
    (hval : recVal s.nvm 5 0 = .value g v) (hv : v ≠ BitVec.allOnes 64) (htakes : RegionTakes s 5 (fails.getD 0 0))
    (hidentity : s.nvm.identity ≠ .blank) (hswk : s.nvm.swk ≠ .blank)
    (hrecs : s.lc.state = .owned ∨ s.lc.state = .field → identityRec s ≠ none ∧ ownerRoot s ≠ none) (hleft : DrawsLeft s 6) :
    ∃ u : State, exec (.install fails) s =
        .next (recordMode (recordBoot (((u.fns.filter fun e => e.2.flr != .cleanup).map (·.1)).foldl applyHeld u))) ∧
      u.boot.digest = storeDigest s.boot.store ∧
      u.sys.mode = (if s.lc.state = .owned ∨ s.lc.state = .field then .service else .maintenance) ∧
      u.sys.prev = .boot ∧ u.sys.cause = 1 ∧ u.time.epoch = v + 1 ∧ recVal u.nvm 5 0 = .value g (v + 1) ∧
      u.time.anchored = true ∧
      (s.time.anchored = true → u.time.anchorSec = s.time.anchorSec ∧ u.time.anchorFrac = s.time.anchorFrac ∧
        u.time.anchorTick = s.time.anchorTick) ∧
      (s.time.anchored = false → u.time.anchorSec = s.backup.sec ∧ u.time.anchorFrac = s.backup.frac ∧ u.time.anchorTick = s.sys.tick) ∧
      u.bkeys.xts.length = 64 ∧ u.bkeys.mac.length = 32 ∧ u.bkeys.maskA.length = 32 ∧ u.bkeys.maskB.length = 32 ∧
      u.bkeys.scramble.length = 32 ∧ u.bkeys.nonce.length = 32 ∧
      u.eng.walking = true ∧ u.eng.slot = 0 ∧ u.nvm.user = s.nvm.user ∧ u.fns = s.fns := by
  have hmode : s.sys.mode = .boot := (inPhase_iff.mp hphase).1
  obtain ⟨t, hraise, honlyT, htime, hpersist, hrec⟩ := raiseEpoch_raises hval hv htakes
  obtain ⟨honlyR, -⟩ := reportPersist_only t
  obtain ⟨hid, hroot, hsw, hrecsR⟩ := persist_kept hpersist
  have hone : Only s (reportPersist t) [.nvm, .time, .alarm, .recorder] := only_union honlyT honlyR (by decide) (by decide)
  have hlcR : (reportPersist t).lc = s.lc := hone .lc (by decide)
  have hsysR : (reportPersist t).sys = s.sys := hone .sys (by decide)
  have hrngR : (reportPersist t).rng = s.rng := hone .rng (by decide)
  have hpresent : recordsPresent (reportPersist t) = true := by
    refine recordsPresent_of ?_
    rw [hlcR, identityRec, ownerRoot, hid, hroot]
    exact hrecs
  obtain ⟨w, hkeys, honlyW, hxts, hmac, hmaskA, hmaskB, hscr, hnonce⟩ :=
    installKeys_draws (s := reportPersist t) (by rw [DrawsLeft, hrngR]; exact hleft) (by rw [hsysR, hmode]; decide)
  have hinstall := install_ends hraise hpresent (hid ▸ hidentity) (hsw ▸ hswk) hkeys
  have htoW : Only s w [.nvm, .time, .alarm, .recorder, .rng, .bkeys] := only_union hone honlyW (by decide) (by decide)
  have hend := installEnd_only w
  have hall : Only s (installEnd w) (.nvm :: .bkeys :: endParts) := only_union htoW hend (by decide) (by decide)
  have hlc : (installEnd w).lc = s.lc := hall .lc (by decide)
  have hsys : (installEnd w).sys = s.sys := hall .sys (by decide)
  have hfns : (installEnd w).fns = s.fns := hall .fns (by decide)
  have hbkeys : (installEnd w).bkeys = w.bkeys := hend .bkeys (by decide)
  have hrecsE : (installEnd w).nvm.recs = t.nvm.recs := by
    rw [nvm_of_only hend (by decide) (by decide), nvm_of_only honlyW (by decide) (by decide), hrecsR]
  have htimeW : w.time = { s.time with epoch := v + 1 } := by
    rw [← htime]
    exact (honlyW .time (by decide) :).trans (honlyR .time (by decide))
  have hbackupW : w.backup = s.backup := htoW .backup (by decide)
  have hsysW : w.sys = s.sys := htoW .sys (by decide)
  have hoppE : opposed (installEnd w) (if (installEnd w).lc.state = .owned ∨ (installEnd w).lc.state = .field then 5 else 6) = false := by
    rw [hlc]
    exact (opposed_congr_inBoot hmode ((congrArg Sys.mode hsys).trans hmode) (congrArg Sys.moved hsys) (congrArg Sys.tick hsys)
      (hall .pending (by decide)) (.inr hresp)).trans hopp
  obtain ⟨hepoch, hanchored, hheld, htaken⟩ : (installEnd w).time.epoch = v + 1 ∧ (installEnd w).time.anchored = true ∧
      (s.time.anchored = true → (installEnd w).time.anchorSec = s.time.anchorSec ∧ (installEnd w).time.anchorFrac = s.time.anchorFrac ∧
        (installEnd w).time.anchorTick = s.time.anchorTick) ∧
      (s.time.anchored = false → (installEnd w).time.anchorSec = s.backup.sec ∧ (installEnd w).time.anchorFrac = s.backup.frac ∧
        (installEnd w).time.anchorTick = s.sys.tick) := by
    cases hwas : s.time.anchored with
    | true =>
      have h := installEnd_anchored (anchorCalendar_held (s := w) (by rw [htimeW]; exact hwas))
      rw [htimeW] at h
      exact ⟨h.epoch, h.anchored, fun _ => ⟨h.sec, h.frac, h.tick⟩, fun hno => nomatch hno⟩
    | false =>
      have h := installEnd_anchored (anchorCalendar_taken (s := w) (by rw [htimeW]; exact hwas))
      rw [htimeW, hbackupW, hsysW] at h
      refine ⟨h.epoch, h.anchored, ?_, fun _ => ⟨h.sec, h.frac, h.tick⟩⟩
      exact fun hno => nomatch hno
  have hbootW : w.boot = s.boot := htoW .boot (by decide)
  have hdigest : (installEnd w).boot.digest = storeDigest s.boot.store := hbootW ▸ installEnd_digest w
  generalize installEnd w = z at *
  have hfnsU : (bootEnded z).fns = s.fns := (bootEnded_only z .fns (by decide) :).trans hfns
  have huserU : (bootEnded z).nvm.user = s.nvm.user :=
    only_union hall (bootEnded_only z) (rs := .nvm :: .bkeys :: .sys :: endParts) (by decide) (by decide) .user (by decide)
  have hrecU : recVal (bootEnded z).nvm 5 0 = .value g (v + 1) := by
    rw [nvm_of_only (bootEnded_only z) (by decide) (by decide), recVal_of_recs hrecsE, hrec]
  have hprev : (bootEnded z).sys.prev = .boot := (bootEnded_prev z).trans ((congrArg Sys.mode hsys).trans hmode)
  have hbkeysU : (bootEnded z).bkeys = w.bkeys := (bootEnded_only z .bkeys (by decide) :).trans hbkeys
  have htimeU : (bootEnded z).time = z.time := bootEnded_only z .time (by decide)
  have hbootU : (bootEnded z).boot = z.boot := bootEnded_only z .boot (by decide)
  obtain ⟨hwalking, hslot⟩ := bootEnded_eng z
  have hexec := install_runs hphase hready (hinstall.trans (congrArg some (enterService_enters hoppE)))
  have hmodeU : (bootEnded z).sys.mode = if s.lc.state = .owned ∨ s.lc.state = .field then .service else .maintenance := by
    rw [bootEnded_mode, bootEndMode, hlc]
  have hcause := bootEnded_cause z
  generalize bootEnded z = u at *
  refine ⟨u, hexec, ?_, hmodeU, hprev, hcause, ?_, hrecU, ?_, ?_, ?_, ?_, ?_, ?_, ?_, ?_, ?_, hwalking, hslot, huserU, hfnsU⟩
  case refine_1 => rw [hbootU, hdigest]
  case refine_2 | refine_3 | refine_4 | refine_5 => rw [htimeU]; assumption
  all_goals rw [hbkeysU]; assumption

theorem installEndsBoot_corrupt {s : State} (fails : List Nat) (hphase : inPhase s 7 = true)
    (hready : s.time.anchored = true ∨ s.backup.stopped = true) (hopp : opposed s 8 = false) (hval : recVal s.nvm 5 0 = .corrupt) :
    Completes (.install fails) s fun t => t.sys.mode = .lockdown ∧ t.sys.cause = 0xB ∧ t.boot.error = 0x21 := by
  have hmode : s.sys.mode = .boot := (inPhase_iff.mp hphase).1
  have hinstall : install s fails = some (bootFail (reportCorrupt s 5 0) 0x21) := by rw [install, raiseEpoch_corrupt hval]
  have honly := only_of_report (reportCorrupt_report s 5 0)
  have hsys : (reportCorrupt s 5 0).sys = s.sys := honly .sys (by decide)
  have hsame : opposed (reportCorrupt s 5 0) 8 = opposed s 8 := opposed_congr_inBoot hmode ((congrArg Sys.mode hsys).trans hmode)
    (congrArg Sys.moved hsys) (congrArg Sys.tick hsys) (honly .pending (by decide)) (.inl (le_refl 8))
  exact ⟨_, install_runs hphase hready hinstall, bootFail_lockdown 0x21 (hsame.trans hopp)⟩

end Sys2Proof.Machine

namespace Sys2Proof.Proofs

open Sys2Proof.Machine Sys2Proof.Claims

/-- Settles O23: the epoch's commit, the draws and the entry that ends Boot; the corrupt epoch; and the wait for an edge. -/
theorem installEndsBoot : Obligations.InstallEndsBoot := by
  unfold Obligations.InstallEndsBoot
  refine ⟨fun s => installEndsBoot_good, fun s => installEndsBoot_corrupt, fun s fails _ hanchored hstopped => ?_⟩
  simp [exec, execInstall, hanchored, hstopped]

end Sys2Proof.Proofs
end

section
/-!
PROOFS. The arithmetic of ring indices (R70, O24): the count of entries is the difference of the indices modulo 2n, so a step of the
tail or of the head moves it by one until it wraps.
-/

namespace Sys2Proof.Machine

/-! ### Counts (R70) -/

/-- The count of entries, without the wrap of the indices. -/
theorem ringCount_eq {tail head n : Nat} (ht : tail < 2 * n) (hh : head < 2 * n) :
    ringCount tail head n = if head ≤ tail then tail - head else tail + 2 * n - head := by
  unfold ringCount
  split
  · rw [show tail + 2 * n - head = tail - head + 2 * n by omega, Nat.add_mod_right, Nat.mod_eq_of_lt (by omega)]
  · exact Nat.mod_eq_of_lt (by omega)

theorem ringCount_int {tail head n : Nat} (hh : head < 2 * n) :
    (ringCount tail head n : Int) = ((tail : Int) - head) % (2 * n) := by
  have hcast : ((tail + 2 * n - head : Nat) : Int) = (tail : Int) - head + 2 * n := by omega
  rw [ringCount, Int.natCast_emod, hcast, Nat.cast_mul, Nat.cast_ofNat, Int.add_emod_right]

/-! ### Steps (R70) -/

theorem ringNext_lt (i : Nat) {n : Nat} (hn : 0 < n) : ringNext i n < 2 * n := Nat.mod_lt _ (by omega)

/-- The next index, without the modulus. -/
theorem ringNext_eq {i n : Nat} (hi : i < 2 * n) : ringNext i n = if i + 1 = 2 * n then 0 else i + 1 := by
  unfold ringNext
  split
  · rename_i h
    rw [h, Nat.mod_self]
  · exact Nat.mod_eq_of_lt (by omega)

theorem ringCount_ringNext_tail {tail head n : Nat} (hn : 0 < n) (ht : tail < 2 * n) (hh : head < 2 * n)
    (hroom : ringCount tail head n < n) : ringCount (ringNext tail n) head n = ringCount tail head n + 1 := by
  rw [ringCount_eq (ringNext_lt tail hn) hh, ringNext_eq ht]
  rw [ringCount_eq ht hh] at hroom ⊢
  split at hroom <;> split <;> split <;> omega

theorem ringCount_ringNext_head {tail head n : Nat} (hn : 0 < n) (ht : tail < 2 * n) (hh : head < 2 * n)
    (hsome : 0 < ringCount tail head n) : ringCount tail (ringNext head n) n = ringCount tail head n - 1 := by
  rw [ringCount_eq ht (ringNext_lt head hn), ringNext_eq hh]
  rw [ringCount_eq ht hh] at hsome ⊢
  split at hsome <;> split <;> split <;> omega

/-! ### Validity and phase (R70) -/

theorem ringValid_iff {tail n : Nat} (head : Nat) (ht : tail < 2 * n) : ringValid tail head n = true ↔ ringCount tail head n ≤ n := by
  simp [ringValid, ht]

theorem ringPhase_eq {i n : Nat} (hi : i < 2 * n) : ringPhase i n = if i < n then 1 else 0 := by
  unfold ringPhase
  split
  · rename_i h
    rw [Nat.div_eq_of_lt h]
  · rw [Nat.div_eq_of_lt_le (k := 1) (by omega) (by omega)]

/-- The phase changes from one pass over a slot to the next. -/
theorem ringPhase_half {i n : Nat} (hn : 0 < n) (hi : i < 2 * n) : ringPhase ((i + n) % (2 * n)) n = 1 - ringPhase i n := by
  rw [ringPhase_eq (Nat.mod_lt _ (by omega)), ringPhase_eq hi]
  by_cases h : i < n
  · rw [Nat.mod_eq_of_lt (by omega), if_neg (by omega), if_pos h]
  · rw [Nat.mod_eq_sub_mod (by omega), Nat.mod_eq_of_lt (by omega), if_pos (by omega), if_neg h]

end Sys2Proof.Machine

namespace Sys2Proof.Proofs

open Sys2Proof.Machine

/-- Settles O24, from the counts and phases without their moduli. -/
theorem ringIndexArithmetic : Obligations.RingIndexArithmetic := by
  unfold Obligations.RingIndexArithmetic
  intro tail head n hn ht hh
  have hstep := ringCount_ringNext_tail hn ht hh
  refine ⟨ringCount_int hh, ?_, ringValid_iff head ht, rfl, ringPhase_eq ht, ringNext_lt tail hn, fun hroom => ⟨hstep hroom, ?_⟩,
    ringCount_ringNext_head hn ht hh, ringPhase_half hn ht⟩
  · rw [ringCount_eq ht hh]
    split <;> omega
  · rw [ringValid_iff head (ringNext_lt tail hn), hstep hroom]
    exact hroom

end Sys2Proof.Proofs
end

section
/-!
PROOFS. A command's number that another one bears. What acts on a command by its number acts on the first that bears it: the input read of
a function's own command then goes out as an IN_PULL of a peer's, and the start of an accepted entry acts on an older command. Three
statements fail there (O25, O26, O27): their frames are those of numbers that differ, and they are about every state, reached or not.
-/

namespace Sys2Proof.Machine

open Sys2Proof.Claims

/-! ### Answers that are no longer wanted (R99, R433) -/

theorem lineBack_of_late {s : State} {fn qid : Nat} {cq : Bool} {f : State → State} {e : Nat × Nat} (hserving : serving s = true)
    (hlate : lateRead s fn (b2n cq) qid = some e) : lineBack s fn qid cq f = dropLate s fn e := by
  simp [lineBack, hserving, hlate]

theorem sqDoorbellRead_of_late {s : State} {fn qid : Nat} {e : Nat × Nat} (line : Bytes) (hserving : serving s = true)
    (hlate : lateRead s fn 0 qid = some e) : exec (.sqDoorbellRead fn qid line) s = .next (dropLate s fn e) :=
  congrArg Host.Outcome.next (lineBack_of_late (cq := false) hserving hlate)

theorem entryReadDone_of_late {s : State} {fn qid : Nat} {e : Nat × Nat} (x : Option Bytes) (hserving : serving s = true)
    (hlate : lateRead s fn 2 qid = some e) : exec (.entryReadDone fn qid x) s = .next (dropLate s fn e) := by
  simp [exec, execEntryReadDone, hserving, hlate]

/-! ### The input read of a number that a peer's command bears first (R418) -/

/-- A command of function 0 that runs and waits for its input. -/
def awaitsInput : Cmd := { newCmd State.reset 0 0 0 (leBytes 2 0x0310) with phase := .run }

/-- The device in Service with two unwanted reads of SQ 1 outstanding, of its line and of its ring; number 0 stands for a command that a
peer has sent over link 0, which is retraining, and after it for one of function 0, both waiting for their input. -/
def twoBearers : State :=
  { State.reset with
    sys := { State.reset.sys with mode := .service },
    fns := [(0, { Fn.reset false true with late := [(0, 1), (2, 1)] })],
    sqs := [(1, Sq.fresh 0 16 0 .enabled)],
    cmds := [{ awaitsInput with origin := some (0, 0) }, awaitsInput],
    topo := { Topo.reset with links := Vector.replicate 8 { Link.reset with st := .retraining } } }

/-- The tag that comes free is for the own command's read; the peer's IN_PULL is held back on the link instead. -/
theorem dropLate_twoBearers : ∀ e ∈ (getFn twoBearers 0).late,
    (getLink (dropLate twoBearers 0 e) 0).back = [.inPull 0 0 0] := by decide +kernel

theorem dropLate_twoBearers_topo {e : Nat × Nat} (he : e ∈ (getFn twoBearers 0).late) :
    (dropLate twoBearers 0 e).topo ≠ twoBearers.topo := by
  intro htopo
  have hback := dropLate_twoBearers e he
  rw [getLink, htopo] at hback
  exact absurd hback (by decide)

/-! ### The start of a number that an older command bears (R90) -/

/-- The device in Service with an entry of SQ 1 ready, whose opcode is not assigned; the next number is that of a command whose input read
is outstanding. -/
def numberTaken : State :=
  { State.reset with
    sys := { State.reset.sys with mode := .service },
    fns := [(0, Fn.reset false true)],
    sqs := [(1, { Sq.fresh 0 16 0 .enabled with ready := [(0, [])] })],
    cmds := [{ newCmd State.reset 0 0 0 [] with phase := .run, asked := true }] }

/-- The start ends the older command, whose read is then unwanted. -/
theorem accept_numberTaken : ∃ t, exec (.accept 0 1 0) numberTaken = .next t ∧ (getFn t 0).late = [(3, 0)] :=
  ⟨_, rfl, by decide +kernel⟩

end Sys2Proof.Machine

namespace Sys2Proof.Proofs

open Sys2Proof.Machine Sys2Proof.Claims

/-- Refutes O25: the answer of an unwanted doorbell read frees a tag for the input read of a command, and where a peer's command bears the
same number first, an IN_PULL goes to a link, which the statement's frame keeps. -/
theorem not_pollingAndDoorbells : ¬ Obligations.PollingAndDoorbells := by
  unfold Obligations.PollingAndDoorbells
  rintro ⟨-, hlines⟩
  obtain ⟨-, -, -, hlate, -⟩ := hlines twoBearers 0 1 [] 0 rfl
  obtain ⟨t, ht, honly, -⟩ := hlate (0, 1) rfl rfl
  rw [sqDoorbellRead_of_late [] rfl (e := (0, 1)) rfl] at ht
  cases ht
  exact dropLate_twoBearers_topo (by decide) (honly .topo (by decide))

/-- Refutes O26: the same of the answer of an unwanted ring read. -/
theorem not_fetchesAndReads : ¬ Obligations.FetchesAndReads := by
  unfold Obligations.FetchesAndReads
  rintro ⟨hqueues, -⟩
  obtain ⟨-, -, -, -, hlate, -⟩ := hqueues twoBearers 0 1 (Sq.fresh 0 16 0 .enabled) (Cq.fresh 0 16 0 0) [] rfl rfl
  obtain ⟨t, ht, honly, -⟩ := hlate (2, 1) rfl none
  rw [entryReadDone_of_late none rfl (e := (2, 1)) rfl] at ht
  cases ht
  exact dropLate_twoBearers_topo (by decide) (honly .topo (by decide))

/-- Refutes O27: where an older command bears the number that the accepted one is given, its start ends the older one, and the function
keeps the tag of that one's input read as unwanted, where the statement keeps all functions. -/
theorem not_acceptTakesTheHead : ¬ Obligations.AcceptTakesTheHead := by
  unfold Obligations.AcceptTakesTheHead
  intro h
  obtain ⟨t, ht, honly, -⟩ := h numberTaken 0 1 0 { Sq.fresh 0 16 0 .enabled with ready := [(0, [])] } 0 [] rfl rfl rfl rfl rfl rfl rfl rfl rfl
  obtain ⟨u, hu, hlate⟩ := accept_numberTaken
  obtain rfl : u = t := Host.Outcome.next.inj (hu.symm.trans ht)
  have hfns : u.fns = numberTaken.fns := honly .fns (by decide)
  have hkept : (getFn u 0).late = [] := by
    rw [getFn, hfns]
    rfl
  exact absurd (hlate.symm.trans hkept) (by decide)

end Sys2Proof.Proofs
end

section
/-!
PROOFS. What each operation on a queue changes, and what its queue reads as after it: a status line, the stop of an SQ, its enabling
(R77, R99, R100).
-/

namespace Sys2Proof.Machine

open Sys2Proof.Claims

/-! ### Frames of the updates -/

theorem putSq_only (s : State) (fn qid : Nat) (q : Sq) : Only s (putSq s fn qid q) [.sqs] := fun p hp => by
  cases p
  case sqs => simp at hp
  all_goals rfl

theorem putCq_only (s : State) (fn qid : Nat) (q : Cq) : Only s (putCq s fn qid q) [.cqs] := fun p hp => by
  cases p
  case cqs => simp at hp
  all_goals rfl

theorem modFn_only (s : State) (fn : Nat) (f : Fn → Fn) : Only s (modFn s fn f) [.fns] := fun p hp => by
  cases p
  case fns => simp at hp
  all_goals rfl

theorem only_of_sqs {s : State} {m : Map Sq} : Only s { s with sqs := m } [.sqs] := fun p hp => by
  cases p
  case sqs => simp at hp
  all_goals rfl

theorem only_of_cqs {s : State} {m : Map Cq} : Only s { s with cqs := m } [.cqs] := fun p hp => by
  cases p
  case cqs => simp at hp
  all_goals rfl

theorem statusLine_only (s : State) (fn qid : Nat) : Only s (statusLine s fn qid) [.sqs, .bus] := by
  unfold statusLine
  split
  · exact only_refl
  · split
    · exact only_union (putSq_only _ _ _ _) (emit_only _ _) (by decide) (by decide)
    · exact only_mono (putSq_only _ _ _ _) (by decide)

theorem unreserve_only (s : State) (fn cq n : Nat) : Only s (unreserve s fn cq n) [.cqs] := by
  unfold unreserve
  split
  · exact putCq_only _ _ _ _
  · exact only_refl

theorem dropReads_only (s : State) (fn qid : Nat) (q : Sq) : Only s (dropReads s fn qid q) [.fns] := modFn_only _ _ _

theorem stopSq_only (s : State) (fn qid : Nat) (st : SqState) (info : Word) :
    Only s (stopSq s fn qid st info) [.sqs, .cqs, .fns, .bus] := by
  unfold stopSq
  split
  · exact only_refl
  · rename_i q _
    have hput : Only s (putSq (dropReads s fn qid q) fn qid { discarded q with st := st, errInfo := info }) [.fns, .sqs] :=
      only_union (dropReads_only _ _ _ _) (putSq_only _ _ _ _) (by decide) (by decide)
    exact only_union (only_union hput (unreserve_only _ _ _ _) (rs := [.fns, .sqs, .cqs]) (by decide) (by decide)) (statusLine_only _ _ _)
      (by decide) (by decide)

theorem lastLine_only (s : State) (fn qid : Nat) : Only s (lastLine s fn qid) [.fns] := by
  unfold lastLine
  split
  · split
    · exact modFn_only _ _ _
    · exact only_refl
  · exact only_refl

theorem disableSq_only (s : State) (fn qid : Nat) : Only s (disableSq s fn qid) [.sqs, .cqs, .fns, .bus] := by
  unfold disableSq
  split
  · exact only_refl
  · split
    · exact stopSq_only _ _ _ _ _
    · exact only_refl

/-! ### A queue after an operation -/

theorem getSq_of_only {s t : State} {ps : List Part} (h : Only s t ps) (hsqs : Part.sqs ∉ ps) (hports : Part.ports ∉ ps) (fn qid : Nat) :
    getSq t fn qid = getSq s fn qid := by
  rw [getSq, getSq, fnExists, fnExists, getPort, getPort, h .sqs hsqs, h .ports hports]

theorem getCq_of_only {s t : State} {ps : List Part} (h : Only s t ps) (hcqs : Part.cqs ∉ ps) (hports : Part.ports ∉ ps) (fn qid : Nat) :
    getCq t fn qid = getCq s fn qid := by
  rw [getCq, getCq, fnExists, fnExists, getPort, getPort, h .cqs hcqs, h .ports hports]

/-- A status line leaves its SQ as it was, but for whether the line is still due. -/
theorem getSq_statusLine {s : State} {fn qid : Nat} {q : Sq} (h : getSq s fn qid = some q) :
    ∃ due, getSq (statusLine s fn qid) fn qid = some { q with lineDue := due } := by
  unfold statusLine
  rw [h]
  dsimp only
  split
  · exact ⟨false, (getSq_of_only (emit_only _ _) (by decide) (by decide) fn qid).trans (getSq_putSq_self ..)⟩
  · exact ⟨true, getSq_putSq_self ..⟩

/-- An SQ that stops has nothing fetched, and keeps its indices. -/
theorem getSq_stopSq {s : State} {fn qid : Nat} {q : Sq} (st : SqState) (info : Word) (h : getSq s fn qid = some q) :
    ∃ due, getSq (stopSq s fn qid st info) fn qid = some { discarded q with st := st, errInfo := info, lineDue := due } := by
  unfold stopSq
  rw [h]
  exact getSq_statusLine ((getSq_of_only (unreserve_only _ _ _ _) (by decide) (by decide) fn qid).trans (getSq_putSq_self ..))

/-- An SQ that is enabled starts to fetch at its published head, with the tail last read (R100, log 69). -/
theorem getSq_enableSq {s : State} {fn qid : Nat} {q : Sq} (hpower : (getFn s fn).power ≠ .draining) (h : getSq s fn qid = some q) :
    ∃ due, getSq (enableSq s fn qid) fn qid =
      some { discarded q with st := .enabled, fetch := q.head, errInfo := 0, lineDue := due } := by
  unfold enableSq
  rw [if_neg hpower, h]
  exact getSq_statusLine ((getSq_of_only (modFn_only _ _ _) (by decide) (by decide) fn qid).trans (getSq_putSq_self ..))

theorem enableSq_draining {s : State} {fn : Nat} (qid : Nat) (h : (getFn s fn).power = .draining) : enableSq s fn qid = s := by
  unfold enableSq
  rw [if_pos h]

theorem enableSq_only (s : State) (fn qid : Nat) : Only s (enableSq s fn qid) [.sqs, .fns, .bus] := by
  unfold enableSq
  split
  · exact only_refl
  · rename_i q _
    have hput : Only s (modFn (putSq s fn qid { discarded q with st := .enabled, fetch := q.head, errInfo := 0 }) fn
        fun x => { x with nextPass := s.sys.tick }) [.sqs, .fns] :=
      only_union (putSq_only _ _ _ _) (modFn_only _ _ _) (by decide) (by decide)
    exact only_union hput (statusLine_only _ _ _) (by decide) (by decide)

/-! ### The other SQs -/

theorem putSq_sqs_ne (s : State) {fn qid k : Nat} (q : Sq) (hk : k ≠ qKey fn qid) :
    Map.get? (putSq s fn qid q).sqs k = Map.get? s.sqs k := Map.get?_put_ne _ _ hk

theorem statusLine_sqs_ne (s : State) {fn qid k : Nat} (hk : k ≠ qKey fn qid) :
    Map.get? (statusLine s fn qid).sqs k = Map.get? s.sqs k := by
  unfold statusLine
  split
  · rfl
  · split <;> exact putSq_sqs_ne s _ hk

theorem stopSq_sqs_ne (s : State) {fn qid k : Nat} (st : SqState) (info : Word) (hk : k ≠ qKey fn qid) :
    Map.get? (stopSq s fn qid st info).sqs k = Map.get? s.sqs k := by
  unfold stopSq
  split
  · rfl
  · rw [statusLine_sqs_ne _ hk, (unreserve_only _ _ _ _) .sqs (by decide), putSq_sqs_ne _ _ hk]
    rfl

end Sys2Proof.Machine
end

section
/-!
PROOFS. The queue commands (O29): each one's checks and effect under a name, what passes them, and what there is of queues afterwards
(R106, R119 to R121).
-/

namespace Sys2Proof.Machine

open Sys2Proof.Claims

/-! ### A keeper command at its turn (R106) -/

theorem runTurn_fails {s : State} {cid op : Nat} {c : Cmd} {pre : Cmd → Err} {f : Cmd → State} {st : Status} {d : Nat}
    (h : turnOf s cid op = some c) (hpre : pre c = some (st, d)) : runTurn s cid op pre f = fail s cid st d := by
  rw [runTurn, h]
  dsimp only
  rw [hpre]

theorem runTurn_none {s : State} {cid op : Nat} {pre : Cmd → Err} {f : Cmd → State} (h : turnOf s cid op = none) :
    runTurn s cid op pre f = s := by
  rw [runTurn, h]

/-- A keeper command whose operand checks list no offset. -/
theorem keeperOperands_nil {c : Cmd} {bad : List Nat} (hres : reservedBad c.entry = []) (hbad : bad = []) : keeperOperands c bad = none := by
  rw [hbad, keeperOperands_none hres]

/-- An operand that holds its check lists no offset. -/
theorem need_nil (off : Nat) {ok : Bool} (h : ok = true) : need off ok = [] := if_pos h

/-! ### CREATE_SQ and CREATE_CQ (R119) -/

/-- The checks of CREATE_SQ. -/
def createSqChecks (s : State) (c : Cmd) : Err :=
  firstErr [
    keeperOperands c (need 40 (le c.entry 40 8 % 4096 == 0)
      ++ need 48 (decide (1 ≤ le c.entry 48 2) && decide (le c.entry 48 2 ≤ 4095) && !hasQueue s.sqs c.fn (le c.entry 48 2))
      ++ need 50 (decide (le c.entry 50 2 ≤ 4095) && hasQueue s.cqs c.fn (le c.entry 50 2)) ++ need 52 (ringSize (le c.entry 52 4))),
    require (decide (createdOf s.sqs c.fn < (getFn s c.fn).sqLim)) .busy 1,
    require (decide (createdAll s.sqs < Config.queueTotal)) .busy 2]

/-- The SQ that CREATE_SQ makes. -/
def createdSq (s : State) (c : Cmd) : Sq :=
  Sq.fresh (BitVec.ofNat 64 (le c.entry 40 8)) (le c.entry 52 4) (le c.entry 50 2)
    (if (getFn s c.fn).power = .draining then .disabled else .enabled)

theorem createSq_eq (s : State) (cid : Nat) :
    exec (.createSq cid) s = .next (runTurn s cid 0x01 (createSqChecks s) fun c =>
      done (statusLine (putSq s c.fn (le c.entry 48 2) (createdSq s c)) c.fn (le c.entry 48 2)) cid 0) := rfl

theorem createSq_creates {s : State} {cid : Nat} {c : Cmd} {n q : Nat} (hturn : Turn s cid 0x01 c) (hq : q = le c.entry 48 2)
    (hn : n = le c.entry 50 2) (hbase : le c.entry 40 8 % 4096 = 0) (hlo : 1 ≤ q) (hhi : q ≤ 4095) (hnew : hasQueue s.sqs c.fn q = false)
    (hcqhi : n ≤ 4095) (hcq : hasQueue s.cqs c.fn n = true) (hsize : ringSize (le c.entry 52 4) = true)
    (hlim : createdOf s.sqs c.fn < (getFn s c.fn).sqLim) (htotal : createdAll s.sqs < Config.queueTotal) :
    Completes (.createSq cid) s fun t => Only s t [.sqs, .bus, .cmds, .eng] ∧ Ended t cid .ok 0 [] ∧
      ∃ x, getSq t c.fn q = some x ∧ x.st = (if (getFn s c.fn).power = .draining then .disabled else .enabled) ∧
        x.base = BitVec.ofNat 64 (le c.entry 40 8) ∧ x.n = le c.entry 52 4 ∧ x.cq = n ∧ x.head = 0 ∧ x.tail = 0 ∧ x.opened = 0 := by
  subst hq hn
  obtain ⟨hgo, hres, hc⟩ := hturn
  have hpre : createSqChecks s c = none := by
    rw [createSqChecks, keeperOperands_nil hres (by simp [need, hbase, hlo, hhi, hnew, hcqhi, hcq, hsize])]
    simp [firstErr, require, hlim, htotal]
  have hexec := createSq_eq s cid
  rw [runTurn_of_turn hgo hpre] at hexec
  have hmade : Only s (statusLine (putSq s c.fn (le c.entry 48 2) (createdSq s c)) c.fn (le c.entry 48 2)) [.sqs, .bus] :=
    only_union (putSq_only _ _ _ _) (statusLine_only _ _ _) (by decide) (by decide)
  obtain ⟨honly, hend, hended⟩ := done_after hmade (by decide) (getCmd_of_turn hgo) hc
  obtain ⟨due, hsq⟩ := getSq_statusLine (getSq_putSq_self s c.fn (le c.entry 48 2) (createdSq s c))
  exact ⟨_, hexec, honly, hended, _, (getSq_of_only hend (by decide) (by decide) _ _).trans hsq, rfl, rfl, rfl, rfl, rfl, rfl, rfl⟩

/-- The allowance that CREATE_CQ asks for. -/
def askedAllowance (c : Cmd) : Nat := if le c.entry 56 2 = 0 then 64 else le c.entry 56 2

/-- The checks of CREATE_CQ. -/
def createCqChecks (s : State) (c : Cmd) : Err :=
  firstErr [
    keeperOperands c (need 40 (le c.entry 40 8 % 4096 == 0)
      ++ need 48 (decide (1 ≤ le c.entry 48 2) && decide (le c.entry 48 2 ≤ 4095) && !hasQueue s.cqs c.fn (le c.entry 48 2))
      ++ need 52 (ringSize (le c.entry 52 4))
      ++ need 56 (le c.entry 56 2 == 0 || (decide (16 ≤ le c.entry 56 2) && decide (le c.entry 56 2 ≤ 4096)))
      ++ need 58 (decide (le c.entry 58 2 < 2048))),
    require (decide (createdOf s.cqs c.fn < (getFn s c.fn).cqLim)) .busy 1,
    require (decide (createdAll s.cqs < Config.queueTotal)) .busy 2,
    require (decide (allowances s + askedAllowance c ≤ Config.wharfSlots)) .busy 3]

/-- The CQ that CREATE_CQ makes. -/
def createdCq (c : Cmd) : Cq :=
  Cq.fresh (BitVec.ofNat 64 (le c.entry 40 8)) (le c.entry 52 4) (askedAllowance c) (le c.entry 58 2)

theorem createCq_eq (s : State) (cid : Nat) :
    exec (.createCq cid) s = .next (runTurn s cid 0x02 (createCqChecks s) fun c =>
      done (putCq s c.fn (le c.entry 48 2) (createdCq c)) cid 0) := rfl

theorem createCq_creates {s : State} {cid : Nat} {c : Cmd} {n q : Nat} (hturn : Turn s cid 0x02 c) (hq : q = le c.entry 48 2)
    (hn : n = if le c.entry 56 2 = 0 then 64 else le c.entry 56 2) (hbase : le c.entry 40 8 % 4096 = 0) (hlo : 1 ≤ q) (hhi : q ≤ 4095)
    (hnew : hasQueue s.cqs c.fn q = false) (hsize : ringSize (le c.entry 52 4) = true) (hnlo : 16 ≤ n) (hnhi : n ≤ 4096)
    (hvec : le c.entry 58 2 < 2048) (hlim : createdOf s.cqs c.fn < (getFn s c.fn).cqLim) (htotal : createdAll s.cqs < Config.queueTotal)
    (hwharf : allowances s + n ≤ Config.wharfSlots) :
    Completes (.createCq cid) s fun t => Only s t [.cqs, .cmds, .eng] ∧ Ended t cid .ok 0 [] ∧
      ∃ x, getCq t c.fn q = some x ∧ x.base = BitVec.ofNat 64 (le c.entry 40 8) ∧ x.n = le c.entry 52 4 ∧ x.allow = n ∧
        x.vector = le c.entry 58 2 ∧ x.modCount = 1 ∧ x.modTime = 0 ∧ x.tail = 0 ∧ x.head = 0 := by
  obtain rfl : n = askedAllowance c := hn
  subst hq
  obtain ⟨hgo, hres, hc⟩ := hturn
  have hallow : (le c.entry 56 2 == 0 || (decide (16 ≤ le c.entry 56 2) && decide (le c.entry 56 2 ≤ 4096))) = true := by
    unfold askedAllowance at hnlo hnhi
    by_cases h0 : le c.entry 56 2 = 0
    · simp [h0]
    · rw [if_neg h0] at hnlo hnhi
      simp [hnlo, hnhi]
  have hpre : createCqChecks s c = none := by
    rw [createCqChecks, hallow, keeperOperands_nil hres (by simp [need, hbase, hlo, hhi, hnew, hsize, hvec])]
    simp [firstErr, require, hlim, htotal, hwharf]
  have hexec := createCq_eq s cid
  rw [runTurn_of_turn hgo hpre] at hexec
  obtain ⟨honly, hend, hended⟩ := done_after (putCq_only s c.fn (le c.entry 48 2) (createdCq c)) (by decide) (getCmd_of_turn hgo) hc
  exact ⟨_, hexec, honly, hended, _, (getCq_of_only hend (by decide) (by decide) _ _).trans (getCq_putCq_self ..),
    rfl, rfl, rfl, rfl, rfl, rfl, rfl, rfl⟩

/-! ### DESTROY_SQ and DESTROY_CQ (R120) -/

/-- The checks of DESTROY_SQ. -/
def destroySqChecks (s : State) (c : Cmd) : Err :=
  firstErr [keeperOperands c (need 48 (hasQueue s.sqs c.fn (le c.entry 48 2))), require (sqIdle s c.fn (le c.entry 48 2)) .busy 4]

/-- The state whose SQ is destroyed: its last line goes out, or waits. -/
def sqDestroyed (s : State) (fn qid : Nat) : State :=
  { lastLine (stopSq s fn qid .destroyed 0) fn qid with sqs := Map.del (lastLine (stopSq s fn qid .destroyed 0) fn qid).sqs (qKey fn qid) }

theorem destroySq_eq (s : State) (cid : Nat) :
    exec (.destroySq cid) s = .next (runTurn s cid 0x03 (destroySqChecks s) fun c => done (sqDestroyed s c.fn (le c.entry 48 2)) cid 0) := rfl

theorem sqDestroyed_only (s : State) (fn qid : Nat) : Only s (sqDestroyed s fn qid) [.sqs, .cqs, .fns, .bus] :=
  only_trans (only_union (stopSq_only _ _ _ _ _) (lastLine_only _ _ _) (by decide) (by decide)) (only_mono only_of_sqs (by decide))

/-- The SQ is gone, and no other is. -/
theorem sqDestroyed_sqs (s : State) (fn qid k : Nat) :
    Map.get? (sqDestroyed s fn qid).sqs k = if k = qKey fn qid then none else Map.get? s.sqs k := by
  have hdel : (sqDestroyed s fn qid).sqs = Map.del (lastLine (stopSq s fn qid .destroyed 0) fn qid).sqs (qKey fn qid) := rfl
  rw [hdel, Map.get?_del, (lastLine_only _ fn qid) .sqs (by decide)]
  split
  · rfl
  · rename_i hk
    exact stopSq_sqs_ne s .destroyed 0 hk

theorem destroySq_destroys {s : State} {cid : Nat} {c : Cmd} {q : Nat} (hturn : Turn s cid 0x03 c) (hq : q = le c.entry 48 2)
    (hhas : hasQueue s.sqs c.fn q = true) (hidle : sqIdle s c.fn q = true) :
    Completes (.destroySq cid) s fun t => Only s t [.sqs, .cqs, .fns, .bus, .cmds, .eng] ∧ Ended t cid .ok 0 [] ∧
      Map.get? t.sqs (qKey c.fn q) = none ∧ ∀ k, k ≠ qKey c.fn q → Map.get? t.sqs k = Map.get? s.sqs k := by
  subst hq
  obtain ⟨hgo, hres, hc⟩ := hturn
  have hpre : destroySqChecks s c = none := by
    rw [destroySqChecks, keeperOperands_nil hres (need_nil 48 hhas), hidle]
    rfl
  have hexec := destroySq_eq s cid
  rw [runTurn_of_turn hgo hpre] at hexec
  obtain ⟨honly, hend, hended⟩ := done_after (sqDestroyed_only s c.fn (le c.entry 48 2)) (by decide) (getCmd_of_turn hgo) hc
  have hsqs := hend .sqs (by decide)
  refine ⟨_, hexec, honly, hended, ?_, fun k hk => ?_⟩
  · rw [hsqs, sqDestroyed_sqs, if_pos rfl]
  · rw [hsqs, sqDestroyed_sqs, if_neg hk]

theorem destroySq_badOperand {s : State} {cid : Nat} {c : Cmd} {d : Nat} (hgo : turnOf s cid 0x03 = some c) (hc : Settled c)
    (hbad : firstBad (reservedBad c.entry ++ need 48 (hasQueue s.sqs c.fn (le c.entry 48 2))) = some d) :
    Completes (.destroySq cid) s fun t => Only s t [.cmds, .eng] ∧ Ended t cid .badParam d [] := by
  have hpre : destroySqChecks s c = some (.badParam, d) := by
    rw [destroySqChecks, keeperOperands, hbad]
    rfl
  have hexec := destroySq_eq s cid
  rw [runTurn_fails hgo hpre] at hexec
  exact ⟨_, hexec, fail_settled .badParam d (getCmd_of_turn hgo) hc⟩

theorem destroySq_busy {s : State} {cid : Nat} {c : Cmd} (hturn : Turn s cid 0x03 c) (hhas : hasQueue s.sqs c.fn (le c.entry 48 2) = true)
    (hidle : sqIdle s c.fn (le c.entry 48 2) = false) :
    Completes (.destroySq cid) s fun t => Only s t [.cmds, .eng] ∧ Ended t cid .busy 4 [] := by
  obtain ⟨hgo, hres, hc⟩ := hturn
  have hpre : destroySqChecks s c = some (.busy, 4) := by
    rw [destroySqChecks, keeperOperands_nil hres (need_nil 48 hhas), hidle]
    rfl
  have hexec := destroySq_eq s cid
  rw [runTurn_fails hgo hpre] at hexec
  exact ⟨_, hexec, fail_settled .busy 4 (getCmd_of_turn hgo) hc⟩

/-- The checks of DESTROY_CQ. -/
def destroyCqChecks (s : State) (c : Cmd) : Err :=
  firstErr [keeperOperands c (need 48 (hasQueue s.cqs c.fn (le c.entry 48 2))),
    require (!cqWaits s c.fn (le c.entry 48 2) &&
      !((qidsOf s.sqs c.fn).any fun i => i != 0 && (getSq s c.fn i).any fun x => x.cq == le c.entry 48 2)) .busy 5]

theorem destroyCq_eq (s : State) (cid : Nat) :
    exec (.destroyCq cid) s = .next (runTurn s cid 0x04 (destroyCqChecks s) fun c =>
      done { s with cqs := Map.del s.cqs (qKey c.fn (le c.entry 48 2)) } cid 0) := rfl

theorem destroyCq_destroys {s : State} {cid : Nat} {c : Cmd} {q : Nat} (hturn : Turn s cid 0x04 c) (hq : q = le c.entry 48 2)
    (hhas : hasQueue s.cqs c.fn q = true) (hwaits : cqWaits s c.fn q = false)
    (hfree : ∀ i, i ∈ qidsOf s.sqs c.fn → i ≠ 0 → (getSq s c.fn i).any (fun x => x.cq == q) = false) :
    Completes (.destroyCq cid) s fun t => Only s t [.cqs, .cmds, .eng] ∧ Ended t cid .ok 0 [] ∧
      Map.get? t.cqs (qKey c.fn q) = none ∧ ∀ k, k ≠ qKey c.fn q → Map.get? t.cqs k = Map.get? s.cqs k := by
  subst hq
  obtain ⟨hgo, hres, hc⟩ := hturn
  have hunused : ((qidsOf s.sqs c.fn).any fun i => i != 0 && (getSq s c.fn i).any fun x => x.cq == le c.entry 48 2) = false := by
    rw [List.any_eq_false]
    intro i hi
    by_cases h0 : i = 0
    · simp [h0]
    · simp [hfree i hi h0]
  have hpre : destroyCqChecks s c = none := by
    rw [destroyCqChecks, keeperOperands_nil hres (need_nil 48 hhas), hwaits, hunused]
    rfl
  have hexec := destroyCq_eq s cid
  rw [runTurn_of_turn hgo hpre] at hexec
  obtain ⟨honly, hend, hended⟩ := done_after (only_of_cqs (s := s) (m := Map.del s.cqs (qKey c.fn (le c.entry 48 2)))) (by decide)
    (getCmd_of_turn hgo) hc
  have hcqs := hend .cqs (by decide)
  refine ⟨_, hexec, honly, hended, ?_, fun k hk => ?_⟩
  · rw [hcqs, Map.get?_del, if_pos rfl]
  · rw [hcqs, Map.get?_del, if_neg hk]

/-! ### DISABLE_SQ and ENABLE_SQ (R99, R100, R121) -/

/-- The checks of DISABLE_SQ. -/
def disableSqChecks (s : State) (c : Cmd) : Err := keeperOperands c (need 48 (hasQueue s.sqs c.fn (le c.entry 48 2)))

theorem disableSq_eq (s : State) (cid : Nat) :
    exec (.disableSq cid) s = .next (runTurn s cid 0x05 (disableSqChecks s) fun c =>
      done (disableSq s c.fn (le c.entry 48 2)) cid (((getSq s c.fn (le c.entry 48 2)).map (·.head)).getD 0)) := rfl

/-- Only an ENABLED SQ changes its state, and no SQ its published head or OPEN. -/
theorem getSq_disableSq {s : State} {fn qid : Nat} {x : Sq} (h : getSq s fn qid = some x) :
    ∃ y, getSq (disableSq s fn qid) fn qid = some y ∧ y.head = x.head ∧ y.opened = x.opened ∧
      y.st = if x.st = .enabled then (if x.opened = 0 then .disabled else .draining) else x.st := by
  unfold disableSq
  rw [h]
  dsimp only
  split
  · obtain ⟨due, hstop⟩ := getSq_stopSq (if x.opened = 0 then .disabled else .draining) 0 h
    exact ⟨_, hstop, rfl, rfl, rfl⟩
  · exact ⟨x, h, rfl, rfl, rfl⟩

theorem disableSq_disables {s : State} {cid : Nat} {c : Cmd} {q : Nat} (hturn : Turn s cid 0x05 c) (hq : q = le c.entry 48 2)
    (hhas : hasQueue s.sqs c.fn q = true) (x : Sq) (hx : getSq s c.fn q = some x) :
    Completes (.disableSq cid) s fun t => Only s t [.sqs, .cqs, .fns, .bus, .cmds, .eng] ∧ Ended t cid .ok x.head [] ∧
      ∃ y, getSq t c.fn q = some y ∧ y.head = x.head ∧ y.opened = x.opened ∧
        y.st = if x.st = .enabled then (if x.opened = 0 then .disabled else .draining) else x.st := by
  subst hq
  obtain ⟨hgo, hres, hc⟩ := hturn
  have hexec := disableSq_eq s cid
  rw [runTurn_of_turn hgo (keeperOperands_nil hres (need_nil 48 hhas)), hx] at hexec
  have hdisabled := disableSq_only s c.fn (le c.entry 48 2)
  have hget := (getCmd_congr (hdisabled .cmds (by decide)) cid).trans (getCmd_of_turn hgo)
  have hend : Only _ (done (disableSq s c.fn (le c.entry 48 2)) cid x.head) [.cmds, .eng] := finish_settled hget hc rfl
  obtain ⟨y, hy, hkept⟩ := getSq_disableSq hx
  exact ⟨_, hexec, only_union hdisabled hend (by decide) (by decide), finish_phase _ cid _ c hget, y,
    (getSq_of_only hend (by decide) (by decide) _ _).trans hy, hkept⟩

/-- The checks of ENABLE_SQ. -/
def enableSqChecks (s : State) (c : Cmd) : Err :=
  firstErr [require (!(getFn s c.fn).quenched) .held 0, keeperOperands c (need 48 (hasQueue s.sqs c.fn (le c.entry 48 2))),
    require (!((getSq s c.fn (le c.entry 48 2)).any fun x => x.st == .draining)) .busy 4]

/-- The state with the SQ of an ENABLE_SQ enabled, if it was not. -/
def sqEnabled (s : State) (fn qid : Nat) : State := if (getSq s fn qid).any (fun x => x.st == .enabled) then s else enableSq s fn qid

theorem enableSq_eq (s : State) (cid : Nat) :
    exec (.enableSq cid) s = .next (runTurn s cid 0x06 (enableSqChecks s) fun c => done (sqEnabled s c.fn (le c.entry 48 2)) cid 0) := rfl

theorem enableSq_runs {s : State} {cid : Nat} {c : Cmd} {x : Sq} (hturn : Turn s cid 0x06 c) (hhas : hasQueue s.sqs c.fn (le c.entry 48 2) = true)
    (hx : getSq s c.fn (le c.entry 48 2) = some x) (hst : x.st ≠ .draining) (hquench : (getFn s c.fn).quenched = false) :
    exec (.enableSq cid) s = .next (done (sqEnabled s c.fn (le c.entry 48 2)) cid 0) := by
  obtain ⟨hgo, hres, -⟩ := hturn
  have hpre : enableSqChecks s c = none := by
    rw [enableSqChecks, keeperOperands_nil hres (need_nil 48 hhas), hquench, hx]
    simp [firstErr, require, hst]
  rw [enableSq_eq, runTurn_of_turn hgo hpre]

theorem enableSq_enables {s : State} {cid : Nat} {c : Cmd} {q : Nat} (hturn : Turn s cid 0x06 c) (hq : q = le c.entry 48 2)
    (hhas : hasQueue s.sqs c.fn q = true) (x : Sq) (hx : getSq s c.fn q = some x) (hdraining : x.st ≠ .draining) (henabled : x.st ≠ .enabled)
    (hquench : (getFn s c.fn).quenched = false) (hpower : (getFn s c.fn).power ≠ .draining) :
    Completes (.enableSq cid) s fun t => Only s t [.sqs, .fns, .bus, .cmds, .eng] ∧ Ended t cid .ok 0 [] ∧
      ∃ y, getSq t c.fn q = some y ∧ y.st = .enabled ∧ y.head = x.head ∧ y.fetch = x.head ∧ y.tail = x.tail ∧ y.errInfo = 0 := by
  subst hq
  have hexec := enableSq_runs hturn hhas hx hdraining hquench
  have hgoes : sqEnabled s c.fn (le c.entry 48 2) = enableSq s c.fn (le c.entry 48 2) := by
    rw [sqEnabled, hx]
    exact if_neg (by simpa using henabled)
  rw [hgoes] at hexec
  obtain ⟨hgo, -, hc⟩ := hturn
  obtain ⟨honly, hend, hended⟩ := done_after (enableSq_only s c.fn (le c.entry 48 2)) (by decide) (getCmd_of_turn hgo) hc
  obtain ⟨due, hsq⟩ := getSq_enableSq hpower hx
  exact ⟨_, hexec, honly, hended, _, (getSq_of_only hend (by decide) (by decide) _ _).trans hsq, rfl, rfl, rfl, rfl, rfl⟩

/-- A function that is DRAINING has no SQ enabled (log 104). -/
theorem enableSq_ofDraining {s : State} {cid : Nat} {c : Cmd} {q : Nat} (hturn : Turn s cid 0x06 c) (hq : q = le c.entry 48 2)
    (hhas : hasQueue s.sqs c.fn q = true) (x : Sq) (hx : getSq s c.fn q = some x) (hdraining : x.st ≠ .draining)
    (hquench : (getFn s c.fn).quenched = false) (hpower : (getFn s c.fn).power = .draining) :
    Completes (.enableSq cid) s fun t => Only s t [.cmds, .eng] ∧ Ended t cid .ok 0 [] := by
  subst hq
  have hexec := enableSq_runs hturn hhas hx hdraining hquench
  rw [sqEnabled, enableSq_draining _ hpower, ite_self] at hexec
  obtain ⟨hgo, -, hc⟩ := hturn
  obtain ⟨-, honly, hended⟩ := done_after (only_refl (s := s) (ps := [])) (by decide) (getCmd_of_turn hgo) hc
  exact ⟨_, hexec, honly, hended⟩

theorem enableSq_ofQuenched {s : State} {cid : Nat} {c : Cmd} (hturn : Turn s cid 0x06 c) (hquench : (getFn s c.fn).quenched = true) :
    Completes (.enableSq cid) s fun t => Only s t [.cmds, .eng] ∧ Ended t cid .held 0 [] := by
  obtain ⟨hgo, -, hc⟩ := hturn
  have hpre : enableSqChecks s c = some (.held, 0) := by
    rw [enableSqChecks, hquench]
    rfl
  have hexec := enableSq_eq s cid
  rw [runTurn_fails hgo hpre] at hexec
  exact ⟨_, hexec, fail_settled .held 0 (getCmd_of_turn hgo) hc⟩

/-! ### MODE_RESUME outside Held (log 48) -/

theorem modeResume_notHeld {s : State} {cid : Nat} {c : Cmd} (hturn : Turn s cid 0x72 c) (hmode : s.sys.mode ≠ .held) :
    Completes (.modeResume cid) s fun t => Only s t [.cmds, .eng] ∧ Ended t cid .badParam 0 [] := by
  obtain ⟨hgo, hres, hc⟩ := hturn
  have hpre : resumeChecks s c = some (.badParam, 0) := by
    rw [resumeChecks, keeperOperands_none hres]
    simp [firstErr, require, hmode]
  have hexec := modeResume_eq s cid
  rw [runTurn_fails hgo hpre] at hexec
  exact ⟨_, hexec, fail_settled .badParam 0 (getCmd_of_turn hgo) hc⟩

end Sys2Proof.Machine

namespace Sys2Proof.Proofs

open Sys2Proof.Machine Sys2Proof.Claims

/-- Settles O29, command by command; out of its turn a command changes nothing. -/
theorem queueCommands : Obligations.QueueCommands := by
  unfold Obligations.QueueCommands
  refine ⟨fun s cid c n q => ⟨createSq_creates, createCq_creates, destroySq_destroys, destroyCq_destroys, disableSq_disables,
    enableSq_enables, enableSq_ofDraining, enableSq_ofQuenched⟩, fun s cid c => ⟨fun hgo hc d => destroySq_badOperand hgo hc,
    destroySq_busy, modeResume_notHeld, fun hout => ?_⟩⟩
  rw [createSq_eq, runTurn_none hout]

end Sys2Proof.Proofs
end

section
/-!
PROOFS. What the device only adds to: requests that are issued stay on the bus record, and commands keep their numbers. Up to the end
of the commands a completion lets start (R93, R98), every operation extends the state in this sense.
-/

namespace Sys2Proof.Machine

open Sys2Proof.Claims

/-! ### The relation -/

/-- No request on the bus record is gone, and the commands have the numbers they had. -/
structure Extends (s t : State) : Prop where
  bus : ∀ b ∈ s.bus, b ∈ t.bus
  ids : t.cmds.map (·.id) = s.cmds.map (·.id)

namespace Extends

theorem refl (s : State) : Extends s s := ⟨fun _ h => h, rfl⟩

theorem trans {s t u : State} (h : Extends s t) (h' : Extends t u) : Extends s u :=
  ⟨fun b hb => h'.bus b (h.bus b hb), h'.ids.trans h.ids⟩

/-- The same, last step first: a chain of operations is read from its result on. -/
theorem after {s t u : State} (h' : Extends t u) (h : Extends s t) : Extends s u := h.trans h'

theorem of_same {s t : State} (hbus : t.bus = s.bus) (hcmds : t.cmds = s.cmds) : Extends s t :=
  ⟨fun _ h => hbus ▸ h, by rw [hcmds]⟩

/-- An extension of a state with the same bus record and commands. -/
theorem after_same {s t u : State} (h : Extends t u) (hbus : t.bus = s.bus) (hcmds : t.cmds = s.cmds) : Extends s u :=
  h.after (of_same hbus hcmds)

theorem of_only {s t : State} {ps : List Part} (h : Only s t ps) (hbus : Part.bus ∉ ps) (hcmds : Part.cmds ∉ ps) : Extends s t :=
  of_same (h .bus hbus) (h .cmds hcmds)

theorem foldl {α : Type} {f : State → α → State} (h : ∀ t a, Extends t (f t a)) (l : List α) (s : State) : Extends s (l.foldl f s) := by
  induction l generalizing s with
  | nil => exact refl s
  | cons a l ih => exact (h s a).trans (ih (f s a))

/-- A command that was not there is not there afterwards. -/
theorem getCmd_none {s t : State} {cid : Nat} (h : Extends s t) (hnone : getCmd s cid = none) : getCmd t cid = none := by
  have hnot : cid ∉ s.cmds.map (·.id) := by
    simpa [getCmd, List.find?_eq_none] using hnone
  rw [← h.ids] at hnot
  simpa [getCmd, List.find?_eq_none] using hnot

end Extends

theorem emit_extends (s : State) (b : Bus) : Extends s (emit s b) := ⟨fun _ h => List.mem_append_left _ h, rfl⟩

theorem modCmd_extends (s : State) (cid : Nat) {f : Cmd → Cmd} (hf : ∀ c, c.id = cid → (f c).id = cid) : Extends s (modCmd s cid f) := by
  refine ⟨fun _ h => h, ?_⟩
  rw [modCmd, List.map_map]
  refine List.map_congr_left fun c _ => ?_
  rw [Function.comp_apply]
  split
  · rename_i hc
    rw [hf c hc, hc]
  · rfl

theorem Extends.modCmd {s t : State} (h : Extends s t) (cid : Nat) {f : Cmd → Cmd} (hf : ∀ c, c.id = cid → (f c).id = cid) :
    Extends s (modCmd t cid f) :=
  h.trans (modCmd_extends t cid hf)

/-! ### Requests and the end of a command -/

theorem emitWrite_extends (s : State) (fn : Nat) (a : DWord) (d : Bytes) : Extends s (emitWrite s fn a d) :=
  Extends.foldl (fun _ _ => emit_extends _ _) _ s

theorem emitRead_extends (s : State) (fn : Nat) (a : DWord) (n : Nat) : Extends s (emitRead s fn a n) :=
  Extends.foldl (fun _ _ => emit_extends _ _) _ s

theorem outputWrites_extends (s : State) (c : Cmd) (r : Result) : Extends s (outputWrites s c r) := by
  have hzeros : Extends s (if c.zeroDue = 0 then s else emitWrite s c.fn (outIova c.entry) (zeros c.zeroDue)) := by
    split
    · exact .refl s
    · exact emitWrite_extends ..
  unfold outputWrites
  dsimp only
  split
  · exact hzeros
  · exact hzeros.trans (emitWrite_extends ..)

theorem dropInput_extends (s : State) (cid : Nat) : Extends s (dropInput s cid) := by
  unfold dropInput
  split
  · exact .refl s
  · have hgiven := modCmd_extends s cid (f := fun x => { x with asked := false, pulls := [], pulled := 0 }) fun _ h => h
    dsimp only
    split
    · exact hgiven
    · exact (Extends.of_only (modFn_only _ _ _) (by decide) (by decide)).after hgiven

theorem issueOut_extends (s : State) (cid : Nat) : Extends s (issueOut s cid) := by
  unfold issueOut
  split
  · exact .refl s
  · split
    · split
      · exact (outputWrites_extends ..).modCmd cid fun _ h => h
      · exact .refl s
    · exact .refl s

theorem finish_extends (s : State) (cid : Nat) (r : Result) : Extends s (finish s cid r) := by
  have hreleased : Extends s (releaseLves (dropInput s cid) cid) := (dropInput_extends s cid).trans (.of_same rfl rfl)
  have hfinished := hreleased.modCmd cid (f := fun c => finished s c r) fun _ h => h
  exact (hfinished.trans (issueOut_extends ..)).trans (.of_only (reapCopies_only _) (by decide) (by decide))

theorem fail_extends (s : State) (cid : Nat) (st : Status) (d : Nat) : Extends s (fail s cid st d) := finish_extends ..

/-! ### Links -/

theorem linkSend_extends (s : State) (k : Nat) (m : LinkMsg) : Extends s (linkSend s k m) := by
  unfold linkSend
  split
  · exact (emit_extends _ _).after_same rfl rfl
  · split
    · exact .of_same rfl rfl
    · exact .refl s

/-! ### Commands that start (R65, R138) -/

theorem askInput_extends (s : State) (cid : Nat) : Extends s (askInput s cid) := by
  unfold askInput
  split
  · exact .refl s
  · split
    · exact .refl s
    · split
      · exact (linkSend_extends ..).modCmd cid fun _ h => h
      · split
        · exact (emitRead_extends ..).modCmd cid fun _ h => h
        · exact .refl s

theorem setAttr_extends (s : State) (g : Nat) (f : Key → Key) : Extends s (setAttr s g f) :=
  .of_same (congrArg State.bus (setAttr_keeps s g f) :) (congrArg State.cmds (setAttr_keeps s g f) :)

theorem touch_extends (s : State) (i : Nat) (ks : List Nat) : Extends s (touch s i ks) :=
  have hkeys := Extends.foldl (f := fun t g => modKey t g fun k => { k with used := s.stamp + 1 }) (fun _ _ => .of_same rfl rfl) ks
    (modBerth s i fun b => { b with used := s.stamp + 1 })
  ⟨hkeys.bus, hkeys.ids⟩

theorem beginRun_extends (s : State) (cid i : Nat) (ka kb : Option Nat) : Extends s (beginRun s cid i ka kb) := by
  unfold beginRun
  split
  · exact .refl s
  · rename_i c hc
    have htouched : ∀ (f : Cmd → Cmd) (l : List Nat), (∀ x, (f x).id = c.id) → Extends s (touch (modCmd s cid f) i l) := fun f l hf =>
      (touch_extends ..).after (modCmd_extends s cid fun x _ => (hf x).trans (getCmd_id hc))
    have hmarked : ∀ t : State, Extends t (match opcode c.entry, ka with
        | 0x0405, some g => setAttr t g (markKey cid)
        | 0x0110, some g => setAttr t g (markKey cid)
        | _, _ => t) := by
      intro t
      split
      · exact setAttr_extends ..
      · exact setAttr_extends ..
      · exact .refl t
    dsimp only
    split
    · exact (fail_extends ..).after ((hmarked _).after (htouched _ _ fun _ => rfl))
    · split
      · exact (askInput_extends ..).after ((hmarked _).after (htouched _ _ fun _ => rfl))
      · exact (hmarked _).after (htouched _ _ fun _ => rfl)

theorem reportStep8_extends (s : State) (cid : Nat) (st : Status) (d : Nat) : Extends s (reportStep8 s cid st d) := by
  unfold reportStep8
  split
  · split
    · exact .of_only (only_of_report (reportCorrupt_report ..)) (by decide) (by decide)
    · exact .refl s
  · exact .refl s

theorem applyVerdict_extends (s : State) (cid : Nat) (v : Verdict) : Extends s (applyVerdict s cid v) := by
  cases v with
  | err i st d => exact (fail_extends ..).after ((reportStep8_extends ..).modCmd cid fun _ h => h)
  | waitBerth => exact modCmd_extends s cid fun _ h => h
  | waitRng i ka kb => exact modCmd_extends s cid fun _ h => h
  | pass i ka kb => exact beginRun_extends ..

theorem sendCmd_extends (s : State) (c : Cmd) (entry : Bytes) : Extends s (sendCmd s c entry) := by
  unfold sendCmd
  split
  · exact (linkSend_extends ..).modCmd c.id fun _ h => h
  · exact fail_extends ..

theorem forwardTo_extends (s : State) (c : Cmd) (entry : Bytes) : Extends s (forwardTo s c entry) := by
  have hwait : Extends s (modCmd s c.id fun x => { x with phase := .berthWait }) := modCmd_extends s c.id fun _ h => h
  unfold forwardTo
  dsimp only
  split
  · exact fail_extends ..
  · split
    · split
      · exact hwait
      · split
        · exact fail_extends ..
        · exact sendCmd_extends ..
    · split
      · exact fail_extends ..
      · exact hwait

theorem startOnce_extends (s : State) (cid : Nat) : Extends s (startOnce s cid) := by
  unfold startOnce
  split
  · exact .refl s
  · split
    · exact fail_extends ..
    · split
      · exact modCmd_extends s cid fun _ h => h
      · split
        · exact forwardTo_extends ..
        · exact applyVerdict_extends ..

theorem startCmd_extends (s : State) (cid : Nat) : Extends s (startCmd s cid) := by
  unfold startCmd
  split
  · exact .refl s
  · split
    · split
      · exact (startOnce_extends ..).after (modCmd_extends s cid fun _ h => h)
      · exact startOnce_extends ..
    · exact startOnce_extends ..

theorem retryBerth_extends (s : State) : Extends s (retryBerth s) := Extends.foldl startCmd_extends _ s

/-! ### Interrupts and status lines (R77, R331, R339) -/

theorem sendNormal_extends (s : State) (fn v : Nat) (addr : DWord) (data : Word) : Extends s (sendNormal s fn v addr data) :=
  (emit_extends _ _).after_same rfl rfl

theorem deliver_extends (s : State) (fn v : Nat) : Extends s (deliver s fn v) := by
  have hmember : ∀ (t : State) (m : Nat) (x : Target), Extends t (sendMember t fn v m x) := fun t m x =>
    ⟨(sendNormal_extends t fn v x.addr x.data).bus, (sendNormal_extends t fn v x.addr x.data).ids⟩
  unfold deliver
  dsimp only
  split
  · exact .refl s
  · split
    · split
      · exact .refl s
      · exact sendNormal_extends ..
    · split
      · exact hmember ..
      · have hheld : ∀ f : Fn → Fn, Extends s (modFn s fn f) := fun f => .of_same rfl rfl
        split
        · exact hheld _
        · split
          · exact (hmember ..).after (hheld _)
          · exact hheld _

theorem pendNormal_extends (s : State) (fn v : Nat) : Extends s (pendNormal s fn v) :=
  (deliver_extends ..).after_same rfl rfl

theorem deliverAll_extends (s : State) (fn : Nat) : Extends s (deliverAll s fn) :=
  Extends.foldl (fun t v => deliver_extends t fn v) _ s

theorem deliverPort_extends (s : State) (p : Nat) : Extends s (deliverPort s p) := by
  unfold deliverPort
  exact Extends.foldl (f := fun t (e : Nat × Fn) => deliverAll t e.1) (fun t e => deliverAll_extends t e.1) _ s

theorem fireCq_extends (s : State) (fn qid : Nat) (q : Cq) : Extends s (fireCq s fn qid q) :=
  (pendNormal_extends ..).after_same rfl rfl

theorem moderate_extends (s : State) (fn qid : Nat) (irq : Bool) : Extends s (moderate s fn qid irq) := by
  unfold moderate
  split
  · exact .refl s
  · dsimp only
    split
    · exact .refl s
    · split
      · exact fireCq_extends ..
      · exact .of_same rfl rfl

theorem statusLine_extends (s : State) (fn qid : Nat) : Extends s (statusLine s fn qid) := by
  unfold statusLine
  split
  · exact .refl s
  · split
    · exact (emit_extends _ _).after_same rfl rfl
    · exact .of_same rfl rfl

/-! ### What takes effect with a completion (R93, R98) -/

theorem completionEffect_extends (s : State) (c : Cmd) (r : Result) : Extends s (completionEffect s c r) := by
  unfold completionEffect
  dsimp only
  split
  · split
    · exact setAttr_extends ..
    · exact .refl s
  · split
    · exact .of_same rfl rfl
    · exact .refl s
  · exact (deliverPort_extends ..).after_same rfl rfl
  · unfold moderationEffect
    dsimp only
    split
    · exact .refl s
    · split
      · exact fireCq_extends ..
      · exact .of_same rfl rfl
  · exact .refl s

theorem closeOne_extends (s : State) (fn qid : Nat) : Extends s (closeOne s fn qid) := by
  unfold closeOne
  split
  · exact .refl s
  · exact (statusLine_extends ..).after_same rfl rfl

theorem countBerth_extends (s : State) (c : Cmd) (r : Result) : Extends s (countBerth s c r) := by
  unfold countBerth
  split
  · exact .refl s
  · exact .of_same rfl rfl

/-- The outcome of a command is noted in the chain that runs in its SQ. -/
def chainNoted (s : State) (c : Cmd) (ok : Bool) : State :=
  match getSq s c.fn c.sq with
  | some q => if q.chainId = c.id && q.chainLen != 0 then putSq s c.fn c.sq { q with chainOk := some ok } else s
  | none => s

/-- The successor in the chain starts, or ends. -/
def successorStarts (s : State) (c : Cmd) (ok : Bool) : State :=
  match s.cmds.find? fun d => d.after == some c.id && d.phase == .chainWait && d.origin.isNone with
  | none => s
  | some d => if !ok then fail s d.id .aborted 1 else if d.tooLong then fail s d.id .aborted 2 else startCmd s d.id

theorem chainDone_eq (s : State) (c : Cmd) (ok : Bool) :
    chainDone s c ok = retryBerth (successorStarts (chainNoted s c ok) c ok) := rfl

theorem successorStarts_extends (s : State) (c : Cmd) (ok : Bool) : Extends s (successorStarts s c ok) := by
  unfold successorStarts
  split
  · exact .refl s
  · split
    · exact fail_extends ..
    · split
      · exact fail_extends ..
      · exact startCmd_extends ..

theorem chainDone_extends (s : State) (c : Cmd) (ok : Bool) : Extends s (chainDone s c ok) := by
  have hnoted : Extends s (chainNoted s c ok) := by
    unfold chainNoted
    split
    · split
      · exact .of_same rfl rfl
      · exact .refl s
    · exact .refl s
  rw [chainDone_eq]
  exact (retryBerth_extends _).after ((successorStarts_extends ..).after hnoted)

end Sys2Proof.Machine
end

section
/-!
PROOFS. The completion's entry (O28): its bytes at the CQ's tail, the indices and OPEN after it whatever takes effect with it, and the
order in which completions wait for room (R93, R94).
-/

namespace Sys2Proof.Machine

open Sys2Proof.Claims

/-! ### SQs while a completion takes effect -/

/-- The SQs, and which functions exist. -/
def sqView (s : State) : Map Sq × (Nat → Bool) := (s.sqs, fnExists s)

theorem getSq_of_view {s t : State} (h : sqView t = sqView s) (fn qid : Nat) : getSq t fn qid = getSq s fn qid := by
  obtain ⟨hsqs, hfns⟩ := Prod.mk.inj h
  rw [getSq, getSq, hsqs, hfns]

/-- A port's targets and vector sets do not say which functions exist. -/
theorem fnExists_modPort (s : State) (p : Nat) {f : Port → Port} (hf : ∀ x, (f x).vfEnable = x.vfEnable ∧ (f x).numVfs = x.numVfs) :
    fnExists (modPort s p f) = fnExists s := by
  funext fn
  have hport : getPort (modPort s p f) (portOf fn) = if portOf fn = p then f (getPort s (portOf fn)) else getPort s (portOf fn) :=
    getPort_modPort s p (portOf fn) f (Nat.mod_lt _ (by decide))
  rw [fnExists, fnExists, hport]
  split
  · rw [(hf _).1, (hf _).2]
  · rfl

theorem sqView_modPort (s : State) (p : Nat) {f : Port → Port} (hf : ∀ x, (f x).vfEnable = x.vfEnable ∧ (f x).numVfs = x.numVfs) :
    sqView (modPort s p f) = sqView s :=
  Prod.ext rfl (fnExists_modPort s p hf)

theorem sqView_sendNormal (s : State) (fn v : Nat) (a : DWord) (d : Word) : sqView (sendNormal s fn v a d) = sqView s := rfl

theorem sqView_sendMember (s : State) (fn v m : Nat) (x : Target) : sqView (sendMember s fn v m x) = sqView s := by
  rw [sendMember, sqView_modPort, sqView_sendNormal]
  exact fun _ => ⟨rfl, rfl⟩

theorem sqView_deliver (s : State) (fn v : Nat) : sqView (deliver s fn v) = sqView s := by
  unfold deliver
  dsimp only
  split
  · rfl
  · split
    · split
      · rfl
      · exact sqView_sendNormal ..
    · split
      · exact sqView_sendMember ..
      · split
        · rfl
        · split
          · exact (sqView_sendMember ..).trans rfl
          · rfl

theorem sqView_pendNormal (s : State) (fn v : Nat) : sqView (pendNormal s fn v) = sqView s := (sqView_deliver ..).trans rfl

theorem sqView_deliverPort (s : State) (p : Nat) : sqView (deliverPort s p) = sqView s := by
  unfold deliverPort
  exact foldl_keeps sqView (fun t (e : Nat × Fn) => deliverAll t e.1)
    (fun t e => foldl_keeps sqView (fun u v => deliver u e.1 v) (fun u v => sqView_deliver u e.1 v) _ t) _ s

theorem sqView_fireCq (s : State) (fn qid : Nat) (q : Cq) : sqView (fireCq s fn qid q) = sqView s := (sqView_pendNormal ..).trans rfl

theorem sqView_moderate (s : State) (fn qid : Nat) (irq : Bool) : sqView (moderate s fn qid irq) = sqView s := by
  unfold moderate
  split
  · rfl
  · dsimp only
    split
    · rfl
    · split
      · exact sqView_fireCq ..
      · rfl

theorem sqView_setAttr (s : State) (g : Nat) (f : Key → Key) : sqView (setAttr s g f) = sqView s :=
  (congrArg sqView (setAttr_keeps s g f) :)

theorem sqView_completionEffect (s : State) (c : Cmd) (r : Result) : sqView (completionEffect s c r) = sqView s := by
  unfold completionEffect
  dsimp only
  split
  · split
    · exact sqView_setAttr ..
    · rfl
  · split <;> rfl
  · exact (sqView_deliverPort ..).trans (sqView_modPort _ _ fun _ => ⟨rfl, rfl⟩)
  · unfold moderationEffect
    dsimp only
    split
    · rfl
    · split
      · exact sqView_fireCq ..
      · rfl
  · rfl

/-! ### The CQ while a completion takes effect -/

/-- A CQ stands at a key with the indices and the reservations given. -/
def CqAt (s : State) (k tail head reserved : Nat) : Prop :=
  ∃ q, Map.get? s.cqs k = some q ∧ q.tail = tail ∧ q.head = head ∧ q.reserved = reserved

theorem getCq_of_get? {s : State} {fn qid : Nat} {q : Cq} (h : Map.get? s.cqs (qKey fn qid) = some q) : getCq s fn qid = some q := by
  rw [getCq, h]

theorem CqAt.of_cqs {s t : State} {k tail head reserved : Nat} (h : CqAt s k tail head reserved) (hcqs : t.cqs = s.cqs) :
    CqAt t k tail head reserved := by
  rwa [CqAt, hcqs]

/-- It stays where a CQ is put that has the indices and the reservations of the one it replaces. -/
theorem CqAt.putCq {s : State} {k tail head reserved : Nat} (h : CqAt s k tail head reserved) {fn qid : Nat} {x y : Cq}
    (hx : getCq s fn qid = some x) (htail : y.tail = x.tail) (hhead : y.head = x.head) (hres : y.reserved = x.reserved) :
    CqAt (putCq s fn qid y) k tail head reserved := by
  obtain ⟨q, hq, hqt, hqh, hqr⟩ := h
  have hcqs : (Machine.putCq s fn qid y).cqs = Map.put s.cqs (qKey fn qid) y := rfl
  rw [CqAt, hcqs, Map.get?_put]
  split
  · rename_i hk
    obtain rfl : q = x := Option.some.inj ((getCq_of_get? (hk ▸ hq)).symm.trans hx)
    exact ⟨y, rfl, htail.trans hqt, hhead.trans hqh, hres.trans hqr⟩
  · exact ⟨q, hq, hqt, hqh, hqr⟩

theorem pendNormal_cqs (s : State) (fn v : Nat) : (pendNormal s fn v).cqs = s.cqs := (congrArg State.cqs (pendNormal_keeps s fn v) :)

theorem CqAt.fireCq {s : State} {k tail head reserved : Nat} (h : CqAt s k tail head reserved) {fn qid : Nat} {x y : Cq}
    (hx : getCq s fn qid = some x) (htail : y.tail = x.tail) (hhead : y.head = x.head) (hres : y.reserved = x.reserved) :
    CqAt (fireCq s fn qid y) k tail head reserved :=
  (h.putCq (y := { y with count := 0 }) hx htail hhead hres).of_cqs (pendNormal_cqs ..)

theorem CqAt.moderate {s : State} {k tail head reserved : Nat} (h : CqAt s k tail head reserved) (fn qid : Nat) (irq : Bool) :
    CqAt (moderate s fn qid irq) k tail head reserved := by
  unfold Machine.moderate
  split
  · exact h
  · rename_i c hc
    dsimp only
    split
    · exact h
    · split
      · exact h.fireCq hc rfl rfl rfl
      · exact h.putCq hc rfl rfl rfl

theorem CqAt.completionEffect {s : State} {k tail head reserved : Nat} (h : CqAt s k tail head reserved) (c : Cmd) (r : Result) :
    CqAt (completionEffect s c r) k tail head reserved := by
  unfold Machine.completionEffect
  dsimp only
  split
  · split
    · exact h.of_cqs (congrArg State.cqs (setAttr_keeps ..) :)
    · exact h
  · split
    · exact h.of_cqs rfl
    · exact h
  · exact h.of_cqs (congrArg State.cqs (deliverPort_keeps ..) :)
  · unfold moderationEffect
    dsimp only
    split
    · exact h
    · rename_i q hq
      split
      · exact h.fireCq hq rfl rfl rfl
      · exact h.putCq hq rfl rfl rfl
  · exact h

/-! ### OPEN falls, and the chain goes on (R98, R99) -/

theorem getSq_closeOne {s : State} {fn qid : Nat} {x : Sq} (h : getSq s fn qid = some x) :
    ∃ y, getSq (closeOne s fn qid) fn qid = some y ∧ y.opened = x.opened - 1 := by
  unfold closeOne
  rw [h]
  obtain ⟨due, hline⟩ := getSq_statusLine (getSq_putSq_self s fn qid
    { x with opened := x.opened - 1, st := if x.st = .draining && x.opened - 1 = 0 then .disabled else x.st })
  exact ⟨_, hline, rfl⟩

theorem closeOne_only (s : State) (fn qid : Nat) : Only s (closeOne s fn qid) [.sqs, .bus] := by
  unfold closeOne
  split
  · exact only_refl
  · exact only_trans (only_mono (putSq_only _ _ _ _) (by decide)) (statusLine_only _ _ _)

/-- What the start of a command may change. -/
abbrev startParts : List Part := [.topo, .bus, .free, .cmds, .eng, .fns, .keys, .rng, .alarm, .recorder, .stamp]

theorem hideMasks_only (s : State) : Only s (hideMasks s) [.keys, .rng] := fun p hp => by
  cases p
  case keys | rng => simp at hp
  all_goals rfl

theorem hideAlarms_only (s : State) : Only s (hideAlarms s) [.alarm, .recorder] := fun p hp => by
  cases p
  case alarm | recorder => simp at hp
  all_goals rfl

theorem hideRun_only (s : State) : Only s (hideRun s) [.cmds, .eng, .fns, .bus] := fun p hp => by
  cases p
  case cmds | eng | fns | bus => simp at hp
  all_goals rfl

theorem hideLinks_only (s : State) : Only s (hideLinks s) [.topo, .bus, .free] := fun p hp => by
  cases p
  case topo | bus | free => simp at hp
  all_goals rfl

theorem unstamped_only (s : State) : Only s { s with stamp := 0 } [.stamp] := fun p hp => by
  cases p
  case stamp => simp at hp
  all_goals rfl

theorem hideStart_only (s : State) : Only s (hideStart s) startParts := by
  have halarms := only_mono (qs := startParts) (hideAlarms_only s) (by decide)
  have hmasks := only_union halarms (hideMasks_only _) (fun _ h => h) (by decide)
  have hrun := only_union hmasks (hideRun_only _) (fun _ h => h) (by decide)
  have hlinks := only_union hrun (hideLinks_only _) (fun _ h => h) (by decide)
  exact only_union hlinks (unstamped_only _) (fun _ h => h) (by decide)

theorem only_of_start {s t : State} (h : hideStart t = hideStart s) : Only s t startParts :=
  only_of_keeps h hideStart_only

theorem chainDone_starts (s : State) (c : Cmd) (ok : Bool) : Only (chainNoted s c ok) (chainDone s c ok) startParts := by
  have hnext : Only (chainNoted s c ok) (successorStarts (chainNoted s c ok) c ok) startParts := by
    unfold successorStarts
    split
    · exact only_refl
    · split
      · exact only_of_start (fail_start ..)
      · split
        · exact only_of_start (fail_start ..)
        · exact only_of_start (startCmd_keeps ..)
  rw [chainDone_eq]
  exact only_trans hnext (only_of_start (retryBerth_keeps _))

theorem chainNoted_only (s : State) (c : Cmd) (ok : Bool) : Only s (chainNoted s c ok) [.sqs] := by
  unfold chainNoted
  split
  · split
    · exact putSq_only _ _ _ _
    · exact only_refl
  · exact only_refl

theorem getSq_chainDone {s : State} {c : Cmd} {x : Sq} (ok : Bool) (h : getSq s c.fn c.sq = some x) :
    ∃ y, getSq (chainDone s c ok) c.fn c.sq = some y ∧ y.opened = x.opened := by
  have hnoted : ∃ y, getSq (chainNoted s c ok) c.fn c.sq = some y ∧ y.opened = x.opened := by
    unfold chainNoted
    rw [h]
    dsimp only
    split
    · exact ⟨_, getSq_putSq_self .., rfl⟩
    · exact ⟨x, h, rfl⟩
  obtain ⟨y, hy, hopened⟩ := hnoted
  exact ⟨y, (getSq_of_only (chainDone_starts s c ok) (by decide) (by decide) _ _).trans hy, hopened⟩

theorem chainDone_cqs (s : State) (c : Cmd) (ok : Bool) : (chainDone s c ok).cqs = s.cqs :=
  (chainDone_starts s c ok .cqs (by decide) :).trans (chainNoted_only s c ok .cqs (by decide) :)

/-! ### The entry (R93) -/

/-- The write of a completion's entry at its CQ's tail. -/
def entryWrite (s : State) (c : Cmd) (r : Result) (cq : Nat) (q : Cq) (sqHead : Nat) : Bus :=
  .write c.fn (cqBase s c.fn cq q + BitVec.ofNat 64 (32 * (q.tail % q.n))) (completionBytes s c r (ringPhase q.tail q.n) sqHead)

/-- The CQ once the entry is written. -/
def entryTaken (c : Cmd) (q : Cq) : Cq :=
  { q with tail := ringNext q.tail q.n, reserved := q.reserved - 1, waiting := q.waiting.filter (· != c.id),
           episode := q.episode && q.waiting.filter (· != c.id) != [] }

/-- The state with the output and the entry written. -/
def entryPut (s : State) (c : Cmd) (r : Result) (cq : Nat) (q : Cq) (sqHead : Nat) : State :=
  putCq (emit (if c.issued then s else outputWrites s c r) (entryWrite s c r cq q sqHead)) c.fn cq (entryTaken c q)

/-- Of the keeper CQ, since when its completions wait is noted anew. -/
def keeperNoted (s t : State) (c : Cmd) (cq : Nat) (q : Cq) : State :=
  if cq = 0 then
    modFn t c.fn fun x => { x with kcqSince := ((q.waiting.filter (· != c.id)).head?.bind (getCmd s)).map (·.waitFrom),
                                   stalled := x.stalled && q.waiting.filter (· != c.id) != [] }
  else t

/-- The state in which the written completion has taken effect. -/
def entryEffect (s : State) (c : Cmd) (r : Result) (cq : Nat) (q : Cq) (sqHead : Nat) : State :=
  moderate (completionEffect (keeperNoted s (entryPut s c r cq q sqHead) c cq q) c r) c.fn cq (flagBit c.entry 1)

/-- The state without the command. -/
def entryClosed (s : State) (c : Cmd) (r : Result) (cq : Nat) (q : Cq) (sqHead : Nat) : State :=
  unpin (dropCmd (countBerth (closeOne (entryEffect s c r cq q sqHead) c.fn c.sq) c r) c.id) c.id

theorem writeEntry_eq {s : State} {c : Cmd} {r : Result} {q : Cq} {x : Sq} (hx : getSq s c.fn c.sq = some x) :
    writeEntry s c r q = chainDone (entryClosed s c r x.cq q x.head) c (r.status == .ok) := by
  have hcq : writeEntry.getCqId s c = x.cq := by rw [writeEntry.getCqId, hx]; rfl
  unfold writeEntry
  rw [hcq, hx]
  rfl

section Entry

variable {s : State} {c : Cmd} {r : Result} {cq : Nat} {q : Cq} {sqHead : Nat}

theorem outputIssued_only : Only s (if c.issued then s else outputWrites s c r) [.bus] := by
  have hout : Only s (outputWrites s c r) [.bus] := only_of_keeps (outputWrites_keeps s c r) fun x p hp => by
    cases p
    case bus => simp at hp
    all_goals rfl
  split
  · exact only_refl
  · exact hout

theorem keeperNoted_only (t : State) : Only t (keeperNoted s t c cq q) [.fns] := by
  unfold keeperNoted
  split
  · exact modFn_only _ _ _
  · exact only_refl

theorem entryPut_only : Only s (entryPut s c r cq q sqHead) [.bus, .cqs] :=
  only_union (only_trans outputIssued_only (emit_only _ _)) (putCq_only _ _ _ _) (by decide) (by decide)

theorem entryPut_bus : entryWrite s c r cq q sqHead ∈ (entryPut s c r cq q sqHead).bus :=
  List.mem_append_right _ (List.mem_singleton_self _)

theorem entryEffect_extends : Extends (entryPut s c r cq q sqHead) (entryEffect s c r cq q sqHead) :=
  ((Extends.of_only (keeperNoted_only _) (by decide) (by decide)).trans (completionEffect_extends ..)).trans (moderate_extends ..)

theorem entryEffect_cq :
    CqAt (entryEffect s c r cq q sqHead) (qKey c.fn cq) (ringNext q.tail q.n) q.head (q.reserved - 1) := by
  have hput : CqAt (entryPut s c r cq q sqHead) (qKey c.fn cq) (ringNext q.tail q.n) q.head (q.reserved - 1) :=
    ⟨entryTaken c q, Map.get?_put_self .., rfl, rfl, rfl⟩
  exact ((hput.of_cqs (keeperNoted_only _ .cqs (by decide))).completionEffect c r).moderate c.fn cq _

theorem getSq_entryEffect (fn qid : Nat) : getSq (entryEffect s c r cq q sqHead) fn qid = getSq s fn qid := by
  have hput := only_union entryPut_only (keeperNoted_only (s := s) (c := c) (cq := cq) (q := q) (entryPut s c r cq q sqHead))
    (rs := [.bus, .cqs, .fns]) (by decide) (by decide)
  exact (getSq_of_view ((sqView_moderate ..).trans (sqView_completionEffect ..)) fn qid).trans
    (getSq_of_only hput (by decide) (by decide) fn qid)

theorem countBerth_only (t : State) : Only t (countBerth t c r) [.keys] := by
  unfold countBerth
  split
  · exact only_refl
  · intro p hp
    cases p
    case keys => simp at hp
    all_goals rfl

/-- The command is gone, and what its completion has put on the bus stays there. -/
theorem entryClosed_bus : entryWrite s c r cq q sqHead ∈ (entryClosed s c r cq q sqHead).bus :=
  ((entryEffect_extends.trans (closeOne_extends ..)).trans (countBerth_extends _ c r)).bus _ entryPut_bus

theorem getCmd_entryClosed : getCmd (entryClosed s c r cq q sqHead) c.id = none := by
  have hdrop := getCmd_dropCmd (countBerth (closeOne (entryEffect s c r cq q sqHead) c.fn c.sq) c r) c.id c.id
  rw [if_pos rfl] at hdrop
  exact hdrop

theorem entryClosed_cqs : (entryClosed s c r cq q sqHead).cqs = (entryEffect s c r cq q sqHead).cqs :=
  (countBerth_only _ .cqs (by decide) :).trans (closeOne_only _ c.fn c.sq .cqs (by decide) :)

theorem getSq_entryClosed {x : Sq} (hx : getSq s c.fn c.sq = some x) :
    ∃ y, getSq (entryClosed s c r cq q sqHead) c.fn c.sq = some y ∧ y.opened = x.opened - 1 := by
  obtain ⟨y, hy, hopened⟩ := getSq_closeOne ((getSq_entryEffect (r := r) (cq := cq) (q := q) (sqHead := sqHead) c.fn c.sq).trans hx)
  have hcounted := getSq_of_only (countBerth_only (c := c) (r := r) (closeOne (entryEffect s c r cq q sqHead) c.fn c.sq))
    (by decide) (by decide) c.fn c.sq
  exact ⟨y, hcounted.trans hy, hopened⟩

end Entry

/-- A completion that is written: the command is gone, the entry on the bus, the CQ one further, OPEN one less. -/
theorem writeEntry_writes {s : State} {c : Cmd} {r : Result} {q : Cq} {x : Sq} (hx : getSq s c.fn c.sq = some x) :
    getCmd (writeEntry s c r q) c.id = none ∧ entryWrite s c r x.cq q x.head ∈ (writeEntry s c r q).bus ∧
      (∃ y, getCq (writeEntry s c r q) c.fn x.cq = some y ∧ y.tail = ringNext q.tail q.n ∧ y.reserved = q.reserved - 1 ∧ y.head = q.head) ∧
      ∃ y, getSq (writeEntry s c r q) c.fn c.sq = some y ∧ y.opened = x.opened - 1 := by
  rw [writeEntry_eq hx]
  have hchain := chainDone_extends (entryClosed s c r x.cq q x.head) c (r.status == .ok)
  refine ⟨hchain.getCmd_none getCmd_entryClosed, hchain.bus _ entryClosed_bus, ?_, ?_⟩
  · obtain ⟨y, hy, htail, hhead, hres⟩ := (entryEffect_cq (s := s) (c := c) (r := r) (cq := x.cq) (q := q) (sqHead := x.head)).of_cqs
      ((chainDone_cqs _ c (r.status == .ok)).trans entryClosed_cqs)
    exact ⟨y, getCq_of_get? hy, htail, hres, hhead⟩
  · obtain ⟨y, hy, hopened⟩ := getSq_entryClosed (r := r) (cq := x.cq) (q := q) (sqHead := x.head) hx
    obtain ⟨z, hz, hkept⟩ := getSq_chainDone (r.status == .ok) hy
    exact ⟨z, hz, hkept.trans hopened⟩

/-! ### Completions that wait (R94) -/

/-- The commands whose completions begin to wait for room in a CQ. -/
def joiners (s : State) (fn cqid : Nat) (q : Cq) : List Cmd := (finishedOn s fn cqid).filter fun d => !q.waiting.contains d.id

theorem joinFinished_eq (s : State) (fn cqid : Nat) (q : Cq) :
    joinFinished s fn cqid q = joinWaiting s fn cqid q ((joiners s fn cqid q).map (·.id)) := by
  rw [joinFinished, List.filter_map]
  rfl

theorem mem_finishedOn {s : State} {fn cqid : Nat} {d : Cmd} (h : d ∈ finishedOn s fn cqid) : d ∈ s.cmds :=
  List.mem_of_mem_filter (List.mem_mergeSort.mp h)

/-- They are in the order in which they finished. -/
theorem finishedOn_sorted (s : State) (fn cqid : Nat) : (finishedOn s fn cqid).Pairwise fun a b => a.finAt ≤ b.finAt := by
  have hsorted := List.pairwise_mergeSort (le := fun a b : Cmd => decide (a.finAt ≤ b.finAt))
    (fun a b c hab hbc => decide_eq_true ((of_decide_eq_true hab).trans (of_decide_eq_true hbc)))
    (fun a b => by simpa using Nat.le_total a.finAt b.finAt)
  exact (hsorted _).imp of_decide_eq_true

theorem mem_finishedOn_of_fin {s : State} {c : Cmd} {r : Result} {x : Sq} (hc : c ∈ s.cmds) (hphase : c.phase = .fin r)
    (horigin : c.origin = none) (hx : getSq s c.fn c.sq = some x) : c ∈ finishedOn s c.fn x.cq := by
  refine List.mem_mergeSort.mpr (List.mem_filter.mpr ⟨hc, ?_⟩)
  simp [horigin, hx, hphase]

theorem modCmd_only (s : State) (cid : Nat) (f : Cmd → Cmd) : Only s (modCmd s cid f) [.cmds] := fun p hp => by
  cases p
  case cmds => simp at hp
  all_goals rfl

/-- The state with the wait of the completions noted in them and in their CQ. -/
def waitNoted (s : State) (fn cqid : Nat) (q : Cq) (ids : List Nat) : State :=
  putCq (ids.foldl (fun t i => modCmd t i fun x => { x with waitFrom := s.sys.tick }) s) fn cqid
    { q with waiting := q.waiting ++ ids, episode := q.episode || decide (q.allow ≤ q.reserved) }

theorem waitNoted_only (s : State) (fn cqid : Nat) (q : Cq) (ids : List Nat) : Only s (waitNoted s fn cqid q ids) [.cmds, .cqs] :=
  only_union (foldl_only (fun t i => modCmd_only t i _) ids s) (putCq_only _ _ _ _) (by decide) (by decide)

/-- After that only functions change, and CQ_FULL may go out. -/
theorem joinWaiting_signals {s : State} {fn cqid : Nat} {q : Cq} {ids : List Nat} (hids : ids ≠ []) :
    Only (waitNoted s fn cqid q ids) (joinWaiting s fn cqid q ids) [.fns, .bus] := by
  have hwake : ∀ t : State, Only t (wakePolling t fn) [.fns, .bus] := fun t => only_mono (modFn_only _ _ _) (by decide)
  have hfull : ∀ t : State, Only t (flushAllFast (pendFast t fn 1 cqid) fn) [.fns, .bus] := fun t =>
    only_trans (only_mono (modFast_only _ _ _ _) (by decide)) (foldl_only (fun u n => flushFast_only u fn n) _ _)
  have hkeeper : ∀ (t : State) (f : Fn → Fn), Only t (if cqid = 0 then modFn t fn f else t) [.fns, .bus] := by
    intro t f
    split
    · exact only_mono (modFn_only _ _ _) (by decide)
    · exact only_refl
  unfold joinWaiting
  rw [if_neg hids]
  dsimp only
  split
  · exact only_trans (hkeeper _ _) (only_trans (hwake _) (hfull _))
  · exact only_trans (hkeeper _ _) (hwake _)

theorem joinWaiting_joins {s : State} {fn cqid : Nat} {q : Cq} {ids : List Nat} (hids : ids ≠ []) :
    Only s (joinWaiting s fn cqid q ids) [.cmds, .cqs, .fns, .bus] ∧
      ∃ y, getCq (joinWaiting s fn cqid q ids) fn cqid = some y ∧ y.tail = q.tail ∧ y.head = q.head ∧ y.reserved = q.reserved ∧
        y.waiting = q.waiting ++ ids := by
  have hsignals := joinWaiting_signals (s := s) (fn := fn) (cqid := cqid) (q := q) hids
  refine ⟨only_union (waitNoted_only s fn cqid q ids) hsignals (by decide) (by decide), _,
    (getCq_of_only hsignals (by decide) (by decide) fn cqid).trans (getCq_putCq_self ..), rfl, rfl, rfl, rfl⟩

/-! ### COMPLETION_WRITE -/

theorem completionWrite_eq {s : State} {cid : Nat} {c : Cmd} {r : Result} {x : Sq} {q : Cq} (hserving : serving s = true)
    (hc : getCmd s cid = some c) (hphase : c.phase = .fin r) (horigin : c.origin = none) (hx : getSq s c.fn c.sq = some x)
    (hq : getCq s c.fn x.cq = some q) (hreq : canReq s c.fn = true) :
    exec (.completionWrite cid) s = .next (if ringCount q.tail q.head q.n = q.n || (q.waiting != [] && q.waiting.head? != some cid)
      then joinFinished s c.fn x.cq q else writeEntry s c r q) := by
  simp [exec, execCompletionWrite, hserving, completeWrite, hc, hphase, horigin, hx, hq, hreq]

theorem completionWrite_writes {s : State} {cid : Nat} {c : Cmd} {r : Result} {x : Sq} {q : Cq} (hserving : serving s = true)
    (hc : getCmd s cid = some c) (hphase : c.phase = .fin r) (horigin : c.origin = none) (hx : getSq s c.fn c.sq = some x)
    (hq : getCq s c.fn x.cq = some q) (hreq : canReq s c.fn = true) (hroom : ringCount q.tail q.head q.n ≠ q.n)
    (hfirst : q.waiting = [] ∨ q.waiting.head? = some cid) : exec (.completionWrite cid) s = .next (writeEntry s c r q) := by
  rw [completionWrite_eq hserving hc hphase horigin hx hq hreq, if_neg]
  rcases hfirst with h | h <;> simp [hroom, h]

theorem completionWrite_joins {s : State} {cid : Nat} {c : Cmd} {r : Result} {x : Sq} {q : Cq} (hserving : serving s = true)
    (hc : getCmd s cid = some c) (hphase : c.phase = .fin r) (horigin : c.origin = none) (hx : getSq s c.fn c.sq = some x)
    (hq : getCq s c.fn x.cq = some q) (hreq : canReq s c.fn = true)
    (hwait : ringCount q.tail q.head q.n = q.n ∨ (q.waiting ≠ [] ∧ q.waiting.head? ≠ some cid)) :
    exec (.completionWrite cid) s = .next (joinFinished s c.fn x.cq q) := by
  rw [completionWrite_eq hserving hc hphase horigin hx hq hreq, if_pos]
  simpa using hwait

end Sys2Proof.Machine

namespace Sys2Proof.Proofs

open Sys2Proof.Machine Sys2Proof.Claims

/-- Settles O28: an entry that has room is written and stays on the bus through all that follows it; one that has none joins those that
wait, with every other command that has finished, sorted as they finished. -/
theorem completionWritten : Obligations.CompletionWritten := by
  unfold Obligations.CompletionWritten
  intro s cid cq c r x q hserving hc hphase horigin hx hcq hq hreq
  subst hcq
  refine ⟨fun hroom hfirst => ?_, fun hwait hnew => ?_⟩
  · obtain rfl := getCmd_id hc
    exact ⟨_, completionWrite_writes hserving hc hphase horigin hx hq hreq hroom hfirst, writeEntry_writes hx⟩
  · have hmem : c ∈ joiners s c.fn x.cq q := by
      refine List.mem_filter.mpr ⟨mem_finishedOn_of_fin (mem_of_getCmd hc) hphase horigin hx, ?_⟩
      rw [getCmd_id hc, hnew]
      rfl
    have hids : (joiners s c.fn x.cq q).map (·.id) ≠ [] := List.ne_nil_of_mem (List.mem_map_of_mem hmem)
    obtain ⟨honly, y, hy, htail, hhead, hres, hwaiting⟩ := joinWaiting_joins (s := s) (fn := c.fn) (cqid := x.cq) (q := q) hids
    rw [← joinFinished_eq] at honly hy
    exact ⟨_, completionWrite_joins hserving hc hphase horigin hx hq hreq hwait, honly, y, _, hy, htail, hhead, hres, hwaiting,
      ⟨c, hmem, getCmd_id hc⟩, fun d hd => mem_finishedOn (List.mem_of_mem_filter hd), (finishedOn_sorted ..).filter _⟩

end Sys2Proof.Proofs
end

section
/-!
PROOFS. The plan store (O34): what LOAD_PLAN stores at once or after its boundary, what UNLOAD_PLAN drops, the working copies and the rewrite
of a standard plan (R131, R188, R204, R205, R209).
-/

namespace Sys2Proof.Machine

open Sys2Proof.Claims

theorem getCmd_modCmd_some {s : State} {cid : Nat} {c : Cmd} {f : Cmd → Cmd} (h : getCmd s cid = some c) (hf : ∀ c, (f c).id = c.id) :
    getCmd (modCmd s cid f) cid = some (f c) := by
  rw [getCmd_modCmd_self s cid f hf, h]
  rfl

theorem phase_modCmd_some {s : State} {cid : Nat} {c : Cmd} {f : Cmd → Cmd} {p : Phase} (h : getCmd s cid = some c)
    (hf : ∀ c, (f c).id = c.id) (hphase : (f c).phase = p) : (getCmd (modCmd s cid f) cid).map (·.phase) = some p := by
  rw [getCmd_modCmd_some h hf, Option.map_some, hphase]

/-! ### The engines when a command ends -/

theorem dropInput_eng (s : State) (cid : Nat) : (dropInput s cid).eng = s.eng := by
  unfold dropInput
  split
  · rfl
  · dsimp only
    split <;> rfl

theorem issueOut_eng (s : State) (cid : Nat) : (issueOut s cid).eng = s.eng := by
  unfold issueOut
  split
  · rfl
  · split
    · split
      · exact (congrArg State.eng (outputWrites_keeps ..) :)
      · rfl
    · rfl

/-- A command that has finished, before the copies without a user go. -/
def finishedIn (s : State) (cid : Nat) (r : Result) : State :=
  issueOut (modCmd (releaseLves (dropInput s cid) cid) cid fun c => finished s c r) cid

theorem finishedIn_eng (s : State) (cid : Nat) (r : Result) : (finishedIn s cid r).eng = (releaseLves (dropInput s cid) cid).eng :=
  issueOut_eng ..

theorem finish_plans (s : State) (cid : Nat) (r : Result) : (finish s cid r).eng.plans = s.eng.plans :=
  (congrArg Eng.plans (finishedIn_eng s cid r)).trans (congrArg Eng.plans (dropInput_eng s cid) :)

/-- What is no key of a map is none of its entries that are kept. -/
theorem Map.get?_keep_none {α : Type} {m : Map α} {x : Nat} (p : Nat → α → Bool) (h : Map.get? m x = none) :
    Map.get? (Map.keep m p) x = none := by
  induction m with
  | nil => rfl
  | cons e m ih =>
    obtain ⟨k, v⟩ := e
    have hk : k ≠ x := fun hk => by simp [Map.get?, hk] at h
    have hm : Map.get? m x = none := by simpa [Map.get?, hk] using h
    have hcons : Map.keep ((k, v) :: m) p = if p k v then (k, v) :: Map.keep m p else Map.keep m p := List.filter_cons
    rw [hcons]
    split
    · simpa [Map.get?, hk] using ih hm
    · exact ih hm

/-- The end of a command makes no working copy. -/
theorem finish_copies_none {s : State} {id : Nat} (cid : Nat) (r : Result) (h : Map.get? s.eng.copies id = none) :
    Map.get? (finish s cid r).eng.copies id = none := by
  have hcopies : (finishedIn s cid r).eng.copies = s.eng.copies :=
    (congrArg Eng.copies (finishedIn_eng s cid r)).trans (congrArg Eng.copies (dropInput_eng s cid) :)
  have hreaped : (finish s cid r).eng.copies = Map.keep (finishedIn s cid r).eng.copies fun id _ =>
      !((finishedIn s cid r).eng.stale.contains id) || (finishedIn s cid r).cmds.any fun c => onCopyOf c id := rfl
  rw [hreaped, hcopies]
  exact Map.get?_keep_none _ h

/-! ### What a plan in the store is (R131) -/

/-- The state with a plan in the store. -/
def planStored (s : State) (b : Bytes) : State :=
  let s1 := gmFresh (dropPlan s (le b 8 4)) (.planStore (le b 8 4) 0)
  { s1 with eng := { s1.eng with plans := Map.put s1.eng.plans (le b 8 4) b } }

theorem storePlan_eq (s : State) (cid : Nat) (b : Bytes) : storePlan s cid b = done (planStored s b) cid 0 := rfl

theorem dropPlan_only (s : State) (id : Nat) : Only s (dropPlan s id) [.eng] := only_of_eng

theorem planStored_only (s : State) (b : Bytes) : Only s (planStored s b) [.eng, .boot] := fun p hp => by
  cases p
  case eng | boot => simp at hp
  all_goals rfl

theorem dropPlan_plans (s : State) (id k : Nat) :
    Map.get? (dropPlan s id).eng.plans k = if k = id then none else Map.get? s.eng.plans k := Map.get?_del ..

theorem planStored_plans (s : State) (b : Bytes) (k : Nat) :
    Map.get? (planStored s b).eng.plans k = if k = le b 8 4 then some b else Map.get? s.eng.plans k := by
  have hplans : (planStored s b).eng.plans = Map.put (dropPlan s (le b 8 4)).eng.plans (le b 8 4) b := rfl
  rw [hplans, Map.get?_put]
  split
  · rfl
  · rename_i hk
    rw [dropPlan_plans, if_neg hk]

theorem planStored_copies (s : State) (b : Bytes) : Map.get? (planStored s b).eng.copies (le b 8 4) = none :=
  (Map.get?_del _ _ _).trans (if_pos rfl)

theorem storePlan_stores {s : State} {cid : Nat} {c : Cmd} (b : Bytes) (hget : getCmd s cid = some c) (hc : Settled c) :
    Only s (storePlan s cid b) [.eng, .cmds, .boot] ∧ Ended (storePlan s cid b) cid .ok 0 [] ∧
      Map.get? (storePlan s cid b).eng.plans (le b 8 4) = some b ∧ Map.get? (storePlan s cid b).eng.copies (le b 8 4) = none ∧
      ∀ k, k ≠ le b 8 4 → Map.get? (storePlan s cid b).eng.plans k = Map.get? s.eng.plans k := by
  rw [storePlan_eq]
  have hplans : (done (planStored s b) cid 0).eng.plans = (planStored s b).eng.plans := finish_plans ..
  obtain ⟨honly, -, hended⟩ := done_after (planStored_only s b) (by decide) hget hc
  refine ⟨only_mono honly (by decide), hended, ?_, finish_copies_none cid _ (planStored_copies s b), fun k hk => ?_⟩
  · rw [hplans, planStored_plans, if_pos rfl]
  · rw [hplans, planStored_plans, if_neg hk]

/-! ### LOAD_PLAN (R131, R188, R209) -/

/-- The checks of LOAD_PLAN before it reads its input. -/
def loadPlanChecks (s : State) (c : Cmd) : Err :=
  firstErr [keeperOperands c [], require (decide (256 ≤ inLen c.entry)) .badLength 256, planErr s c]

/-- What LOAD_PLAN does with its input. -/
def loadPlanEffect (s : State) (cid : Nat) (c : Cmd) (d : Bytes) : State :=
  if inLen c.entry ≠ le d 16 4 + 4627 then fail s cid .badLength (le d 16 4 + 4627)
  else if !segsDone c || !running s then modCmd s cid fun x => { x with input := some d }
  else loadPlan s cid d

theorem loadPlan_starts {s : State} {cid : Nat} (h : waiting s cid = none) :
    exec (.loadPlan cid) s = .next (runInput s cid 0x50 (loadPlanChecks s) (loadPlanEffect s cid)) := by
  have hexec : exec (.loadPlan cid) s = execLoadPlan cid s := rfl
  rw [hexec, execLoadPlan, h]
  rfl

theorem loadPlan_waits {s : State} {cid : Nat} {c : Cmd} (h : waiting s cid = some c) :
    exec (.loadPlan cid) s = .next (loadLater s c) := by
  have hexec : exec (.loadPlan cid) s = execLoadPlan cid s := rfl
  rw [hexec, execLoadPlan, h]

/-- A LOAD_PLAN whose input is there, of the right length, with its segments run, comes to the checks of the image. -/
theorem loadPlan_runs {s : State} {cid : Nat} {c : Cmd} {d : Bytes} (hturn : Turn s cid 0x50 c) (hin : c.input = some d)
    (hwait : waiting s cid = none) (hlen : inLen c.entry = le d 16 4 + 4627) (hmin : 256 ≤ inLen c.entry) (hsegs : segsDone c = true)
    (hrun : running s = true) : exec (.loadPlan cid) s = .next (loadPlan s cid d) := by
  obtain ⟨hgo, hres, -⟩ := hturn
  have hpre : loadPlanChecks s c = none := by
    rw [loadPlanChecks, keeperOperands_none hres]
    simp [firstErr, require, planErr, hmin, hin]
  rw [loadPlan_starts hwait, runInput_of_turn hgo hpre (.inl (by simp [hin])), hin]
  simp [loadPlanEffect, hlen, hsegs, hrun]

/-- The image is signed by the owner root. -/
abbrev planSigned (s : State) (d : Bytes) : Prop :=
  (ownerRoot s).any (fun pk => Config.verify (0x1003, 0, 0) pk [] (slice d 0 (le d 16 4)) (slice d (le d 16 4) 4627)) = true

/-- LOAD_PLAN of a plan that the store does not hold. -/
theorem loadPlan_new {s : State} {cid id : Nat} {c : Cmd} {d b : Bytes} (hturn : Turn s cid 0x50 c) (hin : c.input = some d)
    (hwait : waiting s cid = none) (hlen : inLen c.entry = le d 16 4 + 4627) (hmin : 256 ≤ inLen c.entry) (hsegs : segsDone c = true)
    (hrun : running s = true) (hb : b = slice d 0 (le d 16 4)) (hid : id = le b 8 4) (hbody : bodyOk b = true)
    (hfull : storeFull s id b.length = false) (hopen : planOpen s id = false) (hnew : Map.get? s.eng.plans id = none) :
    Completes (.loadPlan cid) s fun t => Only s t [.eng, .cmds, .boot] ∧
      if (ownerRoot s).any (fun pk => Config.verify (0x1003, 0, 0) pk [] b (slice d (le d 16 4) 4627)) = true then
        Ended t cid .ok 0 [] ∧ Map.get? t.eng.plans id = some b ∧ Map.get? t.eng.copies id = none ∧
        ∀ k, k ≠ id → Map.get? t.eng.plans k = Map.get? s.eng.plans k
      else Ended t cid .keyDenied 1 [] ∧ t.eng.plans = s.eng.plans := by
  subst hid hb
  have hexec := loadPlan_runs hturn hin hwait hlen hmin hsegs hrun
  obtain ⟨hgo, -, hc⟩ := hturn
  have hget := getCmd_of_turn hgo
  by_cases hsigned : planSigned s d
  · have hload : loadPlan s cid d = storePlan s cid (slice d 0 (le d 16 4)) := by
      simp [loadPlan, hsigned, hbody, hfull, hopen, hnew]
    rw [hload] at hexec
    obtain ⟨honly, hkept⟩ := storePlan_stores (slice d 0 (le d 16 4)) hget hc
    refine ⟨_, hexec, honly, ?_⟩
    rw [if_pos hsigned]
    exact hkept
  · have hload : loadPlan s cid d = fail s cid .keyDenied 1 := by simp [loadPlan, hsigned]
    rw [hload] at hexec
    obtain ⟨honly, hended⟩ := fail_settled .keyDenied 1 hget hc
    refine ⟨_, hexec, only_mono honly (by decide), ?_⟩
    rw [if_neg hsigned]
    exact ⟨hended, finish_plans ..⟩

/-- LOAD_PLAN of a plan that the store holds, or that open commands name, waits for its boundary. -/
theorem loadPlan_replaces {s : State} {cid id : Nat} {c : Cmd} {d b : Bytes} (hturn : Turn s cid 0x50 c) (hin : c.input = some d)
    (hwait : waiting s cid = none) (hlen : inLen c.entry = le d 16 4 + 4627) (hmin : 256 ≤ inLen c.entry) (hsegs : segsDone c = true)
    (hrun : running s = true) (hb : b = slice d 0 (le d 16 4)) (hid : id = le b 8 4) (hbody : bodyOk b = true)
    (hfull : storeFull s id b.length = false) (hused : planOpen s id = true ∨ (Map.get? s.eng.plans id).isSome = true)
    (hsigned : (ownerRoot s).any (fun pk => Config.verify (0x1003, 0, 0) pk [] b (slice d (le d 16 4) 4627)) = true) :
    Completes (.loadPlan cid) s fun t => Only s t [.eng, .cmds] ∧ t.eng.plans = s.eng.plans ∧
      (getCmd t cid).map (·.phase) = some .effected := by
  subst hid hb
  have hexec := loadPlan_runs hturn hin hwait hlen hmin hsegs hrun
  have hload : loadPlan s cid d = addChange (modCmd s cid fun c => { c with phase := .effected }) 0 cid := by
    simp [loadPlan, hsigned, hbody, hfull, hused]
  rw [hload] at hexec
  have hnoted : Only s (addChange (modCmd s cid fun c => { c with phase := .effected }) 0 cid) [.eng, .cmds] :=
    only_union (modCmd_only s cid _) only_of_eng (by decide) (by decide)
  have hphase : (getCmd (modCmd s cid fun c => { c with phase := .effected }) cid).map (·.phase) = some .effected :=
    phase_modCmd_some (getCmd_of_turn hturn.1) (fun _ => rfl) rfl
  exact ⟨_, hexec, hnoted, rfl, hphase⟩

theorem getCmd_of_waiting {s : State} {cid : Nat} {c : Cmd} (h : waiting s cid = some c) : getCmd s cid = some c :=
  (Option.filter_eq_some_iff.mp h).1

/-- A LOAD_PLAN that waited stores its plan at the boundary, once no open command names the plan it replaces. -/
theorem loadPlan_atBoundary {s : State} {cid id : Nat} {c : Cmd} {d b : Bytes} (hwait : waiting s cid = some c) (hc : Settled c)
    (hop : opcode c.entry = 0x50) (hrun : running s = true) (hin : c.input = some d) (hb : b = slice d 0 (le d 16 4)) (hid : id = le b 8 4)
    (hopen : planOpen s id = false) (hdue : changeDue s 0 cid = true) (hfull : storeFull s id b.length = false) :
    Completes (.loadPlan cid) s fun t => Only s t [.eng, .cmds, .boot] ∧ Ended t cid .ok 0 [] ∧
      Map.get? t.eng.plans id = some b ∧ Map.get? t.eng.copies id = none ∧
      ∀ k, k ≠ id → Map.get? t.eng.plans k = Map.get? s.eng.plans k := by
  subst hid hb
  have hget := getCmd_of_waiting hwait
  obtain rfl := getCmd_id hget
  have hserving : serving s = true := by
    unfold running at hrun
    unfold serving
    rcases Bool.or_eq_true_iff.mp hrun with h | h <;> simp [h]
  have hlater : loadLater s c = storePlan (dropChange s 0 c.id) c.id (slice d 0 (le d 16 4)) := by
    simp [loadLater, hop, hserving, hin, hopen, hdue, hfull]
  have hexec := loadPlan_waits hwait
  rw [hlater] at hexec
  obtain ⟨honly, hkept⟩ := storePlan_stores (s := dropChange s 0 c.id) (slice d 0 (le d 16 4)) hget hc
  exact ⟨_, hexec, only_union only_of_eng honly (ps := [.eng]) (by decide) (by decide), hkept⟩

theorem loadPlan_stillOpen {s : State} {cid : Nat} {c : Cmd} {d : Bytes} (hwait : waiting s cid = some c)
    (hin : c.input = some d) (hopen : planOpen s (le (slice d 0 (le d 16 4)) 8 4) = true) : exec (.loadPlan cid) s = .next s := by
  rw [loadPlan_waits hwait]
  simp [loadLater, hin, hopen]

/-! ### UNLOAD_PLAN (R131) -/

/-- The checks of UNLOAD_PLAN. -/
def unloadPlanChecks (s : State) (c : Cmd) : Err :=
  firstErr [keeperOperands c (need 40 (decide (0x80000000 ≤ le c.entry 40 4))),
    require ((Map.get? s.eng.plans (le c.entry 40 4)).isSome) .planMissing 0]

/-- What UNLOAD_PLAN does: it drops the plan, or waits for its open commands. -/
def unloadPlanEffect (s : State) (cid : Nat) (c : Cmd) : State :=
  if planOpen s (le c.entry 40 4) then modCmd s cid fun x => { x with phase := .effected } else done (dropPlan s (le c.entry 40 4)) cid 0

theorem unloadPlan_starts {s : State} {cid : Nat} (h : waiting s cid = none) :
    exec (.unloadPlan cid) s = .next (runTurn s cid 0x51 (unloadPlanChecks s) (unloadPlanEffect s cid)) := by
  have hexec : exec (.unloadPlan cid) s = execUnloadPlan cid s := rfl
  rw [hexec, execUnloadPlan, h]
  rfl

theorem unloadPlan_unloads {s : State} {cid id : Nat} {c : Cmd} (hturn : Turn s cid 0x51 c) (hwait : waiting s cid = none)
    (hid : id = le c.entry 40 4) (hlo : 0x80000000 ≤ id) (hhas : (Map.get? s.eng.plans id).isSome = true) (hopen : planOpen s id = false) :
    Completes (.unloadPlan cid) s fun t => Only s t [.eng, .cmds] ∧ Ended t cid .ok 0 [] ∧
      Map.get? t.eng.plans id = none ∧ ∀ k, k ≠ id → Map.get? t.eng.plans k = Map.get? s.eng.plans k := by
  subst hid
  obtain ⟨hgo, hres, hc⟩ := hturn
  have hpre : unloadPlanChecks s c = none := by
    rw [unloadPlanChecks, keeperOperands_nil hres (need_nil 40 (decide_eq_true hlo)), hhas]
    rfl
  have hexec := unloadPlan_starts hwait
  rw [runTurn_of_turn hgo hpre, unloadPlanEffect, hopen, if_neg Bool.false_ne_true] at hexec
  obtain ⟨honly, -, hended⟩ := done_after (dropPlan_only s (le c.entry 40 4)) (by decide) (getCmd_of_turn hgo) hc
  have hplans : (done (dropPlan s (le c.entry 40 4)) cid 0).eng.plans = (dropPlan s (le c.entry 40 4)).eng.plans := finish_plans ..
  refine ⟨_, hexec, only_mono honly (by decide), hended, ?_, fun k hk => ?_⟩
  · rw [hplans, dropPlan_plans, if_pos rfl]
  · rw [hplans, dropPlan_plans, if_neg hk]

/-! ### Working copies and standard plans (R204, R205) -/

theorem makeCopyRoom_fits {s : State} {need : Nat} {m : Map (Nat × Nat)} (n : Nat) (h : copyBytes m + need ≤ Config.planMemory) :
    makeCopyRoom s need n m = some m := by
  cases n <;> exact if_pos h

/-- A plan that a command uses is copied in; where the copy fits, no other one goes. -/
theorem planCopyIn_copies {s : State} {id : Nat} (hserving : serving s = true) (hresident : planResident s id = true)
    (huses : usesPlan s id = true) (hnone : Map.get? s.eng.copies id = none)
    (hroom : copyBytes s.eng.copies + (planBody s id).length ≤ Config.planMemory) (hread : gmReadPlan s id = none) :
    Completes (.planCopyIn id) s fun t => Only s t [.eng, .stamp] ∧
      (Map.get? t.eng.copies id).map (·.1) = some (planBody s id).length ∧ { t.eng with copies := s.eng.copies } = s.eng := by
  have hexec : exec (.planCopyIn id) s = .next { s with
      stamp := s.stamp + 1,
      eng := { s.eng with copies := Map.put s.eng.copies id ((planBody s id).length, s.stamp + 1) } } := by
    have hdef : exec (.planCopyIn id) s = execPlanCopyIn id s := rfl
    rw [hdef, execPlanCopyIn]
    simp only [hserving, hresident, huses, hnone, hread, makeCopyRoom_fits _ hroom, Option.isNone_none, Bool.and_self, if_true]
  refine ⟨_, hexec, fun p hp => ?_, ?_, rfl⟩
  · cases p
    case eng | stamp => simp at hp
    all_goals rfl
  · rw [Map.get?_put_self]
    rfl

theorem contains_filter_ne (l : List Nat) (x k : Nat) : (l.filter (· != x)).contains k = (k != x && l.contains k) := by
  rw [Bool.eq_iff_iff]
  simp [and_comm]

/-- A standard plan that was missing is resident again. -/
theorem planRewrite_rewrites {s : State} {id : Nat} (hmissing : s.eng.missing.contains id = true) :
    Completes (.planRewrite id) s fun t => Only s t [.eng, .boot] ∧ t.eng.missing.contains id = false ∧
      (∀ k, k ≠ id → t.eng.missing.contains k = s.eng.missing.contains k) ∧ { t.eng with missing := s.eng.missing } = s.eng := by
  have hexec : exec (.planRewrite id) s =
      .next (gmFresh { s with eng := { s.eng with missing := s.eng.missing.filter (· != id) } } (.planStore id 0)) :=
    congrArg Host.Outcome.next (if_pos hmissing)
  refine ⟨_, hexec, fun p hp => ?_, ?_, fun k hk => ?_, rfl⟩
  · cases p
    case eng | boot => simp at hp
    all_goals rfl
  · exact (contains_filter_ne _ id id).trans (by simp)
  · exact (contains_filter_ne _ id k).trans (by simp [hk])

end Sys2Proof.Machine

namespace Sys2Proof.Proofs

open Sys2Proof.Machine Sys2Proof.Claims

/-- Settles O34: LOAD_PLAN of a new plan, after its boundary, of one it replaces and while that one is open; UNLOAD_PLAN; a copy that fits; a
rewrite. -/
theorem planStore : Obligations.PlanStore := by
  unfold Obligations.PlanStore
  exact fun s cid id c d b => ⟨loadPlan_new, loadPlan_atBoundary, loadPlan_replaces,
    fun hwait _ => loadPlan_stillOpen hwait, unloadPlan_unloads, planCopyIn_copies, planRewrite_rewrites⟩

end Sys2Proof.Proofs
end

section
/-!
PROOFS. The berth commands on this device (O33): where BERTH_ALLOC places a berth, what BERTH_FREE and its end leave, the view BERTH_QUERY
answers, and the move that BERTH_MOVE notes and sends (R129, R130, R284 to R287, R292, R421).
-/

namespace Sys2Proof.Machine

open Sys2Proof.Claims

/-! ### Little-endian fields (R3) -/

theorem leBytes_length (n v : Nat) : (leBytes n v).length = n := by
  induction n generalizing v with
  | zero => rfl
  | succ n ih => rw [leBytes, List.length_cons, ih]

theorem leVal_leBytes (n v : Nat) : leVal (leBytes n v) = v % 256 ^ n := by
  induction n generalizing v with
  | zero => rw [Nat.pow_zero, Nat.mod_one]; rfl
  | succ n ih =>
    have hcons : leVal (leBytes (n + 1) v) = (BitVec.ofNat 8 v).toNat + 256 * leVal (leBytes n (v / 256)) := rfl
    rw [hcons, ih, BitVec.toNat_ofNat, Nat.pow_succ' (n := n)]
    exact Nat.mod_mul.symm

/-- The field that stands after `off` bytes. -/
theorem slice_field {a b r : Bytes} {off n : Nat} (ha : a.length = off) (hb : b.length = n) : slice (a ++ (b ++ r)) off n = b := by
  rw [slice, List.drop_left' ha, List.take_left' hb]

/-! ### The berth of a keeper command -/

theorem runBerth_of_turn {s : State} {cid op i : Nat} {c : Cmd} {b : Berth} {pre : Cmd → Err} {may : Cmd → Nat → Nat → Bool}
    {f : Cmd → Nat → Berth → State} (h : BerthTurn s cid op c may i b) (hpre : pre c = none) :
    runBerth s cid op pre may f = f { c with berth := some i } i b := by
  obtain ⟨⟨hgo, -, -⟩, hremote, hfound, -⟩ := h
  rw [runBerth, hgo]
  dsimp only
  rw [hremote, hpre, hfound]
  rfl

theorem modBerth_only (s : State) (i : Nat) (f : Berth → Berth) : Only s (modBerth s i f) [.keys] := fun p hp => by
  cases p
  case keys => simp at hp
  all_goals rfl

/-! ### BERTH_ALLOC (R129, R284 to R287) -/

/-- The checks of BERTH_ALLOC. -/
def berthAllocChecks (s : State) (c : Cmd) : Err :=
  firstErr [keeperOperands c (allocBad s c), require (inLen c.entry == 0 || inLen c.entry == 32) .badLength 32]

/-- What BERTH_ALLOC does with its policy, or without one. -/
def berthAllocEffect (s : State) (cid : Nat) (c : Cmd) (d : Bytes) : State :=
  if !policyOk d then fail s cid .badParam 0xFFFF
  else if (getFn s (allocOwner c)).berthLim ≤ berthCharge s (allocOwner c) then fail s cid .busy 1
  else match nextIndex s with
    | none => fail s cid .busy 0x0A
    | some i => done (placeBerth s i (newBerth s (allocOwner c) (le c.entry 42 1) d)) cid (mkHandle s.topo.position 0 i)

theorem berthAlloc_eq (s : State) (cid : Nat) :
    exec (.berthAlloc cid) s = .next (runInput s cid 0x40 (berthAllocChecks s) (berthAllocEffect s cid)) := rfl

theorem placeBerth_only (s : State) (i : Nat) (b : Berth) : Only s (placeBerth s i b) [.keys, .stamp, .free, .boot] := fun p hp => by
  unfold placeBerth
  dsimp only
  cases p
  case keys | stamp | free | boot => simp at hp
  all_goals split <;> rfl

theorem placeBerth_keys (s : State) (i : Nat) (b : Berth) :
    (placeBerth s i b).keys.lastBerth = i ∧ (placeBerth s i b).keys.keys = s.keys.keys := by
  unfold placeBerth
  dsimp only
  split <;> exact ⟨rfl, rfl⟩

/-- A berth stands at the index, on chip or spilled under the first version. -/
theorem placeBerth_self (s : State) (i : Nat) (b : Berth) :
    ∃ spilled version, Map.get? (placeBerth s i b).keys.berths i =
      some { b with spilled := spilled, version := version, used := s.stamp + 1 } := by
  unfold placeBerth
  dsimp only
  split
  · exact ⟨_, _, Map.get?_put_self ..⟩
  · exact ⟨_, _, Map.get?_put_self ..⟩

theorem placeBerth_ne (s : State) {i j : Nat} (b : Berth) (h : j ≠ i) :
    Map.get? (placeBerth s i b).keys.berths j = Map.get? s.keys.berths j := by
  unfold placeBerth
  dsimp only
  split
  · exact Map.get?_put_ne _ _ h
  · exact (Map.get?_put_ne _ _ h).trans (Map.get?_put_ne _ _ h)

theorem berthAlloc_allocates {s : State} {cid i : Nat} {c : Cmd} (hturn : Turn s cid 0x40 c) (hbad : allocBad s c = [])
    (hlen : inLen c.entry = 0) (hin : c.input = none) (hlim : berthCharge s (allocOwner c) < (getFn s (allocOwner c)).berthLim)
    (hnext : nextIndex s = some i) :
    Completes (.berthAlloc cid) s fun t => Only s t [.keys, .stamp, .cmds, .eng, .free, .boot] ∧
      Ended t cid .ok (mkHandle s.topo.position 0 i) [] ∧ t.keys.lastBerth = i ∧ t.keys.keys = s.keys.keys ∧
      (∀ j, j ≠ i → Map.get? t.keys.berths j = Map.get? s.keys.berths j) ∧
      ∃ x, Map.get? t.keys.berths i = some x ∧ x.owner = allocOwner c ∧ x.bflags = BitVec.ofNat 8 (le c.entry 42 1) ∧
        x.slot0 = none ∧ x.slot1 = none ∧ x.opAllow = BitVec.ofNat 64 (2 ^ 40 - 1) ∧ x.nextSeq = 0 ∧ x.done = 0 := by
  obtain ⟨hgo, hres, hc⟩ := hturn
  have hpre : berthAllocChecks s c = none := by
    rw [berthAllocChecks, keeperOperands_nil hres hbad, hlen]
    rfl
  have heffect : berthAllocEffect s cid c [] =
      done (placeBerth s i (newBerth s (allocOwner c) (le c.entry 42 1) [])) cid (mkHandle s.topo.position 0 i) := by
    simp [berthAllocEffect, policyOk, hlim, hnext]
  have hexec := berthAlloc_eq s cid
  rw [runInput_of_turn hgo hpre (.inr hlen), hin, Option.getD_none, heffect] at hexec
  have hplaced := placeBerth_only s i (newBerth s (allocOwner c) (le c.entry 42 1) [])
  have hget := (getCmd_congr (hplaced .cmds (by decide)) cid).trans (getCmd_of_turn hgo)
  have hend : Only _ (done (placeBerth s i (newBerth s (allocOwner c) (le c.entry 42 1) [])) cid (mkHandle s.topo.position 0 i))
    [.cmds, .eng] := finish_settled hget hc rfl
  have hkeys := hend .keys (by decide)
  obtain ⟨hlast, hkept⟩ := placeBerth_keys s i (newBerth s (allocOwner c) (le c.entry 42 1) [])
  obtain ⟨sp, v, hself⟩ := placeBerth_self s i (newBerth s (allocOwner c) (le c.entry 42 1) [])
  refine ⟨_, hexec, only_union hplaced hend (by decide) (by decide), finish_phase _ cid _ c hget, (congrArg KeySt.lastBerth hkeys).trans hlast,
    (congrArg KeySt.keys hkeys).trans hkept, fun j hj => ?_, _, (congrArg (Map.get? ·.berths i) hkeys).trans hself, rfl, rfl, rfl, rfl, rfl, rfl, rfl⟩
  exact (congrArg (Map.get? ·.berths j) hkeys).trans (placeBerth_ne s _ hj)

/-! ### BERTH_FREE (R130, R292) -/

theorem berthFree_eq (s : State) (cid : Nat) :
    exec (.berthFree cid) s = .next (runBerth s cid 0x41 (fun c => keeperOperands c []) (ownerOrPf s) fun _ i _ =>
      modCmd (modBerth s i fun b => { b with freeing := true }) cid fun c => { c with phase := .effected, berth := some i }) := rfl

theorem berthFree_frees {s : State} {cid i : Nat} {c : Cmd} {b : Berth} (h : BerthTurn s cid 0x41 c (ownerOrPf s) i b) :
    Completes (.berthFree cid) s fun t => Only s t [.keys, .cmds] ∧ (getCmd t cid).map (·.phase) = some .effected ∧
      Map.get? t.keys.berths i = some { b with freeing := true } ∧
      ∀ j, j ≠ i → Map.get? t.keys.berths j = Map.get? s.keys.berths j := by
  have hexec := berthFree_eq s cid
  rw [runBerth_of_turn h (keeperOperands_none h.1.2.1)] at hexec
  obtain ⟨⟨hgo, -, -⟩, -, -, hberth⟩ := h
  have hcmd : getCmd (modBerth s i fun b => { b with freeing := true }) cid = some c := getCmd_of_turn hgo
  refine ⟨_, hexec, only_union (modBerth_only s i _) (modCmd_only _ cid _) (by decide) (by decide),
    phase_modCmd_some hcmd (fun _ => rfl) rfl, ?_, fun j hj => ?_⟩
  · exact (berth_modBerth s i i _).trans (by rw [if_pos rfl, hberth]; rfl)
  · exact (berth_modBerth s i j _).trans (if_neg hj)

theorem freeBerth_only (s : State) (i : Nat) : Only s (freeBerth s i) [.keys] := only_of_keys (freeBerth_keeps s i)

theorem berthFreeDone_frees {s : State} {cid i : Nat} {c : Cmd} (hget : getCmd s cid = some c) (hc : Settled c) (hserving : serving s = true)
    (hop : opcode c.entry = 0x41) (hphase : c.phase = .effected) (hberth : c.berth = some i)
    (hothers : ∀ x ∈ s.cmds, x.id ≠ cid → x.berth ≠ some i ∧ (x.id < cid → namesBerth s x i = false)) :
    Completes (.berthFreeDone cid) s fun t => Only s t [.keys, .cmds, .eng] ∧ Ended t cid .ok 0 [] ∧
      Map.get? t.keys.berths i = none ∧ ∀ j, j ≠ i → Map.get? t.keys.berths j = Map.get? s.keys.berths j := by
  have hfree : (s.cmds.any fun d => d.id != cid && (d.berth == some i || (decide (d.id < cid) && namesBerth s d i))) = false := by
    rw [List.any_eq_false]
    intro x hx
    by_cases hid : x.id = cid
    · simp [hid]
    · obtain ⟨hother, hnames⟩ := hothers x hx hid
      by_cases hlt : x.id < cid
      · simp [hother, hnames hlt]
      · simp [hother, hlt]
  have hexec : exec (.berthFreeDone cid) s = .next (done (freeBerth s i) cid 0) := by
    have hdef : exec (.berthFreeDone cid) s = execBerthFreeDone cid s := rfl
    rw [hdef, execBerthFreeDone, hget]
    simp [hserving, hop, hphase, hberth, hfree]
  obtain ⟨honly, hend, hended⟩ := done_after (freeBerth_only s i) (by decide) hget hc
  have hkeys := hend .keys (by decide)
  have hdel : ∀ j, Map.get? (freeBerth s i).keys.berths j = if j = i then none else Map.get? s.keys.berths j := fun j => Map.get?_del ..
  refine ⟨_, hexec, honly, hended, ?_, fun j hj => ?_⟩
  · exact (congrArg (Map.get? ·.berths i) hkeys).trans ((hdel i).trans (if_pos rfl))
  · exact (congrArg (Map.get? ·.berths j) hkeys).trans ((hdel j).trans (if_neg hj))

/-! ### BERTH_QUERY (R130, Table 88) -/

/-- The checks and the answer of BERTH_QUERY. -/
theorem berthQuery_eq (s : State) (cid : Nat) :
    exec (.berthQuery cid) s = .next (runBerth s cid 0x43 (fun c => keeperOperands c []) (ownerOrPf s) fun c i b =>
      if outCap c.entry < 128 then fail (nameBerth s cid i) cid .badLength 128
      else okOut (nameBerth s cid i) cid 0 (berthView s i b)) := rfl

/-- The end of a command without reads outstanding may put its output on the bus, and changes no function. -/
theorem finish_noReads {s : State} {cid : Nat} {c : Cmd} (r : Result) (h : getCmd s cid = some c) (hreads : inputReads c = 0) :
    Only s (finish s cid r) [.cmds, .eng, .bus] := by
  intro p hp
  by_cases hfns : p = .fns
  · subst hfns
    refine finish_fns s cid r fun d hd => ?_
    obtain rfl := Option.some.inj (h.symm.trans hd)
    exact hreads
  · exact only_of_run (finish_keeps s cid r) p (by simp_all)

theorem getCmd_nameBerth {s : State} {cid : Nat} {c : Cmd} (i : Nat) (h : getCmd s cid = some c) :
    getCmd (nameBerth s cid i) cid = some { c with berth := some i } := getCmd_modCmd_some h fun _ => rfl

theorem nameBerth_only (s : State) (cid i : Nat) : Only s (nameBerth s cid i) [.cmds] := modCmd_only _ _ _

theorem mkHandle_lt (pos epoch idx : Nat) : mkHandle pos epoch idx < 2 ^ 32 := by
  unfold mkHandle
  omega

theorem viewBytes_length (h : Nat) (b : Berth) : (viewBytes h b).length = 128 := by
  simp [viewBytes, leBytes_length, zeros]

/-- The first fields of the public view. -/
theorem viewBytes_fields (h : Nat) (b : Berth) : ∃ r, viewBytes h b =
    leBytes 4 h ++ (leBytes 2 b.owner ++ (leBytes 1 b.bflags.toNat ++
      (leBytes 1 (b2n b.spilled + 2 * b2n b.lock0 + 4 * b2n b.lock1) ++ (leBytes 4 (slotWord b.slot0) ++ (leBytes 4 (slotWord b.slot1) ++ r))))) := by
  simp only [viewBytes, List.append_assoc]
  exact ⟨_, rfl⟩

theorem viewBytes_handle {h : Nat} (b : Berth) (hlt : h < 2 ^ 32) : le (viewBytes h b) 0 4 = h := by
  obtain ⟨r, hr⟩ := viewBytes_fields h b
  have hfield : slice (viewBytes h b) 0 4 = leBytes 4 h := by
    rw [hr]
    exact slice_field (a := []) rfl (leBytes_length 4 h)
  rw [le, hfield, leVal_leBytes]
  exact Nat.mod_eq_of_lt hlt

theorem viewBytes_owner (h : Nat) (b : Berth) : le (viewBytes h b) 4 2 = b.owner % 65536 := by
  obtain ⟨r, hr⟩ := viewBytes_fields h b
  rw [le, hr, slice_field (leBytes_length 4 h) (leBytes_length 2 b.owner)]
  exact leVal_leBytes 2 b.owner

theorem viewBytes_slot1 (h : Nat) (b : Berth) : slice (viewBytes h b) 12 4 = leBytes 4 (b.slot1.getD 0xFFFFFFFF) := by
  obtain ⟨r, hr⟩ := viewBytes_fields h b
  rw [hr, ← List.append_assoc, ← List.append_assoc, ← List.append_assoc, ← List.append_assoc]
  exact slice_field (by simp [leBytes_length]) (leBytes_length 4 (slotWord b.slot1))

theorem berthQuery_answers {s : State} {cid i : Nat} {c : Cmd} {b : Berth} (h : BerthTurn s cid 0x43 c (ownerOrPf s) i b)
    (hcap : 128 ≤ outCap c.entry) :
    Completes (.berthQuery cid) s fun t => Only s t [.cmds, .eng, .bus] ∧
      ∃ out, Ended t cid .ok 0 out ∧ out.length = 128 ∧ le out 0 4 = berthHandle s i b ∧ le out 4 2 = b.owner % 65536 ∧
        slice out 12 4 = leBytes 4 (b.slot1.getD 0xFFFFFFFF) := by
  have hexec := berthQuery_eq s cid
  rw [runBerth_of_turn h (keeperOperands_none h.1.2.1), if_neg (by simpa using hcap)] at hexec
  obtain ⟨⟨hgo, -, hreads, -, -⟩, -, -, -⟩ := h
  have hget := getCmd_nameBerth i (getCmd_of_turn hgo)
  have hend : Only (nameBerth s cid i) (okOut (nameBerth s cid i) cid 0 (berthView s i b)) [.cmds, .eng, .bus] := finish_noReads _ hget hreads
  exact ⟨_, hexec, only_trans (only_mono (nameBerth_only s cid i) (by decide)) hend, berthView s i b, finish_phase _ cid _ _ hget,
    viewBytes_length .., viewBytes_handle b (mkHandle_lt ..), viewBytes_owner .., viewBytes_slot1 ..⟩

theorem berthQuery_short {s : State} {cid i : Nat} {c : Cmd} {b : Berth} (h : BerthTurn s cid 0x43 c (ownerOrPf s) i b)
    (hcap : outCap c.entry < 128) :
    Completes (.berthQuery cid) s fun t => Only s t [.cmds, .eng] ∧ Ended t cid .badLength 128 [] := by
  have hexec := berthQuery_eq s cid
  rw [runBerth_of_turn h (keeperOperands_none h.1.2.1), if_pos hcap] at hexec
  obtain ⟨⟨hgo, -, hc⟩, -, -, -⟩ := h
  obtain ⟨honly, hended⟩ := fail_settled .badLength 128 (getCmd_nameBerth i (getCmd_of_turn hgo)) hc
  exact ⟨_, hexec, only_trans (only_mono (nameBerth_only s cid i) (by decide)) honly, hended⟩

/-! ### BERTH_MOVE (R421) -/

/-- The checks of BERTH_MOVE. -/
def berthMoveChecks (s : State) (c : Cmd) : Err :=
  keeperOperands c (need 40 (le c.entry 40 1 == s.topo.position || linksTo s (le c.entry 40 1) != []))

theorem berthMove_runs {s : State} {cid i : Nat} {c : Cmd} {b : Berth} (h : BerthTurn s cid 0x42 c (moverOf s) i b) (hphase : c.phase = .run)
    (hpos : (le c.entry 40 1 == s.topo.position || linksTo s (le c.entry 40 1) != []) = true) :
    exec (.berthMove cid) s = .next (moveStart s { c with berth := some i } i b) := by
  have hdef : exec (.berthMove cid) s = execBerthMove cid s := rfl
  have hfirst : ((getCmd s cid).any fun c => c.phase == .effected) = false := by
    rw [getCmd_of_turn h.1.1]
    simp [hphase]
  have hrun : runBerth s cid 0x42 (berthMoveChecks s) (moverOf s) (fun c i b => moveStart s c i b) =
      moveStart s { c with berth := some i } i b := runBerth_of_turn h (keeperOperands_nil h.1.2.1 (need_nil 40 hpos))
  rw [hdef, execBerthMove, hfirst, if_neg Bool.false_ne_true, ← hrun]
  rfl

theorem berthMove_stays {s : State} {cid i : Nat} {c : Cmd} {b : Berth} (h : BerthTurn s cid 0x42 c (moverOf s) i b) (hphase : c.phase = .run)
    (hpos : le c.entry 40 1 = s.topo.position) :
    Completes (.berthMove cid) s fun t => Only s t [.cmds, .eng] ∧ Ended t cid .ok (berthHandle s i b) [] := by
  have hexec := berthMove_runs h hphase (by simp [hpos])
  obtain ⟨⟨hgo, -, hc⟩, -, -, -⟩ := h
  have hcmd := getCmd_of_turn hgo
  obtain rfl := getCmd_id hcmd
  have hget := getCmd_nameBerth i hcmd
  have hstart : moveStart s { c with berth := some i } i b = done (nameBerth s c.id i) c.id (berthHandle s i b) := if_pos hpos
  rw [hstart] at hexec
  have hend : Only (nameBerth s c.id i) (done (nameBerth s c.id i) c.id (berthHandle s i b)) [.cmds, .eng] := finish_settled hget hc rfl
  exact ⟨_, hexec, only_trans (only_mono (nameBerth_only s c.id i) (by decide)) hend, finish_phase _ c.id _ _ hget⟩

/-- The state in which a BERTH_MOVE has had its turn: the berth's commands wait from here on. -/
def moveBegun (s : State) (cid i : Nat) : State :=
  modBerth (modCmd s cid fun x => { x with phase := .effected, berth := some i }) i fun x => { x with moving := some cid }

/-- The move that a BERTH_MOVE notes. -/
def notedMove (s : State) (c : Cmd) (i k : Nat) : Move :=
  { id := s.topo.position + 8 * s.topo.nextMove, cid := c.id, index := i, target := le c.entry 40 1, link := k, committed := false,
    aborted := false, handle := 0 }

/-- The state with the move noted. -/
def moveNoted (s : State) (c : Cmd) (i k : Nat) : State :=
  { s with topo := { s.topo with moves := s.topo.moves ++ [notedMove s c i k], nextMove := s.topo.nextMove + 1 } }

/-- A link that a move may use is neither failed nor unused. -/
theorem linkFor_live {s : State} {pos idx k : Nat} (h : linkFor s pos idx = some k) :
    ∃ j ∈ linksTo s pos, carrying (getLink s j) = true ∨ (getLink s j).st = .retraining := by
  have hfound : (linksTo s pos).filter (fun k => carrying (getLink s k) || (getLink s k).st == .retraining) ≠ [] := by
    intro hnone
    rw [linkFor, hnone] at h
    cases h
  obtain ⟨j, hj⟩ := List.exists_mem_of_ne_nil _ hfound
  obtain ⟨hmem, hlive⟩ := List.mem_filter.mp hj
  exact ⟨j, hmem, by simpa using hlive⟩

/-- Steps 1 to 3 of R421 passed: the move is noted, and the berth sent with its keys. -/
theorem moveTry_sends {s : State} {c : Cmd} {i k : Nat} {b : Berth} (hwait : moveWaits s c.id i b = false) (herr : moveErr s i b = none)
    (hlink : linkFor s (le c.entry 40 1) i = some k) : ∃ m, moveTry s c i b = linkSend (moveNoted s c i k) k m := by
  have hlive : ((linksTo s (le c.entry 40 1)).all fun k => (getLink s k).st == .failed || (getLink s k).st == .unused) = false := by
    obtain ⟨j, hj, hst⟩ := linkFor_live hlink
    refine List.all_eq_false.mpr ⟨j, hj, ?_⟩
    rcases hst with hst | hst
    · unfold carrying at hst
      cases hj : (getLink s j).st <;> simp_all
    · simp [hst]
  unfold moveTry
  dsimp only
  rw [hwait, herr, hlive, hlink]
  exact ⟨_, rfl⟩

theorem linkSend_only (s : State) (k : Nat) (m : LinkMsg) : Only s (linkSend s k m) [.topo, .bus, .free] :=
  only_of_keeps (linkSend_keeps s k m) hideLinks_only

theorem linkSend_moves (s : State) (k : Nat) (m : LinkMsg) : (linkSend s k m).topo.moves = s.topo.moves := by
  unfold linkSend
  split
  · rfl
  · split <;> rfl

theorem Map.filter_modify_ne {α : Type} (m : Map α) (x : Nat) (f : α → α) :
    (Map.modify m x f).filter (fun e => e.1 != x) = m.filter fun e => e.1 != x := by
  induction m with
  | nil => rfl
  | cons e m ih =>
    have hcons : Map.modify (e :: m) x f = (if e.1 = x then (e.1, f e.2) else e) :: Map.modify m x f := rfl
    rw [hcons]
    by_cases h : e.1 = x
    · rw [if_pos h, List.filter_cons_of_neg (by simpa using h), List.filter_cons_of_neg (by simpa using h), ih]
    · rw [if_neg h, List.filter_cons_of_pos (by simpa using h), List.filter_cons_of_pos (by simpa using h), ih]

/-- The keys of the other berths do not change with the move's note. -/
theorem moveErr_moveBegun (s : State) (cid i : Nat) (b : Berth) :
    moveErr (moveBegun s cid i) i { b with moving := some cid } = moveErr s i b := by
  have hberths : (moveBegun s cid i).keys.berths = Map.modify s.keys.berths i fun x => { x with moving := some cid } := rfl
  unfold moveErr
  rw [hberths, Map.filter_modify_ne]
  rfl

theorem blocksKey_moveBegun (s : State) (cid i : Nat) (x : Cmd) (g : Nat) : blocksKey (moveBegun s cid i) x g = blocksKey s x g := by
  have hslot : ∀ idx, (Map.get? (moveBegun s cid i).keys.berths idx).bind (·.slot0) = (Map.get? s.keys.berths idx).bind (·.slot0) := by
    intro idx
    rw [moveBegun, berth_modBerth]
    split
    · exact Option.bind_map ..
    · rfl
  unfold blocksKey refGranule
  rw [hslot]

/-- A command that was accepted before the BERTH_MOVE is as it was. -/
theorem mem_moveBegun {s : State} {cid i : Nat} {x : Cmd} (hx : x ∈ (moveBegun s cid i).cmds) (hlt : x.id < cid) : x ∈ s.cmds := by
  obtain ⟨y, hy, rfl⟩ := List.mem_map.mp hx
  by_cases hid : y.id = cid
  · rw [if_pos hid] at hlt
    exact absurd hid (Nat.ne_of_lt hlt)
  · rwa [if_neg hid]

theorem moveWaits_moveBegun {s : State} {cid i : Nat} {b : Berth} (hspilled : b.spilled = false)
    (hkeys : ∀ g ∈ boundKeys b, (Map.get? s.keys.keys g).any (·.spilled) = false)
    (hearlier : ∀ x ∈ s.cmds, x.id < cid → namesBerth s x i = false ∧ ∀ g ∈ boundKeys b, blocksKey s x g = false) :
    moveWaits (moveBegun s cid i) cid i { b with moving := some cid } = false := by
  have hbound : boundKeys { b with moving := some cid } = boundKeys b := rfl
  have hbank : (moveBegun s cid i).keys.keys = s.keys.keys := rfl
  have hresident : ((boundKeys b).any fun g => (Map.get? s.keys.keys g).any (·.spilled)) = false :=
    List.any_eq_false.mpr fun g hg => by simp [hkeys g hg]
  have hopen : ((moveBegun s cid i).cmds.any fun d => decide (d.id < cid) &&
      (namesBerth (moveBegun s cid i) d i || (boundKeys b).any fun g => blocksKey (moveBegun s cid i) d g)) = false := by
    refine List.any_eq_false.mpr fun x hx => ?_
    by_cases hlt : x.id < cid
    · obtain ⟨hnames, hblocks⟩ := hearlier x (mem_moveBegun hx hlt) hlt
      have hsame : namesBerth (moveBegun s cid i) x i = namesBerth s x i := rfl
      have hnone : ((boundKeys b).any fun g => blocksKey (moveBegun s cid i) x g) = false :=
        List.any_eq_false.mpr fun g hg => by rw [blocksKey_moveBegun, hblocks g hg]; exact Bool.false_ne_true
      rw [hsame, hnames, hnone]
      simp
    · simp [hlt]
  unfold moveWaits
  rw [hbound, hbank, hspilled, hresident, hopen]
  rfl

theorem berthMove_moves {s : State} {cid i : Nat} {c : Cmd} {b : Berth} (h : BerthTurn s cid 0x42 c (moverOf s) i b) (hphase : c.phase = .run)
    (hpos : le c.entry 40 1 ≠ s.topo.position) (hlinks : linksTo s (le c.entry 40 1) ≠ []) (herr : moveErr s i b = none)
    (hspilled : b.spilled = false) (hkeys : ∀ g ∈ boundKeys b, (Map.get? s.keys.keys g).any (·.spilled) = false)
    (hearlier : ∀ x ∈ s.cmds, x.id < cid → namesBerth s x i = false ∧ ∀ g ∈ boundKeys b, blocksKey s x g = false)
    (hlink : ∃ k, linkFor s (le c.entry 40 1) i = some k) :
    Completes (.berthMove cid) s fun t => (∃ x, Map.get? t.keys.berths i = some x ∧ x.moving = some cid) ∧
      (getCmd t cid).map (·.phase) = some .effected ∧
      ∃ m, t.topo.moves = s.topo.moves ++ [m] ∧ m.index = i ∧ m.target = le c.entry 40 1 ∧ m.committed = false := by
  have hexec := berthMove_runs h hphase (by simp [hlinks])
  obtain ⟨⟨hgo, -, -⟩, -, -, hberth⟩ := h
  have hcmd := getCmd_of_turn hgo
  obtain rfl := getCmd_id hcmd
  obtain ⟨k, hk⟩ := hlink
  have hstart : moveStart s { c with berth := some i } i b =
      moveTry (moveBegun s c.id i) { c with phase := .effected, berth := some i } i { b with moving := some c.id } := if_neg hpos
  obtain ⟨m, hsent⟩ := moveTry_sends (c := { c with phase := .effected, berth := some i })
    (moveWaits_moveBegun hspilled hkeys hearlier) ((moveErr_moveBegun s c.id i b).trans herr) hk
  rw [hstart, hsent] at hexec
  have hsend := linkSend_only (moveNoted (moveBegun s c.id i) { c with phase := .effected, berth := some i } i k) k m
  have hself : Map.get? (moveBegun s c.id i).keys.berths i = some { b with moving := some c.id } :=
    (berth_modBerth _ i i _).trans ((if_pos rfl).trans (congrArg (Option.map _) hberth))
  have hphased : (getCmd (modCmd s c.id fun x => { x with phase := .effected, berth := some i }) c.id).map (·.phase) = some .effected :=
    phase_modCmd_some hcmd (fun _ => rfl) rfl
  exact ⟨_, hexec, ⟨_, (congrArg (Map.get? ·.berths i) (hsend .keys (by decide))).trans hself, rfl⟩,
    (congrArg (Option.map (·.phase)) (getCmd_congr (hsend .cmds (by decide)) c.id)).trans hphased, _, linkSend_moves .., rfl, rfl, rfl⟩

end Sys2Proof.Machine

namespace Sys2Proof.Proofs

open Sys2Proof.Machine Sys2Proof.Claims

/-- Settles O33, command by command; what the move waits for is judged in the state in which its BERTH_MOVE has had its turn. -/
theorem berthCommands : Obligations.BerthCommands := by
  unfold Obligations.BerthCommands
  exact fun s cid i c b => ⟨berthAlloc_allocates, berthFree_frees, berthFreeDone_frees, berthQuery_answers, berthQuery_short,
    berthMove_stays, berthMove_moves⟩

end Sys2Proof.Proofs
end

section
/-!
PROOFS. A timetable whose command still has its input read outstanding (O31). The clause on TIMETABLE_REPLACE asks nothing of the command
whose table waits, where every other clause takes it from `Turn` that no read is outstanding; the statement is about every state, reached or
not.
-/

namespace Sys2Proof.Machine

open Sys2Proof.Claims

/-- A LOAD_TIMETABLE of function 0 that has had its effect, and whose input read is outstanding all the same. -/
def readingTimetable : Cmd := { newCmd State.reset 0 0 0 (leBytes 2 0x20) with phase := .effected, asked := true }

/-- The device in Service, with the arbiter back at slot 0, where that command's table waits. -/
def tableWaits : State :=
  { State.reset with
    sys := { State.reset.sys with mode := .service }, cmds := [readingTimetable],
    eng := { Eng.reset with walking := true, nextTable := some (0, []) } }

/-- The command ends with the replacement, and its function keeps the tag of the read that nothing wants any more (R433). -/
theorem timetableReplace_tableWaits :
    ∃ t, exec .timetableReplace tableWaits = .next t ∧ (getFn t 0).late = [(3, 0)] :=
  ⟨_, rfl, by decide +kernel⟩

end Sys2Proof.Machine

namespace Sys2Proof.Proofs

open Sys2Proof.Machine Sys2Proof.Claims

/-- Refutes O31: where the command whose timetable waits has an input read outstanding, its end notes the read's tag at its function, and the
statement's frame keeps all functions. -/
theorem not_surroundingsCommands : ¬ Obligations.SurroundingsCommands := by
  unfold Obligations.SurroundingsCommands
  intro h
  obtain ⟨-, hreplace, -⟩ := h tableWaits 0 readingTimetable []
  obtain ⟨t, ht, honly, -⟩ := hreplace [] rfl rfl rfl rfl rfl
  obtain ⟨u, hu, hlate⟩ := timetableReplace_tableWaits
  obtain rfl : u = t := Host.Outcome.next.inj (hu.symm.trans ht)
  have hfns : u.fns = tableWaits.fns := honly .fns (by decide)
  have hkept : (getFn u 0).late = [] := by
    rw [getFn, hfns]
    rfl
  exact absurd (hlate.symm.trans hkept) (by decide)

end Sys2Proof.Proofs
end

section
/-!
PROOFS. What completions and the starts of commands leave of the functions: all but what polling, signals and outstanding reads change. So the
power of a function, its QUENCHED mark, its waiters and a held FUNC_ENABLE stay as they are through everything a completion lets happen.
-/

namespace Sys2Proof.Machine

open Sys2Proof.Claims

/-! ### The view -/

/-- What a view of a function shows of each. -/
def seen {α : Type} (v : Fn → α) (s : State) : Nat → α := fun fn => v (getFn s fn)

/-- A function without what its polling, its signals and its outstanding reads change. -/
def standing (x : Fn) : Fn :=
  { x with
    fast := Vector.replicate 8 FastVec.reset, normPend := [], holds := [], interval := 0, unchanged := 0, activity := false, nextPass := 0,
    dbTodo := [], dbReads := [], lines := [], stalled := false, kcqSince := none, late := [] }

/-- Each function so. -/
def standings (s : State) : Nat → Fn := seen standing s

/-- A function without what the end of a queue changes. -/
def quiet (x : Fn) : Fn := { x with dbTodo := [], dbReads := [], lines := [], late := [] }

theorem getFn_of_same {s t : State} (hfns : t.fns = s.fns) (hsys : t.sys = s.sys) (fn : Nat) : getFn t fn = getFn s fn := by
  rw [getFn, getFn, keeperFn, keeperFn, hfns, hsys]

theorem getFn_of_only {s t : State} {ps : List Part} (h : Only s t ps) (hfns : Part.fns ∉ ps) (hsys : Part.sys ∉ ps) (fn : Nat) :
    getFn t fn = getFn s fn := getFn_of_same (h .fns hfns) (h .sys hsys) fn

theorem seen_of_same {α : Type} {v : Fn → α} {s t : State} (hfns : t.fns = s.fns) (hsys : t.sys = s.sys) : seen v t = seen v s :=
  funext fun fn => congrArg v (getFn_of_same hfns hsys fn)

theorem seen_of_only {α : Type} {v : Fn → α} {s t : State} {ps : List Part} (h : Only s t ps) (hfns : Part.fns ∉ ps)
    (hsys : Part.sys ∉ ps) : seen v t = seen v s := seen_of_same (h .fns hfns) (h .sys hsys)

/-- A change of a function that the view does not show. -/
theorem seen_modFn {α : Type} {v : Fn → α} (s : State) (fn : Nat) {f : Fn → Fn} (hf : ∀ x, v (f x) = v x) :
    seen v (modFn s fn f) = seen v s := by
  funext x
  rw [seen, getFn_modFn]
  split
  · rename_i h
    rw [hf, seen, h]
  · rfl

theorem standings_of_quiet {s t : State} (h : seen quiet t = seen quiet s) : standings t = standings s :=
  funext fun fn => (congrArg standing (congrFun h fn) :)

theorem power_of_standings {s t : State} (h : standings t = standings s) (fn : Nat) : (getFn t fn).power = (getFn s fn).power :=
  (congrArg Fn.power (congrFun h fn) :)

theorem quenched_of_standings {s t : State} (h : standings t = standings s) (fn : Nat) : (getFn t fn).quenched = (getFn s fn).quenched :=
  (congrArg Fn.quenched (congrFun h fn) :)

theorem waiters_of_standings {s t : State} (h : standings t = standings s) (fn : Nat) : (getFn t fn).waiters = (getFn s fn).waiters :=
  (congrArg Fn.waiters (congrFun h fn) :)

theorem heldEnable_of_standings {s t : State} (h : standings t = standings s) (fn : Nat) :
    (getFn t fn).heldEnable = (getFn s fn).heldEnable :=
  (congrArg Fn.heldEnable (congrFun h fn) :)

/-! ### Ends of commands -/

@[simp] theorem modCmd_standings (s : State) (cid : Nat) (f : Cmd → Cmd) : standings (modCmd s cid f) = standings s := rfl

@[simp] theorem dropInput_standings (s : State) (cid : Nat) : standings (dropInput s cid) = standings s := by
  unfold dropInput
  split
  · rfl
  · dsimp only
    split
    · rfl
    · exact seen_modFn _ _ fun _ => rfl

@[simp] theorem finish_standings (s : State) (cid : Nat) (r : Result) : standings (finish s cid r) = standings s :=
  (seen_of_same (issueOut_fns (modCmd (releaseLves (dropInput s cid) cid) cid fun c => finished s c r) cid)
    ((finish_sys s cid r).trans (sys_of_run (dropInput_keeps s cid)).symm)).trans (dropInput_standings s cid)

@[simp] theorem fail_standings (s : State) (cid : Nat) (st : Status) (d : Nat) : standings (fail s cid st d) = standings s :=
  finish_standings ..

@[simp] theorem okOut_standings (s : State) (cid d : Nat) (out : Bytes) : standings (okOut s cid d out) = standings s :=
  finish_standings ..

/-! ### Starts of commands -/

@[simp] theorem linkSend_standings (s : State) (k : Nat) (m : LinkMsg) : standings (linkSend s k m) = standings s :=
  seen_of_only (linkSend_only s k m) (by decide) (by decide)

@[simp] theorem emitRead_standings (s : State) (fn : Nat) (a : DWord) (n : Nat) : standings (emitRead s fn a n) = standings s :=
  seen_of_same (emitRead_fns ..) (emitRead_sys ..)

@[simp] theorem setAttr_standings (s : State) (g : Nat) (f : Key → Key) : standings (setAttr s g f) = standings s :=
  seen_of_same (congrArg State.fns (setAttr_keeps s g f) :) (sys_of_masks (setAttr_keeps s g f))

@[simp] theorem reportCorrupt_standings (s : State) (region record : Nat) : standings (reportCorrupt s region record) = standings s :=
  seen_of_only (only_of_report (reportCorrupt_report ..)) (by decide) (by decide)

@[simp] theorem touch_standings (s : State) (i : Nat) (ks : List Nat) : standings (touch s i ks) = standings s :=
  foldl_keeps standings (fun t g => modKey t g fun k => { k with used := s.stamp + 1 }) (fun _ _ => rfl) ks
    (modBerth s i fun b => { b with used := s.stamp + 1 })

@[simp] theorem askInput_standings (s : State) (cid : Nat) : standings (askInput s cid) = standings s := by
  unfold askInput
  split
  · rfl
  · split
    · rfl
    · split
      · simp
      · split
        · simp
        · rfl

@[simp] theorem beginRun_standings (s : State) (cid i : Nat) (ka kb : Option Nat) : standings (beginRun s cid i ka kb) = standings s := by
  unfold beginRun
  dsimp only
  repeat' split
  all_goals simp

@[simp] theorem reportStep8_standings (s : State) (cid : Nat) (st : Status) (d : Nat) :
    standings (reportStep8 s cid st d) = standings s := by
  unfold reportStep8
  split
  · split
    · simp
    · rfl
  · rfl

@[simp] theorem applyVerdict_standings (s : State) (cid : Nat) (v : Verdict) : standings (applyVerdict s cid v) = standings s := by
  cases v <;> simp [applyVerdict]

@[simp] theorem sendCmd_standings (s : State) (c : Cmd) (entry : Bytes) : standings (sendCmd s c entry) = standings s := by
  unfold sendCmd
  split <;> simp

@[simp] theorem forwardTo_standings (s : State) (c : Cmd) (entry : Bytes) : standings (forwardTo s c entry) = standings s := by
  unfold forwardTo
  dsimp only
  repeat' split
  all_goals simp

@[simp] theorem startOnce_standings (s : State) (cid : Nat) : standings (startOnce s cid) = standings s := by
  unfold startOnce
  repeat' split
  all_goals simp

@[simp] theorem startCmd_standings (s : State) (cid : Nat) : standings (startCmd s cid) = standings s := by
  unfold startCmd redirect
  repeat' split
  all_goals simp

@[simp] theorem retryBerth_standings (s : State) : standings (retryBerth s) = standings s :=
  foldl_keeps standings startCmd startCmd_standings _ s

/-! ### Signals (R331, R339) -/

@[simp] theorem modFast_standings (s : State) (fn n : Nat) (f : FastVec → FastVec) : standings (modFast s fn n f) = standings s :=
  seen_modFn _ _ fun _ => rfl

@[simp] theorem pendFast_standings (s : State) (fn n info : Nat) : standings (pendFast s fn n info) = standings s :=
  modFast_standings ..

@[simp] theorem flushFast_standings (s : State) (fn n : Nat) : standings (flushFast s fn n) = standings s := by
  unfold flushFast
  dsimp only
  split
  · exact modFast_standings s fn n _
  · rfl

@[simp] theorem flushAllFast_standings (s : State) (fn : Nat) : standings (flushAllFast s fn) = standings s :=
  foldl_keeps standings _ (fun t n => flushFast_standings t fn n) _ s

@[simp] theorem flushSignals_standings (s : State) : standings (flushSignals s) = standings s :=
  foldl_keeps standings flushAllFast flushAllFast_standings _ s

theorem sendNormal_standings (s : State) (fn v : Nat) (addr : DWord) (data : Word) : standings (sendNormal s fn v addr data) = standings s :=
  seen_modFn s fn (f := fun x => { x with normPend := x.normPend.filter (· != v), holds := Map.del x.holds v }) fun _ => rfl

theorem sendMember_standings (s : State) (fn v m : Nat) (x : Target) : standings (sendMember s fn v m x) = standings s :=
  sendNormal_standings s fn v x.addr x.data

theorem deliver_standings (s : State) (fn v : Nat) : standings (deliver s fn v) = standings s := by
  have hheld : ∀ start, standings (modFn s fn fun x => { x with holds := Map.put x.holds v start }) = standings s := fun _ =>
    seen_modFn _ _ fun _ => rfl
  unfold deliver
  dsimp only
  split
  · rfl
  · split
    · split
      · rfl
      · exact sendNormal_standings ..
    · split
      · exact sendMember_standings ..
      · split
        · exact hheld _
        · split
          · exact (sendMember_standings ..).trans (hheld _)
          · exact hheld _

theorem pendNormal_standings (s : State) (fn v : Nat) : standings (pendNormal s fn v) = standings s :=
  (deliver_standings ..).trans (seen_modFn _ _ fun _ => rfl)

theorem deliverPort_standings (s : State) (p : Nat) : standings (deliverPort s p) = standings s := by
  unfold deliverPort
  exact foldl_keeps standings (fun t (e : Nat × Fn) => deliverAll t e.1)
    (fun t e => foldl_keeps standings (fun u v => deliver u e.1 v) (fun u v => deliver_standings u e.1 v) _ t) _ s

theorem fireCq_standings (s : State) (fn qid : Nat) (q : Cq) : standings (fireCq s fn qid q) = standings s :=
  (pendNormal_standings ..).trans rfl

@[simp] theorem moderate_standings (s : State) (fn qid : Nat) (irq : Bool) : standings (moderate s fn qid irq) = standings s := by
  unfold moderate
  split
  · rfl
  · dsimp only
    split
    · rfl
    · split
      · exact fireCq_standings ..
      · rfl

/-! ### SQs that stop (R99) -/

theorem dropReads_quiet (s : State) (fn qid : Nat) (q : Sq) : seen quiet (dropReads s fn qid q) = seen quiet s :=
  seen_modFn _ _ fun _ => rfl

theorem stopSq_quiet (s : State) (fn qid : Nat) (st : SqState) (info : Word) : seen quiet (stopSq s fn qid st info) = seen quiet s := by
  unfold stopSq
  split
  · rfl
  · rename_i q _
    exact (seen_of_only (statusLine_only _ fn qid) (by decide) (by decide)).trans
      ((seen_of_only (unreserve_only _ fn q.cq (unaccepted q)) (by decide) (by decide)).trans (dropReads_quiet s fn qid q))

theorem disableSq_quiet (s : State) (fn qid : Nat) : seen quiet (disableSq s fn qid) = seen quiet s := by
  unfold disableSq
  split
  · rfl
  · split
    · exact stopSq_quiet ..
    · rfl

theorem lastLine_quiet (s : State) (fn qid : Nat) : seen quiet (lastLine s fn qid) = seen quiet s := by
  unfold lastLine
  split
  · split
    · exact seen_modFn _ _ fun _ => rfl
    · rfl
  · rfl

/-- The SQs of a list disabled in turn. -/
theorem disableSqs_standings (s : State) (fn : Nat) (l : List Nat) : standings (l.foldl (fun u q => disableSq u fn q) s) = standings s :=
  standings_of_quiet (foldl_keeps (seen quiet) (fun u q => disableSq u fn q) (fun u q => disableSq_quiet u fn q) l s)

/-! ### Completions (R93, R98, R418) -/

@[simp] theorem countBerth_standings (s : State) (c : Cmd) (r : Result) : standings (countBerth s c r) = standings s :=
  seen_of_only (countBerth_only s) (by decide) (by decide)

@[simp] theorem completionEffect_standings (s : State) (c : Cmd) (r : Result) : standings (completionEffect s c r) = standings s := by
  unfold completionEffect
  dsimp only
  split
  · split
    · exact setAttr_standings ..
    · rfl
  · split <;> rfl
  · exact (deliverPort_standings ..).trans rfl
  · unfold moderationEffect
    dsimp only
    split
    · rfl
    · split
      · exact fireCq_standings ..
      · rfl
  · rfl

theorem answerOrigin_standings (s : State) (c : Cmd) (k n : Nat) (r : Result) : standings (answerOrigin s c k n r) = standings s := by
  unfold answerOrigin
  exact (retryBerth_standings _).trans ((completionEffect_standings _ c r).trans ((countBerth_standings _ c r).trans
    ((linkSend_standings ..).trans
      (foldl_keeps standings (fun t (p : Nat × Bytes) => linkSend t k (.outData n p.1 p.2)) (fun t _ => linkSend_standings t k _) _ s))))

theorem chainDone_standings (s : State) (c : Cmd) (ok : Bool) : standings (chainDone s c ok) = standings s := by
  have hnoted : standings (chainNoted s c ok) = standings s := seen_of_only (chainNoted_only s c ok) (by decide) (by decide)
  rw [chainDone_eq, retryBerth_standings, ← hnoted]
  unfold successorStarts
  repeat' split
  all_goals simp

theorem entryPut_standings (s : State) (c : Cmd) (r : Result) (cq : Nat) (q : Cq) (sqHead : Nat) :
    standings (entryPut s c r cq q sqHead) = standings s := by
  have hout : standings (if c.issued then s else outputWrites s c r) = standings s :=
    seen_of_only (outputIssued_only (s := s) (c := c) (r := r)) (by decide) (by decide)
  exact hout

theorem keeperNoted_standings (s t : State) (c : Cmd) (cq : Nat) (q : Cq) : standings (keeperNoted s t c cq q) = standings t := by
  unfold keeperNoted
  split
  · exact seen_modFn _ _ fun _ => rfl
  · rfl

theorem entryClosed_standings (s : State) (c : Cmd) (r : Result) (cq : Nat) (q : Cq) (sqHead : Nat) :
    standings (entryClosed s c r cq q sqHead) = standings s :=
  (countBerth_standings _ c r).trans ((seen_of_only (closeOne_only _ c.fn c.sq) (by decide) (by decide)).trans
    ((moderate_standings ..).trans ((completionEffect_standings _ c r).trans
      ((keeperNoted_standings s _ c cq q).trans (entryPut_standings s c r cq q sqHead)))))

theorem writeEntry_closed (s : State) (c : Cmd) (r : Result) (q : Cq) :
    writeEntry s c r q = chainDone (entryClosed s c r (writeEntry.getCqId s c) q (((getSq s c.fn c.sq).map (·.head)).getD 0)) c
      (r.status == .ok) := by
  unfold writeEntry
  rfl

theorem writeEntry_standings (s : State) (c : Cmd) (r : Result) (q : Cq) : standings (writeEntry s c r q) = standings s := by
  rw [writeEntry_closed, chainDone_standings, entryClosed_standings]

theorem joinWaiting_standings (s : State) (fn cqid : Nat) (q : Cq) (ids : List Nat) : standings (joinWaiting s fn cqid q ids) = standings s := by
  have hwaits : ∀ f : Cmd → Cmd, standings (ids.foldl (fun t i => modCmd t i f) s) = standings s := fun f =>
    foldl_keeps standings (fun t i => modCmd t i f) (fun _ _ => rfl) ids s
  have hkeeper : ∀ (t : State) (f : Fn → Fn), (∀ x, standing (f x) = standing x) → standings t = standings s →
      standings (if cqid = 0 then modFn t fn f else t) = standings s := by
    intro t f hf ht
    split
    · exact (seen_modFn t fn hf).trans ht
    · exact ht
  have hwake : ∀ t : State, standings (wakePolling t fn) = standings t := fun t => seen_modFn _ _ fun _ => rfl
  unfold joinWaiting
  dsimp only
  split
  · rfl
  · split
    · exact (flushAllFast_standings ..).trans ((pendFast_standings ..).trans ((hwake _).trans (hkeeper _ _ (fun _ => rfl) (hwaits _))))
    · exact (hwake _).trans (hkeeper _ _ (fun _ => rfl) (hwaits _))

theorem completeWrite_standings (s : State) (cid : Nat) : standings (completeWrite s cid) = standings s := by
  unfold completeWrite
  split
  · rfl
  · split
    · exact answerOrigin_standings ..
    · dsimp only
      split
      · rfl
      · split
        · rfl
        · split
          · exact joinWaiting_standings ..
          · exact writeEntry_standings ..
    · rfl

/-- Completions that are written, and the signals that go out with them, leave the functions standing. -/
theorem completeSignalled_standings (s : State) (ids : List Nat) : standings (completeSignalled s ids) = standings s :=
  (foldl_keeps standings completeWrite completeWrite_standings _ _).trans ((flushSignals_standings _).trans
    (foldl_keeps standings completeWrite completeWrite_standings _ s))

end Sys2Proof.Machine
end

section
/-!
PROOFS. Functions that drain (R114): what a drained function is, and what FUNC_DRAINED leaves on the fast vectors of who waited.
-/

namespace Sys2Proof.Machine

open Sys2Proof.Claims

/-! ### Counts and INFO of the fast vectors (R331) -/

/-- Of each fast vector of a function its count and its INFO. -/
def tally (x : Fn) : Nat → Nat × BitVec 16 := fun n => ((x.fast.toArray.getD n FastVec.reset).count, (x.fast.toArray.getD n FastVec.reset).info)

theorem getFast_of_tallies {s t : State} (h : seen tally t = seen tally s) (fn n : Nat) :
    (getFast t fn n).count = (getFast s fn n).count ∧ (getFast t fn n).info = (getFast s fn n).info :=
  Prod.mk.inj (congrFun (congrFun h fn) n)

theorem getFast_modFast_same (s : State) (fn : Nat) {n : Nat} (f : FastVec → FastVec) (hn : n < 8) :
    getFast (modFast s fn n f) fn n = f (getFast s fn n) := by
  unfold getFast modFast
  rw [getFn_modFn_self]
  simp [Array.getD, hn]

theorem modFast_tallies (s : State) (fn n : Nat) {f : FastVec → FastVec} (hcount : ∀ v, (f v).count = v.count)
    (hinfo : ∀ v, (f v).info = v.info) : seen tally (modFast s fn n f) = seen tally s := by
  refine seen_modFn s fn fun x => ?_
  funext m
  by_cases hm : m < 8
  · by_cases hmn : m = n
    · subst hmn
      simp [tally, Array.getD, hm, hcount, hinfo]
    · simp [tally, Array.getD, hm, hmn]
  · simp [tally, Array.getD, hm]

theorem flushFast_tallies (s : State) (fn n : Nat) : seen tally (flushFast s fn n) = seen tally s := by
  unfold flushFast
  dsimp only
  split
  · exact modFast_tallies s fn n (f := fun x => { x with pending := false }) (fun _ => rfl) fun _ => rfl
  · rfl

theorem flushSignals_tallies (s : State) : seen tally (flushSignals s) = seen tally s :=
  foldl_keeps (seen tally) flushAllFast
    (fun t fn => foldl_keeps (seen tally) (fun u n => flushFast u fn n) (fun u n => flushFast_tallies u fn n) _ t) _ s

theorem tallies_of_quiet {s t : State} (h : seen quiet t = seen quiet s) : seen tally t = seen tally s :=
  funext fun fn => (congrArg tally (congrFun h fn) :)

/-! ### A function that has drained (R114) -/

/-- A function that has become OFF. -/
def turnedOff (x : Fn) : Fn := { x with power := .off, quenched := false, normPend := [], holds := [] }

/-- The created queues of a function are gone, and its keeper SQ is DISABLED. -/
def queuesEnded (s : State) (fn : Nat) : State :=
  match getSq (destroyQueues s fn) fn 0 with
  | some q =>
    if q.st = .disabled then destroyQueues s fn
    else statusLine (putSq (destroyQueues s fn) fn 0 { discarded q with st := .disabled }) fn 0
  | none => destroyQueues s fn

theorem offFn_eq (s : State) (fn : Nat) : offFn s fn = modFn (queuesEnded s fn) fn turnedOff := rfl

theorem destroyQueues_quiet (s : State) (fn : Nat) : seen quiet (destroyQueues s fn) = seen quiet s :=
  foldl_keeps (seen quiet) (fun t q => lastLine (stopSq t fn q .destroyed 0) fn q)
    (fun t q => (lastLine_quiet _ fn q).trans (stopSq_quiet t fn q .destroyed 0)) _ s

theorem queuesEnded_quiet (s : State) (fn : Nat) : seen quiet (queuesEnded s fn) = seen quiet s := by
  unfold queuesEnded
  split
  · split
    · exact destroyQueues_quiet s fn
    · exact (seen_of_only (statusLine_only _ fn 0) (by decide) (by decide)).trans (destroyQueues_quiet s fn)
  · exact destroyQueues_quiet s fn

theorem offFn_power (s : State) (fn : Nat) : (getFn (offFn s fn) fn).power = .off := by
  rw [offFn_eq, getFn_modFn_self]
  rfl

theorem offFn_waiters (s : State) (fn : Nat) : (getFn (offFn s fn) fn).waiters = (getFn s fn).waiters := by
  rw [offFn_eq, getFn_modFn_self]
  exact waiters_of_standings (standings_of_quiet (queuesEnded_quiet s fn)) fn

theorem offFn_tallies (s : State) (fn : Nat) : seen tally (offFn s fn) = seen tally s :=
  (seen_modFn (queuesEnded s fn) fn (f := turnedOff) fun _ => rfl).trans (tallies_of_quiet (queuesEnded_quiet s fn))

/-- FUNC_DRAINED pends at each that waits for a function's drain, and none waits any more. -/
def drainTold (s : State) (fn : Nat) : State :=
  (getFn s fn).waiters.foldl (fun t w => pendFast t w 3 fn) (modFn s fn fun x => { x with waiters := [] })

theorem drainTold_standings (s : State) (fn : Nat) :
    standings (drainTold s fn) = standings (modFn s fn fun x => { x with waiters := [] }) :=
  foldl_keeps standings (fun t w => pendFast t w 3 fn) (fun t w => pendFast_standings t w 3 fn) _ _

theorem drainTold_waiters (s : State) (fn : Nat) : (getFn (drainTold s fn) fn).waiters = [] := by
  rw [waiters_of_standings (drainTold_standings s fn), getFn_modFn_self]

theorem drainTold_power (s : State) (fn : Nat) : (getFn (drainTold s fn) fn).power = (getFn s fn).power := by
  rw [power_of_standings (drainTold_standings s fn), getFn_modFn_self]

theorem drainTold_quenched (s : State) (fn : Nat) : (getFn (drainTold s fn) fn).quenched = (getFn s fn).quenched := by
  rw [quenched_of_standings (drainTold_standings s fn), getFn_modFn_self]

/-- The one that waits is told on vector 3. -/
theorem drainTold_tells {s : State} {fn w : Nat} (h : (getFn s fn).waiters = [w]) :
    (getFast (drainTold s fn) w 3).count = satAdd (getFast s w 3).count 1 255 ∧
      (getFast (drainTold s fn) w 3).info = BitVec.ofNat 16 fn := by
  have hkept : seen tally (modFn s fn fun x => { x with waiters := [] }) = seen tally s := seen_modFn s fn fun _ => rfl
  rw [drainTold, h, List.foldl_cons, List.foldl_nil, pendFast, getFast_modFast_same _ _ _ (by decide)]
  exact ⟨congrArg (satAdd · 1 255) (getFast_of_tallies hkept w 3).1, rfl⟩

theorem drainPend_draining {s : State} {fn : Nat} (hpow : (getFn s fn).power = .draining) (hheld : (getFn s fn).heldEnable = none) :
    drainPend s fn = offFn (drainTold s fn) fn := by
  unfold drainPend
  dsimp only
  rw [hheld, if_pos hpow]
  rfl

theorem drainPend_on {s : State} {fn : Nat} (hpow : (getFn s fn).power = .on) (hheld : (getFn s fn).heldEnable = none) :
    drainPend s fn = drainTold s fn := by
  unfold drainPend
  dsimp only
  rw [hheld, if_neg (by rw [hpow]; decide)]
  rfl

theorem funcDrained_eq (s : State) (fn : Nat) :
    exec (.funcDrained fn) s = .next (if serving s && openOf s fn == 0 && ((getFn s fn).power == .draining ||
      (getFn s fn).waiters != [] || (getFn s fn).heldEnable.isSome) then drainFn s fn else s) := rfl

theorem funcDrained_drains {s : State} {f w : Nat} (hserving : serving s = true) (hopen : openOf s f = 0)
    (hpow : (getFn s f).power = .draining) (hwait : (getFn s f).waiters = [w]) (hheld : (getFn s f).heldEnable = none) :
    Completes (.funcDrained f) s fun t => (getFn t f).power = .off ∧ (getFn t f).waiters = [] ∧
      (getFast t w 3).info = BitVec.ofNat 16 f ∧ (getFast t w 3).count = min ((getFast s w 3).count + 1) 255 := by
  have hexec := funcDrained_eq s f
  rw [if_pos (by simp [hserving, hopen, hpow]), drainFn, drainPend_draining hpow hheld] at hexec
  have hstand := flushSignals_standings (offFn (drainTold s f) f)
  obtain ⟨hcount, hinfo⟩ := getFast_of_tallies ((flushSignals_tallies _).trans (offFn_tallies (drainTold s f) f)) w 3
  obtain ⟨htold, htoldInfo⟩ := drainTold_tells hwait
  exact ⟨_, hexec, (power_of_standings hstand f).trans (offFn_power ..),
    (waiters_of_standings hstand f).trans ((offFn_waiters ..).trans (drainTold_waiters ..)), hinfo.trans htoldInfo, hcount.trans htold⟩

end Sys2Proof.Machine
end

section
/-!
PROOFS. The commands on functions (O30): power, quench, limits, class and world, and what takes effect at a dispatch boundary.
-/

namespace Sys2Proof.Machine

open Sys2Proof.Claims

/-- The operand that names the function is good where the issuer may act on it. -/
theorem funcBad_nil {s : State} {c : Cmd} {f : Nat} (hf : f = le c.entry 40 2) (h : mayAct s c.fn f = true) : funcBad s c = [] :=
  need_nil 40 (hf ▸ h)

/-! ### FUNC_ENABLE (R115, R116) -/

/-- The checks of FUNC_ENABLE. -/
def funcEnableChecks (s : State) (c : Cmd) : Err :=
  firstErr [keeperOperands c (funcBad s c), require ((getFn s (le c.entry 40 2)).heldEnable.isNone) .busy 6]

/-- A FUNC_ENABLE that is held until its target has drained. -/
def enableHeld (s : State) (cid fn : Nat) : State :=
  modCmd (modFn s fn fun x => { x with heldEnable := some cid }) cid fun x => { x with phase := .effected }

theorem funcEnable_eq (s : State) (cid : Nat) :
    exec (.funcEnable cid) s = .next (runTurn s cid 0x10 (funcEnableChecks s) fun c =>
      if (getFn s (le c.entry 40 2)).power = .draining || ((getFn s (le c.entry 40 2)).power = .on &&
          (getFn s (le c.entry 40 2)).quenched && openOf s (le c.entry 40 2) != 0) then enableHeld s cid (le c.entry 40 2)
      else done (modFn s (le c.entry 40 2) fun x => { x with power := .on, quenched := false }) cid 0) := rfl

theorem funcEnableChecks_none {s : State} {c : Cmd} {f : Nat} (hf : f = le c.entry 40 2) (hres : reservedBad c.entry = [])
    (hmay : mayAct s c.fn f = true) (hheld : (getFn s f).heldEnable = none) : funcEnableChecks s c = none := by
  rw [funcEnableChecks, keeperOperands_nil hres (funcBad_nil hf hmay), ← hf, hheld]
  rfl

theorem funcEnable_enables {s : State} {cid f : Nat} {c : Cmd} (hf : f = le c.entry 40 2) (hturn : Turn s cid 0x10 c)
    (hmay : mayAct s c.fn f = true) (hheld : (getFn s f).heldEnable = none) (hpow : (getFn s f).power ≠ .draining)
    (hquench : (getFn s f).quenched = false ∨ openOf s f = 0 ∨ (getFn s f).power = .off) :
    Completes (.funcEnable cid) s fun t => Only s t [.fns, .cmds, .eng] ∧ Ended t cid .ok 0 [] ∧
      getFn t f = { getFn s f with power := .on, quenched := false } := by
  obtain ⟨hgo, hres, hc⟩ := hturn
  have hfree : ¬ ((getFn s f).power = .draining || ((getFn s f).power = .on && (getFn s f).quenched && openOf s f != 0)) = true := by
    rcases hquench with h | h | h <;> simp [h, hpow]
  have hexec := funcEnable_eq s cid
  rw [runTurn_of_turn hgo (funcEnableChecks_none hf hres hmay hheld), ← hf, if_neg hfree] at hexec
  obtain ⟨honly, hend, hended⟩ := done_after (modFn_only s f fun x => { x with power := .on, quenched := false }) (by decide)
    (getCmd_of_turn hgo) hc
  exact ⟨_, hexec, honly, hended, (getFn_of_only hend (by decide) (by decide) f).trans (getFn_modFn_self ..)⟩

theorem funcEnable_waits {s : State} {cid f : Nat} {c : Cmd} (hf : f = le c.entry 40 2) (hturn : Turn s cid 0x10 c)
    (hmay : mayAct s c.fn f = true) (hheld : (getFn s f).heldEnable = none) (hpow : (getFn s f).power = .draining) :
    Completes (.funcEnable cid) s fun t => Only s t [.fns, .cmds] ∧ getFn t f = { getFn s f with heldEnable := some cid } ∧
      (getCmd t cid).map (·.phase) = some .effected := by
  obtain ⟨hgo, hres, -⟩ := hturn
  have hexec := funcEnable_eq s cid
  rw [runTurn_of_turn hgo (funcEnableChecks_none hf hres hmay hheld), ← hf, if_pos (by simp [hpow])] at hexec
  have hget : getCmd (modFn s f fun x => { x with heldEnable := some cid }) cid = some c := getCmd_of_turn hgo
  exact ⟨_, hexec, only_union (modFn_only _ _ _) (modCmd_only _ _ _) (by decide) (by decide),
    (getFn_of_only (modCmd_only _ _ _) (by decide) (by decide) f).trans (getFn_modFn_self ..), phase_modCmd_some hget (fun _ => rfl) rfl⟩

/-! ### FUNC_DISABLE and FUNC_QUENCH are asked for (R112, R113) -/

theorem funcDisable_eq (s : State) (cid : Nat) :
    exec (.funcDisable cid) s = .next (runTurn s cid 0x11 (fun c => keeperOperands c (funcBad s c)) fun c =>
      if quenchIdle s (le c.entry 40 2) false then done s cid (openOf s (le c.entry 40 2)) else requestChange s c disableEffect) := rfl

theorem funcQuench_eq (s : State) (cid : Nat) :
    exec (.funcQuench cid) s = .next (runTurn s cid 0x12 (fun c => keeperOperands c (funcBad s c)) fun c =>
      if quenchIdle s (le c.entry 40 2) true then done s cid (openOf s (le c.entry 40 2)) else requestChange s c quenchEffect) := rfl

/-- FUNC_DISABLE of a function that is ON has something to do. -/
theorem disable_not_idle {s : State} {f : Nat} (hpow : (getFn s f).power = .on) : ¬ quenchIdle s f false = true := by
  simp [quenchIdle, hpow]

/-- So has FUNC_QUENCH of one that is not quenched. -/
theorem quench_not_idle {s : State} {f : Nat} (hpow : (getFn s f).power = .on) (hquench : (getFn s f).quenched = false) :
    ¬ quenchIdle s f true = true := by
  simp [quenchIdle, hpow, hquench]

/-- Outside Held the change waits for a boundary, and its command for the change. -/
theorem requestChange_waits {s : State} {cid : Nat} {c : Cmd} (effect : State → Cmd → State) (hget : getCmd s cid = some c)
    (hmode : s.sys.mode ≠ .held) :
    Only s (requestChange s c effect) [.cmds, .eng] ∧ (requestChange s c effect).eng.changes = s.eng.changes ++ [(0, cid, 0)] ∧
      (getCmd (requestChange s c effect) cid).map (·.phase) = some .effected := by
  obtain rfl := getCmd_id hget
  rw [requestChange, if_neg hmode]
  exact ⟨only_union (modCmd_only _ _ _) only_of_eng (by decide) (by decide), rfl, phase_modCmd_some hget (fun _ => rfl) rfl⟩

theorem funcDisable_waits {s : State} {cid f : Nat} {c : Cmd} (hf : f = le c.entry 40 2) (hturn : Turn s cid 0x11 c)
    (hmay : mayAct s c.fn f = true) (hpow : (getFn s f).power = .on) (hmode : s.sys.mode ≠ .held) :
    Completes (.funcDisable cid) s fun t => Only s t [.cmds, .eng] ∧ t.eng.changes = s.eng.changes ++ [(0, cid, 0)] ∧
      (getCmd t cid).map (·.phase) = some .effected := by
  obtain ⟨hgo, hres, -⟩ := hturn
  have hexec := funcDisable_eq s cid
  rw [runTurn_of_turn hgo (keeperOperands_nil hres (funcBad_nil hf hmay)), ← hf, if_neg (disable_not_idle hpow)] at hexec
  exact ⟨_, hexec, requestChange_waits disableEffect (getCmd_of_turn hgo) hmode⟩

theorem funcQuench_waits {s : State} {cid f : Nat} {c : Cmd} (hf : f = le c.entry 40 2) (hturn : Turn s cid 0x12 c)
    (hmay : mayAct s c.fn f = true) (hpow : (getFn s f).power = .on) (hquench : (getFn s f).quenched = false)
    (hmode : s.sys.mode ≠ .held) :
    Completes (.funcQuench cid) s fun t => Only s t [.cmds, .eng] ∧ t.eng.changes = s.eng.changes ++ [(0, cid, 0)] ∧
      (getCmd t cid).map (·.phase) = some .effected := by
  obtain ⟨hgo, hres, -⟩ := hturn
  have hexec := funcQuench_eq s cid
  rw [runTurn_of_turn hgo (keeperOperands_nil hres (funcBad_nil hf hmay)), ← hf, if_neg (quench_not_idle hpow hquench)] at hexec
  exact ⟨_, hexec, requestChange_waits quenchEffect (getCmd_of_turn hgo) hmode⟩

/-! ### They take effect at their boundary (R112 to R114) -/

theorem funcDisableEffect_eq (s : State) (cid : Nat) : exec (.funcDisableEffect cid) s = .next (boundaryEffect s cid 0x11) := rfl

theorem quenchDone_eq (s : State) (cid : Nat) : exec (.quenchDone cid) s = .next (boundaryEffect s cid 0x12) := rfl

theorem boundaryEffect_due {s : State} {cid op : Nat} {c : Cmd} (hget : getCmd s cid = some c) (hop : opcode c.entry = op)
    (hphase : c.phase = .effected) (hserving : serving s = true) (hdue : changeDue s 0 cid = true) :
    boundaryEffect s cid op = completeSignalled (changeEffect (dropChange s 0 cid) c) [cid] := by
  rw [boundaryEffect, hget]
  exact if_pos (by simp [hop, hphase, hserving, hdue])

/-- The target of a FUNC_DISABLE that has taken effect, before it may have drained. -/
def disabling (s : State) (c : Cmd) (fn : Nat) : State :=
  okOut (addWaiter (modFn ((qidsOf s.sqs fn).foldl (fun u q => disableSq u fn q) s) fn fun x => { x with power := .draining }) fn c.fn) c.id
    (openOf s fn) []

/-- The target of a FUNC_QUENCH that has. -/
def quenching (s : State) (c : Cmd) (fn : Nat) : State :=
  pendFast (okOut (addWaiter (modFn (((qidsOf s.sqs fn).filter (· != 0)).foldl (fun u q => disableSq u fn q) s) fn
    fun x => { x with quenched := true }) fn c.fn) c.id (openOf s fn) []) c.fn 2 fn

theorem disableEffect_eq (s : State) (c : Cmd) : disableEffect s c =
    if openOf s (le c.entry 40 2) = 0 then drainPend (disabling s c (le c.entry 40 2)) (le c.entry 40 2)
    else disabling s c (le c.entry 40 2) := rfl

theorem quenchEffect_eq (s : State) (c : Cmd) : quenchEffect s c =
    if openOf s (le c.entry 40 2) = 0 then drainPend (quenching s c (le c.entry 40 2)) (le c.entry 40 2)
    else quenching s c (le c.entry 40 2) := rfl

theorem disabling_draining (s : State) (c : Cmd) (fn : Nat) : (getFn (disabling s c fn) fn).power = .draining := by
  rw [disabling, power_of_standings (okOut_standings ..), addWaiter, getFn_modFn_self, getFn_modFn_self]

theorem disabling_heldEnable (s : State) (c : Cmd) (fn : Nat) : (getFn (disabling s c fn) fn).heldEnable = (getFn s fn).heldEnable := by
  rw [disabling, heldEnable_of_standings (okOut_standings ..), addWaiter, getFn_modFn_self, getFn_modFn_self]
  exact heldEnable_of_standings (disableSqs_standings s fn _) fn

theorem quenching_standings (s : State) (c : Cmd) (fn : Nat) : standings (quenching s c fn) =
    standings (addWaiter (modFn (((qidsOf s.sqs fn).filter (· != 0)).foldl (fun u q => disableSq u fn q) s) fn
      fun x => { x with quenched := true }) fn c.fn) :=
  (pendFast_standings ..).trans (okOut_standings ..)

theorem quenching_quenched (s : State) (c : Cmd) (fn : Nat) : (getFn (quenching s c fn) fn).quenched = true := by
  rw [quenched_of_standings (quenching_standings s c fn), addWaiter, getFn_modFn_self, getFn_modFn_self]

theorem quenching_power (s : State) (c : Cmd) (fn : Nat) : (getFn (quenching s c fn) fn).power = (getFn s fn).power := by
  rw [power_of_standings (quenching_standings s c fn), addWaiter, getFn_modFn_self, getFn_modFn_self]
  exact power_of_standings (disableSqs_standings s fn _) fn

theorem quenching_heldEnable (s : State) (c : Cmd) (fn : Nat) : (getFn (quenching s c fn) fn).heldEnable = (getFn s fn).heldEnable := by
  rw [heldEnable_of_standings (quenching_standings s c fn), addWaiter, getFn_modFn_self, getFn_modFn_self]
  exact heldEnable_of_standings (disableSqs_standings s fn _) fn

theorem disableEffect_power {s : State} {c : Cmd} {f : Nat} (hf : f = le c.entry 40 2) (hheld : (getFn s f).heldEnable = none) :
    (getFn (disableEffect s c) f).power = if openOf s f = 0 then .off else .draining := by
  have hdrains := drainPend_draining (disabling_draining s c f) ((disabling_heldEnable s c f).trans hheld)
  rw [disableEffect_eq, ← hf]
  by_cases hopen : openOf s f = 0
  · rw [if_pos hopen, if_pos hopen, hdrains, offFn_power]
  · rw [if_neg hopen, if_neg hopen, disabling_draining]

theorem quenchEffect_quenched {s : State} {c : Cmd} {f : Nat} (hf : f = le c.entry 40 2) (hpow : (getFn s f).power = .on)
    (hheld : (getFn s f).heldEnable = none) :
    (getFn (quenchEffect s c) f).quenched = true ∧ (getFn (quenchEffect s c) f).power = .on := by
  have hon : (getFn (quenching s c f) f).power = .on := (quenching_power s c f).trans hpow
  have htold := drainPend_on hon ((quenching_heldEnable s c f).trans hheld)
  rw [quenchEffect_eq, ← hf]
  by_cases hopen : openOf s f = 0
  · rw [if_pos hopen, htold, drainTold_quenched, drainTold_power]
    exact ⟨quenching_quenched s c f, hon⟩
  · rw [if_neg hopen]
    exact ⟨quenching_quenched s c f, hon⟩

theorem funcDisableEffect_disables {s : State} {cid f : Nat} {c : Cmd} (hf : f = le c.entry 40 2) (hget : getCmd s cid = some c)
    (hop : opcode c.entry = 0x11) (hphase : c.phase = .effected) (hserving : serving s = true) (hdue : changeDue s 0 cid = true)
    (hpow : (getFn s f).power = .on) (hheld : (getFn s f).heldEnable = none) :
    Completes (.funcDisableEffect cid) s fun t => (getFn t f).power = if openOf s f = 0 then .off else .draining := by
  have hbusy : ¬ quenchIdle (dropChange s 0 cid) f false = true := disable_not_idle hpow
  have heffect : changeEffect (dropChange s 0 cid) c = disableEffect (dropChange s 0 cid) c := by
    simp only [changeEffect, hop, ← hf]
    exact if_neg hbusy
  have hexec := funcDisableEffect_eq s cid
  rw [boundaryEffect_due hget hop hphase hserving hdue, heffect] at hexec
  exact ⟨_, hexec, (power_of_standings (completeSignalled_standings ..) f).trans (disableEffect_power (s := dropChange s 0 cid) hf hheld)⟩

theorem quenchDone_quenches {s : State} {cid f : Nat} {c : Cmd} (hf : f = le c.entry 40 2) (hget : getCmd s cid = some c)
    (hop : opcode c.entry = 0x12) (hphase : c.phase = .effected) (hserving : serving s = true) (hdue : changeDue s 0 cid = true)
    (hpow : (getFn s f).power = .on) (hquench : (getFn s f).quenched = false) (hheld : (getFn s f).heldEnable = none) :
    Completes (.quenchDone cid) s fun t => (getFn t f).quenched = true ∧ (getFn t f).power = .on := by
  have hbusy : ¬ quenchIdle (dropChange s 0 cid) f true = true := quench_not_idle hpow hquench
  have heffect : changeEffect (dropChange s 0 cid) c = quenchEffect (dropChange s 0 cid) c := by
    simp only [changeEffect, hop, ← hf]
    exact if_neg hbusy
  have hexec := quenchDone_eq s cid
  rw [boundaryEffect_due hget hop hphase hserving hdue, heffect] at hexec
  obtain ⟨hquenched, hon⟩ := quenchEffect_quenched (s := dropChange s 0 cid) hf hpow hheld
  exact ⟨_, hexec, (quenched_of_standings (completeSignalled_standings ..) f).trans hquenched,
    (power_of_standings (completeSignalled_standings ..) f).trans hon⟩

/-! ### Limits, class and grants, and the world (R117, R118) -/

/-- The checks of FUNC_SET_LIMITS. -/
def funcSetLimitsChecks (s : State) (c : Cmd) : Err :=
  keeperOperands c (funcBad s c ++ need 42 (decide (le c.entry 42 2 ≤ 4095)) ++ need 44 (decide (le c.entry 44 2 ≤ 4095))
    ++ need 46 (decide (le c.entry 46 1 ≤ 63)) ++ need 47 (decide (le c.entry 47 1 ≤ 1)) ++ need 48 (decide (le c.entry 48 4 ≤ 65536))
    ++ need 52 (decide (le c.entry 52 4 ≤ 131072)))

/-- A function with the limits that a FUNC_SET_LIMITS gives it, its CLASS and GRANTS waiting. -/
def limited (e : Bytes) (x : Fn) : Fn :=
  { x with
    sqLim := le e 42 2, cqLim := le e 44 2, berthLim := le e 48 4, granLim := le e 52 4,
    nextCls := some (BitVec.ofNat 6 (le e 46 1), BitVec.ofNat 8 (le e 47 1)) }

/-- The limits set, and the change that waits; one that waited before is dropped. -/
def limitsAsked (s : State) (e : Bytes) (fn : Nat) : State := addChange (dropChange (modFn s fn (limited e)) 2 fn) 2 fn

theorem funcSetLimits_eq (s : State) (cid : Nat) :
    exec (.funcSetLimits cid) s = .next (runTurn s cid 0x13 (funcSetLimitsChecks s) fun c =>
      done (if s.sys.mode = .held then
          classEffect (dropChange (modFn s (le c.entry 40 2) (limited c.entry)) 2 (le c.entry 40 2)) (le c.entry 40 2)
        else limitsAsked s c.entry (le c.entry 40 2)) cid 0) := rfl

theorem limitsAsked_only (s : State) (e : Bytes) (fn : Nat) : Only s (limitsAsked s e fn) [.fns, .eng] :=
  only_union (modFn_only s fn (limited e)) only_of_eng (by decide) (by decide)

theorem mem_changes_limitsAsked (s : State) (e : Bytes) (fn : Nat) : (2, fn, 0) ∈ (limitsAsked s e fn).eng.changes :=
  List.mem_append_right _ (List.mem_singleton.mpr rfl)

theorem funcSetLimits_sets {s : State} {cid f : Nat} {c : Cmd} (hf : f = le c.entry 40 2) (hturn : Turn s cid 0x13 c)
    (hmay : mayAct s c.fn f = true) (hsq : le c.entry 42 2 ≤ 4095) (hcq : le c.entry 44 2 ≤ 4095) (hcls : le c.entry 46 1 ≤ 63)
    (hgrants : le c.entry 47 1 ≤ 1) (hberths : le c.entry 48 4 ≤ 65536) (hgran : le c.entry 52 4 ≤ 131072)
    (hmode : s.sys.mode ≠ .held) :
    Completes (.funcSetLimits cid) s fun t => Only s t [.fns, .cmds, .eng] ∧ Ended t cid .ok 0 [] ∧
      getFn t f = limited c.entry (getFn s f) ∧ (2, f, 0) ∈ t.eng.changes := by
  obtain ⟨hgo, hres, hc⟩ := hturn
  have hpre : funcSetLimitsChecks s c = none :=
    keeperOperands_nil hres (by simp [funcBad_nil hf hmay, need, hsq, hcq, hcls, hgrants, hberths, hgran])
  have hexec := funcSetLimits_eq s cid
  rw [runTurn_of_turn hgo hpre, if_neg hmode, ← hf] at hexec
  have hget : getCmd (limitsAsked s c.entry f) cid = some c := getCmd_of_turn hgo
  have hend : Only (limitsAsked s c.entry f) (done (limitsAsked s c.entry f) cid 0) [.cmds, .eng] := finish_settled hget hc rfl
  have hchanges : (done (limitsAsked s c.entry f) cid 0).eng.changes = (limitsAsked s c.entry f).eng.changes :=
    congrArg (·.1) (finish_atBoundary ..)
  have hlimited : getFn (limitsAsked s c.entry f) f = limited c.entry (getFn s f) := getFn_modFn_self s f (limited c.entry)
  exact ⟨_, hexec, only_union (limitsAsked_only _ _ _) hend (by decide) (by decide), finish_phase _ cid _ c hget,
    (getFn_of_only hend (by decide) (by decide) f).trans hlimited, hchanges ▸ mem_changes_limitsAsked s c.entry f⟩

theorem classGrantsChange_eq (s : State) (fn : Nat) :
    exec (.classGrantsChange fn) s =
      .next (if (getFn s fn).nextCls.isSome && serving s && changeDue s 2 fn then classEffect (dropChange s 2 fn) fn else s) := rfl

theorem classGrantsChange_changes {s : State} {f : Nat} {k : BitVec 6} {g : BitVec 8} (hnext : (getFn s f).nextCls = some (k, g))
    (hserving : serving s = true) (hdue : changeDue s 2 f = true) :
    Completes (.classGrantsChange f) s fun t => Only s t [.fns, .eng] ∧
      getFn t f = { getFn s f with cls := k, grants := g, nextCls := none } := by
  have hexec := classGrantsChange_eq s f
  rw [if_pos (by simp [hnext, hserving, hdue])] at hexec
  have hdrop : getFn (dropChange s 2 f) f = getFn s f := rfl
  refine ⟨_, hexec, only_union (t := dropChange s 2 f) only_of_eng (modFn_only _ _ _) (by decide) (by decide), ?_⟩
  rw [classEffect, getFn_modFn_self, hdrop, hnext]

/-- The checks of FUNC_SET_WORLD. -/
def funcSetWorldChecks (s : State) (c : Cmd) : Err :=
  firstErr [keeperOperands c (funcBad s c ++ need 42 (decide (le c.entry 42 1 ≤ 1))),
    require ((getFn s (le c.entry 40 2)).power == .off) .busy 7]

theorem funcSetWorld_eq (s : State) (cid : Nat) :
    exec (.funcSetWorld cid) s = .next (runTurn s cid 0x14 (funcSetWorldChecks s) fun c =>
      done (modFn s (le c.entry 40 2) fun x => { x with worldS := decide (le c.entry 42 1 = 1) }) cid 0) := rfl

theorem funcSetWorld_sets {s : State} {cid f : Nat} {c : Cmd} (hf : f = le c.entry 40 2) (hturn : Turn s cid 0x14 c)
    (hmay : mayAct s c.fn f = true) (hworld : le c.entry 42 1 ≤ 1) (hpow : (getFn s f).power = .off) :
    Completes (.funcSetWorld cid) s fun t => Only s t [.fns, .cmds, .eng] ∧ Ended t cid .ok 0 [] ∧
      getFn t f = { getFn s f with worldS := decide (le c.entry 42 1 = 1) } := by
  obtain ⟨hgo, hres, hc⟩ := hturn
  have hpre : funcSetWorldChecks s c = none := by
    rw [funcSetWorldChecks, keeperOperands_nil hres (by simp [funcBad_nil hf hmay, need, hworld]), ← hf, hpow]
    rfl
  have hexec := funcSetWorld_eq s cid
  rw [runTurn_of_turn hgo hpre, ← hf] at hexec
  obtain ⟨honly, hend, hended⟩ := done_after (modFn_only s f fun x => { x with worldS := decide (le c.entry 42 1 = 1) }) (by decide)
    (getCmd_of_turn hgo) hc
  exact ⟨_, hexec, honly, hended, (getFn_of_only hend (by decide) (by decide) f).trans (getFn_modFn_self ..)⟩

end Sys2Proof.Machine

namespace Sys2Proof.Proofs

open Sys2Proof.Machine Sys2Proof.Claims

/-- Settles O30, command by command; that completions leave the functions standing carries the two that take effect at a boundary. -/
theorem functionCommands : Obligations.FunctionCommands := by
  unfold Obligations.FunctionCommands
  exact fun s cid f c hf => ⟨funcEnable_enables hf, funcEnable_waits hf, funcDisable_waits hf, funcQuench_waits hf,
    funcDisableEffect_disables hf, quenchDone_quenches hf,
    fun _ hserving hopen hpow hwait _ hheld => funcDrained_drains hserving hopen hpow hwait hheld,
    funcSetLimits_sets hf, fun _ _ => classGrantsChange_changes, funcSetWorld_sets hf⟩

end Sys2Proof.Proofs
end

section
/-!
PROOFS. Operation commands (R138, R139, R361): what a command that may act brings with it, how it answers, what it draws, and where a key of
its making stands.
-/

namespace Sys2Proof.Machine

open Sys2Proof.Claims

/-! ### Bytes -/

theorem padTo_self (b : Bytes) : padTo b.length b = b := by simp [padTo, zeros]

/-- A field within a byte string, and within what the string is cut or padded to. -/
theorem slice_padTo {m off n : Nat} {b : Bytes} (hm : off + n ≤ m) (hb : off + n ≤ b.length) : slice (padTo m b) off n = slice b off n := by
  unfold slice padTo
  rw [List.drop_take, List.take_take, min_eq_left (by omega), List.drop_append_of_le_length (by omega),
    List.take_append_of_le_length (by rw [List.length_drop]; omega)]

/-! ### A command that may act -/

theorem ready_iff {s : State} {cid op : Nat} {c : Cmd} {d : Bytes} :
    opReady s cid op = some (c, d) ↔ running s = true ∧ getCmd s cid = some c ∧ c.input = some d ∧
      (c.phase = .run ∨ ∃ w, c.phase = .drawWait w) ∧ opcode c.entry = op ∧ segsDone c = true ∧ tailsHere s c = true ∧ berthHere s c = true := by
  unfold opReady
  cases hrun : running s
  · simp
  cases hget : getCmd s cid with
  | none => simp
  | some x =>
    simp only [Bool.not_true, Bool.false_eq_true, if_false, Option.some.injEq, true_and]
    constructor
    · intro h
      split at h
      case h_3 => simp at h
      all_goals
        rename_i hphase hin
        simp only [Bool.and_eq_true, beq_iff_eq, Option.ite_none_right_eq_some, Option.some.injEq, Prod.mk.injEq] at h
        obtain ⟨⟨⟨⟨hop, hsegs⟩, htails⟩, hberth⟩, rfl, rfl⟩ := h
        exact ⟨rfl, hin, by simp [hphase], hop, hsegs, htails, hberth⟩
    · rintro ⟨rfl, hin, hphase, hop, hsegs, htails, hberth⟩
      obtain hphase | ⟨w, hphase⟩ := hphase <;> simp [hphase, hin, hop, hsegs, htails, hberth]

theorem getCmd_of_acts {s : State} {cid op : Nat} {c : Cmd} {d : Bytes} (h : Acts s cid op c d) : getCmd s cid = some c :=
  (ready_iff.mp h.1).2.1

theorem opcode_of_acts {s : State} {cid op : Nat} {c : Cmd} {d : Bytes} (h : Acts s cid op c d) : opcode c.entry = op :=
  (ready_iff.mp h.1).2.2.2.2.1

theorem input_of_acts {s : State} {cid op : Nat} {c : Cmd} {d : Bytes} (h : Acts s cid op c d) : c.input = some d :=
  (ready_iff.mp h.1).2.2.1

theorem mode_of_running {s : State} (h : running s = true) : s.sys.mode ≠ .lockdown := by
  intro hmode
  rw [running, hmode] at h
  exact absurd h (by decide)

theorem mode_of_acts {s : State} {cid op : Nat} {c : Cmd} {d : Bytes} (h : Acts s cid op c d) : s.sys.mode ≠ .lockdown :=
  mode_of_running (ready_iff.mp h.1).1

/-- The same command may act where neither the commands nor the keys nor the clock have changed. -/
theorem id_of_acts {s : State} {cid op : Nat} {c : Cmd} {d : Bytes} (h : Acts s cid op c d) : c.id = cid := getCmd_id (getCmd_of_acts h)

/-! ### Frames -/

/-- The state without the cache, and what else the engines hold. -/
def hideCache (s : State) : State := { s with eng := Eng.reset, stamp := 0 }

theorem insertEntry_keeps (s : State) (w : Want) : hideCache (insertEntry s w) = hideCache s := by
  unfold insertEntry
  dsimp only
  split
  · rfl
  · split <;> rfl

theorem cacheBuild_keeps (s : State) (c : Cmd) : hideCache (cacheBuild s c) = hideCache s :=
  foldl_keeps hideCache _ insertEntry_keeps ..

theorem cacheBuild_only (s : State) (c : Cmd) : Only s (cacheBuild s c) [.eng, .stamp] :=
  only_of_keeps (cacheBuild_keeps s c) fun x p hp => by
    cases p
    case eng | stamp => simp at hp
    all_goals rfl

/-! ### Answers -/

/-- A command that ends with a result once what it built has gone into the cache (R200). -/
def answered (s : State) (c : Cmd) (r : Result) : State := finish (cacheBuild s c) c.id r

theorem good_eq (s : State) (c : Cmd) (detail n : Nat) (out : Bytes) :
    good s c detail n out = some (answered s c { status := .ok, detail, out := padTo n out }) := rfl

theorem bad_eq (s : State) (c : Cmd) (st : Status) (d : Nat) :
    bad s c st d = some (answered s c { status := st, detail := d, out := [] }) := rfl

theorem answered_only {s : State} {c : Cmd} (r : Result) (h : getCmd s c.id = some c) (hreads : inputReads c = 0) :
    Only s (answered s c r) answering :=
  only_union (cacheBuild_only s c)
    (finish_noReads r ((getCmd_congr (cacheBuild_only s c .cmds (by decide)) _).trans h) hreads) (by decide) (by decide)

theorem answered_ended {s : State} {c : Cmd} (r : Result) (h : getCmd s c.id = some c) :
    Ended (answered s c r) c.id r.status r.detail r.out :=
  finish_phase _ _ r c ((getCmd_congr (cacheBuild_only s c .cmds (by decide)) _).trans h)

theorem answered_after {s u : State} {c : Cmd} {ps : List Part} (r : Result) (hu : Only s u ps) (hps : Part.cmds ∉ ps)
    (h : getCmd s c.id = some c) (hreads : inputReads c = 0) : Only s (answered u c r) (ps ++ answering) :=
  only_union hu (answered_only r ((getCmd_congr (hu .cmds hps) _).trans h) hreads) (fun _ hp => List.mem_append_left _ hp)
    fun _ hp => List.mem_append_right _ hp

theorem endDraw_only (s : State) (cid : Nat) (p : Phase) : Only s (endDraw s cid p) [.cmds] := by
  unfold endDraw
  split
  · exact modCmd_only _ _ _
  · exact only_refl

/-- The end of a wait for a draw changes the phase of its command alone, and only where the command still waits. -/
theorem getCmd_endDraw (s : State) (cid : Nat) (p : Phase) :
    getCmd (endDraw s cid p) cid = (getCmd s cid).map fun c => { c with phase := if (∃ w, p = .drawWait w) ∧ c.phase = p then .run else c.phase } := by
  unfold endDraw
  split
  · rename_i w
    rw [getCmd_modCmd_self s cid (fun c => { c with phase := if c.phase = .drawWait w then .run else c.phase }) fun _ => rfl]
    simp
  · rename_i hp
    have hnone : ¬∃ w, p = .drawWait w := fun ⟨w, hw⟩ => hp w hw
    simp [hnone]

theorem phase_endDraw {s : State} {cid : Nat} {q : Phase} (p : Phase) (h : (getCmd s cid).map (·.phase) = some q)
    (hq : ∀ w, q ≠ .drawWait w) : (getCmd (endDraw s cid p) cid).map (·.phase) = some q := by
  rw [getCmd_endDraw]
  obtain ⟨c, hc, rfl⟩ := Option.map_eq_some_iff.mp h
  rw [hc]
  simp only [Option.map_some, Option.some.injEq, ite_eq_right_iff]
  rintro ⟨⟨w, hw⟩, hp⟩
  exact absurd (hp.trans hw) (hq w)

theorem ended_endDraw {s : State} {cid detail : Nat} {st : Status} {out : Bytes} (p : Phase) (h : Ended s cid st detail out) :
    Ended (endDraw s cid p) cid st detail out :=
  phase_endDraw p h fun _ => Phase.noConfusion

/-! ### Runs of an operation -/

theorem completes_mono {i : Instr} {s : State} {P Q : State → Prop} (h : Completes i s P) (hPQ : ∀ t, P t → Q t) : Completes i s Q :=
  h.imp fun t ⟨hexec, ht⟩ => ⟨hexec, hPQ t ht⟩

theorem runOp_acts {s t : State} {cid op : Nat} {c : Cmd} {d : Bytes} {k : Cmd → Bytes → Option State} (h : Acts s cid op c d)
    (hk : k c d = some t) : runOp s cid op k = endDraw t cid c.phase := by
  unfold runOp
  rw [h.1]
  dsimp only
  rw [hk]

theorem runOp_waits {s : State} {cid op : Nat} {c : Cmd} {d : Bytes} {k : Cmd → Bytes → Option State} (h : Acts s cid op c d)
    (hk : k c d = none) : runOp s cid op k = waitDraw s cid := by
  unfold runOp
  rw [h.1]
  dsimp only
  rw [hk, h.2.1]
  rfl

section
variable {i : Instr} {s s1 : State} {cid op : Nat} {c : Cmd} {d : Bytes} {k : Cmd → Bytes → Option State} {ps : List Part}
  {st : Status} {detail : Nat} {out : Bytes}

/-- A command that answers after a change of other parts than the commands, where its answer may be followed by a change of the commands
that keeps its phase. -/
theorem completes_after {f : State → State} (hexec : exec i s = .next (runOp s cid op k)) (h : Acts s cid op c d) (hs : Only s s1 ps)
    (hps : Part.cmds ∉ ps) (hk : k c d = some (f (answered s1 c { status := st, detail, out }))) (hf : ∀ t, Only t (f t) [.cmds])
    (hphase : ∀ t, (getCmd (f t) cid).map (·.phase) = (getCmd t cid).map (·.phase)) :
    Completes i s fun t => Only s t (ps ++ answering) ∧ Ended t cid st detail out ∧ Only s1 t answering := by
  have hid := id_of_acts h
  have hget : getCmd s1 c.id = some c := by rw [hid]; exact (getCmd_congr (hs .cmds hps) _).trans (getCmd_of_acts h)
  have hended : Ended (f (answered s1 c { status := st, detail, out })) cid st detail out := (hphase _).trans (hid ▸ answered_ended _ hget)
  have hafter : Only s1 (endDraw (f (answered s1 c { status := st, detail, out })) cid c.phase) answering :=
    only_union (only_union (answered_only _ hget h.2.2) (hf _) (rs := answering) (by decide) (by decide)) (endDraw_only _ _ _)
      (by decide) (by decide)
  exact ⟨_, hexec.trans (congrArg _ (runOp_acts h hk)),
    only_union hs hafter (fun _ hp => List.mem_append_left _ hp) (fun _ hp => List.mem_append_right _ hp),
    ended_endDraw _ hended, hafter⟩

/-- A command that answers after a change of other parts than the commands. -/
theorem completes_answer (hexec : exec i s = .next (runOp s cid op k)) (h : Acts s cid op c d) (hs : Only s s1 ps) (hps : Part.cmds ∉ ps)
    (hk : k c d = some (answered s1 c { status := st, detail, out })) :
    Completes i s fun t => Only s t (ps ++ answering) ∧ Ended t cid st detail out ∧ Only s1 t answering :=
  completes_after (f := id) hexec h hs hps hk (fun _ => only_refl) fun _ => rfl

/-- A command that only answers. -/
theorem completes_answering (hexec : exec i s = .next (runOp s cid op k)) (h : Acts s cid op c d) (hk : k c d = some (answered s c { status := st, detail, out })) :
    Completes i s fun t => Only s t answering ∧ Ended t cid st detail out :=
  completes_mono (completes_answer hexec h only_refl (ps := []) (by decide) hk) fun _ ⟨honly, hended, _⟩ => ⟨honly, hended⟩

end

/-! ### Draws (R197, R354) -/

theorem drew_keeps {s s1 : State} {c : Cmd} {rnd : Bytes} (h : Drew s c rnd s1) : hideRng s1 = hideRng s := by
  unfold Drew at h
  dsimp only at h
  split at h
  · rw [h.2]
  · obtain ⟨b, hb, -⟩ := h
    exact draw_keeps _ _ _ hb

theorem drew_only {s s1 : State} {c : Cmd} {rnd : Bytes} (h : Drew s c rnd s1) : Only s s1 [.rng] := only_of_rng (drew_keeps h)

theorem withRnd_drew {s s1 : State} {c : Cmd} {rnd : Bytes} (h : Drew s c rnd s1) (k : Bytes → State → Option State) :
    withRnd s c k = k rnd s1 := by
  unfold Drew at h
  unfold withRnd withDraw
  dsimp only at h
  split at h
  · rename_i hzero
    rw [if_pos hzero, h.1, h.2]
    exact congrArg (k · s) (List.append_nil _)
  · rename_i hne
    obtain ⟨b, hb, rfl⟩ := h
    rw [if_neg hne, hb]
    rfl

theorem drawsLeft_le {s : State} {m n : Nat} (h : DrawsLeft s n) (hm : m ≤ n) : DrawsLeft s m :=
  ⟨h.1, h.2.1, fun i hi => by
    obtain ⟨e, he, hle⟩ := inst_of_drawsLeft h hi
    rw [he]
    exact decide_eq_true (by omega)⟩

theorem drawsLeft_drew {s s1 : State} {c : Cmd} {rnd : Bytes} {n : Nat} (h : Drew s c rnd s1) (hleft : DrawsLeft s (n + 1))
    (hmode : s.sys.mode ≠ .lockdown) : DrawsLeft s1 n := by
  unfold Drew at h
  dsimp only at h
  split at h
  · rw [h.2]
    exact drawsLeft_le hleft (Nat.le_succ n)
  · obtain ⟨b, hb, -⟩ := h
    obtain ⟨b', t, ht, -, hn⟩ := draw_serves _ hleft hmode
    obtain ⟨rfl, rfl⟩ : b' = b ∧ t = s1 := by simpa using ht.symm.trans hb
    exact hn

theorem mode_of_rng {s t : State} (h : hideRng t = hideRng s) : t.sys = s.sys := only_of_rng h .sys (by decide)

theorem drawMasks_serves : ∀ {n : Nat} {s : State}, DrawsLeft s n → s.sys.mode ≠ .lockdown → ∃ r, drawMasks n s = some r
  | 0, _, _, _ => ⟨_, rfl⟩
  | n + 1, s, h, hmode => by
    obtain ⟨b, t, ht, -, hleft⟩ := draw_serves 64 h hmode
    obtain ⟨r, hr⟩ := drawMasks_serves hleft (mode_of_rng (draw_keeps _ _ _ ht) ▸ hmode)
    exact ⟨_, by rw [drawMasks, ht, Option.bind_some, hr]; rfl⟩

/-! ### A new key at its granule (R143, R264, R265, R267) -/

/-- A key stands at a granule as it was made, in shares that stand for its bytes, and the other keys and the berths are as they were. -/
def KeyStands (s t : State) (h : Nat) (k : Key) : Prop :=
  (∃ k', Map.get? t.keys.keys h = some k' ∧ k'.bytes = k.bytes ∧
    { k' with tail := k.tail, used := k.used, shareA := k.shareA, shareB := k.shareB, attrMask := k.attrMask } = k) ∧
  t.keys.berths = s.keys.berths ∧ ∀ g, g ≠ h → Map.get? t.keys.keys g = Map.get? s.keys.keys g

theorem keyPlaced_iff {s t : State} {cid h : Nat} {k : Key} {out : Bytes} :
    KeyPlaced s t cid h k out ↔ Ended t cid .ok h out ∧ KeyStands s t h k := Iff.rfl

theorem keyStands_congr {s t u : State} {h : Nat} {k : Key} (ht : KeyStands s t h k) (hu : u.keys = t.keys) : KeyStands s u h k := by
  unfold KeyStands
  rw [hu]
  exact ht

theorem keyStands_putKey (s : State) (g : Nat) (k : Key) (tail : List Nat) (masks : Bytes) :
    KeyStands s (putKey s g (Key.granuled { k with tail } masks)) g k :=
  ⟨⟨_, Map.get?_put_self .., bytes_granuled { k with tail } masks, rfl⟩, rfl, fun _ hne => Map.get?_put_ne _ _ hne⟩

theorem roomFor_of_rng {s t : State} (h : hideRng t = hideRng s) (l : Nat) : roomFor t l = roomFor s l := by
  have hsame : roomFor (hideRng t) l = roomFor (hideRng s) l := by rw [h]
  exact hsame

theorem nkdKey_of_topo {s t : State} (h : t.topo = s.topo) (c : Cmd) (typ origin : Nat) (priv : Bool) (b : Bytes) :
    nkdKey t c typ origin priv b = nkdKey s c typ origin priv b := by
  unfold nkdKey posOf
  rw [h]

/-- A new key that finds room and whose granules the generator can mask is placed, and its command answers with the granule. -/
theorem place_places {s s1 : State} {c : Cmd} {k : Key} {n h : Nat} {out : Bytes} {tl : List Nat} (hrng : hideRng s1 = hideRng s)
    (hop : opcode c.entry = 0x0105 → limitAllows s1 c (keyGranules k.len) = true) (hroom : roomFor s k.len = .at h tl)
    (hleft : DrawsLeft s1 (1 + tl.length)) (hmode : s1.sys.mode ≠ .lockdown) :
    ∃ u, place s1 c k n out = some (answered u c { status := .ok, detail := h, out := padTo n out }) ∧
      Only s u [.keys, .stamp, .rng] ∧ KeyStands s u h k := by
  obtain ⟨r, hr⟩ := drawMasks_serves hleft hmode
  have hdrawn : hideRng r.2 = hideRng s := (drawMasks_keeps _ _ _ hr).trans hrng
  have hkeys : r.2.keys = s.keys := only_of_rng hdrawn .keys (by decide)
  have hlim : (opcode c.entry = 0x0105 && !limitAllows s1 c (keyGranules k.len)) = false := by
    by_cases h5 : opcode c.entry = 0x0105
    · simp [hop h5]
    · simp [h5]
  refine ⟨putKey r.2 h (Key.granuled { k with tail := tl } r.1), ?_, ?_, ?_⟩
  · unfold place
    rw [hlim, roomFor_of_rng hrng, hroom]
    dsimp only
    rw [hr]
    rfl
  · exact only_union (only_of_rng hdrawn) (putKey_only _ _ _) (by decide) (by decide)
  · have hstands := keyStands_putKey r.2 h k tl r.1
    unfold KeyStands at hstands ⊢
    rwa [hkeys] at hstands

/-- A command that answers with what it has drawn. -/
theorem completes_drew {i : Instr} {s s1 : State} {cid op : Nat} {c : Cmd} {d rnd : Bytes} {k : Cmd → Bytes → Option State}
    {st : Status} {detail : Nat} {out : Bytes} (hexec : exec i s = .next (runOp s cid op k)) (h : Acts s cid op c d) (hdrew : Drew s c rnd s1)
    (hk : k c d = some (answered s1 c { status := st, detail, out })) :
    Completes i s fun t => Only s t (.rng :: answering) ∧ Ended t cid st detail out :=
  completes_mono (completes_answer hexec h (drew_only hdrew) (by decide) hk) fun _ ⟨honly, hended, _⟩ => ⟨honly, hended⟩

/-- Room at a granule, with the draws that mask a key there still to be served. -/
def RoomLeft (s s1 : State) (l h : Nat) : Prop := ∃ tl, roomFor s l = .at h tl ∧ DrawsLeft s1 (1 + tl.length)

theorem roomLeft_now {s : State} {l h : Nat} (hroom : RoomAt s l h 0) : RoomLeft s s l h :=
  hroom.imp fun _ ⟨hat, hleft⟩ => ⟨hat, drawsLeft_le hleft (by omega)⟩

theorem roomLeft_drew {s s1 : State} {c : Cmd} {rnd : Bytes} {l h : Nat} (hroom : RoomAt s l h 1) (hdrew : Drew s c rnd s1)
    (hmode : s.sys.mode ≠ .lockdown) : RoomLeft s s1 l h :=
  hroom.imp fun tl ⟨hat, hleft⟩ => ⟨hat, drawsLeft_drew hdrew (drawsLeft_le hleft (by omega)) hmode⟩

section
variable {i : Instr} {s u s1 : State} {cid op l g n : Nat} {c : Cmd} {d out : Bytes} {key : Key} {k : Cmd → Bytes → Option State}

/-- A command that places a new key, once the key it consumed is gone. -/
theorem completes_place (hexec : exec i s = .next (runOp s cid op k)) (h : Acts s cid op c d) (hu : Only s u [.keys, .eng, .stamp])
    (hrng : hideRng s1 = hideRng u) (hop : op = 0x0105 → limitAllows s1 c (keyGranules l) = true) (hroom : RoomLeft u s1 l g)
    (hlen : key.len = l) (hk : k c d = place s1 c key n out) :
    Completes i s fun t => Only s t placing ∧ KeyPlaced u t cid g key (padTo n out) := by
  obtain ⟨tl, hat, hleft⟩ := hroom
  subst hlen
  have hsys : s1.sys = s.sys := (mode_of_rng hrng).trans (hu .sys (by decide))
  obtain ⟨v, hv, honly, hstands⟩ := place_places (n := n) (out := out) hrng (fun h5 => hop ((opcode_of_acts h).symm.trans h5)) hat hleft
    (hsys ▸ mode_of_acts h)
  refine completes_mono (completes_answer hexec h (ps := [.keys, .eng, .stamp, .rng]) (only_union hu honly (by decide) (by decide))
    (by decide) (hk.trans hv)) fun t ⟨hst, hended, hvt⟩ => ⟨only_mono hst (by decide), hended, keyStands_congr hstands (hvt .keys (by decide))⟩

/-- A command that was to place a key, and answers without it. -/
theorem completes_unplaced {st : Status} {detail : Nat} (hexec : exec i s = .next (runOp s cid op k)) (h : Acts s cid op c d)
    (hu : Only s u [.keys, .eng, .stamp]) (hrng : hideRng s1 = hideRng u) (hk : k c d = some (answered s1 c { status := st, detail, out })) :
    Completes i s fun t => Only s t placing ∧ Ended t cid st detail out ∧ t.keys = u.keys :=
  completes_mono (completes_answer hexec h (ps := [.keys, .eng, .stamp, .rng])
      (only_union hu (only_of_rng hrng) (by decide) (by decide)) (by decide) hk) fun _ ⟨hst, hended, hut⟩ =>
    ⟨only_mono hst (by decide), hended, (hut .keys (by decide)).trans (only_of_rng hrng .keys (by decide))⟩

/-- A command that draws and places a new key with the attributes of NKD. -/
theorem completes_newKey {typ origin : Nat} {priv : Bool} {b rnd : Bytes} (hexec : exec i s = .next (runOp s cid op k)) (h : Acts s cid op c d)
    (hu : Only s u [.keys, .eng, .stamp]) (hdrew : Drew u c rnd s1) (hop : op = 0x0105 → limitAllows s1 c (keyGranules l) = true)
    (hroom : RoomAt u l g 1) (hlen : b.length = l) (hk : k c d = place s1 c (nkdKey s1 c typ origin priv b) n out) :
    Completes i s fun t => Only s t placing ∧ KeyPlaced u t cid g (nkdKey s c typ origin priv b) (padTo n out) := by
  have hmode : u.sys.mode ≠ .lockdown := hu .sys (by decide) ▸ mode_of_acts h
  rw [nkdKey_of_topo ((drew_only hdrew .topo (by decide)).trans (hu .topo (by decide)))] at hk
  exact completes_place hexec h hu (drew_keeps hdrew) hop (roomLeft_drew hroom hdrew hmode) hlen hk

end

end Sys2Proof.Machine
end

section
/-!
PROOFS. Key management (R162 to R166, R269, R270, R273 to R275, R289, R290) (O39).
-/

namespace Sys2Proof.Machine

open Sys2Proof.Claims

/-! ### The input of a command that ends (R275) -/

theorem getCmd_view {α : Type} (v : Cmd → α) (s : State) (cid x : Nat) (f : Cmd → Cmd) (hf : ∀ c, (f c).id = c.id ∧ v (f c) = v c) :
    (getCmd (modCmd s cid f) x).map v = (getCmd s x).map v := by
  rw [getCmd_modCmd s cid x f fun c => (hf c).1, Option.map_map]
  congr 1
  funext c
  dsimp only [Function.comp_apply]
  split
  · exact (hf c).2
  · rfl

theorem dropInput_input (s : State) (cid x : Nat) : (getCmd (dropInput s cid) x).map (·.input) = (getCmd s x).map (·.input) := by
  unfold dropInput
  split
  · rfl
  · dsimp only
    split <;> exact getCmd_view _ _ _ _ _ (by exact fun _ => ⟨rfl, rfl⟩)

theorem issueOut_input (s : State) (cid x : Nat) : (getCmd (issueOut s cid) x).map (·.input) = (getCmd s x).map (·.input) := by
  unfold issueOut
  split
  · rfl
  · split
    · split
      · refine (getCmd_view _ _ _ _ _ (by exact fun _ => ⟨rfl, rfl⟩)).trans ?_
        rw [getCmd_congr (hideBus_cmds (outputWrites_keeps ..))]
      · rfl
    · rfl

theorem finish_input (s : State) (cid x : Nat) (r : Result) : (getCmd (finish s cid r) x).map (·.input) = (getCmd s x).map (·.input) :=
  (issueOut_input _ cid x).trans ((getCmd_view _ _ _ _ _ (by exact fun _ => ⟨rfl, rfl⟩)).trans (dropInput_input s cid x))

/-- A command with the input it had buffered overwritten, if it has ended. -/
def scrubbed (c : Cmd) : Cmd :=
  match c.phase with
  | .fin _ => { c with input := c.input.map fun d => zeros d.length }
  | _ => c

theorem scrubInput_eq (s : State) (cid : Nat) : scrubInput s cid = modCmd s cid scrubbed := rfl

theorem scrubbed_keeps (c : Cmd) : (scrubbed c).id = c.id ∧ (scrubbed c).phase = c.phase := by
  unfold scrubbed
  split <;> exact ⟨rfl, rfl⟩

theorem scrubInput_only (s : State) (cid : Nat) : Only s (scrubInput s cid) [.cmds] := modCmd_only _ _ _

theorem scrubInput_phase (s : State) (cid : Nat) : (getCmd (scrubInput s cid) cid).map (·.phase) = (getCmd s cid).map (·.phase) :=
  modCmd_phase s cid cid scrubbed scrubbed_keeps

theorem input_scrubbed {s : State} {cid : Nat} {d : Bytes} {r : Result} (hphase : (getCmd s cid).map (·.phase) = some (.fin r))
    (hinput : (getCmd s cid).map (·.input) = some (some d)) :
    (getCmd (scrubInput s cid) cid).map (·.input) = some (some (zeros d.length)) := by
  obtain ⟨c, hc, hfin⟩ := Option.map_eq_some_iff.mp hphase
  rw [hc, Option.map_some, Option.some.injEq] at hinput
  rw [scrubInput_eq, getCmd_modCmd_some hc fun c => (scrubbed_keeps c).1, Option.map_some, scrubbed, hfin]
  dsimp only
  rw [hinput]
  rfl

theorem endDraw_input (s : State) (cid : Nat) (p : Phase) : (getCmd (endDraw s cid p) cid).map (·.input) = (getCmd s cid).map (·.input) := by
  rw [getCmd_endDraw, Option.map_map]
  rfl

section
variable {s s1 : State} {cid h g : Nat} {c : Cmd} {d rnd : Bytes} {k : Key}

/-! ### KEY_WRITE and KEY_WRITE_PUBLIC (R162, R163) -/

/-- The key that a KEY_WRITE brings passes the checks of its type. -/
abbrev KeyGood (p : Nat) (x : Bytes) : Prop := xtsEqual p x = false ∧ (famOf p = .sym ∨ privateOk p x = true)

theorem keyWrite_body {x : Bytes} (cid : Nat)
    (hx : x = if le c.entry 42 1 = 1 then padTo (privLen (le c.entry 40 2)) (Config.expandSeed (le c.entry 40 2) d) else d)
    (hdrew : Drew s c rnd s1) :
    ∃ f, exec (.keyWrite cid) s = .next (runOp s cid 0x0401 f) ∧ f c d =
      (if KeyGood (le c.entry 40 2) x then place s1 c (nkdKey s1 c (le c.entry 40 2) 1 true x) 0 []
        else bad s1 c .badParam 0xFFFF).map fun t => scrubInput t cid := by
  refine ⟨_, rfl, ?_⟩
  dsimp only
  rw [← hx, withRnd_drew hdrew]
  refine congrArg _ ?_
  rw [← ite_not]
  refine if_congr ?_ rfl rfl
  simp [KeyGood, or_iff_not_imp_left]

theorem completes_and {i : Instr} {P Q : State → Prop} (hP : Completes i s P) (hQ : Completes i s Q) : Completes i s fun t => P t ∧ Q t := by
  obtain ⟨t, ht, hp⟩ := hP
  obtain ⟨u, hu, hq⟩ := hQ
  obtain rfl := Host.Outcome.next.inj (ht.symm.trans hu)
  exact ⟨t, ht, hp, hq⟩

/-- A command whose answer is followed by the overwriting of its input. -/
theorem completes_scrubbed {i : Instr} {op detail : Nat} {f : Cmd → Bytes → Option State} {u : State} {ps : List Part} {st : Status} {out : Bytes}
    (hexec : exec i s = .next (runOp s cid op f)) (ha : Acts s cid op c d) (hu : Only s u ps) (hps : Part.cmds ∉ ps)
    (hf : f c d = some (scrubInput (answered u c { status := st, detail, out }) cid)) :
    Completes i s fun t => (Only s t (ps ++ answering) ∧ Ended t cid st detail out ∧ Only u t answering) ∧
      (getCmd t cid).map (·.input) = some (some (zeros d.length)) := by
  refine completes_and (completes_after (f := fun t => scrubInput t cid) hexec ha hu hps hf (fun t => scrubInput_only t cid)
    fun t => scrubInput_phase t cid) ⟨_, hexec.trans (congrArg _ (runOp_acts ha hf)), ?_⟩
  obtain rfl := id_of_acts ha
  have hget : getCmd u c.id = some c := (getCmd_congr (hu .cmds hps) _).trans (getCmd_of_acts ha)
  refine (endDraw_input _ _ _).trans (input_scrubbed (answered_ended _ hget) ((finish_input ..).trans ?_))
  rw [getCmd_congr (cacheBuild_only u c .cmds (by decide)), hget, Option.map_some, input_of_acts ha]

theorem keyWrite_writes {x : Bytes} (ha : Acts s cid 0x0401 c d)
    (hx : x = if le c.entry 42 1 = 1 then padTo (privLen (le c.entry 40 2)) (Config.expandSeed (le c.entry 40 2) d) else d)
    (hdrew : Drew s c rnd s1) (hroom : RoomAt s x.length h 1) :
    Completes (.keyWrite cid) s fun t => Only s t placing ∧ (getCmd t cid).map (·.input) = some (some (zeros d.length)) ∧
      if KeyGood (le c.entry 40 2) x then KeyPlaced s t cid h (nkdKey s c (le c.entry 40 2) 1 true x) []
      else Ended t cid .badParam 0xFFFF [] ∧ t.keys = s.keys := by
  obtain ⟨f, hexec, hf⟩ := keyWrite_body cid hx hdrew
  have hrng := drew_keeps hdrew
  split
  next hgood =>
    obtain ⟨tl, hat, hleft⟩ := roomLeft_drew hroom hdrew (mode_of_acts ha)
    obtain ⟨u, hu, honly, hstands⟩ := place_places (k := nkdKey s1 c (le c.entry 40 2) 1 true x) (n := 0) (out := []) hrng
      (fun h5 => absurd ((opcode_of_acts ha).symm.trans h5) (by decide)) hat hleft (mode_of_rng hrng ▸ mode_of_acts ha)
    rw [if_pos hgood, hu, Option.map_some] at hf
    rw [nkdKey_of_topo (only_of_rng hrng .topo (by decide))] at hstands
    exact completes_mono (completes_scrubbed hexec ha honly (by decide) hf) fun t ⟨⟨hst, hended, hut⟩, hinput⟩ =>
      ⟨only_mono hst (by decide), hinput, hended, keyStands_congr hstands (hut .keys (by decide))⟩
  next hbad =>
    rw [if_neg hbad, bad_eq, Option.map_some] at hf
    exact completes_mono (completes_scrubbed hexec ha (only_of_rng hrng) (by decide) hf) fun t ⟨⟨hst, hended, hut⟩, hinput⟩ =>
      ⟨only_mono hst (by decide), hinput, hended, hst .keys (by decide)⟩

theorem keyWritePublic_writes (ha : Acts s cid 0x0402 c d) (hroom : RoomAt s d.length h 0) :
    Completes (.keyWritePublic cid) s fun t => Only s t placing ∧
      if famOf (le c.entry 40 2) = .xdh ∨ Config.publicOk (le c.entry 40 2) d = true then
        KeyPlaced s t cid h (nkdKey s c (le c.entry 40 2) 7 false d) []
      else Ended t cid .badParam 0xFFFF [] ∧ t.keys = s.keys := by
  split
  next hgood =>
    exact completes_place (n := 0) (out := []) rfl ha only_refl rfl (fun h5 => absurd h5 (by decide)) (roomLeft_now hroom) rfl
      (if_pos (by simpa using hgood))
  next hbad => exact completes_unplaced rfl ha only_refl rfl (if_neg (by simpa using hbad))

/-! ### KEY_GENERATE (R164) -/

theorem keyGenerate_symmetric (ha : Acts s cid 0x0403 c d) (hfam : famOf (le c.entry 40 2) = .sym) (hdrew : Drew s c rnd s1)
    (hxts : xtsEqual (le c.entry 40 2) rnd = false) (hroom : RoomAt s rnd.length h 1) :
    Completes (.keyGenerate cid) s fun t => Only s t placing ∧ KeyPlaced s t cid h (nkdKey s c (le c.entry 40 2) 2 true rnd) [] :=
  completes_newKey (n := 0) (out := []) rfl ha only_refl hdrew (fun h5 => absurd h5 (by decide)) hroom rfl
    ((withRnd_drew hdrew _).trans ((if_pos hfam).trans (if_neg (by simp [hxts]))))

theorem keyGenerate_pair {x : Bytes} (ha : Acts s cid 0x0403 c d) (hfam : famOf (le c.entry 40 2) ≠ .sym) (hdrew : Drew s c rnd s1)
    (hx : x = genPrivate (le c.entry 40 2) (le c.entry 44 2) (rnd.take (genDraw (le c.entry 40 2)))) (hroom : RoomAt s x.length h 1) :
    Completes (.keyGenerate cid) s fun t => Only s t placing ∧
      KeyPlaced s t cid h (nkdKey s c (le c.entry 40 2) 2 true x)
        (padTo (outLenOf s c c.keyA c.keyB) (publicPart (le c.entry 40 2) x)) := by
  subst hx
  exact completes_newKey rfl ha only_refl hdrew (fun h5 => absurd h5 (by decide)) hroom rfl
    ((withRnd_drew hdrew _).trans (if_neg hfam))

/-! ### KEY_PUBLIC and KEY_QUERY (R165, R270) -/

theorem keyPublic_answers (ha : Acts s cid 0x0404 c d) (hkey : c.keyA = some g) (hget : Map.get? s.keys.keys g = some k) :
    Completes (.keyPublic cid) s fun t => Only s t answering ∧ Ended t cid .ok 0 (padTo (publicOutLen s c.keyA) (publicOfKey s g k)) := by
  have hat : keyAt s (some g) = some k := hget
  exact completes_answering rfl ha (by rw [hkey, hat]; rfl)

/-- TYPE, LEN and OWNER of what KEY_QUERY answers (Table 84). -/
theorem attrBlock_fields (k : Key) : ∃ a r, a.length = 2 ∧ attrBlock k false =
    leBytes 2 k.typ ++ (a ++ (leBytes 4 k.len ++ (leBytes 2 k.owner ++ r))) := by
  simp only [attrBlock, List.append_assoc, Bool.false_eq_true, if_false]
  exact ⟨leBytes 1 k.origin ++ leBytes 1 (b2n k.spilled + 2 * b2n k.priv + 4 * b2n k.destroyPending), _, rfl, rfl⟩

theorem keyQuery_answers (ha : Acts s cid 0x0406 c d) (hkey : c.keyA = some g) (hget : Map.get? s.keys.keys g = some k) :
    Completes (.keyQuery cid) s fun t => Only s t answering ∧
      ∃ out, Ended t cid .ok 0 out ∧ out.length = 32 ∧ le out 0 2 = k.typ % 65536 ∧ le out 4 4 = k.len % 2 ^ 32 ∧
        le out 8 2 = k.owner % 65536 := by
  have hat : keyAt s (some g) = some k := hget
  obtain ⟨a, r, hlen, hblock⟩ := attrBlock_fields k
  have hfield : ∀ {off n v : Nat}, off + n ≤ 10 → slice (attrBlock k false) off n = leBytes n v →
      le (padTo 32 (attrBlock k false)) off n = v % 256 ^ n := fun {off n v} hoff hslice => by
    rw [le, slice_padTo (by omega) (by rw [hblock]; simp [leBytes_length, hlen]; omega), hslice, leVal_leBytes]
  refine completes_mono (completes_answering rfl ha (out := padTo 32 (attrBlock k false)) (by rw [hkey, hat]; rfl))
    fun t ⟨honly, hended⟩ => ⟨honly, _, hended, padTo_length _ _, hfield (by decide) ?_, hfield (by decide) ?_, hfield (by decide) ?_⟩
  · rw [hblock]
    exact slice_field (a := []) rfl (leBytes_length 2 _)
  · rw [hblock, ← List.append_assoc]
    exact slice_field (by simp [leBytes_length, hlen]) (leBytes_length 4 _)
  · rw [hblock, ← List.append_assoc, ← List.append_assoc]
    exact slice_field (by simp [leBytes_length, hlen]) (leBytes_length 2 _)

/-! ### KEY_DESTROY (R166, R258, R269, R274) -/

theorem keyDestroy_waits (ha : Acts s cid 0x0405 c d) :
    Completes (.keyDestroy cid) s fun t => Only s t [.cmds] ∧ (getCmd t cid).map (·.phase) = some .effected := by
  refine ⟨endDraw (modCmd s c.id fun x => { x with phase := .effected }) cid c.phase, congrArg Host.Outcome.next (runOp_acts ha rfl),
    only_trans (modCmd_only _ _ _) (endDraw_only _ _ _), phase_endDraw _ ?_ fun _ => Phase.noConfusion⟩
  rw [id_of_acts ha]
  exact phase_modCmd_some (getCmd_of_acts ha) (fun _ => rfl) rfl

/-- The KEY_DESTROY commands whose turn it is end one by one. -/
theorem foldl_okOut_effected {g : Nat} : ∀ (l : List Nat) (s : State),
    (∀ x ∈ s.cmds, destroys x g = true → x.phase = .effected → x.id ∈ l) →
    ∀ x ∈ (l.foldl (fun t d => okOut t d 0 []) s).cmds, destroys x g = true → x.phase ≠ .effected
  | [], s, h, x, hx, hd => fun hp => absurd (h x hx hd hp) List.not_mem_nil
  | a :: l, s, h, x, hx, hd => by
    refine foldl_okOut_effected l (okOut s a 0 []) (fun y hy hyd hyp => ?_) x hx hd
    obtain ⟨f, hf, hfin⟩ := finish_cmds s a { status := .ok, detail := 0, out := [] }
    obtain ⟨z, hz, rfl⟩ := List.mem_map.mp (hf ▸ hy)
    by_cases hza : z.id = a
    · rw [if_pos hza] at hyp
      exact absurd ((hfin z).2.symm.trans hyp) Phase.noConfusion
    · rw [if_neg hza] at hyd hyp ⊢
      exact (List.mem_cons.mp (h z hz hyd hyp)).resolve_left hza

theorem endDestroys_only (s : State) (g : Nat) : Only s (endDestroys s g) [.cmds, .eng, .fns, .bus] :=
  only_of_run (foldl_keeps hideRun _ (fun t d => okOut_keeps t d 0 []) _ s)

theorem endDestroys_ends (s : State) (g : Nat) : ∀ x ∈ (endDestroys s g).cmds, destroys x g = true → x.phase ≠ .effected :=
  foldl_okOut_effected _ s fun x hx hd hp => List.mem_map_of_mem (List.mem_filter.mpr ⟨hx, by simp [hd, hp]⟩)

theorem keyDestroyZeroise_gone (hgone : Map.get? s.keys.keys g = none) :
    Completes (.keyDestroyZeroise g) s fun t => Only s t [.cmds, .eng, .fns, .bus] ∧
      ∀ x ∈ t.cmds, destroys x g = true → x.phase ≠ .effected :=
  ⟨endDestroys s g, congrArg Host.Outcome.next (by rw [hgone]), endDestroys_only s g, endDestroys_ends s g⟩

theorem hideHoldings_only (s : State) : Only s (hideHoldings s) [.keys, .nvm] := fun p hp => by
  cases p
  case keys | nvm => simp at hp
  all_goals rfl

theorem destroyKey_only (s : State) (g : Nat) : Only s (destroyKey s g) [.keys, .nvm] :=
  only_of_keeps (destroyKey_keeps s g) hideHoldings_only

theorem eraseTree_keys (s : State) (t : Nat) : (eraseTree s t).keys = s.keys := by
  unfold eraseTree wearWrite
  dsimp only
  split <;> rename_i hw <;> split at hw <;> cases hw <;> rfl

/-- The destruction of a key does to the keys and the bindings what its zeroising does. -/
theorem destroyKey_keys (s : State) (g : Nat) : (destroyKey s g).keys = (zeroiseKey s g).keys := by
  unfold destroyKey
  dsimp only
  split
  · exact eraseTree_keys _ _
  · rfl

theorem zeroiseKey_keys (s : State) (g x : Nat) :
    Map.get? (zeroiseKey s g).keys.keys x = if x = g then none else Map.get? s.keys.keys x := Map.get?_del ..

theorem zeroiseKey_unbinds {i : Nat} {b : Berth} (h : Map.get? (zeroiseKey s g).keys.berths i = some b) :
    b.slot0 ≠ some g ∧ b.slot1 ≠ some g := by
  unfold zeroiseKey unbindAll at h
  dsimp only at h
  rw [Map.get?_update] at h
  obtain ⟨b0, -, rfl⟩ := Option.map_eq_some_iff.mp h
  dsimp only
  constructor <;> split <;> simp_all

theorem keyDestroyZeroise_zeroises (hget : Map.get? s.keys.keys g = some k) (hpending : k.destroyPending = true)
    (hawaited : keyAwaited s g = false) :
    Completes (.keyDestroyZeroise g) s fun t => Only s t [.keys, .nvm, .cmds, .eng, .fns, .bus] ∧ Map.get? t.keys.keys g = none ∧
      (∀ i b, Map.get? t.keys.berths i = some b → b.slot0 ≠ some g ∧ b.slot1 ≠ some g) ∧
      (∀ x, x ≠ g → Map.get? t.keys.keys x = Map.get? s.keys.keys x) ∧
      ∀ x ∈ t.cmds, destroys x g = true → x.phase ≠ .effected := by
  have hend := endDestroys_only (destroyKey s g) g
  have hkeys : (endDestroys (destroyKey s g) g).keys = (zeroiseKey s g).keys := (hend .keys (by decide)).trans (destroyKey_keys s g)
  refine ⟨endDestroys (destroyKey s g) g, congrArg Host.Outcome.next ?_, only_union (destroyKey_only s g) hend (by decide) (by decide), ?_, ?_, ?_,
    endDestroys_ends _ g⟩
  · rw [hget]
    dsimp only
    rw [if_neg (by simp [hpending]), if_neg (by simp [hawaited])]
  · rw [hkeys, zeroiseKey_keys, if_pos rfl]
  · rw [hkeys]
    exact fun i b => zeroiseKey_unbinds
  · rw [hkeys]
    exact fun x hne => (zeroiseKey_keys s g x).trans (if_neg hne)

/-! ### KEY_SHARE and KEY_BIND (R166, R273, R289, R290) -/

theorem keyShare_answers (ha : Acts s cid 0x0407 c d) : Completes (.keyShare cid) s fun t => Only s t answering ∧ Ended t cid .ok 0 [] :=
  completes_answering rfl ha rfl

theorem keyBind_answers (ha : Acts s cid 0x0408 c d) : Completes (.keyBind cid) s fun t => Only s t answering ∧ Ended t cid .ok 0 [] :=
  completes_answering rfl ha rfl

/-- A head granule under a fresh mask holds the same key (R267). -/
theorem remask_key {s : State} {g : Nat} {k : Key} (hget : Map.get? s.keys.keys g = some k) :
    ∃ k', Map.get? (remask s g).keys.keys g = some k' ∧ k'.bytes = k.bytes ∧
      { k' with shareA := k.shareA, shareB := k.shareB, attrMask := k.attrMask } = k := by
  unfold remask
  rw [hget]
  cases hdraw : draw s 64 with
  | none => exact ⟨k, hget, rfl, rfl⟩
  | some r =>
    have hkeys : r.2.keys = s.keys := only_of_rng (draw_keeps _ _ _ hdraw) .keys (by decide)
    refine ⟨reshareGranule k true 0 r.1, ?_, bytes_reshareGranule .., rfl⟩
    dsimp only
    rw [key_modKey, if_pos rfl, hkeys, hget]
    rfl

theorem setAttr_key {s : State} {g : Nat} {k : Key} {f : Key → Key} (hget : Map.get? s.keys.keys g = some k)
    (hf : (f k).bytes = k.bytes) :
    ∃ k', Map.get? (setAttr s g f).keys.keys g = some k' ∧ k'.bytes = k.bytes ∧
      { k' with shareA := (f k).shareA, shareB := (f k).shareB, attrMask := (f k).attrMask } = f k := by
  have hmod : Map.get? (modKey s g f).keys.keys g = some (f k) := by rw [key_modKey, if_pos rfl, hget]; rfl
  obtain ⟨k', hk', hbytes, hsame⟩ := remask_key hmod
  exact ⟨k', hk', hbytes.trans hf, hsame⟩

theorem completionEffect_share {r : Result} (hop : opcode c.entry = 0x0407) (hok : r.status = Status.ok) (hkey : c.keyA = some g)
    (hget : Map.get? s.keys.keys g = some k) :
    ∃ k', Map.get? (completionEffect s c r).keys.keys g = some k' ∧ k'.bytes = k.bytes ∧
      { k' with shareA := k.shareA, shareB := k.shareB, attrMask := k.attrMask } = { k with
        share := [le c.entry 40 2, le c.entry 42 2, le c.entry 44 2, le c.entry 46 2], wholePort := decide (le c.entry 48 1 = 1) } := by
  unfold completionEffect
  dsimp only
  rw [hok, hop, hkey]
  exact setAttr_key hget rfl

theorem completionEffect_bind {r : Result} {b : Berth} {i : Nat} (hop : opcode c.entry = 0x0408) (hok : r.status = Status.ok)
    (hkey : c.keyA = some g) (hberth : c.berth = some i) (hget : Map.get? s.keys.berths i = some b) (hslot : le c.entry 40 1 = 0)
    (hfill : le c.entry 41 1 = 0) :
    Map.get? (completionEffect s c r).keys.berths i = some (if b.lock0 then b else { b with slot0 := some g, lock0 := b.pflags.getLsbD 1 }) := by
  unfold completionEffect
  dsimp only
  rw [hok, hop, hberth, hslot, hfill, hkey]
  refine (berth_modBerth s i i _).trans ?_
  rw [if_pos rfl, hget, Option.map_some]
  unfold bindSlot
  cases hlock : b.lock0 <;> simp [bit]

end

end Sys2Proof.Machine

namespace Sys2Proof.Proofs

open Sys2Proof.Machine Sys2Proof.Claims

/-- Settles O39, command by command, and the effects of completions. -/
theorem keyManagement : Obligations.KeyManagement := by
  unfold Obligations.KeyManagement
  rintro s s1 cid h _ g c d rnd k rfl
  exact ⟨fun x => keyWrite_writes, keyWritePublic_writes, keyGenerate_symmetric, fun x => keyGenerate_pair, keyPublic_answers,
    keyQuery_answers, keyDestroy_waits, keyDestroyZeroise_zeroises, keyDestroyZeroise_gone, keyShare_answers, keyBind_answers,
    fun r => completionEffect_share, fun r b i => completionEffect_bind⟩

end Sys2Proof.Proofs
end

section
/-!
PROOFS. Commits to on-chip NVM (R241, R260, R262) beside the record and the region they write, and the counters (R171, R244, R248) (O41).
-/

namespace Sys2Proof.Machine

open Sys2Proof.Claims

/-! ### What a commit leaves (R241, R262) -/

theorem wearWrite_nvm (s : State) (r w k : Nat) : { (wearWrite s r w k).1.nvm with wear := s.nvm.wear } = s.nvm := by
  unfold wearWrite
  dsimp only
  split <;> rfl

theorem getWear_wearWrite_ne {s : State} {r r' : Nat} (w k : Nat) (h : r' ≠ r) : getWear (wearWrite s r w k).1.nvm r' = getWear s.nvm r' := by
  unfold wearWrite
  dsimp only
  split
  · rfl
  · unfold getWear
    dsimp only
    by_cases hr : r' < 7
    · simp [Array.getD, hr, h]
    · simp [Array.getD, hr]

theorem wearWrite_only (s : State) (r w k : Nat) : Only s (wearWrite s r w k).1 [.nvm] :=
  only_of_keeps (wearWrite_keeps s r w k) fun x p hp => by
    cases p
    case nvm => simp at hp
    all_goals rfl

theorem recVal_putCopy_ne {s : State} {region record r i slot : Nat} {c : Copy} (h : r * 65536 + i ≠ region * 65536 + record) :
    recVal (putCopy s region record slot c).nvm r i = recVal s.nvm r i := by
  have hcopies : copiesOf (putCopy s region record slot c).nvm r i = copiesOf s.nvm r i := by
    unfold copiesOf Map.getD putCopy
    rw [Map.get?_put_ne _ _ h]
  unfold recVal
  rw [hcopies]

/-- A commit that the region takes: it writes its record alone, and wears its region alone. -/
theorem commitRec_commits {s : State} {region record k : Nat} {g g' : BitVec 24} {v v' : DWord} (htakes : RegionTakes s region k)
    (h : recVal s.nvm region record = .value g v) (habove : g.toNat * 2 ^ 64 + v.toNat < g'.toNat * 2 ^ 64 + v'.toNat) :
    ∃ s1, commitRec s region record g' v' k = (s1, true) ∧ Only s s1 [.nvm] ∧ recVal s1.nvm region record = .value g' v' ∧
      (∀ r i, r * 65536 + i ≠ region * 65536 + record → recVal s1.nvm r i = recVal s.nvm r i) ∧
      (∀ r, r ≠ region → getWear s1.nvm r = getWear s.nvm r) ∧
      { s1.nvm with recs := s.nvm.recs, wear := s.nvm.wear } = s.nvm := by
  obtain ⟨hok, hrec⟩ := commitRec_takes htakes h habove
  have honly := commitRec_only s region record g' v' k
  have hwrite := wearWrite_takes 2 htakes
  have hrecs := wearWrite_recs s region 2 k
  have hnvm := wearWrite_nvm s region 2 k
  have hwear := fun r => getWear_wearWrite_ne (s := s) (r := region) (r' := r) 2 k
  unfold commitRec at hok hrec honly ⊢
  generalize wearWrite s region 2 k = w at hok hrec honly hwrite hrecs hnvm hwear ⊢
  obtain ⟨s1, ok⟩ := w
  dsimp only at hwrite
  subst hwrite
  refine ⟨_, rfl, honly, hrec, fun r i hne => (recVal_putCopy_ne hne).trans (recVal_of_recs hrecs r i), hwear, ?_⟩
  exact congrArg (fun n : Nvm => { n with recs := s.nvm.recs }) hnvm

theorem holdValue_only (s : State) (r i : Nat) (v : DWord) : Only s (holdValue s r i v) [.keys] := fun p hp => by
  cases p
  case keys => simp at hp
  all_goals rfl

/-! ### Counters -/

section
variable {s : State} {cid fails n : Nat} {c : Cmd} {d : Bytes} {v : DWord}

theorem ctrIncrement_rises (hbusy : counterBusy s c = false) (ha : Acts s cid 0x0602 c d) (hn : n = le c.entry 40 1) (hvalue : c.value = none)
    (hheld : Map.get? s.keys.held (heldKey 3 n) = none) (hval : recVal s.nvm 3 n = .value 0 v) (hv : v ≠ BitVec.allOnes 64)
    (htakes : RegionTakes s 3 fails) :
    Completes (.ctrIncrement cid fails) s fun t => Only s t [.nvm, .keys, .cmds, .eng, .bus] ∧
      Ended t cid .ok 0 (leBytes 8 (v.toNat + 1)) ∧ recVal t.nvm 3 n = .value 0 (v + 1) ∧
      Map.get? t.keys.held (heldKey 3 n) = some (v + 1) ∧
      ∀ r i, i < 65536 → (r ≠ 3 ∨ i ≠ n) → recVal t.nvm r i = recVal s.nvm r i := by
  subst hn
  have hsucc := toNat_succ hv
  have hn := le_lt c.entry 40 1
  obtain rfl := id_of_acts ha
  obtain ⟨s1, hs1, honly, hrec, hothers, -, -⟩ := commitRec_commits (g' := 0) (v' := v + 1) htakes hval (by omega)
  obtain ⟨s2, hs2⟩ : ∃ s2, s2 = modCmd (holdValue s1 3 (le c.entry 40 1) (v + 1)) c.id fun x => { x with value := some (v + 1).toNat } := ⟨_, rfl⟩
  have hget : getCmd s2 c.id = some { c with value := some (v + 1).toNat } := by
    have hget1 : getCmd (holdValue s1 3 (le c.entry 40 1) (v + 1)) c.id = some c :=
      (getCmd_congr (honly .cmds (by decide)) _).trans (getCmd_of_acts ha)
    rw [hs2]
    exact getCmd_modCmd_some hget1 fun _ => rfl
  have hinc : increment s c v fails = okOut s2 c.id 0 (leBytes 8 (v.toNat + 1)) := by
    unfold increment
    rw [hs1, hs2, ← hsucc]
  have hend : Only s2 (okOut s2 c.id 0 (leBytes 8 (v.toNat + 1))) [.cmds, .eng, .bus] := finish_noReads _ hget ha.2.2
  have hafter : Only s2 (endDraw (okOut s2 c.id 0 (leBytes 8 (v.toNat + 1))) c.id c.phase) [.cmds, .eng, .bus] :=
    only_union hend (endDraw_only _ _ _) (by decide) (by decide)
  have hnvm : (endDraw (okOut s2 c.id 0 (leBytes 8 (v.toNat + 1))) c.id c.phase).nvm = s1.nvm := by
    rw [nvm_of_only hafter (by decide) (by decide), hs2]
    rfl
  refine ⟨endDraw (okOut s2 c.id 0 (leBytes 8 (v.toNat + 1))) c.id c.phase, congrArg Host.Outcome.next (runOp_acts ha ?_), ?_,
    ended_endDraw _ (finish_phase _ _ _ _ hget), hnvm ▸ hrec, ?_, ?_⟩
  · dsimp only
    rw [hbusy, if_neg Bool.false_ne_true, hvalue]
    dsimp only
    rw [hheld, hval]
    dsimp only
    rw [if_neg hv, hinc]
  · have hheld : Only s s2 [.nvm, .keys, .cmds] := hs2 ▸
      only_union (only_union (rs := [.nvm, .keys, .cmds]) honly (holdValue_only _ _ _ _) (by decide) (by decide)) (modCmd_only _ _ _)
        (by decide) (by decide)
    exact only_union hheld hafter (by decide) (by decide)
  · have hkeys := hafter .keys (by decide)
    rw [hkeys, hs2]
    exact Map.get?_put_self ..
  · intro r i hi hne
    rw [hnvm]
    refine hothers r i ?_
    omega

/-- A counter at its greatest value fails its increment, and stays there. -/
theorem ctrIncrement_full (hbusy : counterBusy s c = false) (ha : Acts s cid 0x0602 c d) (hn : n = le c.entry 40 1) (hvalue : c.value = none)
    (hheld : Map.get? s.keys.held (heldKey 3 n) = some (BitVec.allOnes 64)) :
    Completes (.ctrIncrement cid fails) s fun t => Only s t answering ∧ Ended t cid .counterExhausted 1 [] := by
  subst hn
  obtain rfl := id_of_acts ha
  have hget := getCmd_of_acts ha
  have hfull : counterFull s c fails = fail s c.id .counterExhausted 1 := by
    unfold counterFull resolveRec
    rw [hheld]
  refine ⟨_, congrArg Host.Outcome.next (runOp_acts ha (t := fail s c.id .counterExhausted 1) ?_), ?_,
    ended_endDraw _ (finish_phase _ _ _ _ hget)⟩
  · dsimp only
    rw [hbusy, if_neg Bool.false_ne_true, hvalue]
    dsimp only
    rw [hheld]
    dsimp only
    rw [if_pos rfl, hfull]
  · exact only_union (finish_noReads _ hget ha.2.2) (endDraw_only _ _ _) (by decide) (by decide)

theorem ctrRead_held (hbusy : counterBusy s c = false) (ha : Acts s cid 0x0601 c d) (hn : n = le c.entry 40 1)
    (hheld : Map.get? s.keys.held (heldKey 3 n) = some v) :
    Completes (.ctrRead cid fails) s fun t => Only s t answering ∧ Ended t cid .ok 0 (leBytes 8 v.toNat) := by
  subst hn
  have hpad : padTo 8 (leBytes 8 v.toNat) = leBytes 8 v.toNat := leBytes_length 8 v.toNat ▸ padTo_self _
  have hres : resolveRec s 3 (le c.entry 40 1) fails = (s, .ok v) := by
    unfold resolveRec
    rw [hheld]
  refine completes_answering rfl ha ?_
  rw [hbusy, if_neg Bool.false_ne_true, hres]
  exact congrArg (fun out => some (answered s c { status := .ok, detail := 0, out })) hpad

/-- A counter whose record is lost fails its read, and what the NVM holds stays. -/
theorem ctrRead_corrupt (hbusy : counterBusy s c = false) (ha : Acts s cid 0x0601 c d) (hn : n = le c.entry 40 1)
    (hheld : Map.get? s.keys.held (heldKey 3 n) = none) (hval : recVal s.nvm 3 n = .corrupt) :
    Completes (.ctrRead cid fails) s fun t => Ended t cid .counterExhausted 2 [] ∧ t.nvm = s.nvm := by
  subst hn
  have honly := only_of_report (reportCorrupt_report s 3 (le c.entry 40 1))
  have hres : resolveRec s 3 (le c.entry 40 1) fails = (reportCorrupt s 3 (le c.entry 40 1), .error 2) := by
    unfold resolveRec
    rw [hheld, hval]
  refine completes_mono (completes_answer rfl ha honly (by decide) (st := .counterExhausted) (detail := 2) (out := []) ?_)
    fun t ⟨hst, hended, _⟩ => ⟨hended, nvm_of_only hst (by decide) (by decide)⟩
  rw [hbusy, if_neg Bool.false_ne_true, hres]
  rfl

end

end Sys2Proof.Machine

namespace Sys2Proof.Proofs

open Sys2Proof.Machine Sys2Proof.Claims

/-- Settles O41: an increment commits one more than the value held or stored; a counter with no value above its own answers as it stands. -/
theorem countersRise : Obligations.CountersRise := by
  unfold Obligations.CountersRise
  intro s cid fails n c d v hn hbusy
  exact ⟨fun ha hvalue hheld hval hv htakes => ctrIncrement_rises hbusy ha hn hvalue hheld hval hv htakes,
    fun ha hvalue hheld => ctrIncrement_full hbusy ha hn hvalue hheld, fun ha hheld => ctrRead_held hbusy ha hn hheld,
    fun ha hheld hval => ctrRead_corrupt hbusy ha hn hheld hval⟩

end Sys2Proof.Proofs
end

section
/-!
PROOFS. Stateful trees (R172, R173, R250 to R257): the record and the key a new tree leaves, and the leaves taken from it (O42).
-/

namespace Sys2Proof.Machine

open Sys2Proof.Claims

/-! ### Bytes of an unmasked key -/

theorem underStream_zeros (d : Bytes) (n : Nat) : underStream d (zeros n) = d := by
  refine List.ext_getElem (by simp) fun i h1 h2 => ?_
  have hzero : (zeros n).getD i 0 = 0 := by by_cases hi : i < n <;> simp [zeros, hi]
  simp only [underStream, List.getElem_mapIdx, hzero]
  exact BitVec.xor_zero

theorem treeKey_bytes (s : State) (c : Cmd) (seed : Bytes) : (treeKey s c seed).bytes = seed := underStream_zeros seed _

/-! ### A new tree (R252) -/

section
variable {s : State} {cid tn : Nat} {c : Cmd} {d seed pub : Bytes}

/-- The key of a tree whose record is written: one mask is drawn, and the command answers with the granule and the public key. -/
theorem placeTree_places (hleft : DrawsLeft s 1) (hmode : s.sys.mode ≠ .lockdown) :
    ∃ u, placeTree s c tn pub seed = some (answered u c { status := .ok, detail := Config.treeBase + tn, out := pub }) ∧
      Only s u [.rng, .stamp, .keys] ∧ u.keys.trees = s.keys.trees ∧
      ∃ k, Map.get? u.keys.keys (Config.treeBase + tn) = some k ∧ k.typ = le c.entry 40 2 ∧ k.origin = 8 ∧ k.bytes = seed := by
  obtain ⟨r, hr⟩ := drawMasks_serves hleft hmode
  have hdrawn : hideRng r.2 = hideRng s := drawMasks_keeps _ _ _ hr
  have htrees : r.2.keys.trees = s.keys.trees := congrArg (·.trees) (only_of_rng hdrawn .keys (by decide))
  refine ⟨putKey r.2 (Config.treeBase + tn) (Key.granuled (treeKey s c seed) r.1), ?_,
    only_union (only_of_rng hdrawn) (putKey_only _ _ _) (by decide) (by decide), htrees,
    ⟨_, Map.get?_put_self .., rfl, rfl, (bytes_granuled (treeKey s c seed) r.1).trans (treeKey_bytes s c seed)⟩⟩
  unfold placeTree
  rw [hr, Option.bind_some, good_eq, padTo_self]

theorem drawsLeft_congr {t : State} {n : Nat} (h : DrawsLeft s n) (ht : t.rng = s.rng) : DrawsLeft t n := by
  unfold DrawsLeft
  rw [ht]
  exact h

theorem regionTakes_congr {t : State} {r n : Nat} (h : RegionTakes s r n) (ht : t.nvm = s.nvm) : RegionTakes t r n := by
  unfold RegionTakes
  rw [ht]
  exact h

theorem treeSeed_treeRec (t : State) (gen : BitVec 24) (params : Bytes) (h : t.nvm.swk = s.nvm.swk) :
    treeSeed t tn (treeRec s c tn gen params pub seed) = some seed := by
  have hkey : treeSeedKey t = treeSeedKey s := by unfold treeSeedKey swk; rw [h]
  unfold treeSeed treeRec boxTree
  simp only [hkey, aeadOpen_seal, if_true]

/-- What a written tree leaves: its generation and its first leaf committed, and the record with its sealed seed. -/
def TreeStands (t : State) (tn : Nat) (c : Cmd) (d seed : Bytes) (gen : BitVec 24) : Prop :=
  recVal t.nvm 4 tn = .value gen 0 ∧ Map.get? t.keys.trees tn = some (0, 0) ∧
  ∃ x, Map.get? t.nvm.trees tn = some x ∧ treeSeed t tn x = some seed ∧ x.owner = c.fn ∧ x.gen = gen ∧ x.params = d

/-- The tree at its first leaf, as it is held on-chip. -/
def firstLeaf (s : State) (tn : Nat) : State := { s with keys := { s.keys with trees := Map.put s.keys.trees tn (0, 0) } }

theorem firstLeaf_only (s : State) (tn : Nat) : Only s (firstLeaf s tn) [.keys] := fun p hp => by
  cases p
  case keys => simp at hp
  all_goals rfl

/-- The record of a new tree written. -/
def putTree (s : State) (c : Cmd) (tn : Nat) (gen : BitVec 24) (d pub seed : Bytes) : State :=
  { s with nvm := { s.nvm with trees := Map.put s.nvm.trees tn (treeRec s c tn gen d pub seed) }, free := s.free + 24 }

theorem putTree_only (gen : BitVec 24) : Only s (putTree s c tn gen d pub seed) [.nvm, .free] := fun p hp => by
  cases p
  case nvm | free => simp at hp
  all_goals rfl

theorem treeStands_putTree {gen : BitVec 24} (hrec : recVal s.nvm 4 tn = .value gen 0) (hleaf : Map.get? s.keys.trees tn = some (0, 0)) :
    TreeStands (putTree s c tn gen d pub seed) tn c d seed gen :=
  ⟨hrec, hleaf, _, Map.get?_put_self .., treeSeed_treeRec (putTree s c tn gen d pub seed) gen d rfl, rfl, rfl, rfl⟩

theorem treeStands_congr {t u : State} {gen : BitVec 24} (h : TreeStands t tn c d seed gen) (hnvm : u.nvm = t.nvm)
    (htrees : u.keys.trees = t.keys.trees) : TreeStands u tn c d seed gen := by
  obtain ⟨hrec, hleaf, x, hx, hseed, hrest⟩ := h
  have hsame : treeSeed u tn x = treeSeed t tn x := by unfold treeSeed treeSeedKey swk; rw [hnvm]
  exact ⟨hnvm ▸ hrec, htrees ▸ hleaf, x, hnvm ▸ hx, hsame.trans hseed, hrest⟩

/-- The commits of a new tree and its key (steps 4 to 6 of R252). -/
theorem keygenTree_places {gen : BitVec 24} {v : DWord} {fs : List Nat} (hval : recVal s.nvm 4 tn = .value gen v)
    (hgen : gen ≠ BitVec.allOnes 24) (hcounter : RegionTakes s 4 (fs.getD 0 0)) (hrecord : RegionTakes s 2 (fs.getD 1 0))
    (hleft : DrawsLeft s 1) (hmode : s.sys.mode ≠ .lockdown) :
    ∃ u, keygenTree s c tn fs d pub seed = some (answered u c { status := .ok, detail := Config.treeBase + tn, out := pub }) ∧
      Only s u [.nvm, .keys, .free, .rng, .stamp] ∧ TreeStands u tn c d seed (gen + 1) ∧
      ∃ k, Map.get? u.keys.keys (Config.treeBase + tn) = some k ∧ k.typ = le c.entry 40 2 ∧ k.origin = 8 := by
  have hnext : gen.toNat < (gen + 1).toNat := by
    have hne : gen ≠ 0xFFFFFF#24 := hgen
    bv_omega
  obtain ⟨s1, hs1, honly1, hrec, -, hwear, -⟩ := commitRec_commits (g' := gen + 1) (v' := 0) hcounter hval (by have := v.isLt; omega)
  have htakes : RegionTakes (firstLeaf s1 tn) 2 (fs.getD 1 0) := by
    unfold RegionTakes firstLeaf
    rw [hwear 2 (by decide)]
    exact hrecord
  have hwrite := wearWrite_takes treeWords htakes
  have hwritten := wearWrite_only (firstLeaf s1 tn) 2 treeWords (fs.getD 1 0)
  have hrecs := wearWrite_recs (firstLeaf s1 tn) 2 treeWords (fs.getD 1 0)
  generalize hs3 : wearWrite (firstLeaf s1 tn) 2 treeWords (fs.getD 1 0) = w at hwrite hwritten hrecs
  obtain ⟨s3, ok⟩ := w
  dsimp only at hwrite
  subst hwrite
  have honly3 : Only s s3 [.nvm, .keys] :=
    only_union (only_union (rs := [.nvm, .keys]) honly1 (firstLeaf_only _ _) (by decide) (by decide)) hwritten (by decide) (by decide)
  have honly : Only s (putTree s3 c tn (gen + 1) d pub seed) [.nvm, .keys, .free] :=
    only_union honly3 (putTree_only _) (by decide) (by decide)
  obtain ⟨u, hu, honlyu, htrees, k, hk, htyp, horigin, -⟩ := placeTree_places (tn := tn) (c := c) (seed := seed) (pub := pub)
    (drawsLeft_congr hleft (honly .rng (by decide))) (honly .sys (by decide) ▸ hmode)
  refine ⟨u, ?_, only_union honly honlyu (by decide) (by decide), ?_, k, hk, htyp, horigin⟩
  · unfold firstLeaf at hs3
    unfold keygenTree
    rw [hval]
    dsimp only
    rw [if_neg hgen, hs1]
    dsimp only
    rw [hs3]
    dsimp only
    unfold putTree at hu
    rw [hu]
  · have hleaf : Map.get? s3.keys.trees tn = some (0, 0) := by
      rw [show s3.keys = (firstLeaf s1 tn).keys from hwritten .keys (by decide)]
      exact Map.get?_put_self ..
    exact treeStands_congr (treeStands_putTree ((recVal_of_recs hrecs 4 tn).trans hrec) hleaf) (nvm_of_only honlyu (by decide) (by decide)) htrees

/-! ### HBS_KEYGEN -/

theorem keygenTurn_of (hturn : earlierOpen s c [0x0610] (fun x => le x.entry 42 2 == le c.entry 42 2) = false) : keygenTurn s c = true := by
  unfold keygenTurn
  rw [hturn]
  rfl

theorem hbsKeygen_exec (cid : Nat) (fs : List Nat) (s : State) : exec (.hbsKeygen cid fs) s = execHbsKeygen cid fs s := rfl

theorem hbsKeygen_runs (fs : List Nat) (h : keygenBlock s cid = none) : exec (.hbsKeygen cid fs) s = .next (keygenRun cid fs s) := by
  rw [hbsKeygen_exec, execHbsKeygen, h]

theorem keygenBlock_none {p : Nat} (ha : Acts s cid p c d) (hok : paramErr c d = none) : keygenBlock s cid = none := by
  have hblock : blockErr c = none := by
    unfold blockErr
    rw [input_of_acts ha]
    simp [hok]
  unfold keygenBlock
  rw [getCmd_of_acts ha]
  simp [hblock]

/-- The parameter block that fails is answered by the same failure, whether the command has dispatched anything or not. -/
theorem hbsKeygen_refuses {fs : List Nat} {st : Status} {x : Nat} (ha : Acts s cid 0x0610 c d) (hvalue : c.value = none)
    (hactive : treeActive s (le c.entry 42 2) = false) (hturn : keygenTurn s c = true) (hbad : paramErr c d = some (st, x)) :
    Completes (.hbsKeygen cid fs) s fun t => Only s t answering ∧ Ended t cid st x [] := by
  have hget := getCmd_of_acts ha
  obtain rfl := id_of_acts ha
  cases hk : keygenBlock s c.id with
  | none =>
    refine completes_answering (hbsKeygen_runs fs hk) ha ?_
    rw [hvalue]
    dsimp only
    rw [hturn, hactive, hbad]
    rfl
  | some e =>
    have he : e = (c, st, x) := by
      unfold keygenBlock at hk
      rw [hget] at hk
      simp only [blockErr, opcode_of_acts ha, if_true, input_of_acts ha, Option.bind_some, hbad, Option.map_some,
        Option.ite_none_right_eq_some, Option.some.injEq] at hk
      exact hk.2.symm
    refine ⟨fail s c.id st x, ?_, only_mono (finish_noReads _ hget ha.2.2) (by decide), finish_phase _ _ _ _ hget⟩
    rw [hbsKeygen_exec, execHbsKeygen, hk, he]

theorem keygenPublic_eq {pl a b : Nat} (h : hbsParams (le c.entry 40 2) d = some (pl, a, b)) :
    keygenPublic c d seed = padTo pl (Config.hbsPublic (le c.entry 40 2) d seed) := by
  unfold keygenPublic
  rw [h]
  rfl

/-- HBS_KEYGEN of a tree that is not active, in its turn (R172, R252). -/
theorem hbsKeygen_makes {s1 : State} {fs : List Nat} {gen : BitVec 24} {v : DWord} {pl : Nat} (ha : Acts s cid 0x0610 c d)
    (hvalue : c.value = none) (htn : tn = le c.entry 42 2) (hactive : treeActive s tn = false)
    (hturn : earlierOpen s c [0x0610] (fun x => le x.entry 42 2 == tn) = false) (hdrew : Drew s c seed s1) (hleft : DrawsLeft s 2)
    (hval : recVal s.nvm 4 tn = .value gen v) (hgen : gen ≠ BitVec.allOnes 24) (hcounter : RegionTakes s 4 (fs.getD 0 0))
    (hrecord : RegionTakes s 2 (fs.getD 1 0)) :
    Completes (.hbsKeygen cid fs) s fun t => Only s t (.nvm :: .free :: placing) ∧
      match paramErr c d with
      | some (st, x) => Ended t cid st x [] ∧ t.nvm = s.nvm ∧ t.keys = s.keys
      | none => ∀ a b, hbsParams (le c.entry 40 2) d = some (pl, a, b) →
        Ended t cid .ok (Config.treeBase + tn) (padTo pl (Config.hbsPublic (le c.entry 40 2) d seed)) ∧
        recVal t.nvm 4 tn = .value (gen + 1) 0 ∧ Map.get? t.keys.trees tn = some (0, 0) ∧
        (∃ x, Map.get? t.nvm.trees tn = some x ∧ treeSeed t tn x = some seed ∧ x.owner = c.fn ∧ x.gen = gen + 1 ∧ x.params = d) ∧
        ∃ k, Map.get? t.keys.keys (Config.treeBase + tn) = some k ∧ k.typ = le c.entry 40 2 ∧ k.origin = 8 := by
  subst htn
  have hgone := keygenTurn_of hturn
  cases hbad : paramErr c d with
  | some e =>
    exact completes_mono (hbsKeygen_refuses ha hvalue hactive hgone hbad) fun t ⟨honly, hended⟩ =>
      ⟨only_mono honly (by decide), hended, nvm_of_only honly (by decide) (by decide), honly .keys (by decide)⟩
  | none =>
    have hmode := mode_of_acts ha
    have hdrawn := drew_only hdrew
    have hnvm : s1.nvm = s.nvm := nvm_of_only hdrawn (by decide) (by decide)
    obtain ⟨u, hu, honly, hstands, k, hk, htyp, horigin⟩ := keygenTree_places (s := s1) (c := c) (d := d) (seed := seed)
      (pub := keygenPublic c d seed) (hnvm.symm ▸ hval) hgen (regionTakes_congr hcounter hnvm) (regionTakes_congr hrecord hnvm)
      (drawsLeft_drew hdrew hleft hmode) (mode_of_rng (drew_keeps hdrew) ▸ hmode)
    refine completes_mono (completes_answer (hbsKeygen_runs fs (keygenBlock_none ha hbad)) ha (ps := [.nvm, .keys, .free, .rng, .stamp])
      (only_union hdrawn honly (by decide) (by decide)) (by decide) (s1 := u) (st := .ok) (detail := Config.treeBase + le c.entry 42 2)
      (out := keygenPublic c d seed) ?_) fun t ⟨hst, hended, hut⟩ => ⟨only_mono hst (by decide), fun a b hparams => ?_⟩
    · rw [hvalue]
      dsimp only
      rw [hgone, hactive, hbad]
      exact (withRnd_drew hdrew fun seed s1 => keygenTree s1 c (le c.entry 42 2) fs d (keygenPublic c d seed) seed).trans hu
    · have hkeys : t.keys = u.keys := hut .keys (by decide)
      obtain ⟨hrec, hleaf, hsealed⟩ := treeStands_congr hstands (nvm_of_only hut (by decide) (by decide)) (congrArg (·.trees) hkeys)
      exact ⟨keygenPublic_eq hparams ▸ hended, hrec, hleaf, hsealed, k, hkeys ▸ hk, htyp, horigin⟩

/-- HBS_KEYGEN whose record is written: only its key is left to place (R361). -/
theorem hbsKeygen_waited {s1 : State} {fs : List Nat} {w pl a b : Nat} (ha : Acts s cid 0x0610 c d) (hvalue : c.value = some w)
    (htn : tn = le c.entry 42 2) (hok : paramErr c d = none) (hdrew : Drew s c seed s1) (hleft : DrawsLeft s 2)
    (hparams : hbsParams (le c.entry 40 2) d = some (pl, a, b)) :
    Completes (.hbsKeygen cid fs) s fun t => Only s t placing ∧
      Ended t cid .ok (Config.treeBase + tn) (padTo pl (Config.hbsPublic (le c.entry 40 2) d seed)) ∧
      ∃ k, Map.get? t.keys.keys (Config.treeBase + tn) = some k ∧ k.typ = le c.entry 40 2 ∧ k.origin = 8 ∧ k.bytes = seed := by
  subst htn
  have hmode := mode_of_acts ha
  obtain ⟨u, hu, honly, -, hkey⟩ := placeTree_places (s := s1) (c := c) (seed := seed) (tn := le c.entry 42 2)
    (pub := keygenPublic c d seed) (drawsLeft_drew hdrew hleft hmode) (mode_of_rng (drew_keeps hdrew) ▸ hmode)
  refine completes_mono (completes_answer (hbsKeygen_runs fs (keygenBlock_none ha hok)) ha (ps := [.rng, .stamp, .keys])
    (only_union (drew_only hdrew) honly (by decide) (by decide)) (by decide) (s1 := u) (st := .ok) (detail := Config.treeBase + le c.entry 42 2) (out := keygenPublic c d seed) ?_)
    fun t ⟨hst, hended, hut⟩ => ⟨only_mono hst (by decide), keygenPublic_eq hparams ▸ hended, hut .keys (by decide) ▸ hkey⟩
  rw [hvalue]
  exact (withRnd_drew hdrew _).trans hu

end

/-! ### Leaves (R255 to R257) -/

section
variable {s : State} {cid fails tn g n r : Nat} {c : Cmd}

/-- The reservation step of an HBS_SIGN whose turn has come. -/
theorem leafReserve_takes (hget : getCmd s cid = some c) (hkey : c.keyA = some g) (htn : tn = treeOf g) (hrun : running s = true)
    (hop : opcode c.entry = 0x0611) (hphase : c.phase = .run) (hleaf : c.leaf = none)
    (hturn : earlierOpen s c [0x0611] (fun x => (x.keyA == some g || blocksKey s x g) && x.leaf.isNone) = false) :
    exec (.leafReserve cid fails) s = .next (takeLeaf s c tn (treeLeaves s (some g)) fails) := by
  have hexec : exec (.leafReserve cid fails) s = execLeafReserve cid fails s := rfl
  rw [hexec, execLeafReserve, hget, htn]
  dsimp only
  rw [hkey]
  dsimp only
  rw [hturn, hrun, hop, hphase, hleaf]
  rfl

/-- The leaf that is taken, and where the tree stands then. -/
def leafTaken (s : State) (cid tn n r : Nat) : State :=
  modCmd { s with keys := { s.keys with trees := Map.put s.keys.trees tn (n + 1, r) } } cid fun x => { x with leaf := some n }

theorem leafTaken_only (s : State) (cid tn n r : Nat) : Only s (leafTaken s cid tn n r) [.keys, .cmds] := by
  have hkeys : Only s { s with keys := { s.keys with trees := Map.put s.keys.trees tn (n + 1, r) } } [.keys] := fun p hp => by
    cases p
    case keys => simp at hp
    all_goals rfl
  exact only_union hkeys (modCmd_only _ _ _) (by decide) (by decide)

theorem getCmd_leafTaken (hget : getCmd s cid = some c) : getCmd (leafTaken s cid tn n r) cid = some { c with leaf := some n } :=
  getCmd_modCmd_some (s := { s with keys := { s.keys with trees := Map.put s.keys.trees tn (n + 1, r) } }) hget fun _ => rfl

theorem leafTaken_tree : Map.get? (leafTaken s cid tn n r).keys.trees tn = some (n + 1, r) := Map.get?_put_self ..

theorem takeLeaf_reserved {total : Nat} (hid : c.id = cid) (hheld : Map.get? s.keys.trees tn = some (n, r)) (hnr : n < r) (hn : n < total) :
    takeLeaf s c tn total fails = leafTaken s cid tn n r := by
  subst hid
  unfold takeLeaf
  rw [hheld]
  dsimp only
  rw [if_neg (by omega), if_neg (by omega)]
  rfl

/-- A block is committed before its first leaf is taken. -/
theorem takeLeaf_block {total : Nat} {gen : BitVec 24} (hid : c.id = cid) (hheld : Map.get? s.keys.trees tn = some (n, n)) (hn : n < total)
    (hbound : min (n + 64) total < 2 ^ 64) (hval : recVal s.nvm 4 tn = .value gen (BitVec.ofNat 64 n)) (htakes : RegionTakes s 4 fails) :
    ∃ s1, takeLeaf s c tn total fails = leafTaken s1 cid tn n (min (n + 64) total) ∧ Only s s1 [.nvm] ∧
      recVal s1.nvm 4 tn = .value gen (BitVec.ofNat 64 (min (n + 64) total)) := by
  subst hid
  have habove : (BitVec.ofNat 64 n).toNat < (BitVec.ofNat 64 (min (n + 64) total)).toNat := by
    rw [BitVec.toNat_ofNat, BitVec.toNat_ofNat, Nat.mod_eq_of_lt (by omega), Nat.mod_eq_of_lt hbound]
    omega
  obtain ⟨s1, hs1, honly, hrec, -⟩ := commitRec_commits (g' := gen) (v' := BitVec.ofNat 64 (min (n + 64) total)) htakes hval (by omega)
  refine ⟨s1, ?_, honly, hrec⟩
  have hgen : genOf s 4 tn = gen := by unfold genOf; rw [hval]
  unfold takeLeaf
  rw [hheld]
  dsimp only
  rw [if_neg (by omega), if_pos rfl]
  unfold reserveBlock
  dsimp only
  rw [hgen, hs1]
  rfl

theorem takeLeaf_full {total : Nat} (hheld : Map.get? s.keys.trees tn = some (n, r)) (hn : total ≤ n) :
    takeLeaf s c tn total fails = fail s c.id .counterExhausted 1 := by
  unfold takeLeaf
  rw [hheld]
  exact if_pos hn

theorem hbsSign_answers {d : Bytes} {tr : TreeRec} (ha : Acts s cid 0x0611 c d) (hleaf : c.leaf = some n) (hkey : c.keyA = some g)
    (htree : Map.get? s.nvm.trees (treeOf g) = some tr) :
    Completes (.hbsSign cid) s fun t => Only s t answering ∧
      Ended t cid .ok 0 (padTo (treeParams s c.keyA).2.1 (Config.hbsSign tr.pset tr.params (keyBytes s c.keyA)
        (leafSplit ((hbsLevels tr.pset tr.params).getD []) n) d)) := by
  have hfound : (c.keyA.bind fun g => Map.get? s.nvm.trees (treeOf g)) = some tr := by rw [hkey]; exact htree
  refine completes_answering rfl ha ?_
  rw [hleaf, hfound]
  rfl

theorem hbsQuery_answers {d : Bytes} (ha : Acts s cid 0x0612 c d) (hkey : c.keyA = some g)
    (hheld : Map.get? s.keys.trees (treeOf g) = some (n, r)) :
    Completes (.hbsQuery cid fails) s fun t => Only s t answering ∧
      Ended t cid .ok 0 (leBytes 8 n ++ leBytes 8 r ++ leBytes 8 (treeLeaves s (some g))) := by
  have hres : resolveTree s (treeOf g) fails = (s, .ok (n, r)) := by
    unfold resolveTree
    rw [hheld]
  have hlen : (leBytes 8 n ++ leBytes 8 r ++ leBytes 8 (treeLeaves s (some g))).length = 24 := by
    simp only [List.length_append, leBytes_length]
  refine completes_answering rfl ha ?_
  rw [hkey]
  dsimp only
  rw [hres]
  dsimp only
  rw [good_eq, ← hlen, padTo_self]

end

end Sys2Proof.Machine

namespace Sys2Proof.Proofs

open Sys2Proof.Machine Sys2Proof.Claims

/-- Settles O42: the commits of a new tree, the leaf that is taken, and what signing and the query read of them. -/
theorem statefulTrees : Obligations.StatefulTrees := by
  unfold Obligations.StatefulTrees
  intro s s1 cid fails tn g n r pl c d seed v gen tr
  refine ⟨fun fs => hbsKeygen_makes, fun fs w a b => hbsKeygen_waited, ?_, ?_, ?_, hbsSign_answers, hbsQuery_answers⟩
  · intro hget hkey htn hrun hop hphase hleaf hturn hheld hnr hn
    exact ⟨_, (leafReserve_takes hget hkey htn hrun hop hphase hleaf hturn).trans
      (congrArg Host.Outcome.next (takeLeaf_reserved (getCmd_id hget) hheld hnr hn)), leafTaken_only _ _ _ _ _, getCmd_leafTaken hget,
      leafTaken_tree⟩
  · intro hget hkey htn hrun hop hphase hleaf hturn hheld hn hbound hval htakes
    obtain ⟨u, hu, honly, hrec⟩ := takeLeaf_block (getCmd_id hget) hheld hn hbound hval htakes
    exact ⟨_, (leafReserve_takes hget hkey htn hrun hop hphase hleaf hturn).trans (congrArg Host.Outcome.next hu),
      only_union honly (leafTaken_only _ _ _ _ _) (by decide) (by decide),
      getCmd_leafTaken ((getCmd_congr (honly .cmds (by decide)) _).trans hget), leafTaken_tree, hrec⟩
  · intro hget hkey htn hrun hop hphase hleaf hsettled hturn hheld hn
    exact ⟨_, (leafReserve_takes hget hkey htn hrun hop hphase hleaf hturn).trans (congrArg Host.Outcome.next (takeLeaf_full hheld hn)),
      getCmd_id hget ▸ fail_settled _ _ ((getCmd_id hget).symm ▸ hget) hsettled⟩

end Sys2Proof.Proofs
end

section
/-!
PROOFS. User NVM (R174, R261, R262): the blocks of a write and the bytes they leave (O43).
-/

namespace Sys2Proof.Machine

open Sys2Proof.Claims

/-! ### Bytes written in two parts -/

theorem memWrite_take_drop (m : List Host.Cell) (a k : Nat) (d : Bytes) :
    memWrite userBlank (memWrite userBlank m a (d.take k)) (a + k) (d.drop k) = memWrite userBlank m a d := by
  induction d generalizing m a k with
  | nil => rw [List.take_nil, List.drop_nil]; rfl
  | cons b d ih =>
    cases k with
    | zero => rfl
    | succ k =>
      have hstep := ih (memPut userBlank m a b) (a + 1) k
      rw [Nat.add_assoc, Nat.add_comm 1 k] at hstep
      exact hstep

/-! ### The wear of a region (R260, R262) -/

section
variable {s : State} {r w k : Nat}

/-- A write that the region takes leaves it spares for what it was to take after. -/
theorem wearWrite_leaves {n : Nat} (hr : r < 7) (h : RegionTakes s r (k + n)) : RegionTakes (wearWrite s r w k).1 r n := by
  obtain ⟨hworn, hspare⟩ := h
  have hwear : getWear (wearWrite s r w k).1.nvm r = { getWear s.nvm r with
      window := (getWear s.nvm r).window + w + 2 * k, spare := (getWear s.nvm r).spare + k, worn := false } := by
    have hk : min k (spareWords r - (getWear s.nvm r).spare) = k := by omega
    have hleft : ¬ spareWords r - (getWear s.nvm r).spare < k := by omega
    unfold wearWrite
    dsimp only
    rw [hworn, if_neg Bool.false_ne_true, hk, decide_eq_false hleft]
    have hold : s.nvm.wear[r] = getWear s.nvm r := by simp [getWear, Array.getD, hr]
    conv_lhs => unfold getWear
    simp [Array.getD, hr, hold]
  rw [RegionTakes, hwear]
  exact ⟨rfl, by dsimp only; omega⟩

theorem wearWrite_worn (h : (getWear s.nvm r).worn = true) : wearWrite s r w k = (s, false) := by
  unfold wearWrite
  exact if_pos h

theorem wearWrite_spent (h : spareWords r - (getWear s.nvm r).spare < k) : (wearWrite s r w k).2 = false := by
  unfold wearWrite
  dsimp only
  split
  · rfl
  · exact decide_eq_false (by omega)

end

/-! ### The blocks of a write (R174) -/

theorem headD_add_tail_sum (l : List Nat) : l.headD 0 + l.tail.sum = l.sum := by
  cases l with
  | nil => rfl
  | cons x l => simp

theorem userWrite_only (s : State) (u : List Host.Cell) : Only s { s with nvm := { s.nvm with user := u } } [.user] := fun p hp => by
  cases p
  case user => simp at hp
  all_goals rfl

theorem nvmBlocks_cons {off : Nat} {d : Bytes} (h : d ≠ []) :
    ∃ rest, nvmBlocks d.length off d = (off, d.take (64 - off % 64)) :: rest := by
  obtain ⟨b, e, rfl⟩ := List.exists_cons_of_ne_nil h
  exact ⟨_, if_neg h⟩

/-- Block after block, a write that the region takes stores its bytes at its address. -/
theorem nvmCommit_writes (n off : Nat) (d : Bytes) {s : State} {fails : List Nat} (hn : d.length ≤ n) (htakes : RegionTakes s 1 fails.sum) :
    ∃ s1, nvmCommit s fails (nvmBlocks n off d) = (s1, true) ∧ Only s s1 [.user, .nvm] ∧
      s1.nvm.user = memWrite userBlank s.nvm.user off d := by
  induction n generalizing s fails off d with
  | zero =>
    obtain rfl : d = [] := List.eq_nil_of_length_eq_zero (by omega)
    exact ⟨s, rfl, only_refl, rfl⟩
  | succ n ih =>
    by_cases hd : d = []
    · subst hd
      exact ⟨s, rfl, only_refl, rfl⟩
    rw [← headD_add_tail_sum] at htakes
    have hwrite := wearWrite_takes 8 (r := 1) (k := fails.headD 0) ⟨htakes.1, by omega⟩
    have hleft := wearWrite_leaves (w := 8) (by decide) htakes
    have hwritten := wearWrite_only s 1 8 (fails.headD 0)
    generalize hs1 : wearWrite s 1 8 (fails.headD 0) = w at hwrite hleft hwritten
    obtain ⟨s1, ok⟩ := w
    dsimp only at hwrite
    subst hwrite
    have hpos : 0 < d.length := List.length_pos_iff.mpr hd
    obtain ⟨s2, hs2, honly, huser⟩ := ih (off + (64 - off % 64)) (d.drop (64 - off % 64)) (fails := fails.tail)
      (s := { s1 with nvm := { s1.nvm with user := memWrite userBlank s1.nvm.user off (d.take (64 - off % 64)) } })
      (by rw [List.length_drop]; omega) hleft
    refine ⟨s2, ?_, ?_, ?_⟩
    · unfold nvmBlocks
      rw [if_neg hd]
      unfold nvmCommit
      rw [hs1]
      exact hs2
    · exact only_union (only_union (rs := [.user, .nvm]) hwritten (userWrite_only _ _) (by decide) (by decide)) honly (by decide) (by decide)
    · rw [huser, ← memWrite_take_drop _ off (64 - off % 64) d, ← show s1.nvm.user = s.nvm.user from hwritten .user (by decide)]

section
variable {s : State} {cid : Nat} {fails : List Nat} {c : Cmd} {d : Bytes}

theorem nvmWrite_stores (ha : Acts s cid 0x0621 c d) (hturn : earlierOpen s c [0x0621] (fun x => overlaps x.entry c.entry) = false)
    (htakes : RegionTakes s 1 fails.sum) :
    Completes (.nvmWrite cid fails) s fun t => Only s t (.user :: .nvm :: answering) ∧ Ended t cid .ok 0 [] ∧
      t.nvm.user = memWrite userBlank s.nvm.user (le c.entry 44 4) d := by
  obtain ⟨s1, hs1, honly, huser⟩ := nvmCommit_writes d.length (le c.entry 44 4) d le_rfl htakes
  refine completes_mono (completes_answer rfl ha honly (by decide) (st := .ok) (detail := 0) (out := []) ?_)
    fun t ⟨hst, hended, hst1⟩ => ⟨hst, hended, (hst1 .user (by decide)).trans huser⟩
  rw [hturn, if_neg Bool.false_ne_true, hs1]
  rfl

/-- A write whose first block cannot be committed. -/
theorem nvmWrite_ends {s1 : State} (ha : Acts s cid 0x0621 c d)
    (hturn : earlierOpen s c [0x0621] (fun x => overlaps x.entry c.entry) = false) (hd : d ≠ [])
    (hwear : wearWrite s 1 8 (fails.headD 0) = (s1, false)) {ps : List Part} (honly : Only s s1 ps) (hps : Part.cmds ∉ ps) :
    Completes (.nvmWrite cid fails) s fun t => Only s t (ps ++ answering) ∧ Ended t cid .counterExhausted 3 [] := by
  obtain ⟨rest, hrest⟩ := nvmBlocks_cons (off := le c.entry 44 4) hd
  refine completes_mono (completes_answer rfl ha honly hps (st := .counterExhausted) (detail := 3) (out := []) ?_)
    fun t ⟨hst, hended, _⟩ => ⟨hst, hended⟩
  rw [hturn, if_neg Bool.false_ne_true, hrest, nvmCommit, hwear]
  rfl

theorem nvmRead_answers (ha : Acts s cid 0x0620 c d) :
    Completes (.nvmRead cid) s fun t => Only s t answering ∧
      ∃ out, Ended t cid .ok 0 out ∧ out.length = le c.entry 48 4 ∧
        ∀ i, i < le c.entry 48 4 → out.getD i 0 = memGet userBlank s.nvm.user (le c.entry 44 4 + i) := by
  refine completes_mono (completes_answering rfl ha rfl) fun t ⟨honly, hended⟩ => ⟨honly, _, hended, padTo_length .., fun i hi => ?_⟩
  rw [padTo_getD _ _ _ hi]
  simp [memRead, hi]

end

end Sys2Proof.Machine

namespace Sys2Proof.Proofs

open Sys2Proof.Machine Sys2Proof.Claims

/-- Settles O43: what the blocks of a write leave is the write as a whole. -/
theorem userNvmReadsBack : Obligations.UserNvmReadsBack := by
  unfold Obligations.UserNvmReadsBack
  intro s cid fails c d
  refine ⟨fun ha hturn htakes => ?_, fun ha hturn hworn hd => ?_, fun ha hturn hspent hd => ?_, nvmRead_answers⟩
  · refine completes_mono (nvmWrite_stores ha hturn htakes) fun t ⟨honly, hended, huser⟩ => ⟨honly, hended, ?_, fun a hout => ?_, fun hwf => ?_⟩
    · rw [huser, memRead_memWrite]
    · rw [huser, memGet_memWrite, if_neg (by omega)]
    · rw [huser]
      exact memWf_memWrite _ _ _ _ hwf
  · exact nvmWrite_ends ha hturn hd (wearWrite_worn hworn) (ps := []) only_refl (by decide)
  · exact nvmWrite_ends ha hturn hd (Prod.ext rfl (wearWrite_spent hspent)) (wearWrite_only _ _ _ _) (by decide)

end Sys2Proof.Proofs
end

section
/-!
PROOFS. Key establishment (R147 to R151) (O36).
-/

namespace Sys2Proof.Machine

open Sys2Proof.Claims

section
variable {s s1 : State} {cid h : Nat} {c : Cmd} {d rnd : Bytes}

/-! ### KEM_ENCAPS and KEM_DECAPS (R147, R148) -/

theorem kemEncaps_places {pk : Bytes} (ha : Acts s cid 0x0101 c d) (hpk : pk = if le c.entry 42 1 = 1 then keyBytes s c.keyA else d)
    (hdrew : Drew s c rnd s1) (hroom : RoomAt s (secretLen (le c.entry 40 2)) h 1)
    (hok : le c.entry 42 1 = 1 ∨ Config.publicOk (le c.entry 40 2) d = true) :
    Completes (.kemEncaps cid) s fun t => Only s t placing ∧
      KeyPlaced s t cid h (nkdKey s c (le c.entry 60 2) 3 true
          (padTo (secretLen (le c.entry 40 2)) (Config.kemEncaps (le c.entry 40 2) pk rnd).2))
        (padTo (sigLen (le c.entry 40 2)) (Config.kemEncaps (le c.entry 40 2) pk rnd).1) := by
  refine completes_newKey rfl ha only_refl hdrew (fun h5 => absurd h5 (by decide)) hroom (padTo_length _ _) ?_
  dsimp only
  by_cases hstored : le c.entry 42 1 = 1
  · rw [if_pos hstored] at hpk
    rw [if_neg (by simp [hstored]), withRnd_drew hdrew, if_pos (by simp [hstored]), ← hpk]
    rfl
  · rw [if_neg hstored] at hpk
    have hpub := hok.resolve_left hstored
    rw [if_neg (by simp [hstored, hpub]), withRnd_drew hdrew, if_neg (by simp [hstored]), ← hpk]
    rfl

theorem kemEncaps_badPublic (ha : Acts s cid 0x0101 c d) (hstored : le c.entry 42 1 ≠ 1)
    (hbad : Config.publicOk (le c.entry 40 2) d = false) :
    Completes (.kemEncaps cid) s fun t => Only s t placing ∧ Ended t cid .badParam 0xFFFF [] ∧ t.keys = s.keys := by
  refine completes_unplaced rfl ha only_refl rfl (if_pos ?_)
  rw [if_neg (by simp [hstored])]
  simp [hstored, hbad]

theorem kemDecaps_places (ha : Acts s cid 0x0102 c d) (hroom : RoomAt s (secretLen (le c.entry 40 2)) h 0) :
    Completes (.kemDecaps cid) s fun t => Only s t placing ∧
      KeyPlaced s t cid h (nkdKey s c (le c.entry 60 2) 3 true
        (padTo (secretLen (le c.entry 40 2)) (Config.kemDecaps (le c.entry 40 2) (keyBytes s c.keyA) d))) [] :=
  completes_place (n := 0) (out := []) rfl ha only_refl rfl (fun h5 => absurd h5 (by decide)) (roomLeft_now hroom) (padTo_length _ _) rfl

/-! ### DH_AGREE (R149) -/

theorem dhAgree_body (cid : Nat) (hdrew : Drew s c rnd s1) :
    ∃ k, exec (.dhAgree cid) s = .next (runOp s cid 0x0103 k) ∧ k c d =
      if (famOf (le c.entry 40 2) = .ecdh → Config.publicOk (le c.entry 40 2) d = true) ∧
          zeroResult (le c.entry 40 2) (padTo (secretLen (le c.entry 40 2)) (Config.agree (le c.entry 40 2) (keyBytes s c.keyA) d)) = false then
        placeDerived s1 c (padTo (secretLen (le c.entry 40 2)) (Config.agree (le c.entry 40 2) (keyBytes s c.keyA) d)) 0 []
      else bad s1 c .badParam 0xFFFF := by
  refine ⟨_, rfl, ?_⟩
  dsimp only
  rw [withRnd_drew hdrew, ← ite_not]
  refine if_congr ?_ rfl rfl
  simp

theorem dhAgree_agrees {z : Bytes} (ha : Acts s cid 0x0103 c d)
    (hz : z = padTo (secretLen (le c.entry 40 2)) (Config.agree (le c.entry 40 2) (keyBytes s c.keyA) d)) (hdrew : Drew s c rnd s1)
    (hroom : RoomAt s (secretLen (le c.entry 40 2)) h 1) :
    Completes (.dhAgree cid) s fun t => Only s t placing ∧
      if (famOf (le c.entry 40 2) = .ecdh → Config.publicOk (le c.entry 40 2) d = true) ∧ zeroResult (le c.entry 40 2) z = false then
        KeyPlaced s t cid h (nkdKey s c (le c.entry 60 2) 3 true z) []
      else Ended t cid .badParam 0xFFFF [] ∧ t.keys = s.keys := by
  subst hz
  obtain ⟨k, hexec, hk⟩ := dhAgree_body (d := d) cid hdrew
  split
  next hok =>
    rw [if_pos hok] at hk
    exact completes_newKey (n := 0) (out := []) hexec ha only_refl hdrew (fun h5 => absurd h5 (by decide)) hroom (padTo_length _ _) hk
  next hok =>
    rw [if_neg hok] at hk
    exact completes_unplaced hexec ha only_refl (drew_keeps hdrew) hk

/-! ### RSA_OAEP_ENCAP and RSA_OAEP_DECAP (R150) -/

theorem rsaOaepEncap_encrypts (ha : Acts s cid 0x0104 c d) (hdrew : Drew s c rnd s1) (hok : Config.publicOk 0x1503 d = true) :
    Completes (.rsaOaepEncap cid) s fun t => Only s t (.rng :: answering) ∧
      Ended t cid .ok 0 (padTo (oaepK c.entry) (Config.oaepEncrypt (le c.entry 43 1) d (keyBytes s c.keyA) rnd)) :=
  completes_drew rfl ha hdrew ((if_neg (by simp [hok])).trans (withRnd_drew hdrew _))

theorem rsaOaepEncap_badPublic (ha : Acts s cid 0x0104 c d) (hbad : Config.publicOk 0x1503 d = false) :
    Completes (.rsaOaepEncap cid) s fun t => Only s t answering ∧ Ended t cid .badParam 0xFFFF [] :=
  completes_answering rfl ha (if_pos (by simp [hbad]))

/-- A key whose tail goes to wrapped key spill (R280, R281). -/
theorem spilled_only (s : State) (g : Nat) (k k' : Key) : Only s (spillTail (putKey s g k) g k') [.keys, .stamp, .boot] := fun p hp => by
  cases p
  case keys | stamp | boot => simp at hp
  all_goals rfl

/-- What a command that places a key may change, whatever room there is for the key. -/
theorem place_only {t : State} {k : Key} {n : Nat} {out : Bytes} (hget : getCmd s c.id = some c) (hreads : inputReads c = 0)
    (ht : place s c k n out = some t) : Only s t placing := by
  have hbad : ∀ r, Only s (answered s c r) placing := fun r => only_mono (answered_only r hget hreads) (by decide)
  have hplaced : ∀ (u : State) (r : Result), Only s u [.rng, .keys, .stamp, .boot] → Only s (answered u c r) placing := fun u r hu =>
    only_mono (answered_after r hu (by decide) hget hreads) (by decide)
  unfold place at ht
  split at ht
  · obtain rfl := Option.some.inj ht
    exact hbad _
  · split at ht
    · obtain rfl := Option.some.inj ht
      exact hbad _
    · obtain rfl := Option.some.inj ht
      exact only_refl
    · obtain ⟨m, hm, hgood⟩ := Option.bind_eq_some_iff.mp ht
      obtain rfl := Option.some.inj hgood
      exact hplaced _ _ (only_union (only_of_rng (drawMasks_keeps _ _ _ hm)) (putKey_only _ _ _) (by decide) (by decide))
    · obtain ⟨m, hm, hgood⟩ := Option.bind_eq_some_iff.mp ht
      obtain rfl := Option.some.inj hgood
      exact hplaced _ _ (only_union (only_of_rng (drawMasks_keeps _ _ _ hm)) (spilled_only _ _ _ _) (by decide) (by decide))

/-- A command that is to place a key, whether or not there is room for it now (R265, R266, R361). -/
theorem completes_placing {i : Instr} {op n : Nat} {k : Cmd → Bytes → Option State} {key : Key} {out : Bytes}
    (hexec : exec i s = .next (runOp s cid op k)) (ha : Acts s cid op c d) (hrng : hideRng s1 = hideRng s)
    (hk : k c d = place s1 c key n out) : Completes i s fun t => Only s t placing := by
  have hs1 := only_of_rng hrng
  cases hplace : place s1 c key n out with
  | none => exact ⟨_, hexec.trans (congrArg _ (runOp_waits ha (hk.trans hplace))), only_mono (modCmd_only _ _ _) (by decide)⟩
  | some t =>
    have hget : getCmd s1 c.id = some c := by
      rw [id_of_acts ha]
      exact (getCmd_congr (hs1 .cmds (by decide)) _).trans (getCmd_of_acts ha)
    exact ⟨_, hexec.trans (congrArg _ (runOp_acts ha (hk.trans hplace))),
      only_union (only_union hs1 (place_only hget ha.2.2 hplace) (rs := placing) (by decide) (by decide)) (endDraw_only _ _ _)
        (by decide) (by decide)⟩

theorem limitAllows_of_rng {t : State} (hrng : hideRng t = hideRng s) (n : Nat) : limitAllows t c n = limitAllows s c n := by
  have hsame : limitAllows (hideRng t) c n = limitAllows (hideRng s) c n := by rw [hrng]
  exact hsame

/-- The key of an RSA-OAEP message of a valid length, for whose charge GRAN_LIM is asked only now (R266). -/
theorem rsaOaepDecap_charges {m : Bytes} {k : Cmd → Bytes → Option State} (ha : Acts s cid 0x0105 c d) (hdrew : Drew s c rnd s1)
    (hexec : exec (.rsaOaepDecap cid) s = .next (runOp s cid 0x0105 k))
    (hk : k c d = place s1 c (nkdKey s1 c (le c.entry 60 2) 6 true m) 0 []) :
    Completes (.rsaOaepDecap cid) s fun t => Only s t placing ∧
      (limitAllows s c (keyGranules m.length) = true → RoomAt s m.length h 1 →
        KeyPlaced s t cid h (nkdKey s c (le c.entry 60 2) 6 true m) []) ∧
      (limitAllows s c (keyGranules m.length) = false → Ended t cid .busy 1 [] ∧ t.keys = s.keys) := by
  have hrng := drew_keeps hdrew
  by_cases hlim : limitAllows s c (keyGranules m.length) = true
  · by_cases hroom : RoomAt s m.length h 1
    · exact completes_mono (completes_newKey (n := 0) (out := []) hexec ha only_refl hdrew (fun _ => (limitAllows_of_rng hrng _).trans hlim)
        hroom rfl hk) fun t ⟨honly, hplaced⟩ => ⟨honly, fun _ _ => hplaced, fun hno => absurd (hlim.symm.trans hno) (by decide)⟩
    · exact completes_mono (completes_placing hexec ha hrng hk) fun t honly =>
        ⟨honly, fun _ hyes => absurd hyes hroom, fun hno => absurd (hlim.symm.trans hno) (by decide)⟩
  · have hbusy : place s1 c (nkdKey s1 c (le c.entry 60 2) 6 true m) 0 [] = bad s1 c .busy 1 := by
      refine if_pos ?_
      rw [opcode_of_acts ha, limitAllows_of_rng hrng]
      exact Bool.and_eq_true_iff.mpr ⟨by decide, by simpa [nkdKey] using hlim⟩
    exact completes_mono (completes_unplaced hexec ha only_refl hrng (hk.trans hbusy)) fun t ⟨honly, hended, hkeys⟩ =>
      ⟨honly, fun hyes => absurd hyes hlim, fun _ => ⟨hended, hkeys⟩⟩

theorem rsaOaepDecap_decrypts (ha : Acts s cid 0x0105 c d) (hdrew : Drew s c rnd s1) :
    Completes (.rsaOaepDecap cid) s fun t => Only s t placing ∧
      match Config.oaepDecrypt (le c.entry 43 1) (keyBytes s c.keyA) d with
      | none => Ended t cid .badParam 0xFFFF [] ∧ t.keys = s.keys
      | some m =>
        if symLenOk (le c.entry 60 2) m.length = true then
          (limitAllows s c (keyGranules m.length) = true → RoomAt s m.length h 1 →
            KeyPlaced s t cid h (nkdKey s c (le c.entry 60 2) 6 true m) []) ∧
          (limitAllows s c (keyGranules m.length) = false → Ended t cid .busy 1 [] ∧ t.keys = s.keys)
        else Ended t cid .badParam 60 [] ∧ t.keys = s.keys := by
  have hrng := drew_keeps hdrew
  cases hm : Config.oaepDecrypt (le c.entry 43 1) (keyBytes s c.keyA) d with
  | none => exact completes_unplaced rfl ha only_refl hrng ((withRnd_drew hdrew _).trans (by rw [hm]; rfl))
  | some m =>
    dsimp only
    split
    next hlen => exact rsaOaepDecap_charges ha hdrew rfl ((withRnd_drew hdrew _).trans (by rw [hm]; exact if_pos hlen))
    next hlen => exact completes_unplaced rfl ha only_refl hrng ((withRnd_drew hdrew _).trans (by rw [hm]; exact if_neg hlen))

/-! ### HYBRID_KEX (R151) -/

/-- The part of HYBRID_KEX that a command runs. -/
def hybridPart (s : State) (c : Cmd) (d : Bytes) : Option State :=
  match le c.entry 42 1 with
  | 1 => hybridInitiate s c (le c.entry 40 2)
  | 2 => hybridRespond s c (le c.entry 40 2) d
  | _ => hybridFinish s c (le c.entry 40 2) d

theorem execHybridKex_eq (cid : Nat) (s : State) : exec (.hybridKex cid) s = .next (runOp s cid 0x0110 (hybridPart s)) := rfl

theorem hybridPart_initiate (hpart : le c.entry 42 1 = 1) : hybridPart s c d = hybridInitiate s c (le c.entry 40 2) := by
  rw [hybridPart, hpart]
  rfl

theorem hybridPart_respond (hpart : le c.entry 42 1 = 2) : hybridPart s c d = hybridRespond s c (le c.entry 40 2) d := by
  rw [hybridPart, hpart]
  rfl

theorem hybridPart_finish (hpart : le c.entry 42 1 = 3) : hybridPart s c d = hybridFinish s c (le c.entry 40 2) d := by
  rw [hybridPart, hpart]
  rfl

theorem hybridKex_initiates {a x : Bytes} (ha : Acts s cid 0x0110 c d) (hpart : le c.entry 42 1 = 1) (hdrew : Drew s c rnd s1)
    (hroom : RoomAt s (a ++ x).length h 1) (hsk : a = genPrivate (le c.entry 40 2) 0 (rnd.take 64))
    (hx : x = genPrivate 0x0504 0 (slice rnd 64 32)) :
    Completes (.hybridKex cid) s fun t => Only s t placing ∧
      KeyPlaced s t cid h (nkdKey s c (0x7E00 + le c.entry 40 2) 9 true (a ++ x))
        (padTo (pubLen (le c.entry 40 2) + 32) (publicPart (le c.entry 40 2) a ++ publicPart 0x0504 x)) := by
  subst hsk hx
  refine completes_newKey (execHybridKex_eq cid s) ha only_refl hdrew (fun h5 => absurd h5 (by decide)) hroom rfl ?_
  exact (hybridPart_initiate hpart).trans (withRnd_drew hdrew _)

theorem hybridKey_length (ssK ssX ek xI ct xR info : Bytes) (kdf len : Nat) : (hybridKey ssK ssX ek xI ct xR info kdf len).length = len :=
  padTo_length ..

/-- RESPOND with a good public key: its key, unless the result of X25519 is all zero. -/
theorem hybridRespond_eq (hpart : le c.entry 42 1 = 2) (hdrew : Drew s c rnd s1)
    (hok : Config.publicOk (le c.entry 40 2) (d.take (pubLen (le c.entry 40 2))) = true) :
    hybridPart s c d =
      let p := le c.entry 40 2
      let r := Config.kemEncaps p (d.take (pubLen p)) (rnd.take 32)
      let x := genPrivate 0x0504 0 (slice rnd 32 32)
      let z := padTo 32 (Config.agree 0x0504 x (slice d (pubLen p) 32))
      if allZero z = true then bad s1 c .badParam 0xFFFF
      else placeDerived s1 c (hybridKey (padTo 32 r.2) z (d.take (pubLen p)) (slice d (pubLen p) 32) (padTo (sigLen p) r.1)
        (publicPart 0x0504 x) (d.drop (pubLen p + 32)) (le c.entry 43 1) (le c.entry 46 2)) (sigLen p + 32)
        (padTo (sigLen p) r.1 ++ publicPart 0x0504 x) := by
  rw [hybridPart_respond hpart]
  unfold hybridRespond
  dsimp only
  rw [if_neg (by simp [hok]), withRnd_drew hdrew]

theorem hybridRespond_badPublic (hpart : le c.entry 42 1 = 2)
    (hbad : Config.publicOk (le c.entry 40 2) (d.take (pubLen (le c.entry 40 2))) = false) : hybridPart s c d = bad s c .badParam 0xFFFF :=
  (hybridPart_respond hpart).trans (if_pos (by simp [hbad]))

theorem hybridKex_responds {ek xI ct x z : Bytes} {r : Bytes × Bytes} (ha : Acts s cid 0x0110 c d) (hpart : le c.entry 42 1 = 2)
    (hek : ek = d.take (pubLen (le c.entry 40 2))) (hxI : xI = slice d (pubLen (le c.entry 40 2)) 32) (hdrew : Drew s c rnd s1)
    (hr : r = Config.kemEncaps (le c.entry 40 2) ek (rnd.take 32)) (hct : ct = padTo (sigLen (le c.entry 40 2)) r.1)
    (hx : x = genPrivate 0x0504 0 (slice rnd 32 32)) (hz : z = padTo 32 (Config.agree 0x0504 x xI)) (hroom : RoomAt s (le c.entry 46 2) h 1) :
    Completes (.hybridKex cid) s fun t => Only s t placing ∧
      if Config.publicOk (le c.entry 40 2) ek = false ∨ allZero z = true then Ended t cid .badParam 0xFFFF [] ∧ t.keys = s.keys
      else KeyPlaced s t cid h (nkdKey s c (le c.entry 60 2) 3 true (hybridKey (padTo 32 r.2) z ek xI ct (publicPart 0x0504 x)
          (d.drop (pubLen (le c.entry 40 2) + 32)) (le c.entry 43 1) (le c.entry 46 2)))
        (padTo (sigLen (le c.entry 40 2) + 32) (ct ++ publicPart 0x0504 x)) := by
  subst hek hxI hr hct hx hz
  have hexec := execHybridKex_eq cid s
  cases hok : Config.publicOk (le c.entry 40 2) (d.take (pubLen (le c.entry 40 2)))
  · simp only [true_or, if_true]
    exact completes_unplaced hexec ha only_refl rfl (hybridRespond_badPublic hpart hok)
  · have hbody := hybridRespond_eq (d := d) hpart hdrew hok
    dsimp only at hbody
    split
    next hzero =>
      rw [if_pos (hzero.resolve_left (by decide))] at hbody
      exact completes_unplaced hexec ha only_refl (drew_keeps hdrew) hbody
    next hzero =>
      rw [if_neg fun hz => hzero (.inr hz)] at hbody
      exact completes_newKey hexec ha only_refl hdrew (fun h5 => absurd h5 (by decide)) hroom (hybridKey_length ..) hbody

theorem hybridFinish_gone (ha : Acts s cid 0x0110 c d) (hpart : le c.entry 42 1 = 3) (hgone : ephemeralHere s c = false) :
    Completes (.hybridKex cid) s fun t => Only s t answering ∧ Ended t cid .keyEmpty 0 [] :=
  completes_answering (execHybridKex_eq cid s) ha
    ((hybridPart_finish hpart).trans (if_pos (by simp [hgone])))

theorem consumeKey_only (s : State) (g : Option Nat) : Only s (consumeKey s g) [.keys] := by
  cases g with
  | none => exact only_refl
  | some g => exact only_of_keys (zeroiseKey_keeps s g)

theorem consumeKey_gone {s : State} {g : Nat} {o : Option Nat} (ho : o = some g) : Map.get? (consumeKey s o).keys.keys g = none := by
  subst ho
  exact (Map.get?_del ..).trans (if_pos rfl)

/-- FINISH with its ephemeral key there and room for the derived one once that is gone: its key, unless the result of X25519 is all zero. -/
theorem hybridFinish_eq {u : State} (hpart : le c.entry 42 1 = 3) (hhere : ephemeralHere s c = true)
    (hu : u = consumeKey (cacheBuild s c) c.keyA) (hdrew : Drew u c rnd s1) (hroom : RoomAt u (le c.entry 46 2) h 1) :
    hybridPart s c d =
      let p := le c.entry 40 2
      let sk := (keyBytes s c.keyA).take (privLen p)
      let x := slice (keyBytes s c.keyA) (privLen p) 32
      let z := padTo 32 (Config.agree 0x0504 x (slice d (sigLen p) 32))
      if allZero z = true then bad s1 c .badParam 0xFFFF
      else placeDerived s1 c (hybridKey (padTo 32 (Config.kemDecaps p sk (d.take (sigLen p)))) z (publicPart p sk) (publicPart 0x0504 x)
        (d.take (sigLen p)) (slice d (sigLen p) 32) (d.drop (sigLen p + 32)) (le c.entry 43 1) (le c.entry 46 2)) 0 [] := by
  obtain ⟨tl, hat, -⟩ := hroom
  rw [hybridPart_finish hpart]
  unfold hybridFinish
  dsimp only
  rw [if_neg (by simp [hhere]), ← hu, hat, if_neg Room.noConfusion, withRnd_drew hdrew]

theorem hybridKex_finishes {u : State} {z : Bytes} (ha : Acts s cid 0x0110 c d) (hpart : le c.entry 42 1 = 3)
    (hhere : ephemeralHere s c = true) (hu : u = consumeKey (cacheBuild s c) c.keyA) (hdrew : Drew u c rnd s1)
    (hz : z = padTo 32 (Config.agree 0x0504 (slice (keyBytes s c.keyA) (privLen (le c.entry 40 2)) 32)
      (slice d (sigLen (le c.entry 40 2)) 32)))
    (hroom : RoomAt u (le c.entry 46 2) h 1) :
    Completes (.hybridKex cid) s fun t => Only s t placing ∧ (∀ g, c.keyA = some g → g ≠ h → Map.get? t.keys.keys g = none) ∧
      if allZero z = true then Ended t cid .badParam 0xFFFF [] ∧ t.keys = u.keys
      else KeyPlaced u t cid h (nkdKey s c (le c.entry 60 2) 3 true
        (hybridKey (padTo 32 (Config.kemDecaps (le c.entry 40 2) ((keyBytes s c.keyA).take (privLen (le c.entry 40 2)))
            (d.take (sigLen (le c.entry 40 2))))) z
          (publicPart (le c.entry 40 2) ((keyBytes s c.keyA).take (privLen (le c.entry 40 2))))
          (publicPart 0x0504 (slice (keyBytes s c.keyA) (privLen (le c.entry 40 2)) 32)) (d.take (sigLen (le c.entry 40 2)))
          (slice d (sigLen (le c.entry 40 2)) 32) (d.drop (sigLen (le c.entry 40 2) + 32)) (le c.entry 43 1) (le c.entry 46 2))) [] := by
  have honly : Only s u [.keys, .eng, .stamp] := hu ▸ only_union (cacheBuild_only s c) (consumeKey_only _ _) (by decide) (by decide)
  have hgone : ∀ g, c.keyA = some g → Map.get? u.keys.keys g = none := fun g hg => hu ▸ consumeKey_gone hg
  have hexec := execHybridKex_eq cid s
  have hbody := hybridFinish_eq (d := d) hpart hhere hu hdrew hroom
  dsimp only at hbody
  rw [← hz] at hbody
  split
  next hzero =>
    rw [if_pos hzero] at hbody
    exact completes_mono (completes_unplaced hexec ha honly (drew_keeps hdrew) hbody) fun t ⟨hst, hended, hkeys⟩ =>
      ⟨hst, fun g hg _ => hkeys ▸ hgone g hg, hended, hkeys⟩
  next hzero =>
    rw [if_neg hzero] at hbody
    exact completes_mono (completes_newKey (n := 0) (out := []) hexec ha honly hdrew (fun h5 => absurd h5 (by decide)) hroom
      (hybridKey_length ..) hbody) fun t ⟨hst, hended, hkey, hberths, hothers⟩ =>
        ⟨hst, fun g hg hne => (hothers g hne).trans (hgone g hg), hended, hkey, hberths, hothers⟩

end

end Sys2Proof.Machine

namespace Sys2Proof.Proofs

open Sys2Proof.Machine Sys2Proof.Claims

/-- Settles O36, command by command, and HYBRID_KEX part by part. -/
theorem keyEstablishment : Obligations.KeyEstablishment := by
  unfold Obligations.KeyEstablishment
  rintro s s1 cid h _ c d rnd rfl
  refine ⟨fun pk ha hpk hdrew hroom => ?_, kemDecaps_places, fun z => dhAgree_agrees, fun ha hdrew => ?_, rsaOaepDecap_decrypts,
    fun a x ha hpart hdrew hroom => hybridKex_initiates ha hpart hdrew hroom, fun ek xI ct r x z => hybridKex_responds, hybridFinish_gone,
    fun u z ha hpart hhere hu hdrew hz hroom => hybridKex_finishes ha hpart hhere hu hdrew hz hroom⟩
  · by_cases hok : le c.entry 42 1 = 1 ∨ Config.publicOk (le c.entry 40 2) d = true
    · exact completes_mono (kemEncaps_places ha hpk hdrew hroom hok) fun t ⟨honly, hplaced⟩ =>
        ⟨honly, fun _ => hplaced, fun hstored hbad => absurd hok (by simp [hstored, hbad])⟩
    · obtain ⟨hstored, hbad⟩ := not_or.mp hok
      exact completes_mono (kemEncaps_badPublic ha hstored (by simpa using hbad)) fun t ⟨honly, hrefused⟩ =>
        ⟨honly, fun hyes => absurd hyes hok, fun _ _ => hrefused⟩
  · cases hok : Config.publicOk 0x1503 d
    · exact completes_mono (rsaOaepEncap_badPublic ha hok) fun t ⟨honly, hended⟩ =>
        ⟨only_mono honly (by decide), fun hyes => absurd hyes (by decide), fun _ => hended⟩
    · exact completes_mono (rsaOaepEncap_encrypts ha hdrew hok) fun t ⟨honly, hended⟩ =>
        ⟨honly, fun _ => hended, fun hno => absurd hno (by decide)⟩

end Sys2Proof.Proofs
end

section
/-!
PROOFS. Signatures (R152 to R155, R141) (O37).
-/

namespace Sys2Proof.Machine

open Sys2Proof.Claims

section
variable {s s1 : State} {cid : Nat} {c : Cmd} {d rnd : Bytes}

theorem sign_signs (h : Acts s cid 0x0201 c d) (hdrew : Drew s c rnd s1) :
    Completes (.sign cid) s fun t => Only s t (.rng :: answering) ∧
      Ended t cid .ok 0 (padTo (sigOf (le c.entry 40 2) (keyAt s c.keyA))
        (signWith (le c.entry 40 2, le c.entry 42 1, le c.entry 43 1) (bit (le c.entry 45 1) 0) (keyBytes s c.keyA)
          (d.take (le c.entry 44 1)) (d.drop (le c.entry 44 1))
          (rnd.take (signDraw (le c.entry 40 2) (le c.entry 43 1) (bit (le c.entry 45 1) 0))) (c.picks.getD 0 0))) :=
  completes_drew rfl h hdrew (withRnd_drew hdrew _)

/-- ST_OK or ST_SIG_INVALID: the verdict on a public key, the context and message that follow a signature, and the signature (R141). -/
def verdictStatus (c : Cmd) (pk sig rest : Bytes) : Status :=
  if Config.verify (le c.entry 40 2, le c.entry 42 1, le c.entry 43 1) pk (rest.take (le c.entry 44 1)) (rest.drop (le c.entry 44 1)) sig
  then .ok else .sigInvalid

theorem verdict_eq (s : State) (c : Cmd) (pk sig rest : Bytes) :
    verdict s c pk sig rest = some (answered s c { status := verdictStatus c pk sig rest, detail := 0, out := [] }) := by
  unfold verdict verdictStatus
  dsimp only
  split <;> rfl

theorem verify_stored (h : Acts s cid 0x0202 c d) (hstored : bit (le c.entry 45 1) 1 = false) :
    Completes (.verify cid) s fun t => Only s t answering ∧
      Ended t cid (verdictStatus c (keyBytes s c.keyA) (d.take (sigOf (le c.entry 40 2) (keyAt s c.keyA)))
        (d.drop (sigOf (le c.entry 40 2) (keyAt s c.keyA)))) 0 [] :=
  completes_answering rfl h ((if_pos (by rw [hstored]; rfl)).trans (verdict_eq ..))

/-- The answer to a VERIFY whose public key stands in the input. -/
theorem verifyInput_eq (s : State) (c : Cmd) (d : Bytes) (a b : Nat) :
    verifyInput s c d a b =
      if Config.publicOk (le c.entry 40 2) (d.take a) = true then
        some (answered s c { status := verdictStatus c (d.take a) (slice d a b) (d.drop (a + b)), detail := 0, out := [] })
      else some (answered s c { status := .badParam, detail := 0xFFFF, out := [] }) := by
  unfold verifyInput
  cases Config.publicOk (le c.entry 40 2) (d.take a)
  · rfl
  · exact verdict_eq ..

/-- A VERIFY whose public key stands in the input goes by the lengths of its key and its signature (R155). -/
theorem verify_inputKey {a b : Nat} (cid : Nat) (hin : bit (le c.entry 45 1) 1 = true) (hkey : InputKey c.entry d a b) :
    ∃ k, exec (.verify cid) s = .next (runOp s cid 0x0202 k) ∧ k c d = verifyInput s c d a b := by
  refine ⟨_, rfl, ?_⟩
  unfold InputKey at hkey
  dsimp only at hkey ⊢
  rw [if_neg (by simp [hin])]
  by_cases hrsa : isRsa (le c.entry 40 2) = true
  · rw [if_pos hrsa] at hkey ⊢
    rw [hkey.1, hkey.2]
  · rw [if_neg hrsa] at hkey ⊢
    by_cases hhbs : famOf (le c.entry 40 2) = .hbs
    · rw [if_pos hhbs] at hkey ⊢
      rw [hkey.1]
      exact if_pos hkey.2
    · rw [if_neg hhbs] at hkey ⊢
      rw [hkey.1, hkey.2]

theorem verify_input {a b : Nat} (h : Acts s cid 0x0202 c d) (hin : bit (le c.entry 45 1) 1 = true) (hkey : InputKey c.entry d a b) :
    Completes (.verify cid) s fun t => Only s t answering ∧
      (Config.publicOk (le c.entry 40 2) (d.take a) = true →
        Ended t cid (verdictStatus c (d.take a) (slice d a b) (d.drop (a + b))) 0 []) ∧
      (Config.publicOk (le c.entry 40 2) (d.take a) = false → Ended t cid .badParam 0xFFFF []) := by
  obtain ⟨k, hexec, hk⟩ := verify_inputKey (s := s) cid hin hkey
  have hanswer := hk.trans (verifyInput_eq s c d a b)
  by_cases hok : Config.publicOk (le c.entry 40 2) (d.take a) = true
  · rw [if_pos hok] at hanswer
    exact completes_mono (completes_answering hexec h hanswer) fun t ⟨honly, hended⟩ =>
      ⟨honly, fun _ => hended, fun hno => absurd (hok.symm.trans hno) (by decide)⟩
  · rw [if_neg hok] at hanswer
    exact completes_mono (completes_answering hexec h hanswer) fun t ⟨honly, hended⟩ =>
      ⟨honly, fun hyes => absurd hyes hok, fun _ => hended⟩

theorem verify_unsupported (h : Acts s cid 0x0202 c d) (hin : bit (le c.entry 45 1) 1 = true) (hrsa : isRsa (le c.entry 40 2) = false)
    (hhbs : famOf (le c.entry 40 2) = .hbs) (hnone : hbsVerifyLen (le c.entry 40 2) d = none) :
    Completes (.verify cid) s fun t => Only s t answering ∧ Ended t cid .badParam 0xFFFF [] :=
  completes_answering rfl h (by
    dsimp only
    rw [if_neg (by simp [hin]), if_neg (by simp [hrsa]), if_pos hhbs, hnone]
    rfl)

end

end Sys2Proof.Machine

namespace Sys2Proof.Proofs

open Sys2Proof.Machine Sys2Proof.Claims

/-- Settles O37: what SIGN answers, and what VERIFY answers for each place of its public key. -/
theorem signatures : Obligations.Signatures := by
  unfold Obligations.Signatures
  rintro s s1 cid _ _ _ c d rnd _ rfl rfl rfl rfl
  exact ⟨sign_signs, verify_stored, fun _ _ => verify_input, verify_unsupported⟩

end Sys2Proof.Proofs
end

section
/-!
PROOFS. A MAC_GENERATE that asks for more bytes than its hash has (O38). The clause on MAC_GENERATE states the MAC itself as the output,
which is shorter then than the MAC_LEN that the command answers (R140, R160); no premise keeps MAC_LEN within the hash, as step 6 of R138
does.
-/

namespace Sys2Proof.Machine

open Sys2Proof.Claims

/-- MAC_GENERATE pads its output to MAC_LEN (R140, R160). -/
theorem macGenerate_answers {s : State} {cid : Nat} {c : Cmd} {d : Bytes} (h : Acts s cid 0x0320 c d) :
    Completes (.macGenerate cid) s fun t => Only s t answering ∧ Ended t cid .ok 0 (padTo (le c.entry 44 4) (macOf s c d)) :=
  completes_answering rfl h rfl

/-- An HMAC is no longer than its hash. -/
theorem macOf_length_le (s : State) (c : Cmd) (d : Bytes) (hhmac : le c.entry 40 2 = 0x2102) : (macOf s c d).length ≤ 32 := by
  have hfull : (hmac (0x2102 % 256) (keyBytes s c.keyA) (d.drop (le c.entry 48 2))).length = 32 := padTo_length ..
  unfold macOf macBytes
  dsimp only
  rw [hhmac, if_neg (by decide), List.length_take, hfull]
  exact min_le_right ..

/-- A MAC_GENERATE of 64 bytes of HMAC with SHA-256, whose input has come. -/
def longMac : Cmd :=
  { newCmd State.reset 0 0 0 (leBytes 2 0x0320 ++ zeros 38 ++ leBytes 2 0x2102 ++ zeros 2 ++ leBytes 4 64 ++ zeros 16) with
    phase := .run, input := some [] }

/-- The device in Service, where that command may act. -/
def longMacRuns : State := { State.reset with sys := { State.reset.sys with mode := .service }, cmds := [longMac] }

theorem longMac_acts : Acts longMacRuns 0 0x0320 longMac [] := ⟨by decide +kernel, rfl, rfl⟩

end Sys2Proof.Machine

namespace Sys2Proof.Proofs

open Sys2Proof.Machine Sys2Proof.Claims

/-- Refutes O38: an HMAC with SHA-256 has 32 bytes, and a MAC_GENERATE with a MAC_LEN of 64 answers 64. -/
theorem not_ciphersHashesMacs : ¬ Obligations.CiphersHashesMacs := by
  unfold Obligations.CiphersHashesMacs
  intro h
  obtain ⟨-, -, -, -, -, -, -, hmacs, -⟩ := h longMacRuns longMacRuns 0 _ _ 0 _ longMac [] [] _ rfl rfl rfl rfl
  obtain ⟨t, ht, -, hstated⟩ := hmacs longMac_acts
  obtain ⟨u, hu, -, hanswered⟩ := macGenerate_answers longMac_acts
  obtain rfl : u = t := Host.Outcome.next.inj (hu.symm.trans ht)
  have hout : padTo (le longMac.entry 44 4) (macOf longMacRuns longMac []) = macOf longMacRuns longMac [] := by
    simpa using hanswered.symm.trans hstated
  have hlen := macOf_length_le longMacRuns longMac [] rfl
  rw [← hout, padTo_length] at hlen
  exact absurd hlen (by decide)

end Sys2Proof.Proofs
end

section
/-!
PROOFS. Wrapped keys and random numbers (R167 to R170) (O40).
-/

namespace Sys2Proof.Machine

open Sys2Proof.Claims

section
variable {s s1 : State} {cid h : Nat} {c : Cmd} {d rnd : Bytes} {k : Key}

/-! ### WRAP_OUT (R167) -/

/-- A wrapping under a stored key, or under the storage wrapping key. -/
theorem wrapOut_symmetric (ha : Acts s cid 0x0410 c d) (hmode : le c.entry 40 1 ≠ 2) (hkey : keyAt s c.keyB = some k)
    (hdrew : Drew s c rnd s1) :
    Completes (.wrapOut cid) s fun t => Only s t (.rng :: answering) ∧
      Ended t cid .ok 0 (padTo (outLenOf s c c.keyA c.keyB) (blobOf k (blobHeader (le c.entry 40 1) k rnd) []
        (if le c.entry 40 1 = 1 then keyBytes s c.keyA else storeKey s))) :=
  completes_drew rfl ha hdrew (by
    dsimp only
    rw [hkey]
    dsimp only
    rw [if_neg hmode, withRnd_drew hdrew]
    rfl)

/-- A wrapping to a public key of ML-KEM. -/
theorem wrapOut_public (ha : Acts s cid 0x0410 c d) (hmode : le c.entry 40 1 = 2) (hkey : keyAt s c.keyB = some k)
    (hdrew : Drew s c rnd s1) (hok : Config.publicOk 0x0103 d = true) :
    Completes (.wrapOut cid) s fun t => Only s t (.rng :: answering) ∧
      Ended t cid .ok 0 (padTo (outLenOf s c c.keyA c.keyB) (blobOf k (blobHeader 2 k (slice rnd 32 12))
        (padTo 1568 (Config.kemEncaps 0x0103 d (rnd.take 32)).1)
        (Config.kmac256 32 (padTo 32 (Config.kemEncaps 0x0103 d (rnd.take 32)).2) (blobHeader 2 k (slice rnd 32 12)) (ascii "TURUND WRAP")))) :=
  completes_drew rfl ha hdrew (by
    dsimp only
    rw [hkey]
    dsimp only
    rw [if_pos hmode, if_neg (by simp [hok]), withRnd_drew hdrew, hmode]
    rfl)

theorem wrapOut_badPublic (ha : Acts s cid 0x0410 c d) (hmode : le c.entry 40 1 = 2) (hkey : keyAt s c.keyB = some k)
    (hok : Config.publicOk 0x0103 d = false) :
    Completes (.wrapOut cid) s fun t => Only s t answering ∧ Ended t cid .badParam 0xFFFF [] :=
  completes_answering rfl ha (by
    dsimp only
    rw [hkey]
    dsimp only
    rw [if_pos hmode, if_pos (by simp [hok])]
    rfl)

/-! ### WRAP_IN (R168) -/

/-- A blob under a stored key, once its layout and its length are right and the world may use it, goes by its tag and by what it carries. -/
theorem wrapIn_body {r : Bytes × Bool} (hmode : le c.entry 40 1 = 1) (hblob : blobOk d 1 = true) (hlen : inLen c.entry = 80 + le d 12 4)
    (hr : r = aeadOpen 0x3001 (keyBytes s c.keyA) (slice d 48 12) (d.take 64) (slice d 64 (le d 12 4)) (slice d (64 + le d 12 4) 16))
    (hworld : bit (le d 35 1) (if c.worldS then 1 else 0) = true) :
    ∃ f, exec (.wrapIn cid) s = .next (runOp s cid 0x0411 f) ∧ f c d =
      if r.2 = true then
        if blobTypeOk (blobKey s c d (padTo (le d 12 4) r.1)) = true then place s c (blobKey s c d (padTo (le d 12 4) r.1)) 0 []
        else bad s c .badParam 0xFFFF
      else bad s c .keyDenied 1 := by
  have hkem : wrapE c.entry = 0 := if_neg (by omega)
  refine ⟨_, rfl, ?_⟩
  dsimp only
  rw [hkem, hmode, if_neg (by simp [hblob]), if_neg (by omega), if_pos rfl, Nat.add_zero, ← hr]
  cases hok : r.2
  · rfl
  · rw [if_neg (by decide), if_neg (by simp [hworld]), if_pos rfl]
    cases blobTypeOk (blobKey s c d (padTo (le d 12 4) r.1)) <;> rfl

theorem wrapIn_opens {r : Bytes × Bool} (ha : Acts s cid 0x0411 c d) (hmode : le c.entry 40 1 = 1) (hblob : blobOk d 1 = true)
    (hlen : inLen c.entry = 80 + le d 12 4)
    (hr : r = aeadOpen 0x3001 (keyBytes s c.keyA) (slice d 48 12) (d.take 64) (slice d 64 (le d 12 4)) (slice d (64 + le d 12 4) 16))
    (hworld : bit (le d 35 1) (if c.worldS then 1 else 0) = true) (hroom : RoomAt s (le d 12 4) h 0) :
    Completes (.wrapIn cid) s fun t => Only s t placing ∧
      if r.2 = true then
        if blobTypeOk (blobKey s c d (padTo (le d 12 4) r.1)) = true then
          KeyPlaced s t cid h (blobKey s c d (padTo (le d 12 4) r.1)) []
        else Ended t cid .badParam 0xFFFF [] ∧ t.keys = s.keys
      else Ended t cid .keyDenied 1 [] ∧ t.keys = s.keys := by
  obtain ⟨f, hexec, hf⟩ := wrapIn_body hmode hblob hlen hr hworld
  split
  next hopen =>
    rw [if_pos hopen] at hf
    split
    next htype =>
      rw [if_pos htype] at hf
      exact completes_place hexec ha only_refl rfl (fun h5 => absurd h5 (by decide)) (roomLeft_now hroom) (padTo_length _ _) hf
    next htype =>
      rw [if_neg htype] at hf
      exact completes_unplaced hexec ha only_refl rfl hf
  next hopen =>
    rw [if_neg hopen] at hf
    exact completes_unplaced hexec ha only_refl rfl hf

theorem wrapIn_badBlob (ha : Acts s cid 0x0411 c d) (hblob : blobOk d (le c.entry 40 1) = false) :
    Completes (.wrapIn cid) s fun t => Only s t answering ∧ Ended t cid .keyDenied 1 [] :=
  completes_answering rfl ha (if_pos (by simp [hblob]))

/-! ### KW_WRAP and KW_UNWRAP (R169) -/

theorem kwWrap_wraps (ha : Acts s cid 0x0412 c d) :
    Completes (.kwWrap cid) s fun t => Only s t answering ∧
      Ended t cid .ok 0 (padTo (keyLen s c.keyB + 8) (Config.kwWrap (keyBytes s c.keyA) (keyBytes s c.keyB))) :=
  completes_answering rfl ha rfl

theorem kwUnwrap_unwraps (ha : Acts s cid 0x0413 c d) (hroom : RoomAt s (inLen c.entry - 8) h 0) :
    Completes (.kwUnwrap cid) s fun t => Only s t placing ∧
      match Config.kwUnwrap (keyBytes s c.keyA) d with
      | some x => KeyPlaced s t cid h (nkdKey s c (le c.entry 40 2) 5 true (padTo (inLen c.entry - 8) x)) []
      | none => Ended t cid .keyDenied 1 [] ∧ t.keys = s.keys := by
  cases hx : Config.kwUnwrap (keyBytes s c.keyA) d with
  | some x =>
    exact completes_place (n := 0) (out := []) rfl ha only_refl rfl (fun h5 => absurd h5 (by decide)) (roomLeft_now hroom)
      (padTo_length _ _) (by rw [hx])
  | none =>
    exact completes_unplaced rfl ha only_refl rfl (by rw [hx]; rfl)

/-! ### RANDOM (R170, R355, R361) -/

/-- A draw has the length that was asked for. -/
theorem draw_length {n : Nat} (hdraw : draw s n = some (rnd, s1)) : rnd.length = n := by
  unfold draw at hdraw
  split at hdraw
  · obtain ⟨i, -, hi⟩ := Option.map_eq_some_iff.mp hdraw
    obtain rfl : (generateOn s i n false).1 = rnd := congrArg Prod.fst hi
    unfold generateOn
    dsimp only
    split
    · exact padTo_length ..
    · exact List.length_replicate
  · cases hdraw

theorem random_draws (ha : Acts s cid 0x0501 c d) (hplain : wantsReseed s c.entry = false)
    (hdraw : draw s (le c.entry 44 4) = some (rnd, s1)) :
    Completes (.random cid) s fun t => Only s t (.rng :: answering) ∧ Ended t cid .ok 0 rnd := by
  refine completes_mono (completes_answer rfl ha (only_of_rng (draw_keeps _ _ _ hdraw)) (by decide) (out := rnd) ?_)
    fun t ⟨honly, hended, _⟩ => ⟨honly, hended⟩
  have hlen := draw_length hdraw
  dsimp only
  rw [hplain, if_neg (by decide), hdraw, Option.bind_some, ← hlen, good_eq, padTo_self]

/-- A generator that cannot serve a draw cannot serve one that reseeds first either. -/
theorem drawFresh_none {n : Nat} (hcan : canDraw s = false) : drawFresh s n = none := by
  unfold canDraw at hcan
  unfold drawFresh
  cases hserves : serves s
  · rfl
  · rw [hserves, Bool.true_and, Option.isSome_eq_false_iff, Option.isNone_iff_eq_none] at hcan
    rw [hcan]
    split <;> rfl

theorem draw_none {n : Nat} (hcan : canDraw s = false) : draw s n = none := by
  unfold canDraw at hcan
  unfold draw
  cases hserves : serves s
  · rfl
  · rw [hserves, Bool.true_and, Option.isSome_eq_false_iff, Option.isNone_iff_eq_none] at hcan
    rw [hcan]
    rfl

/-- The wait for a draw that a command begins, or goes on with. -/
theorem phase_waitDraw (hget : getCmd s cid = some c) (hphase : c.phase = .run ∨ ∃ w, c.phase = .drawWait w) :
    (∃ w, c.phase = .drawWait w) ∨ (getCmd (waitDraw s cid) cid).map (·.phase) = some (.drawWait s.sys.tick) := by
  refine hphase.symm.imp_right fun hrun => ?_
  refine phase_modCmd_some hget (fun _ => rfl) ?_
  dsimp only
  rw [hrun]

theorem random_waits (ha : Acts s cid 0x0501 c d) (hcan : canDraw s = false) :
    Completes (.random cid) s fun t => Only s t [.cmds] ∧
      ((∃ w, c.phase = .drawWait w) ∨ (getCmd t cid).map (·.phase) = some (.drawWait s.sys.tick)) := by
  refine ⟨waitDraw s cid, congrArg _ (runOp_waits ha ?_), modCmd_only _ _ _, phase_waitDraw (getCmd_of_acts ha) (ready_iff.mp ha.1).2.2.2.1⟩
  dsimp only
  rw [drawFresh_none hcan, draw_none hcan, ite_self]
  rfl

end

end Sys2Proof.Machine

namespace Sys2Proof.Proofs

open Sys2Proof.Machine Sys2Proof.Claims

/-- Settles O40, command by command. -/
theorem wrappedKeysAndRandom : Obligations.WrappedKeysAndRandom := by
  unfold Obligations.WrappedKeysAndRandom
  rintro s s1 cid h _ c d rnd _ _ k rfl
  refine ⟨fun ha hmode hkey hdrew => ?_, ?_, fun ha hmode hkey hdrew => ?_, ?_, wrapIn_badBlob, kwWrap_wraps, kwUnwrap_unwraps, random_draws,
    random_waits⟩
  · have hwraps := wrapOut_symmetric ha (by omega) hkey hdrew
    rwa [hmode] at hwraps
  · rintro _ ha hmode hkey hdrew rfl rfl
    cases hok : Config.publicOk 0x0103 d
    · exact completes_mono (wrapOut_badPublic ha hmode hkey hok) fun t ⟨honly, hended⟩ =>
        ⟨only_mono honly (by decide), fun hyes => absurd hyes (by decide), fun _ => hended⟩
    · exact completes_mono (wrapOut_public ha hmode hkey hdrew hok) fun t ⟨honly, hended⟩ =>
        ⟨honly, fun _ => hended, fun hno => absurd hno (by decide)⟩
  · have hwraps := wrapOut_symmetric ha (by omega) hkey hdrew
    rwa [hmode] at hwraps
  · rintro r ha hmode rfl hblob hlen hr hworld hroom
    exact wrapIn_opens ha hmode hblob hlen hr hworld hroom

end Sys2Proof.Proofs
end

section
/-!
PROOFS. Time and seals (R175 to R179, R305, R307): what TIME_READ answers, the header a SEAL links, and the signatures over it (O44).
-/

namespace Sys2Proof.Machine

open Sys2Proof.Claims

/-! ### Fields of the time and of a seal's header -/

theorem le_field {a r : Bytes} {off : Nat} (v : DWord) (ha : a.length = off) : le (a ++ (leBytes 8 v.toNat ++ r)) off 8 = v.toNat := by
  have hv := v.isLt
  rw [le, slice_field ha (leBytes_length 8 _), leVal_leBytes, Nat.mod_eq_of_lt (by omega)]

theorem le_field_first {r : Bytes} (v : DWord) : le (leBytes 8 v.toNat ++ r) 0 8 = v.toNat := le_field (a := []) v rfl

/-- EPOCH and SEQ of a seal's header (Table 91). -/
theorem sealHeader_fields (s : State) (c : Cmd) (i : Nat) (b : Berth) (kind alg : Nat) (seq : DWord) (supplied : Bool) (chunk : Nat)
    (dg prev : Bytes) :
    le (sealHeader s c i b kind seq.toNat alg supplied chunk dg prev) 16 8 = s.time.epoch.toNat ∧
    le (sealHeader s c i b kind seq.toNat alg supplied chunk dg prev) 24 8 = seq.toNat := by
  unfold sealHeader
  generalize ha : [0x54, 0x53, 0x45, 0x4C] ++ leBytes 2 1 ++ leBytes 1 kind
    ++ leBytes 1 (b2n s.backup.timeLost + 2 * b2n s.backup.timeUnset + 4 * b2n (untrusted s) + 8 * b2n s.time.tbFault + 16 * b2n supplied)
    ++ leBytes 2 i ++ leBytes 1 s.topo.position ++ leBytes 1 b.roleEpoch.toNat ++ leBytes 1 s.time.calSets ++ zeros 3 = a
  have hlen : a.length = 16 := by
    rw [← ha]
    simp [leBytes_length, zeros]
  simp only [List.append_assoc]
  refine ⟨le_field _ hlen, ?_⟩
  rw [← List.append_assoc]
  exact le_field _ (by rw [List.length_append, leBytes_length, hlen])

section
variable {s s1 : State} {cid i : Nat} {c : Cmd} {b : Berth} {d hdr rnd : Bytes}

theorem timeRead_answers (ha : Acts s cid 0x0701 c d) :
    Completes (.timeRead cid) s fun t => Only s t answering ∧ ∃ out, Ended t cid .ok 0 out ∧ out.length = 32 ∧
      le out 0 8 = (time64Now s).toNat ∧ le out 8 8 = s.sys.tick.toNat ∧ le out 24 8 = s.time.epoch.toNat := by
  refine completes_mono (completes_answering rfl ha rfl) fun t ⟨honly, hended⟩ => ⟨honly, _, hended, padTo_length .., ?_⟩
  obtain ⟨flags, hflags⟩ : ∃ x, x = leBytes 1 (b2n s.backup.timeLost + 2 * b2n s.backup.timeUnset) ++ zeros 7 := ⟨_, rfl⟩
  have hlen : flags.length = 8 := by simp [hflags, leBytes_length, zeros]
  have hbytes : leBytes 8 (time64Now s).toNat ++ leBytes 8 (tickNat s) ++ leBytes 1 (b2n s.backup.timeLost + 2 * b2n s.backup.timeUnset) ++
      zeros 7 ++ leBytes 8 s.time.epoch.toNat =
      leBytes 8 (time64Now s).toNat ++ (leBytes 8 s.sys.tick.toNat ++ (flags ++ (leBytes 8 s.time.epoch.toNat ++ []))) := by
    rw [hflags, List.append_nil]
    simp only [List.append_assoc]
    rfl
  have hwhole : ∀ off, off + 8 ≤ 32 → le (padTo 32 (leBytes 8 (time64Now s).toNat ++ (leBytes 8 s.sys.tick.toNat ++
      (flags ++ (leBytes 8 s.time.epoch.toNat ++ []))))) off 8 = le (leBytes 8 (time64Now s).toNat ++ (leBytes 8 s.sys.tick.toNat ++
      (flags ++ (leBytes 8 s.time.epoch.toNat ++ [])))) off 8 := fun off hoff =>
    congrArg leVal (slice_padTo hoff (by simp [leBytes_length, hlen]; omega))
  rw [hbytes, hwhole 0 (by decide), hwhole 8 (by decide), hwhole 24 (by decide)]
  refine ⟨le_field_first _, le_field _ (leBytes_length 8 _), ?_⟩
  rw [← List.append_assoc, ← List.append_assoc]
  exact le_field _ (by simp [leBytes_length, hlen])

/-! ### Signing a header -/

theorem outLenOf_of_rng (h : hideRng s1 = hideRng s) (ka kb : Option Nat) : outLenOf s1 c ka kb = outLenOf s c ka kb := by
  have hsame : outLenOf (hideRng s1) c ka kb = outLenOf (hideRng s) c ka kb := by rw [h]
  exact hsame

theorem sealSigned_of_rng (h : hideRng s1 = hideRng s) : sealSigned s1 c hdr rnd = sealSigned s c hdr rnd := by
  have hsame : sealSigned (hideRng s1) c hdr rnd = sealSigned (hideRng s) c hdr rnd := by rw [h]
  exact hsame

theorem sealOut_drew (h : Drew s c rnd s1) : sealOut s c hdr =
    some (answered s1 c { status := .ok, detail := 0, out := padTo (outLenOf s c c.keyA c.keyB) (sealSigned s c hdr rnd) }) := by
  unfold sealOut
  rw [withRnd_drew h, good_eq, outLenOf_of_rng (drew_keeps h), sealSigned_of_rng (drew_keeps h)]

theorem timestamp_untrusted (ha : Acts s cid 0x0702 c d) (hc : c.berth = some i) (hb : Map.get? s.keys.berths i = some b)
    (htime : strictUntrusted s b = true) :
    Completes (.timestamp cid) s fun t => Only s t answering ∧ Ended t cid .timeUntrusted 0 [] := by
  refine completes_answering rfl ha ?_
  rw [hc, Option.bind_some, hb, Option.map_some]
  dsimp only
  rw [htime]
  rfl

theorem timestamp_signs (ha : Acts s cid 0x0702 c d) (hc : c.berth = some i) (hb : Map.get? s.keys.berths i = some b)
    (htime : strictUntrusted s b = false) (hdrew : Drew s c rnd s1) :
    Completes (.timestamp cid) s fun t => Only s t (.rng :: answering) ∧
      Ended t cid .ok 0 (padTo (outLenOf s c c.keyA c.keyB)
        (sealSigned s c (sealHeader s c i b 0x10 0 (le c.entry 40 2) true noChunk d (zeros 48)) rnd)) := by
  refine completes_drew rfl ha hdrew ?_
  rw [hc, Option.bind_some, hb, Option.map_some]
  dsimp only
  rw [htime]
  exact sealOut_drew hdrew

theorem seal_signs (ha : Acts s cid 0x0710 c d) (hhdr : c.header = some hdr) (hdrew : Drew s c rnd s1) :
    Completes (.seal cid) s fun t => Only s t (.rng :: answering) ∧
      Ended t cid .ok 0 (padTo (outLenOf s c c.keyA c.keyB) (sealSigned s c hdr rnd)) := by
  refine completes_drew rfl ha hdrew ?_
  rw [hhdr]
  exact sealOut_drew hdrew

/-! ### The link of a seal to its berth's chain (R305) -/

/-- A seal that neither begins a chain nor resumes one links its header at the berth's next place. -/
theorem linkSeal_links (hresume : b.resume = false) (hepoch : b.lastEpoch ≠ 0) (hseq : b.nextSeq ≠ BitVec.allOnes 64) :
    ∃ hd, linkSeal s c i b d = some (hd, { b with chainHead := digest 0x13 48 hd, nextSeq := b.nextSeq + 1, lastEpoch := s.time.epoch }) ∧
      le hd 16 8 = s.time.epoch.toNat ∧ le hd 24 8 = b.nextSeq.toNat := by
  refine ⟨sealHeader s c i b 1 b.nextSeq.toNat 0x3113 (bit (le c.entry 40 1) 0)
    (if bit (le c.entry 40 1) 0 then noChunk else inLen c.entry) (if bit (le c.entry 40 1) 0 then d else digest 0x13 48 d) b.chainHead, ?_,
    sealHeader_fields ..⟩
  have hlater : (b.lastEpoch == 0 && b.nextSeq == 0) = false := by
    rw [beq_false_of_ne hepoch]
    rfl
  have hroom : (b.nextSeq == BitVec.allOnes 64) = false := beq_false_of_ne hseq
  unfold linkSeal
  dsimp only
  rw [hlater, hresume, hroom]
  rfl

/-- The berth and the command once a header is linked. -/
def sealLinked (s : State) (i cid : Nat) (b1 : Berth) (hd : Bytes) : State :=
  modCmd (modBerth s i fun _ => b1) cid fun x => { x with header := some hd }

theorem sealLinked_only (s : State) (i cid : Nat) (b1 : Berth) (hd : Bytes) : Only s (sealLinked s i cid b1 hd) [.keys, .cmds] :=
  only_union (modBerth_only _ _ _) (modCmd_only _ _ _) (by decide) (by decide)

theorem sealLinked_header {b1 : Berth} {hd : Bytes} (hget : getCmd s cid = some c) :
    (getCmd (sealLinked s i cid b1 hd) cid).map (·.header) = some (some hd) := by
  rw [sealLinked, getCmd_modCmd_some (s := modBerth s i fun _ => b1) (f := fun x => { x with header := some hd }) hget fun _ => rfl]
  rfl

theorem sealLinked_berth {b1 : Berth} {hd : Bytes} (hb : Map.get? s.keys.berths i = some b) :
    Map.get? (sealLinked s i cid b1 hd).keys.berths i = some b1 := by
  have hmod := berth_modBerth s i i fun _ => b1
  rw [if_pos rfl, hb] at hmod
  exact hmod

/-- The linking step of a SEAL whose turn at its berth has come. -/
theorem sealLink_turn (hget : getCmd s cid = some c) (hc : c.berth = some i) (hb : Map.get? s.keys.berths i = some b) (hin : c.input = some d)
    (hrun : running s = true) (hop : opcode c.entry = 0x0710) (hphase : c.phase = .run) (hhdr : c.header = none) (hhere : berthHere s c = true)
    (hturn : earlierOpen s c [0x0710] (fun x => namesBerth s x i && x.header.isNone) = false) :
    exec (.sealLink cid) s = .next (if strictUntrusted s b then fail s cid .timeUntrusted 0
      else match linkSeal s c i b d with
        | none => fail s cid .counterExhausted 1
        | some (hd, b1) => sealLinked s i cid b1 hd) := by
  have hexec : exec (.sealLink cid) s = execSealLink cid s := rfl
  have hberth : (c.berth.bind fun i => (Map.get? s.keys.berths i).map fun b => (i, b)) = some (i, b) := by
    rw [hc, Option.bind_some, hb, Option.map_some]
  rw [hexec, execSealLink, hget]
  dsimp only
  rw [hberth, hin]
  dsimp only
  rw [hrun, hop, hphase, hhdr, hhere, hturn]
  rfl

end

end Sys2Proof.Machine

namespace Sys2Proof.Proofs

open Sys2Proof.Machine Sys2Proof.Claims

/-- Settles O44, command by command: the linking step takes the berth's chain on, and the seal signs the header that was linked. -/
theorem timeAndSeals : Obligations.TimeAndSeals := by
  unfold Obligations.TimeAndSeals
  intro s s1 cid i c b d hdr rnd
  refine ⟨timeRead_answers, timestamp_untrusted, timestamp_signs, ?_, ?_, seal_signs⟩
  · intro hget hc hb hin hrun hop hphase hhdr hhere hturn htime hresume hepoch hseq
    obtain ⟨hd, hlink, hfields⟩ := linkSeal_links (s := s) (c := c) (i := i) (d := d) hresume hepoch hseq
    refine ⟨_, (sealLink_turn hget hc hb hin hrun hop hphase hhdr hhere hturn).trans ?_, sealLinked_only s i cid _ hd, hd,
      sealLinked_header hget, hfields.1, hfields.2, sealLinked_berth hb⟩
    rw [htime, hlink]
    rfl
  · intro hget hc hb hin hrun hop hphase hhdr hsettled hhere hturn htime
    refine ⟨_, (sealLink_turn hget hc hb hin hrun hop hphase hhdr hhere hturn).trans ?_, fail_settled _ _ hget hsettled⟩
    rw [htime]
    rfl

end Sys2Proof.Proofs
end

section
/-!
PROOFS. PLAN_RUN and the end of a segment on an engine that is no vector engine (R180, R184, R189, R190, R192, R235): what the engine has
written, what the segment decides, and where its command goes on (O45).
-/

namespace Sys2Proof.Machine

open Sys2Proof.Claims

theorem planRun_answers {s : State} {cid n : Nat} {c : Cmd} {d : Bytes} (ha : Acts s cid 0x0801 c d)
    (hn : n = le c.body 36 4 + le c.body 40 4 * (inLen c.entry / max 1 (le c.body 32 4))) :
    Completes (.planRun cid) s fun t => Only s t answering ∧ Ended t cid .ok 0 (memRead 0 c.frame (le c.body 76 4) n) := by
  subst hn
  have hpad : ∀ a n, padTo n (memRead 0 c.frame a n) = memRead 0 c.frame a n := fun a n => by
    have hself := padTo_self (memRead 0 c.frame a n)
    rwa [memRead, List.length_map, List.length_range] at hself
  refine completes_answering rfl ha ?_
  rw [good_eq, hpad]

/-! ### What a segment decides (Table 64) -/

theorem bit_testBit (x i : Nat) : bit x i = x.testBit i := by
  rw [Nat.testBit_eq_decide_div_mod_eq]
  rfl

/-- The lowest set bit of a flag byte. -/
theorem lowestBit_spec {f : Nat} (hf : f < 256) (hne : f ≠ 0) :
    lowestBit f < 8 ∧ f.testBit (lowestBit f) = true ∧ ∀ b, b < lowestBit f → f.testBit b = false := by
  cases hfind : (List.range 8).find? fun i => bit f i with
  | none =>
    obtain ⟨i, hi⟩ := Nat.exists_testBit_of_ne_zero hne
    have hlt : i < 8 := by
      by_contra hle
      rw [Nat.testBit_lt_two_pow (hf.trans_le (Nat.pow_le_pow_right (n := 2) (i := 8) (by decide) (by omega)))] at hi
      cases hi
    have hnot := List.find?_range_eq_none.mp hfind i hlt
    rw [bit_testBit, hi] at hnot
    cases hnot
  | some i =>
    obtain ⟨hi, hmem, hbelow⟩ := List.find?_range_eq_some.mp hfind
    have hlow : lowestBit f = i := by rw [lowestBit, hfind]; rfl
    rw [hlow]
    refine ⟨List.mem_range.mp hmem, bit_testBit f i ▸ hi, fun b hb => ?_⟩
    have hb := hbelow b hb
    rwa [bit_testBit, Bool.not_eq_true'] at hb

theorem flags_lt (flags : Byte) (mask : Nat) : Nat.land flags.toNat mask < 256 :=
  (Nat.and_le_left (n := flags.toNat) (m := mask)).trans_lt flags.isLt

/-- What the segment at place `j` of a command decides. -/
def decision (c : Cmd) (j : Nat) (g : Seg) (flags : Nat) : Except Nat Cmd :=
  match g.dec with
  | some d => decide' c j d flags
  | none => .ok c

section
variable {c : Cmd} {j flags : Nat} {g : Seg} {dec : Dec}

theorem decision_none (h : g.dec = none) : decision c j g flags = .ok c := by
  unfold decision
  rw [h]

/-- A FIRST_SET decision that finds a flag notes it. -/
theorem decision_first (h : g.dec = some dec) (hrule : dec.rule = 1) (hset : Nat.land flags dec.mask ≠ 0) :
    decision c j g flags = .ok { c with
      cand := lowestBit (Nat.land flags dec.mask), rep := Map.getD c.reps j 0,
      picks := c.picks ++ [4 * Map.getD c.reps j 0 + lowestBit (Nat.land flags dec.mask)] } := by
  unfold decision decide'
  rw [h]
  dsimp only
  rw [hrule]
  exact if_neg hset

/-- A FIRST_SET decision that finds none goes back, within its limit. -/
theorem decision_repeat (h : g.dec = some dec) (hrule : dec.rule = 1) (hclear : Nat.land flags dec.mask = 0)
    (hlimit : Map.getD c.reps j 0 + 1 ≤ dec.limit) :
    decision c j g flags = .ok { c with
      reps := Map.put c.reps j (Map.getD c.reps j 0 + 1), jump := some dec.target, rep := Map.getD c.reps j 0 + 1 } := by
  unfold decision decide'
  rw [h]
  dsimp only
  rw [hrule, if_pos hclear, repeatDec]
  exact if_neg (by omega)

theorem decision_over (h : g.dec = some dec) (hrule : dec.rule = 1) (hclear : Nat.land flags dec.mask = 0)
    (hlimit : dec.limit < Map.getD c.reps j 0 + 1) : decision c j g flags = .error 6 := by
  unfold decision decide'
  rw [h]
  dsimp only
  rw [hrule, if_pos hclear, repeatDec]
  exact if_pos hlimit

end

/-! ### What the engine has written (R235) -/

section
variable {s s1 : State} {cid kind i j : Nat} {c c2 : Cmd} {g : Seg} {flags : Byte} {ws : List (Nat × Bytes)}

/-- The command once the writes that lie in its frame stand there. -/
def withWrites (c : Cmd) (ws : List (Nat × Bytes)) : Cmd :=
  { c with frame := (ws.filter fun w => decide (w.1 + w.2.length ≤ lveFrame c)).foldl (fun m w => memWrite 0 m w.1 w.2) c.frame }

theorem crossWrites_only : Only s (crossWrites s c ws) [.cmds] := modCmd_only _ _ _

theorem getCmd_crossWrites (hget : getCmd s cid = some c) (hrun : c.running = [(kind, i)]) (hkind : kind ≠ 1) :
    getCmd (crossWrites s c ws) cid = some (withWrites c ws) := by
  have hnone : (c.running.find? fun e => e.1 == 1) = none := by simp [hrun, hkind]
  obtain rfl := getCmd_id hget
  unfold crossWrites
  dsimp only
  rw [hnone]
  exact getCmd_modCmd_some hget fun _ => rfl

theorem withWrites_nil (c : Cmd) : withWrites c [] = c := rfl

theorem withWrites_inside {a : Nat} {b : Bytes} (h : a + b.length ≤ lveFrame c) :
    withWrites c [(a, b)] = { c with frame := memWrite 0 c.frame a b } := by
  have hkept : [(a, b)].filter (fun w => decide (w.1 + w.2.length ≤ lveFrame c)) = [(a, b)] := List.filter_eq_self.mpr (by simpa using h)
  rw [withWrites, hkept]
  rfl

/-- What the engine has written before the end of its segment is acted on. -/
def written (s : State) (c : Cmd) (kind : Nat) (ws : List (Nat × Bytes)) : State := if crosses c kind then crossWrites s c ws else s

theorem written_only : Only s (written s c kind ws) [.cmds] := by
  unfold written
  split
  · exact crossWrites_only
  · exact only_refl

theorem getCmd_written_nil (hget : getCmd s cid = some c) (hrun : c.running = [(kind, i)]) (hkind : kind ≠ 1) :
    getCmd (written s c kind []) cid = some c := by
  unfold written
  split
  · exact getCmd_crossWrites hget hrun hkind
  · exact hget

theorem crosses_standard (hkind : kind ≠ 1) (hplan : c.planId < 0x80000000) : crosses c kind = true := by
  unfold crosses
  rw [bne_iff_ne.mpr hkind, decide_eq_true hplan]
  rfl

/-- A command whose last running segment has left it. -/
def groupOver (c : Cmd) : Cmd := { c with running := [], runSegs := [] }

theorem dropRun_last (hon : c.running = [(kind, i)]) (hsegs : c.runSegs = [j]) : dropRun c 0 = groupOver c := by
  rw [dropRun, hon, hsegs]
  rfl

/-! ### SEGMENT_END -/

theorem segmentEnd_wrote (hrun : running s = true) (hget : getCmd s cid = some c) (hread : gmRead s (.working cid) = none)
    (hon : c.running = [(kind, i)]) (hin : inService s kind i = true) (hunit : unitRuns s (engUnit kind i) = true)
    (hcross : crosses c kind = true) : exec (.segmentEnd cid kind (.wrote ws)) s = .next (crossWrites s c ws) := by
  have hfind : c.running.findIdx? (fun r => r.1 == kind && inService s kind r.2 && unitRuns s (engUnit kind r.2)) = some 0 := by
    simp [hon, List.findIdx?_cons, hin, hunit]
  have hexec : exec (.segmentEnd cid kind (.wrote ws)) s = execSegmentEnd cid kind (.wrote ws) s := rfl
  rw [hexec, execSegmentEnd, hrun, hget, hread]
  dsimp only
  rw [hfind]
  dsimp only
  rw [hcross]
  rfl

theorem segmentEnd_done (hrun : running s = true) (hget : getCmd s cid = some c) (hread : gmRead s (.working cid) = none)
    (hon : c.running = [(kind, i)]) (hin : inService s kind i = true) (hunit : unitRuns s (engUnit kind i) = true)
    (hwritten : getCmd (written s c kind ws) cid = some c2) :
    exec (.segmentEnd cid kind (.done flags ws)) s =
      .next (unitStep (endSegment (written s c kind ws) c2 0 kind i flags) (engUnit kind i)) := by
  have hfind : c.running.findIdx? (fun r => r.1 == kind && inService s kind r.2 && unitRuns s (engUnit kind r.2)) = some 0 := by
    simp [hon, List.findIdx?_cons, hin, hunit]
  have hexec : exec (.segmentEnd cid kind (.done flags ws)) s = execSegmentEnd cid kind (.done flags ws) s := rfl
  unfold written at hwritten
  rw [hexec, execSegmentEnd, hrun, hget, hread]
  dsimp only
  rw [hfind]
  dsimp only
  rw [hwritten, hon]
  rfl

/-- The engine and the command once a segment that goes on has left the engine. -/
def segmentLeft (s : State) (cid : Nat) (c : Cmd) (kind i n : Nat) : State :=
  noteStep (usedSeeds (modCmd s cid fun _ => c) kind i n) kind i

/-- What follows from what a segment has decided. -/
def decided (s : State) (c : Cmd) (kind i n : Nat) (r : Except Nat Cmd) : State :=
  match r with
  | .error cause => fail (cacheBuild s c) c.id .engineFault (faultDetail cause 0 0)
  | .ok c2 => endGroup (segmentLeft s c.id c2 kind i n) c2

theorem endSegment_decides (hon : c.running = [(kind, i)]) (hsegs : c.runSegs = [j]) (hg : c.segs[j]? = some g) (hkind : kind ≠ 1) :
    endSegment s c 0 kind i flags = decided s c kind i (seedsFor g) (decision (groupOver c) j g flags.toNat) := by
  have hseg : c.runSegs.getD 0 0 = j := by rw [hsegs]; rfl
  have hflags : flagByte s kind i flags = flags.toNat := if_neg hkind
  have hleave : ∀ t x, leaveEngine t x kind i g = usedSeeds t kind i (seedsFor g) := fun _ _ => if_neg hkind
  unfold endSegment
  dsimp only
  rw [hseg, hg, hflags]
  dsimp only
  rw [if_neg (by simp [hkind])]
  simp only [hleave]
  rw [dropRun_last hon hsegs]
  unfold decision decided
  cases g.dec <;> rfl

/-- Where a group that has ended leaves its command: after it, or back at a decision's target (R184, R189). -/
def afterGroup (c : Cmd) : Cmd :=
  match c.jump with
  | some p => { c with pos := p, jump := none }
  | none => c

theorem afterGroup_none (h : c.jump = none) : afterGroup c = c := by
  unfold afterGroup
  rw [h]

theorem endGroup_goes (hrun : c.running = []) (hverdict : c.verdict = none) (hget : getCmd s cid = some c) :
    Only s (endGroup s c) [.cmds] ∧ getCmd (endGroup s c) cid = some (afterGroup c) := by
  obtain rfl := getCmd_id hget
  have hne : ¬ c.running ≠ [] := fun h => h hrun
  cases hjump : c.jump with
  | none =>
    have hend : endGroup s c = s := by rw [endGroup, if_neg hne, hverdict, hjump]
    rw [hend, afterGroup_none hjump]
    exact ⟨only_refl, hget⟩
  | some p =>
    have hend : endGroup s c = modCmd s c.id fun x => { x with pos := p, jump := none } := by rw [endGroup, if_neg hne, hverdict, hjump]
    have hback : afterGroup c = { c with pos := p, jump := none } := by rw [afterGroup, hjump]
    rw [hend, hback]
    exact ⟨modCmd_only _ _ _, getCmd_modCmd_some (f := fun x => { x with pos := p, jump := none }) hget fun _ => rfl⟩

theorem getCmd_segmentLeft {n : Nat} (hget : getCmd s cid = some c) (hid : c2.id = cid) :
    getCmd (segmentLeft s cid c2 kind i n) cid = some c2 := by
  have hsame : ((fun x : Cmd => x.id == cid) ∘ fun x => if x.id = cid then c2 else x) = fun x => x.id == cid := by
    funext x
    by_cases hx : x.id = cid <;> simp [hx, hid]
  have hfound : (s.cmds.find? fun x => x.id == cid) = some c := hget
  change ((s.cmds.map fun x => if x.id = cid then c2 else x).find? fun x => x.id == cid) = some c2
  rw [List.find?_map, hsame, hfound, Option.map_some, if_pos (getCmd_id hget)]

theorem unitStep_only {n : Nat} : Only s (unitStep s n) [.lc] := fun p hp => by
  cases p
  case lc => simp at hp
  all_goals rfl

theorem ended_unitStep {n detail : Nat} {st : Status} {out : Bytes} (h : Ended s cid st detail out) : Ended (unitStep s n) cid st detail out := h

/-- The frame of a segment's end, whatever becomes of its command. -/
theorem segmentOver_of {u : State} {n m : Nat} (hs : Only s s1 [.cmds]) (hu : Only (segmentLeft s1 cid c kind i n) u [.cmds]) :
    SegmentOver s (unitStep u m) kind i := by
  have heng : u.eng = (segmentLeft s1 cid c kind i n).eng := hu .eng (by decide)
  have hlc : u.lc = s.lc := (hu .lc (by decide)).trans (hs .lc (by decide))
  have hbefore : s1.eng = s.eng := hs .eng (by decide)
  have htick : s1.sys = s.sys := hs .sys (by decide)
  have hleft : Only s1 (segmentLeft s1 cid c kind i n) [.cmds, .eng] := fun p hp => by
    cases p
    case cmds | eng => simp at hp
    all_goals rfl
  refine ⟨only_union (only_union (rs := [.cmds, .eng]) hs (only_union (rs := [.cmds, .eng]) hleft hu (by decide) (by decide)) (by decide) (by decide))
    unitStep_only (by decide) (by decide), ?_, ?_, ?_⟩
  · change { u.lc with units := s.lc.units } = s.lc
    rw [hlc]
  · change { u.eng with lastStep := s.eng.lastStep, maskGen := s.eng.maskGen } = s.eng
    rw [heng, ← hbefore]
    rfl
  · change Map.get? u.eng.lastStep (kind * 256 + i) = some s.sys.tick
    rw [heng, ← htick]
    exact Map.get?_put_self ..

/-- A segment that ends and decides to go on. -/
theorem segmentEnd_goes {n : Nat} (hon : c.running = [(kind, i)]) (hsegs : c.runSegs = [j]) (hg : c.segs[j]? = some g) (hkind : kind ≠ 1)
    (hs : Only s s1 [.cmds]) (hget : getCmd s1 cid = some c) (hdec : decision (groupOver c) j g flags.toNat = .ok c2)
    (hrun : c2.running = []) (hverdict : c2.verdict = none) (hid : c2.id = cid) :
    SegmentOver s (unitStep (endSegment s1 c 0 kind i flags) n) kind i ∧
      getCmd (unitStep (endSegment s1 c 0 kind i flags) n) cid = some (afterGroup c2) := by
  obtain rfl := getCmd_id hget
  obtain ⟨honly, hafter⟩ := endGroup_goes hrun hverdict (getCmd_segmentLeft (kind := kind) (i := i) (n := seedsFor g) hget hid)
  rw [endSegment_decides hon hsegs hg hkind, hdec]
  exact ⟨segmentOver_of hs honly, hafter⟩

/-- A segment whose decision ends its command. -/
theorem segmentEnd_faults {n cause : Nat} (hon : c.running = [(kind, i)]) (hsegs : c.runSegs = [j]) (hg : c.segs[j]? = some g) (hkind : kind ≠ 1)
    (hs : Only s s1 [.cmds]) (hget : getCmd s1 cid = some c) (hdec : decision (groupOver c) j g flags.toNat = .error cause) :
    Only s (unitStep (endSegment s1 c 0 kind i flags) n) (.fns :: .lc :: answering) ∧
      Ended (unitStep (endSegment s1 c 0 kind i flags) n) cid .engineFault (faultDetail cause 0 0) [] := by
  obtain rfl := getCmd_id hget
  have hbuild := cacheBuild_only s1 c
  have hfail : Only (cacheBuild s1 c) (fail (cacheBuild s1 c) c.id .engineFault (faultDetail cause 0 0)) [.cmds, .eng, .fns, .bus] :=
    only_of_run (fail_keeps _ _ _ _)
  have hone : Only s (fail (cacheBuild s1 c) c.id .engineFault (faultDetail cause 0 0)) (.fns :: answering) :=
    only_union hs (only_union (rs := .fns :: answering) hbuild hfail (by decide) (by decide)) (by decide) (by decide)
  have hended : Ended (fail (cacheBuild s1 c) c.id .engineFault (faultDetail cause 0 0)) c.id .engineFault (faultDetail cause 0 0) [] :=
    finish_phase _ _ _ _ ((getCmd_congr (hbuild .cmds (by decide)) _).trans hget)
  have hfault : endSegment s1 c 0 kind i flags = fail (cacheBuild s1 c) c.id .engineFault (faultDetail cause 0 0) := by
    rw [endSegment_decides hon hsegs hg hkind, hdec, decided]
  rw [hfault]
  exact ⟨only_union hone unitStep_only (by decide) (by decide), ended_unitStep hended⟩

end

end Sys2Proof.Machine

namespace Sys2Proof.Proofs

open Sys2Proof.Machine Sys2Proof.Claims

/-- Settles O45: what the running segment decides, on the command as the engine's writes have left it. -/
theorem plansAndSegments : Obligations.PlansAndSegments := by
  unfold Obligations.PlansAndSegments
  intro s cid kind i j n c g dec d flags
  refine ⟨planRun_answers, fun hrun hget hread hon hsegs hin hunit hg hkind hverdict => ?_⟩
  have hid : c.id = cid := getCmd_id hget
  have hplain : getCmd (written s c kind []) cid = some c := getCmd_written_nil hget hon hkind
  have hdone := segmentEnd_done (flags := flags) hrun hget hread hon hin hunit hplain
  refine ⟨?_, ?_, ?_, ?_, ?_, ?_⟩
  · intro hdec hjump
    obtain ⟨hover, hafter⟩ := segmentEnd_goes (flags := flags) (n := engUnit kind i) hon hsegs hg hkind written_only hplain
      (decision_none (c := groupOver c) hdec) rfl hverdict hid
    exact ⟨_, hdone, hover, hafter.trans (congrArg some (afterGroup_none hjump))⟩
  · intro a b hplan hinside
    exact ⟨_, segmentEnd_wrote hrun hget hread hon hin hunit (crosses_standard hkind hplan), crossWrites_only,
      withWrites_inside hinside ▸ getCmd_crossWrites hget hon hkind⟩
  · intro a b hdec hjump hplan hinside
    have hframe : getCmd (written s c kind [(a, b)]) cid = some { c with frame := memWrite 0 c.frame a b } := by
      rw [written, if_pos (crosses_standard hkind hplan), ← withWrites_inside hinside]
      exact getCmd_crossWrites hget hon hkind
    obtain ⟨hover, hafter⟩ := segmentEnd_goes (c := { c with frame := memWrite 0 c.frame a b }) (flags := flags) (n := engUnit kind i) hon hsegs hg hkind
      written_only hframe
      (decision_none (c := groupOver { c with frame := memWrite 0 c.frame a b }) hdec) rfl hverdict hid
    exact ⟨_, segmentEnd_done hrun hget hread hon hin hunit hframe, hover, hafter.trans (congrArg some (afterGroup_none hjump))⟩
  · intro hdec hrule hclear hlimit
    obtain ⟨hover, hafter⟩ := segmentEnd_goes (flags := flags) (n := engUnit kind i) hon hsegs hg hkind written_only hplain
      (decision_repeat (c := groupOver c) hdec hrule hclear hlimit) rfl hverdict hid
    exact ⟨_, hdone, hover, _, hafter, rfl, rfl, rfl, Map.get?_put_self ..⟩
  · intro hdec hrule hjump hset
    obtain ⟨hover, hafter⟩ := segmentEnd_goes (flags := flags) (n := engUnit kind i) hon hsegs hg hkind written_only hplain
      (decision_first (c := groupOver c) hdec hrule hset) rfl hverdict hid
    obtain ⟨hlt, hbit, hbelow⟩ := lowestBit_spec (flags_lt flags dec.mask) hset
    exact ⟨_, hdone, hover, _, hafter.trans (congrArg some (afterGroup_none hjump)), rfl, rfl, hlt, hbit, hbelow, rfl⟩
  · intro hdec hrule hclear hlimit
    exact ⟨_, hdone, segmentEnd_faults hon hsegs hg hkind written_only hplain
      (decision_over (c := groupOver c) hdec hrule hclear hlimit)⟩

end Sys2Proof.Proofs
end

section
/-!
PROOFS. The step on an empty queue (O15): one tick of the timebase, and the seed queues that fill after it.
-/

namespace Sys2Proof.Machine

open Sys2Proof.Claims

/-! ### Seed queues (R197) -/

theorem refillAll_only (s : State) : Only s (refillAll s) [.eng, .rng] :=
  only_of_keeps (refillAll_keeps s) fun x p hp => by
    cases p
    case eng | rng => simp at hp
    all_goals rfl

/-- Of the engines a refill changes the seed queues alone. -/
theorem refillAll_eng (s : State) : { (refillAll s).eng with seedQ := s.eng.seedQ } = s.eng :=
  congrArg (fun x : State => { x.eng with seedQ := s.eng.seedQ }) (refillAll_keeps s)

theorem refillAll_dry {s : State} (h : canDraw s = false) : refillAll s = s := by
  rw [refillAll, h]
  rfl

/-! ### The idle step (R294, R437) -/

/-- The state one TBCLK tick later. -/
def ticked (s : State) : State := { s with sys := { s.sys with tick := s.sys.tick + 1 } }

theorem ticked_only (s : State) : Only s (ticked s) [.sys] := only_of_sys

theorem canDraw_ticked (s : State) : canDraw (ticked s) = canDraw s := rfl

theorem idle_running {s : State} (hclk : s.sys.tbclk = true) (hmode : s.sys.mode ≠ .dormant) : idle s = refillAll (ticked s) := by
  rw [idle, hclk, bne_iff_ne.mpr hmode]
  rfl

theorem idle_stopped {s : State} (h : s.sys.tbclk = false ∨ s.sys.mode = .dormant) : idle s = s := by
  rcases h with h | h <;> simp [idle, h]

theorem idle_eq (s : State) : idle s = s ∨ idle s = refillAll (ticked s) := by
  unfold idle
  split
  · exact .inr rfl
  · exact .inl rfl

theorem step_nil {s : State} (h : s.pending = []) : step s = .next (idle s) := by
  rw [step, h]

theorem ticked_refillAll_sys (s : State) : (refillAll (ticked s)).sys = (ticked s).sys := refillAll_only (ticked s) .sys (by decide)

/-- What an idle step may change: the timebase, the seed queues and the generator they draw from. -/
theorem idle_frame (s : State) :
    Only s (idle s) [.sys, .eng, .rng] ∧ { (idle s).sys with tick := s.sys.tick } = s.sys ∧
      { (idle s).eng with seedQ := s.eng.seedQ } = s.eng := by
  rcases idle_eq s with h | h <;> rw [h]
  · exact ⟨only_refl, rfl, rfl⟩
  · refine ⟨only_union (ticked_only s) (refillAll_only _) (by decide) (by decide), ?_, refillAll_eng (ticked s)⟩
    rw [ticked_refillAll_sys]
    rfl

theorem idle_ticks {s : State} (hclk : s.sys.tbclk = true) (hmode : s.sys.mode ≠ .dormant) : (idle s).sys.tick = s.sys.tick + 1 := by
  rw [idle_running hclk hmode, ticked_refillAll_sys]
  rfl

/-- While nothing can be drawn only the timebase goes on. -/
theorem idle_dry {s : State} (h : canDraw s = false) : Only s (idle s) [.sys] := by
  rcases idle_eq s with hidle | hidle <;> rw [hidle]
  · exact only_refl
  · rw [refillAll_dry ((canDraw_ticked s).trans h)]
    exact ticked_only s

end Sys2Proof.Machine

namespace Sys2Proof.Proofs

open Sys2Proof.Machine Sys2Proof.Claims

/-- Settles O15: the idle step is a tick and a refill of the seed queues, or nothing. -/
theorem idleStepTicks : Obligations.IdleStepTicks := by
  unfold Obligations.IdleStepTicks
  intro s hpending
  obtain ⟨honly, hsys, heng⟩ := idle_frame s
  exact ⟨idle s, step_nil hpending, honly, hsys, heng, idle_ticks, idle_stopped, idle_dry⟩

end Sys2Proof.Proofs
end

section
/-!
PROOFS. Resets of ports and functions up to their taking effect (O18): the ports after a reset, the functions of a port that stop, and the
configuration writes row by row.
-/

namespace Sys2Proof.Machine

open Sys2Proof.Claims

/-! ### Ports (R321, R432) -/

theorem modPort_only (s : State) (p : Nat) (f : Port → Port) : Only s (modPort s p f) [.ports] := fun p hp => by
  cases p
  case ports => simp at hp
  all_goals rfl

theorem getPort_modPort_self (s : State) {p : Nat} (f : Port → Port) (hp : p < 8) : getPort (modPort s p f) p = f (getPort s p) := by
  rw [getPort_modPort s p p f hp, if_pos rfl]

theorem getPort_of_ports {s t : State} (h : t.ports = s.ports) (p : Nat) : getPort t p = getPort s p := by
  rw [getPort, getPort, h]

theorem portOf_lt (fn : Nat) : portOf fn < 8 := Nat.mod_lt _ (by decide)

theorem ports_of_atBoundary {s t : State} (h : atBoundary t = atBoundary s) : t.ports = s.ports := congrArg (·.2.2) h

/-- The reset of a function leaves the ports. -/
theorem resetFn_ports (s : State) (fn kind : Nat) : (resetFn s fn kind).ports = s.ports := by
  have hended : ∀ l : List Nat, (lateRings (l.foldl endCmd (abortMoves s fn s.topo.position)) fn).ports = s.ports := fun l =>
    ports_of_atBoundary ((lateRings_atBoundary ..).trans ((foldl_keeps atBoundary endCmd endCmd_atBoundary l _).trans (abortMoves_atBoundary ..)))
  have htold : ∀ (l : List Nat) (t : State), (l.foldl (fun t w => if w = fn then t else pendFast t w 3 fn) t).ports = t.ports := by
    refine foldl_keeps State.ports _ fun t w => ?_
    split <;> rfl
  unfold resetFn
  dsimp only
  rw [ports_of_atBoundary (record_atBoundary ..), ports_of_atBoundary (sendEndFunc_atBoundary ..)]
  dsimp only
  rw [modFn_ports, ports_of_atBoundary (resetHoldings_atBoundary ..)]
  split
  on_goal 1 => rw [ports_of_atBoundary (fail_atBoundary ..)]
  all_goals
    split
    · exact (htold ..).trans (hended _)
    · exact hended _

theorem resetByPort_ports (s : State) (fn : Nat) : (resetByPort s fn).ports = s.ports := by
  rw [resetByPort, modFn_ports, resetFn_ports, flrWrite, modFn_ports]

theorem fnsReset_ports (s : State) (p : Nat) : (fnsReset s p).ports = s.ports := by
  rw [fnsReset, foldl_keeps State.ports ceaseVf fun t fn => ports_of_atBoundary (ceaseVf_atBoundary t fn),
    foldl_keeps State.ports resetByPort resetByPort_ports, ports_of_atBoundary (resetHoldings_atBoundary ..)]

/-- While no sequencer runs the reset of a port takes place at once (R38). -/
theorem resetPort_idle (s : State) {p : Nat} (hp : p < 8) (hrun : running s = false) :
    getPort (resetPort s p) p = portCleared (getPort s p) := by
  have hnow : resetPort s p = retryBerth (flushSignals (resetPortNow s p)) := if_neg (by rw [hrun]; decide)
  rw [hnow, getPort_of_atBoundary ((retryBerth_atBoundary _).trans (flushSignals_atBoundary _)), resetPortNow_port s hp,
    getPort_of_ports (fnsReset_ports s p)]

/-! ### The functions of a port that stop (R188, R321) -/

theorem portWrite_only (s : State) (fn : Nat) : Only s (portWrite s fn) [.fns] :=
  only_trans (modFn_only s fn _) (modFn_only (flrWrite s fn) fn _)

theorem portWrite_ne (s : State) {fn x : Nat} (h : x ≠ fn) : getFn (portWrite s fn) x = getFn s x :=
  (getFn_modFn_ne (flrWrite s fn) _ h).trans (getFn_modFn_ne s _ h)

/-- A function stopped by its port's reset issues nothing, and is to be reset where no clean-up of it runs. -/
def Stopped (s t : State) (fn : Nat) : Prop :=
  (getFn t fn).bme = false ∧ (getFn t fn).flr = if (getFn s fn).flr = .cleanup then .cleanup else .requested

theorem portWrite_stops (s : State) (fn : Nat) : Stopped s (portWrite s fn) fn := by
  rw [Stopped, portWrite, getFn_modFn_self, flrWrite, getFn_modFn_self]
  exact ⟨rfl, rfl⟩

theorem foldl_portWrite_ne {l : List Nat} {x : Nat} (h : x ∉ l) (s : State) : getFn (l.foldl portWrite s) x = getFn s x := by
  induction l generalizing s with
  | nil => rfl
  | cons a l ih =>
    obtain ⟨hne, hl⟩ := not_or.mp (mt List.mem_cons.mpr h)
    rw [List.foldl_cons, ih hl, portWrite_ne s hne]

theorem foldl_portWrite_stops {l : List Nat} {x : Nat} (hnd : l.Nodup) (hx : x ∈ l) (s : State) : Stopped s (l.foldl portWrite s) x := by
  induction l generalizing s with
  | nil => cases hx
  | cons a l ih =>
    obtain ⟨ha, hnd⟩ := List.nodup_cons.mp hnd
    rw [List.foldl_cons]
    rcases List.mem_cons.mp hx with rfl | hl
    · rw [Stopped, foldl_portWrite_ne ha]
      exact portWrite_stops s x
    · have hne : x ≠ a := fun h => ha (h ▸ hl)
      have hstop := ih hnd hl (portWrite s a)
      rwa [Stopped, portWrite_ne s hne] at hstop

theorem portFns_nodup (s : State) (p : Nat) : (portFns s p).Nodup :=
  (List.nodup_range.map fun _ _ h => Nat.add_left_cancel h).filter _

/-- While sequencers run the functions of the port stop, and its reset waits for the next boundary. -/
theorem resetPort_running (s : State) (p : Nat) (hrun : running s = true) :
    Only s (resetPort s p) [.fns, .eng] ∧ PortStops s (resetPort s p) p := by
  have honly := foldl_only portWrite_only (portFns s p) s
  have hstops : ∀ f ∈ portFns s p, Stopped s ((portFns s p).foldl portWrite s) f := fun f hf =>
    foldl_portWrite_stops (portFns_nodup s p) hf s
  have hreset : resetPort s p = if (portsWaiting ((portFns s p).foldl portWrite s)).contains p then (portFns s p).foldl portWrite s
      else addChange ((portFns s p).foldl portWrite s) 3 p := if_pos hrun
  rw [hreset]
  split
  · rename_i hwaits
    exact ⟨only_mono honly (by decide), hstops, List.contains_iff_mem.mp hwaits⟩
  · exact ⟨only_union honly only_of_eng (by decide) (by decide), hstops, by simp [portsWaiting, addChange]⟩

/-- The reset of a port under way, on a port whose own state changes with it. -/
theorem resetPort_running_modPort (s : State) {p : Nat} (f : Port → Port) (hp : p < 8) (hrun : running s = true) :
    Only s (modPort (resetPort s p) p f) [.fns, .ports, .eng] ∧ PortStops s (modPort (resetPort s p) p f) p ∧
      getPort (modPort (resetPort s p) p f) p = f (getPort s p) := by
  obtain ⟨honly, hstops⟩ := resetPort_running s p hrun
  refine ⟨only_union honly (modPort_only _ _ _) (by decide) (by decide), hstops, ?_⟩
  rw [getPort_modPort_self _ _ hp, getPort_of_ports (honly .ports (by decide))]

/-! ### PERST_N, Hot Reset and DL_Down (R321, R432) -/

theorem exec_perstN {s : State} {p : Fin 8} (hmode : s.sys.mode ≠ .dormant) (hlow : s.sys.resetLow = false)
    (hperst : (getPort s p.val).perst = false) :
    exec (.perstN p) s = .next (modPort (linkDown (resetPort s p.val) p.val) p.val fun x => { x with perst := true }) := by
  simp [exec, execPerstN, hmode, hlow, hperst]

theorem exec_hotReset {s : State} {p : Fin 8} {ev : PortEvent} (hmode : s.sys.mode ≠ .dormant) (hlow : s.sys.resetLow = false)
    (hperst : (getPort s p.val).perst = false) (hev : ev = .hotReset p ∨ ev = .dlDown p) :
    exec (.hotReset ev) s = .next (linkDown (resetPort s p.val) p.val) := by
  rcases hev with rfl | rfl <;> simp [exec, execHotReset, hmode, hlow, hperst]

theorem modPort_modPort (s : State) (p : Nat) (f g : Port → Port) : modPort (modPort s p f) p g = modPort s p (g ∘ f) := by
  have hports : (modPort (modPort s p f) p g).ports = (modPort s p (g ∘ f)).ports := by
    ext i hi : 1
    simp only [modPort, Vector.getElem_mapIdx]
    split <;> rfl
  exact congrArg (fun x => { s with ports := x }) hports

/-- A port whose link is down and whose PERST_N is low. -/
def portHeld (x : Port) : Port := { x with perst := true, linkUp := false }

theorem perstN_holds (s : State) (p : Nat) :
    modPort (linkDown s p) p (fun x => { x with perst := true }) = modPort s p portHeld := modPort_modPort ..

theorem perstN_idle {s : State} {p : Fin 8} (hmode : s.sys.mode ≠ .dormant) (hlow : s.sys.resetLow = false)
    (hperst : (getPort s p.val).perst = false) (hrun : running s = false) :
    Completes (.perstN p) s fun t => (getPort t p.val).perst = true ∧ (getPort t p.val).linkUp = false ∧
      (getPort t p.val).vfEnable = false ∧ (getPort t p.val).targets = [] ∧ (getPort t p.val).sets = [] := by
  refine ⟨_, exec_perstN hmode hlow hperst, ?_⟩
  beta_reduce
  rw [perstN_holds, getPort_modPort_self _ _ p.isLt, resetPort_idle s p.isLt hrun]
  exact ⟨rfl, rfl, rfl, rfl, rfl⟩

theorem hotReset_idle {s : State} {p : Fin 8} (hmode : s.sys.mode ≠ .dormant) (hlow : s.sys.resetLow = false)
    (hperst : (getPort s p.val).perst = false) (hrun : running s = false) (ev : PortEvent) (hev : ev = .hotReset p ∨ ev = .dlDown p) :
    Completes (.hotReset ev) s fun t => (getPort t p.val).perst = false ∧ (getPort t p.val).linkUp = false ∧
      (getPort t p.val).vfEnable = false ∧ (getPort t p.val).numVfs = 0 ∧ (getPort t p.val).targets = [] ∧
      (getPort t p.val).sets = [] := by
  refine ⟨_, exec_hotReset hmode hlow hperst hev, ?_⟩
  beta_reduce
  rw [linkDown, getPort_modPort_self _ _ p.isLt, resetPort_idle s p.isLt hrun]
  exact ⟨hperst, rfl, rfl, rfl, rfl, rfl⟩

theorem perstN_running {s : State} {p : Fin 8} (hmode : s.sys.mode ≠ .dormant) (hlow : s.sys.resetLow = false)
    (hperst : (getPort s p.val).perst = false) (hrun : running s = true) :
    Completes (.perstN p) s fun t => Only s t [.fns, .ports, .eng] ∧ PortStops s t p.val ∧
      getPort t p.val = { getPort s p.val with perst := true, linkUp := false } := by
  refine ⟨_, exec_perstN hmode hlow hperst, ?_⟩
  rw [perstN_holds]
  exact resetPort_running_modPort s portHeld p.isLt hrun

theorem hotReset_running {s : State} {p : Fin 8} (hmode : s.sys.mode ≠ .dormant) (hlow : s.sys.resetLow = false)
    (hperst : (getPort s p.val).perst = false) (hrun : running s = true) (ev : PortEvent) (hev : ev = .hotReset p ∨ ev = .dlDown p) :
    Completes (.hotReset ev) s fun t => Only s t [.fns, .ports, .eng] ∧ PortStops s t p.val ∧
      getPort t p.val = { getPort s p.val with linkUp := false } :=
  ⟨_, exec_hotReset hmode hlow hperst hev, resetPort_running_modPort s _ p.isLt hrun⟩

/-! ### The link trains (R321, R432) -/

theorem linkTrains_completes (s : State) (l : PortLink) (hiso : s.sys.isolated = false) :
    Only s (linkTrains s l) [.ports] ∧ getPort (linkTrains s l) l.port.val =
      { getPort s l.port.val with linkUp := !(getPort s l.port.val).perst, speed := l.speed, width := l.width } := by
  refine ⟨modPort_only _ _ _, ?_⟩
  rw [linkTrains, getPort_modPort_self _ _ l.port.isLt, hiso, Bool.not_false, Bool.and_true]

theorem perstN_released {s : State} (l : PortLink) (hiso : s.sys.isolated = false) :
    Completes (.perstNRelease l) s fun t => Only s t [.ports] ∧
      getPort t l.port.val = { getPort s l.port.val with perst := false, linkUp := true, speed := l.speed, width := l.width } := by
  obtain ⟨honly, hport⟩ := linkTrains_completes (modPort s l.port.val fun x => { x with perst := false }) l hiso
  rw [getPort_modPort_self _ _ l.port.isLt] at hport
  exact ⟨_, rfl, only_trans (modPort_only _ _ _) honly, hport⟩

theorem link_trained {s : State} (l : PortLink) (hmode : s.sys.mode ≠ .dormant) (hiso : s.sys.isolated = false)
    (hlow : s.sys.resetLow = false) :
    Completes (.hotReset (.trained l)) s fun t => Only s t [.ports] ∧ getPort t l.port.val =
      { getPort s l.port.val with linkUp := !(getPort s l.port.val).perst, speed := l.speed, width := l.width } :=
  ⟨linkTrains s l, by simp [exec, execHotReset, hmode, hlow], linkTrains_completes s l hiso⟩

/-! ### SR-IOV (R311, R312, R428) -/

/-- A change of a port's SR-IOV configuration is the last thing its write does to the port. -/
theorem getPort_setSriov (s : State) {p : Nat} (f : Port → Port) (hp : p < 8) : ∃ x, getPort (setSriov s p f) p = f x :=
  ⟨_, getPort_modPort_self _ f hp⟩

theorem toNat_bar_mod (v m a : DWord) {n : Nat} (hm : m.toNat % 2 ^ n = 0) (ha : a.toNat < 2 ^ n) : ((v &&& m) ||| a).toNat % 2 ^ n = a.toNat := by
  rw [BitVec.toNat_or, BitVec.toNat_and, Nat.or_mod_two_pow, Nat.and_mod_two_pow, hm, Nat.and_zero, Nat.zero_or, Nat.mod_eq_of_lt ha]

theorem bar0Of_mod (v : DWord) : (bar0Of v).toNat % 2 ^ 17 = 4 := toNat_bar_mod v _ 0x4 (by decide) (by decide)

theorem bar2Of_mod (v : DWord) : (bar2Of v).toNat % 2 ^ 20 = 12 := toNat_bar_mod v _ 0xC (by decide) (by decide)

/-- From bit 20 on a VF BAR holds the address it was written. -/
theorem bars_address (v : DWord) {k : Nat} (hlo : 20 ≤ k) (hhi : k < 64) :
    (bar0Of v).getLsbD k = v.getLsbD k ∧ (bar2Of v).getLsbD k = v.getLsbD k := by
  have hmasks : ∀ k, k < 64 → 20 ≤ k →
      (0xFFFFFFFFFFFE0000 : DWord).getLsbD k = true ∧ (0x4 : DWord).getLsbD k = false ∧
      (0xFFFFFFFFFFF00000 : DWord).getLsbD k = true ∧ (0xC : DWord).getLsbD k = false := by decide
  obtain ⟨hm0, ha0, hm2, ha2⟩ := hmasks k hhi hlo
  rw [bar0Of, bar2Of, BitVec.getLsbD_or, BitVec.getLsbD_or, BitVec.getLsbD_and, BitVec.getLsbD_and, hm0, ha0, hm2, ha2]
  simp

theorem sriov_written {s : State} {p : Fin 8} {b : Bool} {v : Sriov} (hopen : configOpen s (128 * p.val) = true) :
    Completes (.sriovConfigWrite p b v) s fun t => (getPort t p.val).vfEnable = b ∧ (getPort t p.val).numVfs = v.numVfs ∧
      (getPort t p.val).vfBar0.toNat % 2 ^ 17 = 4 ∧ (getPort t p.val).vfBar2.toNat % 2 ^ 20 = 12 ∧
      ∀ k, 20 ≤ k → k < 64 →
        (getPort t p.val).vfBar0.getLsbD k = v.bar0.getLsbD k ∧ (getPort t p.val).vfBar2.getLsbD k = v.bar2.getLsbD k := by
  obtain ⟨x, hx⟩ := getPort_setSriov s (fun x => { x with
    vfEnable := b, numVfs := v.numVfs, vfBar0 := bar0Of v.bar0, vfBar2 := bar2Of v.bar2 }) p.isLt
  refine ⟨_, congrArg Host.Outcome.next (if_pos hopen), ?_⟩
  beta_reduce
  rw [hx]
  exact ⟨rfl, rfl, bar0Of_mod _, bar2Of_mod _, fun k hlo hhi => ⟨(bars_address v.bar0 hlo hhi).1, (bars_address v.bar2 hlo hhi).2⟩⟩

theorem sriov_closed {s : State} {p : Fin 8} {b : Bool} {v : Sriov} (hopen : configOpen s (128 * p.val) = false) :
    exec (.sriovConfigWrite p b v) s = .next s := by
  simp [exec, execSriovConfigWrite, hopen]

/-! ### FLR (R316, R432) -/

theorem flrPort_vf (s : State) {fn : Nat} (hpf : isPf fn = false) : flrPort s fn = s := if_neg (by rw [hpf]; decide)

/-- Outside Held an FLR waits for a dispatch boundary. -/
theorem startFlr_waits {s : State} {fn : Nat} (hopen : configOpen s fn = true) (hflr : (getFn s fn).flr = .none)
    (hheld : s.sys.mode ≠ .held) : startFlr s fn = addChange (flrWrite (flrPort s fn) fn) 1 fn := by
  simp [startFlr, hopen, hflr, hheld]

/-- A function's configuration at the first moment of its FLR. -/
def flrConfig (x : Fn) : Fn :=
  { x with bme := false, mse := false, d3hot := false, msixEnable := false, msixMask := false, flr := .requested, pcie := PcieRegs.reset }

/-- The state in which the FLR of a function is written and waits. -/
def flrPending (s : State) (fn : Nat) : State := addChange (flrWrite s fn) 1 fn

theorem flrPending_only (s : State) (fn : Nat) : Only s (flrPending s fn) [.fns, .eng] :=
  only_union (modFn_only s fn flrConfig) only_of_eng (by decide) (by decide)

theorem getFn_flrPending (s : State) (fn : Nat) : getFn (flrPending s fn) fn = flrConfig (getFn s fn) := getFn_modFn_self s fn flrConfig

theorem startFlr_vf {s : State} {fn : Nat} (hopen : configOpen s fn = true) (hpf : isPf fn = false) (hflr : (getFn s fn).flr = .none)
    (hheld : s.sys.mode ≠ .held) : startFlr s fn = flrPending s fn := by
  rw [startFlr_waits hopen hflr hheld, flrPort_vf s hpf, flrPending]

theorem flr_vf {s : State} {fn : Nat} (hopen : configOpen s fn = true) (hpf : isPf fn = false) (hflr : (getFn s fn).flr = .none)
    (hheld : s.sys.mode ≠ .held) :
    Completes (.flr fn) s fun t => Only s t [.fns, .eng] ∧ (getFn t fn).flr = .requested ∧
      (getFn t fn).bme = false ∧ (getFn t fn).mse = false ∧ (getFn t fn).msixEnable = false ∧ (getFn t fn).pcie = PcieRegs.reset ∧
      t.eng.changes = s.eng.changes ++ [(1, fn, 0)] ∧ ∀ g, g ≠ fn → Map.get? t.fns g = Map.get? s.fns g := by
  refine ⟨_, congrArg Host.Outcome.next (startFlr_vf hopen hpf hflr hheld), ?_⟩
  beta_reduce
  rw [getFn_flrPending]
  exact ⟨flrPending_only s fn, rfl, rfl, rfl, rfl, rfl, rfl, fun g hg => Map.get?_put_ne _ _ hg⟩

/-- Of its port an FLR of a PF clears SR-IOV and 10-Bit Tag Requester Enable. -/
theorem flrPort_pf (s : State) {fn : Nat} (hpf : isPf fn = true) :
    (getPort (flrPort s fn) (portOf fn)).vfEnable = false ∧ (getPort (flrPort s fn) (portOf fn)).numVfs = 0 ∧
      (getPort (flrPort s fn) (portOf fn)).tag10 = false := by
  obtain ⟨x, hx⟩ := getPort_setSriov s (fun x => { x with
    vfEnable := false, numVfs := 0, tag10 := false, vfBar0 := 0x4, vfBar2 := 0xC }) (portOf_lt fn)
  rw [flrPort, if_pos hpf, hx]
  exact ⟨rfl, rfl, rfl⟩

theorem flr_pf {s : State} {fn : Nat} (hopen : configOpen s fn = true) (hpf : isPf fn = true) (hflr : (getFn s fn).flr = .none)
    (hheld : s.sys.mode ≠ .held) :
    ∃ u : State, exec (.flr fn) s = .next (addChange (flrWrite u fn) 1 fn) ∧ (getPort u (portOf fn)).vfEnable = false ∧
      (getPort u (portOf fn)).numVfs = 0 ∧ (getPort u (portOf fn)).tag10 = false :=
  ⟨flrPort s fn, congrArg Host.Outcome.next (startFlr_waits hopen hflr hheld), flrPort_pf s hpf⟩

/-- The function back in D0, before the FLR that this undergoes. -/
def leftD3hot (s : State) (fn : Nat) : State := modFn s fn fun x => { x with d3hot := false }

theorem d3hot_leaves {s : State} {fn : Nat} (hopen : configOpen s fn = true) (hpf : isPf fn = false) (hd3 : (getFn s fn).d3hot = true)
    (hflr : (getFn s fn).flr = .none) (hheld : s.sys.mode ≠ .held) :
    Completes (.d3hotToD0 fn) s fun t => Only s t [.fns, .eng] ∧ (getFn t fn).d3hot = false ∧
      (getFn t fn).flr = .requested ∧ t.eng.changes = s.eng.changes ++ [(1, fn, 0)] := by
  have hflr' : (getFn (leftD3hot s fn) fn).flr = .none := by
    rw [leftD3hot, getFn_modFn_self]
    exact hflr
  have hstart : startFlr (leftD3hot s fn) fn = flrPending (leftD3hot s fn) fn := startFlr_vf hopen hpf hflr' hheld
  refine ⟨_, congrArg Host.Outcome.next ((if_pos hd3).trans hstart), ?_⟩
  beta_reduce
  rw [getFn_flrPending]
  exact ⟨only_union (modFn_only s fn _) (flrPending_only (leftD3hot s fn) fn) (by decide) (by decide), rfl, rfl, rfl⟩

theorem d3hot_entered {s : State} {fn : Nat} (hopen : configOpen s fn = true) :
    Completes (.d0ToD3hot fn) s fun t => Only s t [.fns] ∧ getFn t fn = { getFn s fn with d3hot := true } :=
  ⟨_, congrArg Host.Outcome.next (if_pos hopen), modFn_only s fn _, getFn_modFn_self s fn _⟩

/-! ### The end of a clean-up (R317) -/

theorem Map.of_get?_keep {α : Type} {m : Map α} {p : Nat → α → Bool} {x : Nat} {v : α} (h : Map.get? (Map.keep m p) x = some v) :
    p x v = true :=
  (List.mem_filter.mp (Map.mem_of_get? h)).2

/-- The state at the end of a function's clean-up, before its held writes apply. -/
def cleanedUp (s : State) (fn : Nat) : State := modFn (cleanHoldings s fn s.topo.position) fn fun x => { x with flr := .none }

/-- No berth that was to be freed is left. -/
theorem cleanHoldings_frees {s : State} {fn pos i : Nat} {b : Berth} (h : Map.get? (cleanHoldings s fn pos).keys.berths i = some b) :
    ¬(b.owner = fn ∧ b.ownerPos = pos ∧ b.freeing = true) := by
  unfold cleanHoldings at h
  dsimp only at h
  have hkept := Map.of_get?_keep h
  rintro ⟨rfl, rfl, hfree⟩
  simp [ownedBy, hfree] at hkept

theorem cleanup_ends {s : State} {fn : Nat} (hflr : (getFn s fn).flr = .cleanup) :
    ∃ u : State, exec (.flrCleanupDone fn) s = .next (applyHeld u fn) ∧ (getFn u fn).flr = .none ∧
      (∀ i k, Map.get? u.keys.berths i = some k → ¬(k.owner = fn ∧ k.ownerPos = s.topo.position ∧ k.freeing = true)) ∧
      u.sys = s.sys ∧ u.cmds = s.cmds := by
  have hkeeps := cleanHoldings_keeps s fn s.topo.position
  refine ⟨cleanedUp s fn, congrArg Host.Outcome.next (if_pos hflr), ?_, fun i k => cleanHoldings_frees,
    (congrArg State.sys hkeeps :), (congrArg State.cmds hkeeps :)⟩
  rw [cleanedUp, getFn_modFn_self]

/-! ### Command and the other control registers (R431, R433, Table 156) -/

theorem setTag10_only (s : State) (fn : Nat) (b : Bool) : Only s (setTag10 s fn b) [.ports] := by
  unfold setTag10
  split
  · exact modPort_only _ _ _
  · exact only_refl

theorem setTag10_pf (s : State) {fn : Nat} (b : Bool) (hpf : isPf fn = true) :
    getPort (setTag10 s fn b) (portOf fn) = { getPort s (portOf fn) with tag10 := b } := by
  rw [setTag10, if_pos hpf, getPort_modPort_self _ _ (portOf_lt fn)]

theorem setTag10_vf (s : State) {fn : Nat} (b : Bool) (hpf : isPf fn = false) : setTag10 s fn b = s := if_neg (by rw [hpf]; decide)

theorem getFn_setTag10 (s : State) (fn : Nat) (b : Bool) (x : Nat) : getFn (setTag10 s fn b) x = getFn s x := by
  unfold setTag10
  split <;> rfl

/-- The control registers of a function after a write, and the tags of its port, before what waited for Bus Master Enable goes on. -/
def controlWritten (s : State) (fn : Nat) (x : BitVec 16) (w : PcieWrite) : State :=
  modFn (setTag10 s fn (w.devCtl2.getLsbD 12)) fn fun f =>
    { f with bme := x.getLsbD 2, mse := x.getLsbD 1, pcie := writePcie (vfOf fn == 0) w f.pcie }

theorem control_written {s : State} {fn : Nat} (x : BitVec 16) (w : PcieWrite) (hopen : configOpen s fn = true) :
    ∃ u : State, exec (.busMasterEnableWrite fn x w) s = .next (if x.getLsbD 2 then resumeFn u fn else u) ∧
      Only s u [.fns, .ports] ∧
      getFn u fn = { getFn s fn with bme := x.getLsbD 2, mse := x.getLsbD 1, pcie := writePcie (vfOf fn == 0) w (getFn s fn).pcie } ∧
      (isPf fn = true → getPort u (portOf fn) = { getPort s (portOf fn) with tag10 := w.devCtl2.getLsbD 12 }) ∧
      (isPf fn = false → u.ports = s.ports) := by
  refine ⟨controlWritten s fn x w, congrArg Host.Outcome.next (if_pos hopen),
    only_union (setTag10_only s fn _) (modFn_only _ _ _) (by decide) (by decide), ?_, setTag10_pf s _, fun hpf => ?_⟩
  · rw [controlWritten, getFn_modFn_self, getFn_setTag10]
  · rw [controlWritten, modFn_ports, setTag10_vf s _ hpf]

/-! ### Identification (R427) -/

theorem config_identifies {s : State} {fn : Nat} (h : fnExists s fn = true) :
    configWord s fn 0x00 = some (if vfOf fn = 0 then 0x81281F9C else 0x81291F9C) ∧ configWord s fn 0x08 = some 0x108000A1 ∧
      configWord s fn 0x2C = some 0x00001F9C := by
  have hid : packFields [(0, 0x1F9C), (16, pciDevice fn)] = if vfOf fn = 0 then 0x81281F9C else 0x81291F9C := by
    unfold pciDevice
    split <;> decide
  simp [configWord, h, hid]

end Sys2Proof.Machine

namespace Sys2Proof.Proofs

open Sys2Proof.Machine Sys2Proof.Claims

/-- Settles O18, row by row: the resets of a port at once and under way, its link, SR-IOV, FLR and D3hot, the clean-up's end and the
configuration registers. -/
theorem portAndFunctionResets : Obligations.PortAndFunctionResets := by
  unfold Obligations.PortAndFunctionResets
  intro s p fn b l x v w hmode hiso
  exact ⟨perstN_idle hmode, hotReset_idle hmode, perstN_running hmode, hotReset_running hmode, perstN_released l hiso,
    link_trained l hmode hiso, sriov_written, sriov_closed, flr_vf, flr_pf, d3hot_leaves, d3hot_entered, cleanup_ends,
    control_written x w, config_identifies⟩

end Sys2Proof.Proofs
end
section
/-!
PROOFS. The word a vector instruction decodes from (Table 74, R236, O2): a word is the sum of its fields at their places.
-/

namespace Sys2Proof

/-! ### Words as sums of their fields (Table 74) -/

/-- The bits below `lo + n`: the field at `lo` and the bits below it. -/
theorem mod_eq_wfield_add (w lo n : Nat) : w % 2 ^ (lo + n) = wfield w lo n * 2 ^ lo + w % 2 ^ lo := by
  rw [wfield, pow_add, Nat.mod_mul, Nat.mul_comm, Nat.add_comm]

theorem mod_eq_wfield (w n : Nat) : w % 2 ^ n = wfield w 0 n := by rw [wfield, Nat.pow_zero, Nat.div_one]

theorem wfield_lt (w lo n : Nat) : wfield w lo n < 2 ^ n := Nat.mod_lt _ (by positivity)

theorem boolNat_wfield (w lo : Nat) : boolNat (wfield w lo 1 == 1) = wfield w lo 1 := by
  have h : wfield w lo 1 < 2 := wfield_lt w lo 1
  obtain h0 | h1 : wfield w lo 1 = 0 ∨ wfield w lo 1 = 1 := by omega
  · rw [h0]; rfl
  · rw [h1]; rfl

theorem finField_wfield (w lo : Nat) {m n : Nat} [NeZero m] (hm : m = 2 ^ n) : (finField m (wfield w lo n)).val = wfield w lo n :=
  Nat.mod_eq_of_lt (hm ▸ wfield_lt w lo n)

theorem toNat_wfield (w lo n : Nat) : (BitVec.ofNat n (wfield w lo n)).toNat = wfield w lo n :=
  (BitVec.toNat_ofNat ..).trans (Nat.mod_eq_of_lt (wfield_lt w lo n))

/-- A word is its opcode byte and the 56 bits below it. -/
theorem word_eq_code_add (w : Nat) : w = w / 2 ^ 56 * 2 ^ 56 + w % 2 ^ 56 := (Nat.div_add_mod' w (2 ^ 56)).symm

theorem wordA_fmtAOf {w : Nat} (hres : wfield w 32 2 = 0) : wordA (w / 2 ^ 56) (fmtAOf w) = w := by
  have hsum := word_eq_code_add w
  rw [mod_eq_wfield_add w 55 1, mod_eq_wfield_add w 52 3, mod_eq_wfield_add w 51 1, mod_eq_wfield_add w 49 2,
    mod_eq_wfield_add w 44 5, mod_eq_wfield_add w 39 5, mod_eq_wfield_add w 34 5, mod_eq_wfield_add w 32 2, hres,
    mod_eq_wfield w 32] at hsum
  simp only [wordA, fmtAOf, boolNat_wfield, toNat_wfield, finField_wfield w 52 (m := 8) (n := 3) rfl,
    finField_wfield w 49 (m := 4) (n := 2) rfl, finField_wfield w _ (m := 32) (n := 5) rfl]
  omega

theorem wordM_fmtMOf {w : Nat} (hres : wfield w 23 9 = 0) : wordM (w / 2 ^ 56) (fmtMOf w) = w := by
  have hsum := word_eq_code_add w
  rw [mod_eq_wfield_add w 55 1, mod_eq_wfield_add w 52 3, mod_eq_wfield_add w 51 1, mod_eq_wfield_add w 49 2,
    mod_eq_wfield_add w 44 5, mod_eq_wfield_add w 39 5, mod_eq_wfield_add w 37 2, mod_eq_wfield_add w 36 1,
    mod_eq_wfield_add w 32 4, mod_eq_wfield_add w 23 9, hres, mod_eq_wfield w 23] at hsum
  simp only [wordM, fmtMOf, boolNat_wfield, toNat_wfield, finField_wfield w 52 (m := 8) (n := 3) rfl,
    finField_wfield w _ (m := 4) (n := 2) rfl, finField_wfield w _ (m := 32) (n := 5) rfl, finField_wfield w _ (m := 16) (n := 4) rfl]
  omega

theorem wordS_fmtSOf {w : Nat} (hres : wfield w 32 7 = 0) : wordS (w / 2 ^ 56) (fmtSOf w) = w := by
  have hsum := word_eq_code_add w
  rw [mod_eq_wfield_add w 52 4, mod_eq_wfield_add w 48 4, mod_eq_wfield_add w 44 4, mod_eq_wfield_add w 40 4,
    mod_eq_wfield_add w 39 1, mod_eq_wfield_add w 32 7, hres, mod_eq_wfield w 32] at hsum
  simp only [wordS, fmtSOf, boolNat_wfield, toNat_wfield, finField_wfield w _ (m := 16) (n := 4) rfl]
  omega

/-! ### Words that decode -/

theorem encode_of_word {i : Instr} {x : LveForm} {w : Nat} (hform : lveForm i = some x) (hword : formWord x = w) :
    lveEncode i = some w := by
  rw [lveEncode, hform]
  exact congrArg some hword

theorem encode_of_decA {w code : Nat} {k : FmtA → Instr} {i : Instr} (hform : ∀ f, lveForm (k f) = some (.a code f))
    (hcode : w / 2 ^ 56 = code) (h : decA w k = some i) : lveEncode i = some w := by
  obtain ⟨hres, ⟨⟩⟩ := Option.ite_none_right_eq_some.mp h
  exact encode_of_word (hform _) (hcode ▸ wordA_fmtAOf hres)

theorem encode_of_decM {w code : Nat} {k : FmtM → Instr} {i : Instr} (hform : ∀ f, lveForm (k f) = some (.m code f))
    (hcode : w / 2 ^ 56 = code) (h : decM w k = some i) : lveEncode i = some w := by
  obtain ⟨hres, ⟨⟩⟩ := Option.ite_none_right_eq_some.mp h
  exact encode_of_word (hform _) (hcode ▸ wordM_fmtMOf hres)

theorem encode_of_decS {w code : Nat} {k : FmtS → Instr} {i : Instr} (hform : ∀ f, lveForm (k f) = some (.s code f))
    (hcode : w / 2 ^ 56 = code) (h : decS w k = some i) : lveEncode i = some w := by
  obtain ⟨hres, ⟨⟩⟩ := Option.ite_none_right_eq_some.mp h
  exact encode_of_word (hform _) (hcode ▸ wordS_fmtSOf hres)

/-- Every row of Table 75 is of one of the three formats; an opcode of no row decodes to nothing. -/
theorem encode_of_lveDecode {e : Fin 32} {w : Nat} {i : Instr} (h : lveDecode e w = some i) : lveEncode i = some w := by
  unfold lveDecode at h
  split at h
  all_goals first
    | exact encode_of_decA (fun _ => rfl) (by assumption) h
    | exact encode_of_decM (fun _ => rfl) (by assumption) h
    | exact encode_of_decS (fun _ => rfl) (by assumption) h
    | cases h

end Sys2Proof

namespace Sys2Proof.Proofs

/-- Settles O2: the fields of a word that decodes, with its reserved bits zero, sum up to it. -/
theorem lveEncodeOfDecode : Obligations.LveEncodeOfDecode := by
  unfold Obligations.LveEncodeOfDecode
  exact fun _ _ _ _ h => encode_of_lveDecode h

end Sys2Proof.Proofs
end

section
/-!
PROOFS. What a ready vector instruction brings with it (R236), how it completes or faults, and what its end changes (R196, R227, R399,
O13).
-/

namespace Sys2Proof.Machine

open Sys2Proof.Claims

/-! ### Ready instructions -/

/-- A ready instruction stands on its engine as the model reads it there, with a form that is valid for the command it runs for (R236). -/
theorem lveReady_spec {s : State} {e : Fin 32} {i : Instr} {c : Cmd} {l : Lve} (h : lveReady s e i = some (c, l)) :
    ∃ x, lveForm i = some x ∧ Map.get? s.eng.lves e.val = some l ∧ lveValid x l.masked (lveFrame c) c.body.length = true := by
  unfold lveReady at h
  split at h
  · rename_i l' _ hl
    split at h
    · rename_i c' _
      split at h
      · rename_i g x _ hx
        obtain ⟨hcond, ⟨⟩⟩ := Option.ite_none_right_eq_some.mp h
        simp only [Bool.and_eq_true] at hcond
        exact ⟨x, hx, hl, hcond.2⟩
      · cases h
    · cases h
  · cases h

theorem lves_of_ready {s : State} {e : Fin 32} {i : Instr} {c : Cmd} {l : Lve} (h : lveReady s e i = some (c, l)) :
    Map.get? s.eng.lves e.val = some l := by
  obtain ⟨-, -, hl, -⟩ := lveReady_spec h
  exact hl

theorem lveValid_of_ready {s : State} {e : Fin 32} {i : Instr} {c : Cmd} {l : Lve} {x : LveForm} (h : lveReady s e i = some (c, l))
    (hx : lveForm i = some x) : lveValid x l.masked (lveFrame c) c.body.length = true := by
  obtain ⟨y, hy, -, hvalid⟩ := lveReady_spec h
  exact (Option.some.inj (hx.symm.trans hy)) ▸ hvalid

/-- What R236 asks of the fields of a ready Format A word: VD, VA and VB in their used bits, IMM in its used bits and in its range. -/
theorem fieldsA_of_ready {s : State} {e : Fin 32} {i : Instr} {c : Cmd} {l : Lve} {code : Nat} {f : FmtA} {k : ASpec}
    (h : lveReady s e i = some (c, l)) (hx : lveForm i = some (.a code f)) (hk : aSpec code = some k) :
    f.vd.val < 2 ^ k.vd ∧ f.va.val < 2 ^ k.va ∧ f.vb.val < 2 ^ k.vb ∧ f.imm &&& ~~~k.imm = 0 ∧
      aRange code f (lveFrame c) c.body.length = true := by
  have hvalid : aValid code f l.masked (lveFrame c) c.body.length = true := lveValid_of_ready h hx
  unfold aValid at hvalid
  rw [hk] at hvalid
  simp only [Bool.and_eq_true, decide_eq_true_eq, beq_iff_eq] at hvalid
  obtain ⟨⟨⟨⟨⟨⟨⟨⟨⟨hvd, hva⟩, hvb⟩, -⟩, -⟩, -⟩, -⟩, himm⟩, -⟩, hrange⟩ := hvalid
  exact ⟨hvd, hva, hvb, himm, hrange⟩

/-! ### How an instruction ends -/

/-- An instruction that answers an engine completes. -/
theorem lveCompletes_of_ok {e : Fin 32} {i : Instr} {s : State} {c : Cmd} {l l' : Lve} {k : Cmd → Lve → Nat → LveRes}
    {frame : List Host.Cell} {frees : Nat} {P : Lve → Prop} (hexec : exec i s = .next (lveStep s e i k))
    (h : lveReady s e i = some (c, l)) (hk : k c l s.free = .ok l' frame frees) (hP : P l') : LveCompletes e i s c frame frees P := by
  obtain ⟨x, hx, -, -⟩ := lveReady_spec h
  refine ⟨x, l', hx, ?_, hP⟩
  rw [hexec, lveStep_ready k h hx, hk]

/-- An instruction that answers a fault stops its segment (R238). -/
theorem exec_of_fault {e : Fin 32} {i : Instr} {s : State} {c : Cmd} {l l' : Lve} {k : Cmd → Lve → Nat → LveRes}
    {frame : List Host.Cell} {element addr : Nat} (hexec : exec i s = .next (lveStep s e i k)) (h : lveReady s e i = some (c, l))
    (hk : k c l s.free = .fault element addr l' frame) : exec i s = .next (lveFault s e c l' frame element addr) := by
  obtain ⟨x, hx, -, -⟩ := lveReady_spec h
  rw [hexec, lveStep_ready k h hx, hk]

/-! ### The end of an instruction (R196, R227) -/

theorem lveDone_cmds (s : State) (e : Fin 32) (x : LveForm) (c : Cmd) (l : Lve) (frame : List Host.Cell) (frees : Nat) :
    (lveDone s e x c l frame frees).cmds = (modCmd s c.id fun y => { y with frame := frame, xbar := c.xbar }).cmds := rfl

theorem lveDone_lc (s : State) (e : Fin 32) (x : LveForm) (c : Cmd) (l : Lve) (frame : List Host.Cell) (frees : Nat) :
    (lveDone s e x c l frame frees).lc = { s.lc with units := Map.modify s.lc.units (272 + e.val) (· - 1) } := rfl

theorem getCmd_lveDone_self (s : State) (e : Fin 32) (x : LveForm) (c : Cmd) (l : Lve) (frame : List Host.Cell) (frees : Nat) :
    getCmd (lveDone s e x c l frame frees) c.id = (getCmd s c.id).map fun y => { y with frame := frame, xbar := c.xbar } :=
  (getCmd_congr (lveDone_cmds s e x c l frame frees) c.id).trans (getCmd_modCmd_self s c.id _ fun _ => rfl)

theorem getCmd_lveDone_ne (s : State) (e : Fin 32) (x : LveForm) {c : Cmd} (l : Lve) (frame : List Host.Cell) (frees : Nat) {d : Nat}
    (h : d ≠ c.id) : getCmd (lveDone s e x c l frame frees) d = getCmd s d :=
  (getCmd_congr (lveDone_cmds s e x c l frame frees) d).trans (getCmd_modCmd_ne s _ (fun _ => rfl) h)

/-- A command that is not there is not there afterwards. -/
theorem getCmd_lveDone_none (s : State) (e : Fin 32) (x : LveForm) (c : Cmd) (l : Lve) (frame : List Host.Cell) (frees : Nat) {d : Nat}
    (h : getCmd s d = none) : getCmd (lveDone s e x c l frame frees) d = none := by
  by_cases hd : d = c.id
  · rw [hd] at h ⊢
    rw [getCmd_lveDone_self, h]
    rfl
  · rw [getCmd_lveDone_ne s e x l frame frees hd, h]

end Sys2Proof.Machine

namespace Sys2Proof.Proofs

open Sys2Proof.Machine Sys2Proof.Claims

/-- Settles O13: the engine, the step it takes and the command's frame are all that the end of an instruction writes. -/
theorem instructionFrame : Obligations.InstructionFrame := by
  unfold Obligations.InstructionFrame
  rintro s e x c l' frame frees t rfl
  rw [lveDone_eng, lveDone_lc]
  refine ⟨⟨_, Map.get?_put_self .., rfl, rfl⟩, fun j hj => Map.get?_put_ne _ _ hj, fun d => getCmd_lveDone_none s e x c l' frame frees,
    fun d k hd h => (getCmd_lveDone_ne s e x l' frame frees hd).trans h, fun k h => ?_, lveDone_keeps .., rfl, rfl,
    fun u => Map.get?_modify s.lc.units (272 + e.val) u (· - 1), rfl, Map.get?_put_self s.eng.lastStep ..⟩
  rw [getCmd_lveDone_self, h]
  rfl

end Sys2Proof.Proofs
end

section
/-!
PROOFS. Lane instructions of class Lin and No, with and without a modulus (Table 75, R220, R229, O3, O4): a destination lane by lane, the
arithmetic of its results, and the public vector of the table instructions.
-/

namespace Sys2Proof.Machine

open Sys2Proof.Claims

/-! ### Destinations -/

theorem keepsBut_putV (l : Lve) (i : Nat) (r : VReg) : KeepsBut l (putV l i r) [i] :=
  ⟨putV_keeps l i r, fun _ _ hj => getV_putV_ne l r (by simpa using hj)⟩

theorem keepsBut_putV_putV (l : Lve) (i j : Nat) (r u : VReg) : KeepsBut l (putV (putV l i r) j u) [i, j] := by
  refine ⟨rfl, fun x _ hx => ?_⟩
  obtain ⟨hi, hj⟩ : x ≠ i ∧ x ≠ j := by simpa using hx
  rw [getV_putV_ne _ u hj, getV_putV_ne l r hi]

/-- A destination whose planes up to the share order have a result. -/
theorem laneWrite_upTo (w : Bool) (act : Nat → Bool) (pz : Bool) (d : Nat) (old : VReg) (op : Nat → Nat → Nat) :
    LaneWrite w act pz d old (destReg w act pz old (upTo d 0 (op 0)) (upTo d 1 (op 1)) (upTo d 2 (op 2))) op := by
  intro k e hk he
  refine (laneOf_destReg w act pz old (fun k => upTo d k (op k)) k e hk he).trans ?_
  by_cases h : k ≤ d <;> simp [upTo, h]

theorem laneWrite_linReg (l : Lve) (f : FmtA) (old : VReg) {op r : Nat → Nat → Nat}
    (h : ∀ k e, op k e % 2 ^ ew f.w = r k e % 2 ^ ew f.w) : LaneWrite f.w (guardA l f) f.pz l.d old (linReg l f old op) r := by
  intro k e hk he
  rw [laneOf_linReg l f old op k e hk he, h]

theorem lanesIn_lt (l : Lve) (f : FmtA) (r : Fin 32) (k e : Nat) : lanesIn l f r k e < 2 ^ ew f.w := laneOf_lt ..

/-- An instruction with one vector destination. -/
theorem completes_laneWrite {e vd : Fin 32} {i : Instr} {s : State} {c : Cmd} {l : Lve} {k : Cmd → Lve → Nat → LveRes} {reg : VReg}
    {w pz : Bool} {act : Nat → Bool} {d : Nat} {r : Nat → Nat → Nat} (hexec : exec i s = .next (lveStep s e i k))
    (h : lveReady s e i = some (c, l)) (hk : k c l s.free = .ok (putV l vd.val reg) c.frame 0)
    (hw : LaneWrite w act pz d (getV l vd.val) reg r) :
    LveCompletes e i s c c.frame 0 fun l' => LaneWrite w act pz d (getV l vd.val) (getV l' vd.val) r ∧ KeepsBut l l' [vd.val] :=
  lveCompletes_of_ok hexec h hk ⟨(getV_putV_self l vd.val reg vd.isLt).symm ▸ hw, keepsBut_putV ..⟩

/-- An instruction whose one destination is `op` in every plane up to the share order. -/
theorem completes_linReg {e : Fin 32} {i : Instr} {s : State} {c : Cmd} {l : Lve} {f : FmtA} {k : Cmd → Lve → Nat → LveRes}
    {op r : Nat → Nat → Nat} (hexec : exec i s = .next (lveStep s e i k)) (h : lveReady s e i = some (c, l))
    (hk : k c l s.free = .ok (putV l f.vd.val (linReg l f (getV l f.vd.val) op)) c.frame 0)
    (hop : ∀ k e, op k e % 2 ^ ew f.w = r k e % 2 ^ ew f.w) :
    LveCompletes e i s c c.frame 0 fun l' => LaneWrite f.w (guardA l f) f.pz l.d (getV l f.vd.val) (getV l' f.vd.val) r ∧
      KeepsBut l l' [f.vd.val] :=
  completes_laneWrite hexec h hk (laneWrite_linReg l f _ hop)

/-- An instruction that writes `op` of the lanes of VA and VB. -/
theorem completes_linAB {e : Fin 32} {i : Instr} {s : State} {c : Cmd} {l : Lve} {f : FmtA} {op r : Nat → Nat → Nat}
    (hexec : exec i s = .next (lveStep s e i fun c l _ => linAB c l f op)) (h : lveReady s e i = some (c, l))
    (hop : ∀ a b, b < 2 ^ ew f.w → op a b % 2 ^ ew f.w = r a b % 2 ^ ew f.w) :
    LveCompletes e i s c c.frame 0 fun l' => LinLaw f l l' r :=
  completes_linReg hexec h rfl fun k e => hop _ _ (lanesIn_lt l f f.vb k e)

/-- Lanes of VA where P[PG] has a bit, of VB elsewhere (R220). -/
def selected (l : Lve) (f : FmtA) (k i : Nat) : Nat :=
  if (getP l f.pg.val).getLsbD i then lanesIn l f f.va k i else lanesIn l f f.vb k i

/-! ### Arithmetic of the results -/

/-- Adding the complement of b is subtracting it. -/
theorem add_complement_mod {a b m : Nat} (hb : b ≤ m) : (a + (m - b)) % m = (((a : Int) - b) % m).toNat := by
  have hcast : ((a + (m - b) : Nat) : Int) = a - b + m := by omega
  rw [← Int.toNat_natCast ((a + (m - b)) % m), Int.natCast_mod, hcast, Int.add_emod_right]

theorem wrapped_sub {w : Bool} {a b : Nat} (hb : b < 2 ^ ew w) :
    (a + (2 ^ ew w - b)) % 2 ^ ew w = (((a : Int) - b) % 2 ^ ew w).toNat := by
  rw [add_complement_mod hb.le]
  push_cast
  rfl

theorem roundShift_unsigned (w : Bool) {k : Nat} (a : Nat) (hk : k ≠ 0) :
    roundShift w false k a % 2 ^ ew w = (a + 2 ^ (k - 1)) / 2 ^ k % 2 ^ ew w := by
  rw [roundShift, if_neg hk]
  exact Nat.mod_mod _ _

theorem roundShift_signed (w : Bool) {k : Nat} (a : Nat) (hk : k ≠ 0) :
    roundShift w true k a = (((sx w a + 2 ^ (k - 1)) / 2 ^ k) % 2 ^ ew w).toNat := if_neg hk

end Sys2Proof.Machine

namespace Sys2Proof.Proofs

open Sys2Proof.Machine Sys2Proof.Claims

/-- Settles O3: each instruction writes its operation on its operands' lanes to one destination. -/
theorem laneArithmetic : Obligations.LaneArithmetic := by
  unfold Obligations.LaneArithmetic
  constructor
  · exact fun e f s c l =>
      ⟨fun h => lveCompletes_of_ok rfl h rfl rfl,
       fun h => completes_linAB rfl h fun _ _ _ => rfl,
       fun h => completes_linAB rfl h fun _ _ hb => by rw [wrapped_sub hb],
       fun h => completes_linAB rfl h fun _ _ _ => rfl,
       fun h => completes_linAB rfl h fun _ _ _ => rfl,
       fun h => completes_linAB rfl h fun _ _ _ => rfl,
       fun h => completes_linAB rfl h fun _ _ _ => Nat.mod_mod _ _,
       fun h => completes_linAB rfl h fun _ _ _ => rfl,
       fun h => completes_linAB rfl h fun _ _ _ => rfl⟩
  · exact fun e f s c l =>
      ⟨fun h hunsigned => completes_linAB rfl h fun _ _ _ => by rw [hunsigned]; rfl,
       fun h hsigned => completes_linAB rfl h fun _ _ _ => by rw [hsigned]; rfl,
       fun h hunsigned => completes_linAB rfl h fun _ _ _ => by rw [hunsigned]; rfl,
       fun h hsigned => completes_linAB rfl h fun _ _ _ => by rw [hsigned]; rfl,
       fun h hunsigned hs => completes_linAB rfl h fun _ _ _ => by rw [hunsigned, roundShift_unsigned _ _ hs],
       fun h hsigned hs => completes_linAB rfl h fun _ _ _ => by rw [hsigned, roundShift_signed _ _ hs],
       fun h hs => completes_linAB rfl h fun _ _ _ => by rw [hs]; rfl,
       fun h => completes_linReg rfl h rfl fun _ _ => rfl,
       fun h => completes_laneWrite rfl h rfl (laneWrite_upTo _ _ _ _ _ (selected l f))⟩

end Sys2Proof.Proofs
end

section
/-!
PROOFS. Modular lane instructions (Table 75, R225, R229, R233, O4): the first access that fails, the public vector of the table
instructions, the butterflies.
-/

namespace Sys2Proof.Machine

open Sys2Proof.Claims

/-! ### The first access that fails (R232, R237) -/

theorem elemOk_iff {limit E a : Nat} : elemOk limit E a = true ↔ a % E = 0 ∧ a + E ≤ limit := by simp [elemOk]

theorem firstFault_succ (n : Nat) (act : Nat → Bool) (limit E nf : Nat) (addr : Nat → Nat → Nat) :
    firstFault (n + 1) act limit E nf addr = (firstFault n act limit E nf addr).or
      (if act n && (List.range nf).any (fun f => !elemOk limit E (addr n f)) then some (n, addr n 0) else none) := by
  simp [firstFault, List.range_succ, List.findSome?_append]

theorem any_not_elemOk {limit E nf : Nat} {a : Nat → Nat} :
    (List.range nf).any (fun f => !elemOk limit E (a f)) = true ↔ ∃ k, k < nf ∧ ¬(a k % E = 0 ∧ a k + E ≤ limit) := by
  simp [List.any_eq_true, ← elemOk_iff]

/-- No fault where every access of an active element is aligned and inside its space. -/
theorem firstFault_none {n limit E nf : Nat} {act : Nat → Bool} {addr : Nat → Nat → Nat}
    (h : ∀ e k, e < n → act e = true → k < nf → addr e k % E = 0 ∧ addr e k + E ≤ limit) : firstFault n act limit E nf addr = none := by
  refine List.findSome?_eq_none_iff.mpr fun e he => if_neg ?_
  rw [Bool.and_eq_true, any_not_elemOk]
  rintro ⟨hact, k, hk, hbad⟩
  exact hbad (h e k (List.mem_range.mp he) hact hk)

/-- The fault of the first active element that has an access that fails. -/
theorem firstFault_some {n i limit E nf : Nat} {act : Nat → Bool} {addr : Nat → Nat → Nat} (hi : i < n) (hact : act i = true)
    (hbad : ∃ k, k < nf ∧ ¬(addr i k % E = 0 ∧ addr i k + E ≤ limit))
    (hbelow : ∀ e k, e < i → act e = true → k < nf → addr e k % E = 0 ∧ addr e k + E ≤ limit) :
    firstFault n act limit E nf addr = some (i, addr i 0) := by
  induction n with
  | zero => exact absurd hi (Nat.not_lt_zero i)
  | succ n ih =>
    rw [firstFault_succ]
    obtain hlt | rfl := Nat.lt_succ_iff_lt_or_eq.mp hi
    · rw [ih hlt]
      rfl
    · rw [firstFault_none hbelow, Option.none_or, if_pos]
      rw [Bool.and_eq_true, any_not_elemOk]
      exact ⟨hact, hbad⟩

/-! ### The public vector of the table instructions (R225, R233) -/

theorem publicVec_ok {c : Cmd} {l : Lve} {f : FmtA} (h : TableOk c l f) : publicVec c l f = .ok (tableAt c l f) := by
  have hfirst := firstFault_none (nf := 1)
    (addr := fun e _ => baseAddr l (immAddr f.imm).1 (immAddr f.imm).2.2 + e * elemBytes f.w)
    fun e _ he hact _ => elemOk_iff.mp (h e he hact)
  unfold publicVec
  dsimp only
  rw [hfirst]
  rfl

theorem withTable_ok {c : Cmd} {l : Lve} {f : FmtA} {q : Nat} (rs : List Nat) (k : Nat → (Nat → Nat) → LveRes)
    (hq : modulus l f = some q) (ht : TableOk c l f) : withTable c l f rs k = k q (tableAt c l f) := by
  rw [withTable, hq, publicVec_ok ht]

/-- Without a modulus the table is not read (log 49). -/
theorem withTable_unset (c : Cmd) {l : Lve} {f : FmtA} (rs : List Nat) (k : Nat → (Nat → Nat) → LveRes) (hq : modulus l f = none) :
    withTable c l f rs k = faultV c l 0 0 rs := by
  rw [withTable, hq]

theorem linMod_set (c : Cmd) {l : Lve} {f : FmtA} {q : Nat} (op : Nat → Nat → Nat → Nat) (hq : modulus l f = some q) :
    linMod c l f op = linAB c l f (op q) := by
  rw [linMod, hq]

theorem linMod_unset (c : Cmd) {l : Lve} {f : FmtA} (op : Nat → Nat → Nat → Nat) (hq : modulus l f = none) :
    linMod c l f op = faultV c l 0 0 [f.vd.val] := by
  rw [linMod, hq]

/-! ### Butterflies -/

/-- What a butterfly makes of VD, VA and the twiddle in one lane. -/
def crossed (c : Cmd) (l : Lve) (f : FmtA) (q : Nat) (op : (q a b w : Nat) → Nat × Nat) (k e : Nat) : Nat × Nat :=
  op q (lanesIn l f f.vd k e) (lanesIn l f f.va k e) (tableAt c l f e)

theorem butterfly_apart {c : Cmd} {l : Lve} {f : FmtA} {q : Nat} (base : Nat) (op : (q a b w : Nat) → Nat × Nat)
    (hq : modulus l f = some q) (ht : TableOk c l f) (hne : f.vd ≠ f.va) :
    butterfly c l f base op = .ok (putV (putV l f.vd.val (linReg l f (getV l f.vd.val) fun k e => (crossed c l f q op k e).1)) f.va.val
      (linReg l f (getV l f.va.val) fun k e => (crossed c l f q op k e).2)) c.frame 0 := by
  rw [butterfly, withTable_ok _ _ hq ht]
  exact if_neg hne

theorem butterfly_same {c : Cmd} {l : Lve} {f : FmtA} {q : Nat} (base : Nat) (op : (q a b w : Nat) → Nat × Nat)
    (hq : modulus l f = some q) (ht : TableOk c l f) (heq : f.vd = f.va) :
    butterfly c l f base op = .ok (putV l f.vd.val
      (linReg l f (getV l f.vd.val) fun k e => Config.freeNat (base + 64 * k + e) % q)) c.frame 192 := by
  rw [butterfly, withTable_ok _ _ hq ht]
  exact if_pos heq

variable {e : Fin 32} {i : Instr} {s : State} {c : Cmd} {l : Lve} {f : FmtA} {q : Nat} {op : (q a b w : Nat) → Nat × Nat}

theorem completes_butterfly {r u : Nat → Nat → Nat} (hexec : exec i s = .next (lveStep s e i fun c l base => butterfly c l f base op))
    (h : lveReady s e i = some (c, l)) (hq : modulus l f = some q) (ht : TableOk c l f) (hne : f.vd ≠ f.va)
    (hr : ∀ k e, (crossed c l f q op k e).1 = r k e) (hu : ∀ k e, (crossed c l f q op k e).2 = u k e) :
    LveCompletes e i s c c.frame 0 fun l' => LaneWrite f.w (guardA l f) f.pz l.d (getV l f.vd.val) (getV l' f.vd.val) r ∧
      LaneWrite f.w (guardA l f) f.pz l.d (getV l f.va.val) (getV l' f.va.val) u ∧ KeepsBut l l' [f.vd.val, f.va.val] := by
  refine lveCompletes_of_ok hexec h (butterfly_apart s.free op hq ht hne) ⟨?_, ?_, keepsBut_putV_putV ..⟩
  · rw [getV_putV_ne _ _ fun hv => hne (Fin.ext hv), getV_putV_self l _ _ f.vd.isLt]
    exact laneWrite_linReg l f _ fun k e => congrArg (· % 2 ^ ew f.w) (hr k e)
  · rw [getV_putV_self _ f.va.val _ f.va.isLt]
    exact laneWrite_linReg l f _ fun k e => congrArg (· % 2 ^ ew f.w) (hu k e)

/-- With VD and VA one register a butterfly writes this register (log 27). -/
theorem completes_butterfly_same (hexec : exec i s = .next (lveStep s e i fun c l base => butterfly c l f base op))
    (h : lveReady s e i = some (c, l)) (hq : modulus l f = some q) (ht : TableOk c l f) (heq : f.vd = f.va) :
    LveCompletes e i s c c.frame 192 fun l' => KeepsBut l l' [f.vd.val] :=
  lveCompletes_of_ok hexec h (butterfly_same s.free op hq ht heq) (keepsBut_putV ..)

theorem completes_linMod {op : (q a b : Nat) → Nat} {r : Nat → Nat → Nat}
    (hexec : exec i s = .next (lveStep s e i fun c l _ => linMod c l f op)) (h : lveReady s e i = some (c, l))
    (hq : modulus l f = some q) (hop : ∀ a b, op q a b = r a b) : LveCompletes e i s c c.frame 0 fun l' => LinLaw f l l' r :=
  completes_linReg hexec h (linMod_set c op hq) fun _ _ => congrArg (· % 2 ^ ew f.w) (hop _ _)

/-! ### Residues -/

/-- Adding the complement of a residue of b is subtracting b modulo q. -/
theorem add_residue_complement {a b q : Nat} (hq : 0 < q) : (a + (q - b % q)) % q = (((a : Int) - b) % q).toNat := by
  rw [add_complement_mod (Nat.mod_lt b hq).le, Int.natCast_mod, Int.sub_emod_emod]

theorem mul_residue_complement {t a b q : Nat} (hq : 0 < q) : t * (a + (q - b % q)) % q = ((t * ((a : Int) - b)) % q).toNat := by
  have hle : b % q ≤ q := (Nat.mod_lt b hq).le
  have hcast : ((t * (a + (q - b % q)) : Nat) : Int) = t * (a - (b % q : Int)) + t * q := by
    rw [Nat.cast_mul, Nat.cast_add, Nat.cast_sub hle, Int.natCast_mod]
    ring
  rw [← Int.toNat_natCast (t * (a + (q - b % q)) % q), Int.natCast_mod, hcast, Int.add_mul_emod_self_right, Int.mul_emod,
    Int.sub_emod_emod, ← Int.mul_emod]

end Sys2Proof.Machine

namespace Sys2Proof.Proofs

open Sys2Proof.Machine Sys2Proof.Claims

/-- Settles O4: each instruction reads its modulus, then its public vector, and writes residues. -/
theorem modularLanes : Obligations.ModularLanes := by
  unfold Obligations.ModularLanes
  rintro e f s c l q ⟨hq, hthree, -⟩
  have hpos : 0 < q := by omega
  exact
    ⟨fun h => completes_linMod rfl h hq fun _ _ => rfl,
     fun h => completes_linMod rfl h hq fun _ _ => add_residue_complement hpos,
     fun h ht => completes_linReg rfl h (withTable_ok _ _ hq ht) fun _ _ => rfl,
     fun h ht hne => completes_butterfly rfl h hq ht hne (fun _ _ => rfl) fun _ _ =>
      (add_residue_complement hpos).trans (by push_cast; rfl),
     fun h ht hne => completes_butterfly rfl h hq ht hne (fun _ _ => rfl) fun _ _ => mul_residue_complement hpos,
     fun h ht heq => completes_butterfly_same rfl h hq ht heq,
     fun h ht heq => completes_butterfly_same rfl h hq ht heq⟩

end Sys2Proof.Proofs
end

section
/-!
PROOFS. Masked gadgets (R222, R224, R230, O5): fresh shares unshare to the value they share, whatever the masks, and the Montgomery factor.
-/

namespace Sys2Proof.Machine

open Sys2Proof.Claims

/-! ### Fresh shares (R222, R224) -/

/-- Mask share `j` of fresh shares; planes above the order have none. -/
def maskShare (w : Bool) (d : Nat) (bool : Bool) (q : Nat) (mask : (plane lane : Nat) → Nat) (j e : Nat) : Nat :=
  if j ≤ d then (if bool then mask j e % 2 ^ ew w else mask j e % q) else 0

theorem share_order_zero (w bool : Bool) (q : Nat) (mask : Nat → Nat → Nat) (r : Nat → Nat) (k e : Nat) :
    share w 0 bool q mask r k e = r e := rfl

theorem share_above {w bool : Bool} {d k : Nat} (q : Nat) (mask : Nat → Nat → Nat) (r : Nat → Nat) (e : Nat) (hd : d ≠ 0) (hk : k ≠ 0) :
    share w d bool q mask r k e = maskShare w d bool q mask k e := by
  rw [share, if_neg hd, if_pos (by simpa using hk), maskShare]

theorem share_completes_bool {w : Bool} {d : Nat} (q : Nat) (mask : Nat → Nat → Nat) (r : Nat → Nat) (e : Nat) (hd : d ≠ 0) :
    share w d true q mask r 0 e = r e ^^^ (maskShare w d true q mask 1 e ^^^ maskShare w d true q mask 2 e) := if_neg hd

theorem share_completes_arith {w : Bool} {d : Nat} (q : Nat) (mask : Nat → Nat → Nat) (r : Nat → Nat) (e : Nat) (hd : d ≠ 0) :
    share w d false q mask r 0 e =
      (r e + (q - maskShare w d false q mask 1 e) + (q - maskShare w d false q mask 2 e)) % q := if_neg hd

theorem maskShare_lt {w : Bool} {d q : Nat} (mask : Nat → Nat → Nat) (j e : Nat) (hq : 0 < q) :
    maskShare w d false q mask j e < q := by
  unfold maskShare
  split
  · exact Nat.mod_lt _ hq
  · exact hq

theorem unshared_bool {w : Bool} {d : Nat} (q : Nat) (v : VReg) (e : Nat) (hd : d ≠ 0) :
    unshared w d true q v e =
      laneOf w (v.plane 0) e ^^^ (laneOf w (v.plane 1) e ^^^ if d = 2 then laneOf w (v.plane 2) e else 0) := if_neg hd

theorem unshared_arith {w : Bool} {d : Nat} (q : Nat) (v : VReg) (e : Nat) (hd : d ≠ 0) :
    unshared w d false q v e =
      (laneOf w (v.plane 0) e + laneOf w (v.plane 1) e + if d = 2 then laneOf w (v.plane 2) e else 0) % q := if_neg hd

/-- XOR with the masks twice is the value. -/
theorem xor_masks_cancel (n x a b : Nat) : (x ^^^ (a ^^^ b)) % 2 ^ n ^^^ (a % 2 ^ n ^^^ b % 2 ^ n) = x % 2 ^ n := by
  rw [Nat.xor_mod_two_pow, Nat.xor_mod_two_pow, Nat.xor_assoc, Nat.xor_self, Nat.xor_zero]

/-- The masks added to the share that completes them are the value. -/
theorem add_masks_cancel {q a b : Nat} (x : Nat) (ha : a ≤ q) (hb : b ≤ q) : ((x + (q - a) + (q - b)) % q + a + b) % q = x % q := by
  have hsum : x + (q - a) + (q - b) + (a + b) = x + q + q := by omega
  rw [Nat.add_assoc, Nat.mod_add_mod, hsum, Nat.add_mod_right, Nat.add_mod_right]

/-! ### Destinations of fresh shares -/

/-- A gadget's destination in an active lane of a plane up to the share order. -/
theorem laneOf_gadReg {l : Lve} {f : FmtA} {k e : Nat} (bool : Bool) (q pos : Nat) (old : VReg) (r : Nat → Nat) (hk : k < 3)
    (he : e < laneCount f.w) (hact : guardA l f e = true) (hd : k ≤ l.d) :
    laneOf f.w ((gadReg l f bool q pos old r).plane k) e = share f.w l.d bool q (maskAt l pos) r k e % 2 ^ ew f.w := by
  rw [gadReg, laneOf_linReg l f old _ k e hk he, if_pos hact, if_pos hd]

/-- The lane of plane 2 that unsharing takes: the second mask at order 2, nothing below. -/
theorem laneOf_gadReg_two {l : Lve} {f : FmtA} {e : Nat} (bool : Bool) (q pos : Nat) (old : VReg) (r : Nat → Nat)
    (he : e < laneCount f.w) (hact : guardA l f e = true) (hd : l.d ≤ 2) (h0 : l.d ≠ 0) :
    (if l.d = 2 then laneOf f.w ((gadReg l f bool q pos old r).plane 2) e else 0) =
      maskShare f.w l.d bool q (maskAt l pos) 2 e % 2 ^ ew f.w := by
  split
  · rename_i h2
    rw [laneOf_gadReg bool q pos old r (by decide) he hact h2.ge, share_above q _ r e h0 (by decide)]
  · rw [maskShare, if_neg (by omega), Nat.zero_mod]

theorem unshared_gadReg {l : Lve} {f : FmtA} {bool : Bool} {q e : Nat} (pos : Nat) (old : VReg) (r : Nat → Nat)
    (hd : l.d ≤ 2) (hq : bool = false → 0 < q ∧ q ≤ 2 ^ ew f.w) (he : e < laneCount f.w) (hact : guardA l f e = true) :
    unshared f.w l.d bool q (gadReg l f bool q pos old r) e = if l.d = 0 || bool then r e % 2 ^ ew f.w else r e % q := by
  have hlane := fun k hk => laneOf_gadReg (k := k) bool q pos old r hk he hact
  by_cases h0 : l.d = 0
  · have h := hlane 0 (by decide) (Nat.zero_le _)
    rw [h0, share_order_zero] at h
    rw [unshared, if_pos h0, h0]
    exact h
  · have hx := hlane 0 (by decide) (Nat.zero_le _)
    have hy := (hlane 1 (by decide) (by omega)).trans (congrArg (· % _) (share_above q _ r e h0 (by decide)))
    have hz := laneOf_gadReg_two bool q pos old r he hact hd h0
    cases bool with
    | true =>
      rw [unshared_bool q _ e h0, hx, hy, hz, share_completes_bool q _ r e h0, xor_masks_cancel, Bool.or_true, if_pos rfl]
    | false =>
      obtain ⟨hpos, hle⟩ := hq rfl
      have hmask := fun j => maskShare_lt (w := f.w) (d := l.d) (maskAt l pos) j e hpos
      rw [unshared_arith q _ e h0, hx, hy, hz, share_completes_arith q _ r e h0, Nat.mod_eq_of_lt ((Nat.mod_lt _ hpos).trans_le hle),
        Nat.mod_eq_of_lt ((hmask 1).trans_le hle), Nat.mod_eq_of_lt ((hmask 2).trans_le hle),
        add_masks_cancel _ (hmask 1).le (hmask 2).le, Bool.or_false, decide_eq_false h0]
      rfl

/-- What a gadget writes to a destination, on active and inactive lanes. -/
theorem shareLaw_gadReg {l : Lve} {f : FmtA} {bool : Bool} {q : Nat} (pos : Nat) (old : VReg) (r : Nat → Nat) (hd : l.d ≤ 2)
    (hq : bool = false → 0 < q ∧ q ≤ 2 ^ ew f.w) : ShareLaw f l bool q old (gadReg l f bool q pos old r) r := by
  intro e he
  split
  · rename_i hact
    exact unshared_gadReg pos old r hd hq he hact
  · rename_i hact
    intro k hk
    rw [gadReg, laneOf_linReg l f old _ k e hk he, if_neg hact]

/-! ### Gadgets with one destination -/

theorem modulus_lt {l : Lve} {f : FmtA} {q : Nat} (h : modulus l f = some q) : q < 2 ^ ew f.w := by
  unfold modulus at h
  split at h
  · obtain ⟨hlt, ⟨⟩⟩ := Option.ite_none_right_eq_some.mp h
    exact hlt
  · cases h

theorem gad1_set (c : Cmd) {l : Lve} {f : FmtA} {q : Nat} (inB outB : Bool) (op : Nat → Nat → Nat → Nat) (hq : modulus l f = some q) :
    gad1 c l f inB outB op = .ok (putV (drew l (maskCount l 1)) f.vd.val (gadReg l f outB q 0 (getV l f.vd.val) fun i =>
      op q (unshared f.w l.d inB q (getV l f.va.val) i) (unshared f.w l.d inB q (getV l f.vb.val) i))) c.frame 0 := by
  rw [gad1, hq]

theorem gad1_unset (c : Cmd) {l : Lve} {f : FmtA} (inB outB : Bool) (op : Nat → Nat → Nat → Nat) (hq : modulus l f = none) :
    gad1 c l f inB outB op = faultV c l 0 0 [f.vd.val] := by
  rw [gad1, hq]

theorem shareLaw_congr {f : FmtA} {l : Lve} {bool : Bool} {q : Nat} {old new : VReg} {r u : Nat → Nat} (h : ShareLaw f l bool q old new r)
    (hr : ∀ e, r e = u e) : ShareLaw f l bool q old new u := funext hr ▸ h

section
variable {e : Fin 32} {i : Instr} {s : State} {c : Cmd} {l : Lve} {f : FmtA}

theorem completes_fresh {k : Cmd → Lve → Nat → LveRes} {outB : Bool} {q : Nat} {r u : Nat → Nat}
    (hexec : exec i s = .next (lveStep s e i k)) (h : lveReady s e i = some (c, l))
    (hk : k c l s.free = .ok (putV (drew l (maskCount l 1)) f.vd.val (gadReg l f outB q 0 (getV l f.vd.val) r)) c.frame 0)
    (hd : l.d ≤ 2) (hq : outB = false → 0 < q ∧ q ≤ 2 ^ ew f.w) (hr : ∀ j, r j = u j) :
    LveCompletes e i s c c.frame 0 fun l' => KeepsBut (drew l (maskCount l 1)) l' [f.vd.val] ∧
      ShareLaw f l outB q (getV l f.vd.val) (getV l' f.vd.val) u := by
  refine lveCompletes_of_ok hexec h hk ⟨keepsBut_putV .., ?_⟩
  rw [getV_putV_self _ f.vd.val _ f.vd.isLt]
  exact shareLaw_congr (shareLaw_gadReg 0 _ r hd hq) hr

theorem completes_gad1 {inB outB : Bool} {op : (q a b : Nat) → Nat} {q : Nat} {u : Nat → Nat}
    (hexec : exec i s = .next (lveStep s e i fun c l _ => gad1 c l f inB outB op)) (h : lveReady s e i = some (c, l)) (hd : l.d ≤ 2)
    (hq : ModulusIs l f q)
    (hop : ∀ j, op q (unshared f.w l.d inB q (getV l f.va.val) j) (unshared f.w l.d inB q (getV l f.vb.val) j) = u j) :
    LveCompletes e i s c c.frame 0 fun l' => KeepsBut (drew l (maskCount l 1)) l' [f.vd.val] ∧
      ShareLaw f l outB q (getV l f.vd.val) (getV l' f.vd.val) u := by
  obtain ⟨hset, hthree, -⟩ := hq
  exact completes_fresh hexec h (gad1_set c inB outB op hset) hd (fun _ => ⟨by omega, (modulus_lt hset).le⟩) hop

theorem lveCompletes_mono {frame : List Host.Cell} {masks : Nat} {P Q : Lve → Prop} (h : LveCompletes e i s c frame masks P)
    (himp : ∀ l', P l' → Q l') : LveCompletes e i s c frame masks Q := by
  obtain ⟨x, l', hx, hexec, hP⟩ := h
  exact ⟨x, l', hx, hexec, himp l' hP⟩

end

/-! ### The operations -/

theorem bits_low (v n : Nat) : bits v 0 n = v % 2 ^ n := by rw [bits, Nat.pow_zero, Nat.div_one]

/-- The five low bits: a shift count or a number of bits of Table 75. -/
theorem bits_five (v : Nat) : bits v 0 5 = v % 32 := bits_low v 5

/-- Halving modulo an odd number and doubling again gives the residue back. -/
theorem halves_mul_two_pow {q : Nat} (hodd : q % 2 = 1) (n x : Nat) : halves q n x * 2 ^ n % q = x % q := by
  induction n generalizing x with
  | zero => rw [halves, Nat.pow_zero, Nat.mul_one]
  | succ n ih =>
    have hhalf : (if x % 2 = 0 then x / 2 else (x + q) / 2) * 2 % q = x % q := by
      split
      · rw [show x / 2 * 2 = x by omega]
      · rw [show (x + q) / 2 * 2 = x + q by omega, Nat.add_mod_right]
    rw [halves, Nat.pow_succ, ← Nat.mul_assoc, Nat.mul_mod, ih, ← Nat.mul_mod, hhalf]

/-- The Montgomery product times 2^EW is the product (R221). -/
theorem montMul_mul_two_pow {q : Nat} (w : Bool) (a b : Nat) (hodd : q % 2 = 1) : montMul w q a b * 2 ^ ew w % q = a * b % q := by
  rw [montMul, Nat.mod_mul_mod, Nat.mul_assoc, Nat.mul_mod, halves_mul_two_pow hodd, Nat.mod_mod, Nat.mod_mod, ← Nat.mul_mod, Nat.mul_one]

theorem montMul_lt {q : Nat} (w : Bool) (a b : Nat) (hq : 0 < q) : montMul w q a b < q := Nat.mod_lt _ hq

end Sys2Proof.Machine

namespace Sys2Proof.Proofs

open Sys2Proof.Machine Sys2Proof.Claims

/-- Settles O5: fresh shares unshare to what the gadget makes of its unshared operands. -/
theorem gadgetsUnshare : Obligations.GadgetsUnshare := by
  unfold Obligations.GadgetsUnshare
  constructor
  · intro e f s c l q hd hq
    have ⟨hset, hthree, hodd⟩ := hq
    refine ⟨fun h => completes_gad1 rfl h hd hq fun _ => rfl, fun h => ?_, fun h => completes_gad1 rfl h hd hq fun j => ?_,
      fun h => completes_gad1 rfl h hd hq fun j => ?_, fun h => completes_gad1 rfl h hd hq fun _ => rfl,
      fun h => completes_gad1 rfl h hd hq fun _ => rfl, fun h himm => ?_⟩
    · refine lveCompletes_mono (completes_gad1 rfl h hd hq fun _ => rfl) fun l' ⟨hkeeps, hshares⟩ =>
        ⟨hkeeps, _, hshares, fun j => ⟨?_, ?_⟩⟩
      · exact montMul_lt _ _ _ (by omega)
      · exact montMul_mul_two_pow _ _ _ hodd
    · rw [compress, bits_five]
    · rw [decompress, bits_five]
    · exact completes_fresh rfl h ((if_neg (by rw [himm]; decide)).trans (gad1_set c false false _ hset)) hd
        (fun _ => ⟨by omega, (modulus_lt hset).le⟩) fun _ => rfl
  · intro e f s c l hd himm h
    exact completes_fresh rfl h (if_pos himm) hd nofun fun _ => rfl

end Sys2Proof.Proofs
end

section
/-!
PROOFS. VP2R and VDEC (R229, R236, R237, O6): the parts of a residue, and the two destinations that hold their fresh shares.
-/

namespace Sys2Proof.Machine

open Sys2Proof.Claims

/-! ### Parts of a residue -/

/-- x mod± α lies in its range and differs from x by a multiple of α. -/
theorem centred_spec (x : Nat) {α : Nat} (hα : 0 < α) : Centred x α (centred x α) := by
  have hlt := Nat.mod_lt x hα
  have hcast : ((x % α : Nat) : Int) = (x : Int) % α := Int.natCast_mod x α
  have hself : ((x : Int) - x % α) % α = 0 := Int.emod_eq_emod_iff_emod_sub_eq_zero.mp (Int.emod_emod_of_dvd _ dvd_rfl).symm
  unfold centred
  split
  · refine ⟨by omega, by omega, ?_⟩
    rw [← sub_add, hcast, Int.add_emod_right]
    exact hself
  · refine ⟨by omega, by omega, ?_⟩
    rw [hcast]
    exact hself

theorem centred_le (x α : Nat) : centred x α ≤ x := by
  have hle := Nat.mod_le x α
  unfold centred
  split <;> omega

theorem cast_toNat_emod {q : Nat} (x : Int) (hq : 0 < q) : ((x % q).toNat : Int) = x % q :=
  Int.toNat_of_nonneg (Int.emod_nonneg x (by omega))

/-- The high part of a residue is no less than zero, so nothing is lost of it. -/
theorem cast_toNat_high (x α : Nat) (β : Nat) : ((((x : Int) - centred x α) / β).toNat : Int) = ((x : Int) - centred x α) / β :=
  Int.toNat_of_nonneg (Int.ediv_nonneg (sub_nonneg.mpr (centred_le x α)) (Int.natCast_nonneg β))

theorem power2Round_spec (D a : Nat) {q : Nat} (hq : 0 < q) :
    ((power2Round D q a).2 : Int) = centred (a % q) (2 ^ D) % q ∧
      ((power2Round D q a).1 : Int) = (((a % q : Nat) : Int) - centred (a % q) (2 ^ D)) / 2 ^ D := by
  refine ⟨cast_toNat_emod _ hq, ?_⟩
  have h := cast_toNat_high (a % q) (2 ^ D) (2 ^ D)
  rw [Nat.cast_pow] at h
  exact h

theorem decompose_spec (g2 a : Nat) {q : Nat} (hq : 0 < q) :
    if ((a % q : Nat) : Int) - centred (a % q) (2 * g2) = q - 1 then
      (decompose g2 q a).1 = 0 ∧ ((decompose g2 q a).2 : Int) = (centred (a % q) (2 * g2) - 1) % q
    else ((decompose g2 q a).2 : Int) = centred (a % q) (2 * g2) % q ∧
      ((decompose g2 q a).1 : Int) = (((a % q : Nat) : Int) - centred (a % q) (2 * g2)) / (2 * (g2 : Nat)) := by
  unfold decompose
  dsimp only
  split
  · exact ⟨rfl, cast_toNat_emod _ hq⟩
  · have h := cast_toNat_high (a % q) (2 * g2) (2 * g2)
    rw [Nat.cast_mul] at h
    exact ⟨cast_toNat_emod _ hq, h⟩

/-! ### Two destinations -/

theorem gad2_set (c : Cmd) {l : Lve} {f : FmtA} {q : Nat} {bad : Nat → Bool} (op : Nat → Nat → Nat × Nat) (hq : modulus l f = some q)
    (hbad : bad q = false) :
    gad2 c l f bad op = .ok (putV (putV (drew l (maskCount l 2)) f.vd.val
      (gadReg l f false q 0 (getV l f.vd.val) fun i => (op q (unshared f.w l.d false q (getV l f.va.val) i)).1)) (f.vd.val + 1)
      (gadReg l f false q 192 (getV l (f.vd.val + 1)) fun i => (op q (unshared f.w l.d false q (getV l f.va.val) i)).2)) c.frame 0 := by
  rw [gad2, hq, Option.filter_some, hbad]
  rfl

/-- Without a modulus, or with one that the instruction does not take, the destinations are left zero (R237). -/
theorem gad2_unset (c : Cmd) {l : Lve} {f : FmtA} {bad : Nat → Bool} (op : Nat → Nat → Nat × Nat)
    (h : ∀ q, modulus l f = some q → bad q = true) : gad2 c l f bad op = faultV c l 0 0 [f.vd.val, f.vd.val + 1] := by
  have hnone : ((modulus l f).filter fun q => !bad q) = none := by
    rw [Option.filter_eq_none_iff]
    intro q hq
    rw [h q hq]
    decide
  rw [gad2, hnone]

theorem completes_gad2 {e : Fin 32} {i : Instr} {s : State} {c : Cmd} {l : Lve} {f : FmtA} {q : Nat} {bad : Nat → Bool}
    {op : (q a : Nat) → Nat × Nat} (hexec : exec i s = .next (lveStep s e i fun c l _ => gad2 c l f bad op))
    (h : lveReady s e i = some (c, l)) (hd : l.d ≤ 2) (hq : ModulusIs l f q) (hbad : bad q = false) (hvd : f.vd.val ≤ 30) :
    LveCompletes e i s c c.frame 0 fun l' => PartsLaw f l l' q
      (fun j => (op q (unshared f.w l.d false q (getV l f.va.val) j)).1)
      (fun j => (op q (unshared f.w l.d false q (getV l f.va.val) j)).2) := by
  obtain ⟨hset, hthree, -⟩ := hq
  have hbound : false = false → 0 < q ∧ q ≤ 2 ^ ew f.w := fun _ => ⟨by omega, (modulus_lt hset).le⟩
  refine lveCompletes_of_ok hexec h (gad2_set c op hset hbad) ⟨keepsBut_putV_putV .., ?_, ?_⟩
  · rw [getV_putV_ne (j := f.vd.val) _ _ (Nat.ne_add_one _), getV_putV_self _ f.vd.val _ f.vd.isLt]
    exact shareLaw_gadReg 0 _ _ hd hbound
  · rw [getV_putV_self _ (f.vd.val + 1) _ (by omega)]
    exact shareLaw_gadReg 192 _ _ hd hbound

/-- VD + 1 is a register (R236). -/
theorem vd_le_of_parts {e : Fin 32} {i : Instr} {s : State} {c : Cmd} {l : Lve} {code : Nat} {f : FmtA}
    (h : lveReady s e i = some (c, l)) (hx : lveForm i = some (.a code f)) (hcode : code = 0x1E ∨ code = 0x1F) : f.vd.val ≤ 30 := by
  obtain rfl | rfl := hcode
  all_goals
    obtain ⟨-, -, -, -, hrange⟩ := fieldsA_of_ready h hx rfl
    simp only [aRange, Bool.and_eq_true, decide_eq_true_eq] at hrange
    exact hrange.2

end Sys2Proof.Machine

namespace Sys2Proof.Proofs

open Sys2Proof.Machine Sys2Proof.Claims

/-- Settles O6: the parts are those of the model's own Power2Round and Decompose, held by fresh shares. -/
theorem decompositionPairs : Obligations.DecompositionPairs := by
  unfold Obligations.DecompositionPairs
  intro e f s c l q hd hq
  have ⟨hset, hthree, _⟩ := hq
  have hpos : 0 < q := by omega
  refine ⟨fun h => ⟨_, _, fun i => centred (unshared f.w l.d false q (getV l f.va.val) i % q) (2 ^ (f.imm.toNat % 32)),
      completes_gad2 rfl h hd hq rfl (vd_le_of_parts h rfl (.inl rfl)), fun i => ?_⟩,
    fun h hg hlt => ⟨_, _, fun i => centred (unshared f.w l.d false q (getV l f.va.val) i % q) (2 * (f.imm.toNat % 2 ^ 24)),
      completes_gad2 rfl h hd hq ?_ (vd_le_of_parts h rfl (.inr rfl)), fun i => ?_⟩,
    fun h hle => exec_of_fault rfl h (gad2_unset c _ fun p hp => ?_)⟩
  · have hcentred := centred_spec (unshared f.w l.d false q (getV l f.va.val) i % q) (Nat.two_pow_pos (f.imm.toNat % 32))
    rw [Nat.cast_pow] at hcentred
    rw [bits_five]
    exact ⟨hcentred, power2Round_spec _ _ hpos⟩
  · rw [bits_low]
    exact decide_eq_false (by omega)
  · have hcentred := centred_spec (unshared f.w l.d false q (getV l f.va.val) i % q) (α := 2 * (f.imm.toNat % 2 ^ 24)) (by omega)
    rw [Nat.cast_mul] at hcentred
    rw [bits_low]
    exact ⟨hcentred, decompose_spec _ _ hpos⟩
  · rw [bits_low, Option.some.inj (hp.symm.trans hset)]
    exact decide_eq_true hle

end Sys2Proof.Proofs
end

section
/-!
PROOFS. Public lanes, predicates and scalar destinations (Table 75, R217, R219, R223, R226, R236; O7, O8).
-/

namespace Sys2Proof.Machine

open Sys2Proof.Claims

/-! ### Fields of IMM -/

/-- IMM within the used low bits of its row is below their power of two (R236). -/
theorem toNat_lt_of_used {x : Word} (n : Nat) (h : x &&& ~~~(BitVec.ofNat 32 (2 ^ n - 1)) = 0) : x.toNat < 2 ^ n := by
  refine Nat.lt_pow_two_of_testBit _ fun i hi => ?_
  by_cases hlt : i < 32
  · have hmask : (BitVec.ofNat 32 (2 ^ n - 1)).getLsbD i = false := by
      rw [BitVec.getLsbD_ofNat, Nat.testBit_two_pow_sub_one, decide_eq_false (not_lt.mpr hi), Bool.and_false]
    have hbit : (x &&& ~~~(BitVec.ofNat 32 (2 ^ n - 1))).getLsbD i = false := h ▸ BitVec.getLsbD_zero
    rw [BitVec.getLsbD_and, BitVec.getLsbD_not, hmask, decide_eq_true hlt, Bool.not_false, Bool.and_true, Bool.and_true] at hbit
    exact hbit
  · exact Nat.testBit_lt_two_pow (x.isLt.trans_le (Nat.pow_le_pow_right (by decide) (by omega)))

theorem bits_low_of_lt {v n : Nat} (h : v < 2 ^ n) : bits v 0 n = v := (bits_low v n).trans (Nat.mod_eq_of_lt h)

theorem ew_le (w : Bool) : ew w ≤ 24 := by cases w <;> decide

/-- A lane takes the low bits of a 24-bit field. -/
theorem bits_mod_ew (v : Nat) (w : Bool) : bits v 0 24 % 2 ^ ew w = v % 2 ^ ew w := by
  rw [bits_low, Nat.mod_mod_of_dvd _ (pow_dvd_pow 2 (ew_le w))]

theorem laneCount_le (w : Bool) : laneCount w ≤ 64 := by cases w <;> decide

/-! ### Public lanes (R223) -/

theorem laneWrite_congr {w pz : Bool} {act : Nat → Bool} {d : Nat} {old new : VReg} {r u : Nat → Nat → Nat}
    (h : LaneWrite w act pz d old new r) (hr : ∀ k e, r k e % 2 ^ ew w = u k e % 2 ^ ew w) : LaneWrite w act pz d old new u := by
  intro k e hk he
  rw [h k e hk he, hr]

/-- A public value in plane 0, zero above. -/
def inPlaneZero (r : Nat → Nat) (k e : Nat) : Nat := if k = 0 then r e else 0

theorem completes_pubV {e : Fin 32} {i : Instr} {s : State} {c : Cmd} {l : Lve} {f : FmtA} {k : Cmd → Lve → Nat → LveRes}
    {r u : Nat → Nat} (hexec : exec i s = .next (lveStep s e i k)) (h : lveReady s e i = some (c, l))
    (hk : k c l s.free = pubV c l f r) (hr : ∀ j, r j % 2 ^ ew f.w = u j % 2 ^ ew f.w) :
    LveCompletes e i s c c.frame 0 fun l' => PublicLaw f l l' u := by
  refine completes_laneWrite hexec h hk (laneWrite_congr (laneWrite_upTo _ _ _ 2 _ (inPlaneZero r)) fun k j => ?_)
  unfold inPlaneZero
  split
  · exact hr j
  · rfl

/-! ### Scalars -/

theorem scalarLaw_putS (l : Lve) {d : Nat} (v : Word) (hd : d < 16) : ScalarLaw l (putS l d v) d v :=
  ⟨getS_putS_self l d v hd, putS_keeps l d v, fun _ _ hj => getS_putS_ne l v hj⟩

theorem completes_putS {e : Fin 32} {i : Instr} {s : State} {c : Cmd} {l : Lve} {k : Cmd → Lve → Nat → LveRes} {d : Nat} {v : Word}
    (hexec : exec i s = .next (lveStep s e i k)) (h : lveReady s e i = some (c, l)) (hk : k c l s.free = .ok (putS l d v) c.frame 0)
    (hd : d < 16) : LveCompletes e i s c c.frame 0 fun l' => ScalarLaw l l' d v :=
  lveCompletes_of_ok hexec h hk (scalarLaw_putS l v hd)

/-! ### Predicates (R217, R219, R226) -/

theorem getLsbD_getP_putP (l : Lve) {i : Nat} (v : DWord) {b : Nat} (hi : i < 8) (hb : b < 64) :
    (getP (putP l i v) i).getLsbD b = if i = 0 then true else v.getLsbD b := by
  split
  · rename_i h0
    rw [h0, putP_zero, getP_zero, BitVec.getLsbD_allOnes]
    exact decide_eq_true hb
  · rename_i h0
    rw [getP_putP_self l i v h0 hi]

/-- A predicate destination, written with a value bit by bit. -/
theorem completes_putP {e : Fin 32} {i : Instr} {s : State} {c : Cmd} {l : Lve} {k : Cmd → Lve → Nat → LveRes} {d : Nat} {v : DWord}
    {bit : Nat → Bool} (hexec : exec i s = .next (lveStep s e i k)) (h : lveReady s e i = some (c, l))
    (hk : k c l s.free = .ok (putP l d v) c.frame 0) (hd : d < 8) (hbit : ∀ b, b < 64 → v.getLsbD b = bit b) :
    LveCompletes e i s c c.frame 0 fun l' => { l' with p := l.p } = l ∧ (∀ j, j < 8 → j ≠ d → getP l' j = getP l j) ∧
      ∀ b, b < 64 → (getP l' d).getLsbD b = if d = 0 then true else bit b :=
  lveCompletes_of_ok hexec h hk ⟨putP_keeps l d v, fun _ _ hj => getP_putP_ne l v hj,
    fun b hb => (getLsbD_getP_putP l v hd hb).trans (by rw [hbit b hb])⟩

/-- A comparison's predicate (R226). -/
theorem completes_pubP {e : Fin 32} {i : Instr} {s : State} {c : Cmd} {l : Lve} {f : FmtA} {k : Cmd → Lve → Nat → LveRes}
    {b u : Nat → Bool} (hexec : exec i s = .next (lveStep s e i k)) (h : lveReady s e i = some (c, l))
    (hk : k c l s.free = pubP c l f b) (hb : ∀ j, b j = u j) : LveCompletes e i s c c.frame 0 fun l' => PredicateLaw f l l' u := by
  obtain rfl : b = u := funext hb
  refine lveCompletes_mono (completes_putP hexec h hk (Nat.mod_lt _ (by decide)) fun j hj => getLsbD_predOf f.w _ j hj) ?_
  exact fun l' ⟨hkeeps, hothers, hbits⟩ => ⟨hbits, hkeeps, hothers⟩

theorem bits_high_of_word (x : Word) : bits x.toNat 8 24 = x.toNat / 256 :=
  Nat.mod_eq_of_lt ((Nat.div_lt_iff_lt_mul (by decide)).mpr (by have := x.isLt; omega))

/-- W = 1 keeps the low 32 bits (R219). -/
theorem getLsbD_lowHalf (w : Bool) (r : DWord) {b : Nat} (hb : b < 64) :
    (if w then r &&& 0xFFFFFFFF else r).getLsbD b = (decide (b < laneCount w) && r.getLsbD b) := by
  have hmask : (0xFFFFFFFF : DWord) = BitVec.ofNat 64 (2 ^ 32 - 1) := rfl
  cases w with
  | false => rw [laneCount, if_neg (by decide), if_neg (by decide), decide_eq_true hb, Bool.true_and]
  | true =>
    rw [laneCount, if_pos rfl, if_pos rfl, BitVec.getLsbD_and, hmask, BitVec.getLsbD_ofNat, Nat.testBit_two_pow_sub_one,
      decide_eq_true hb, Bool.true_and, Bool.and_comm]

theorem getLsbD_ones (n : Nat) {b : Nat} (hb : b < 64) : (BitVec.ofNat 64 (2 ^ n - 1)).getLsbD b = decide (b < n) := by
  rw [BitVec.getLsbD_ofNat, Nat.testBit_two_pow_sub_one, decide_eq_true hb, Bool.true_and]

end Sys2Proof.Machine

namespace Sys2Proof.Proofs

open Sys2Proof.Machine Sys2Proof.Claims

/-- Settles O7: each value is public, in plane 0. -/
theorem publicLanes : Obligations.PublicLanes := by
  unfold Obligations.PublicLanes
  refine fun e f s c l =>
    ⟨fun h => completes_pubV rfl h rfl fun _ => bits_mod_ew ..,
     fun h => completes_pubV rfl h rfl fun j => ?_,
     fun h => completes_pubV rfl h rfl fun j => ?_,
     fun h himm => completes_pubV rfl h (if_pos himm) fun _ => rfl,
     fun q hq h himm => completes_pubV rfl h ((if_neg (by rw [himm]; decide)).trans (by rw [hq])) fun _ => rfl,
     fun h => ?_⟩
  · rw [Nat.mod_mod, Nat.add_mod, bits_mod_ew, ← Nat.add_mod]
  · obtain ⟨-, hva, -⟩ := fieldsA_of_ready h rfl rfl
    rw [Nat.mod_mod, Nat.mod_eq_of_lt (show f.va.val < 16 from hva)]
  · obtain ⟨hvd, -, -, -, hrange⟩ := fieldsA_of_ready h rfl rfl
    have hd : f.vd.val < 16 := hvd
    have hlane : f.imm.toNat < laneCount f.w := of_decide_eq_true hrange
    refine completes_putS rfl h ?_ hd
    rw [Nat.mod_eq_of_lt hd, bits_low_of_lt (n := 6) (hlane.trans_le (laneCount_le f.w))]
    rfl

/-- Settles O8: a predicate destination reads back bit by bit, and P0 as ones. -/
theorem predicateInstructions : Obligations.PredicateInstructions := by
  unfold Obligations.PredicateInstructions
  refine fun e f s c l =>
    ⟨fun h => completes_pubP rfl h rfl fun j => ?_,
     fun h => completes_pubP rfl h rfl fun j => ?_,
     fun q hq h => completes_pubP rfl h (by rw [hq]) fun j => ?_,
     fun h => ?_,
     fun h => ?_,
     fun h => ?_⟩
  · obtain ⟨-, -, -, -, hrange⟩ := fieldsA_of_ready h rfl rfl
    have himm : f.imm.toNat < 6 := of_decide_eq_true hrange
    rw [bits_low_of_lt (n := 3) (himm.trans (by decide))]
    generalize f.imm.toNat = n
    rcases n with _ | _ | _ | _ | _ | n
    all_goals simp [condHolds, beq_eq_decide, bne]
  · rw [bits_low, bits_high_of_word]
    rfl
  · obtain ⟨-, -, -, himm, -⟩ := fieldsA_of_ready h rfl rfl
    rw [bits_low_of_lt (toNat_lt_of_used 24 himm)]
  · obtain ⟨hvd, hva, hvb, himm, -⟩ := fieldsA_of_ready h rfl rfl
    have hn : bits f.imm.toNat 0 2 = f.imm.toNat := bits_low_of_lt (toNat_lt_of_used 2 himm)
    have hdone := completes_putP rfl h rfl (Nat.mod_lt f.vd.val (by decide)) fun b hb => getLsbD_lowHalf f.w _ hb
    rw [Nat.mod_eq_of_lt (show f.vd.val < 8 from hvd), Nat.mod_eq_of_lt (show f.va.val < 8 from hva),
      Nat.mod_eq_of_lt (show f.vb.val < 8 from hvb), hn] at hdone
    refine lveCompletes_mono hdone fun l' ⟨hkeeps, hothers, hbits⟩ => ⟨hkeeps, hothers, fun b hb => (hbits b hb).trans ?_⟩
    generalize f.imm.toNat = n
    rcases n with _ | _ | _ | n
    all_goals simp [hb]
  · obtain ⟨hvd, -, -, -, hrange⟩ := fieldsA_of_ready h rfl rfl
    have hn : f.imm.toNat ≤ laneCount f.w := of_decide_eq_true hrange
    have hdone := completes_putP rfl h rfl (Nat.mod_lt f.vd.val (by decide)) fun b hb => getLsbD_ones (bits f.imm.toNat 0 7) hb
    rw [Nat.mod_eq_of_lt (show f.vd.val < 8 from hvd),
      bits_low_of_lt ((hn.trans (laneCount_le f.w)).trans_lt (by decide : 64 < 2 ^ 7))] at hdone
    exact hdone
  · obtain ⟨hvd, hva, -, -, -⟩ := fieldsA_of_ready h rfl rfl
    have hdone := completes_putS rfl h rfl (Nat.mod_lt f.vd.val (by decide : 16 > 0))
    rw [Nat.mod_eq_of_lt (show f.vd.val < 16 from hvd), Nat.mod_eq_of_lt (show f.va.val < 8 from hva),
      ← List.countP_eq_length_filter] at hdone
    exact hdone

end Sys2Proof.Proofs
end

section
/-!
PROOFS. Modulus registers and scalar instructions (R221, R237, R238; O9), and the modular instructions whose modulus is not set (O12).
-/

namespace Sys2Proof.Machine

open Sys2Proof.Claims

/-! ### Inverses modulo a power of two (R221) -/

theorem invPow2_lt (n q k x : Nat) : invPow2 n q k x < 2 ^ n := by
  induction k generalizing x with
  | zero => exact Nat.mod_lt _ (Nat.two_pow_pos n)
  | succ k ih => exact ih _

/-- The complement of a residue is its negative. -/
theorem complement_modEq (n a : Nat) : ((2 ^ n - a % 2 ^ n : Nat) : Int) ≡ -a [ZMOD 2 ^ n] := by
  have hle : a % 2 ^ n ≤ 2 ^ n := (Nat.mod_lt _ (Nat.two_pow_pos n)).le
  rw [Nat.cast_sub hle, Int.natCast_mod, Nat.cast_pow, ← zero_sub (a : Int)]
  exact (Int.modEq_zero_iff_dvd.mpr dvd_rfl).sub (Int.mod_modEq a _)

/-- A Newton step modulo 2^n. -/
theorem newton_modEq (n q x : Nat) : ((x * (2 + (2 ^ n - q * x % 2 ^ n)) % 2 ^ n : Nat) : Int) ≡ x * (2 + -(q * x)) [ZMOD 2 ^ n] := by
  have hcomplement := complement_modEq n (q * x)
  rw [Nat.cast_mul] at hcomplement
  rw [Int.natCast_mod, Nat.cast_mul, Nat.cast_add, Nat.cast_pow]
  exact (Int.mod_modEq _ _).trans ((hcomplement.add_left 2).mul_left x)

/-- A Newton step squares the error, so it doubles the bits that are right. -/
theorem newton_step {n m p : Nat} (q x : Nat) (hpn : p ≤ n) (hpm : p ≤ 2 * m) (h : (q : Int) * x ≡ 1 [ZMOD 2 ^ m]) :
    (q : Int) * (x * (2 + (2 ^ n - q * x % 2 ^ n)) % 2 ^ n : Nat) ≡ 1 [ZMOD 2 ^ p] := by
  have herror : (2 : Int) ^ p ∣ (q * x - 1) ^ 2 :=
    (pow_dvd_pow 2 (hpm.trans_eq (Nat.mul_comm 2 m))).trans (pow_mul (2 : Int) m 2 ▸ pow_dvd_pow_of_dvd h.symm.dvd 2)
  have hsquare : (q : Int) * (x * (2 + -(q * x))) = 1 - (q * x - 1) ^ 2 := by ring
  calc (q : Int) * (x * (2 + (2 ^ n - q * x % 2 ^ n)) % 2 ^ n : Nat)
      ≡ q * (x * (2 + -(q * x))) [ZMOD 2 ^ p] := ((newton_modEq n q x).of_dvd (pow_dvd_pow 2 hpn)).mul_left q
    _ = 1 - (q * x - 1) ^ 2 := hsquare
    _ ≡ 1 [ZMOD 2 ^ p] := Int.modEq_iff_dvd.mpr (by rwa [sub_sub_cancel])

/-- Steps enough to double the bits that are right up to `n`. -/
theorem mul_invPow2 {n q m x : Nat} (k : Nat) (hn : n ≤ m * 2 ^ k) (h : (q : Int) * x ≡ 1 [ZMOD 2 ^ m]) :
    (q : Int) * invPow2 n q k x ≡ 1 [ZMOD 2 ^ n] := by
  induction k generalizing m x with
  | zero =>
    have hx : ((x % 2 ^ n : Nat) : Int) ≡ x [ZMOD 2 ^ n] := by
      rw [Int.natCast_mod, Nat.cast_pow]
      exact Int.mod_modEq _ _
    exact (hx.mul_left q).trans (h.of_dvd (pow_dvd_pow 2 (by simpa using hn)))
  | succ k ih =>
    refine ih (m := min (2 * m) n) ?_ (newton_step q x (min_le_right _ _) (min_le_left _ _) h)
    obtain hle | hle := le_total (2 * m) n
    · rw [min_eq_left hle]
      exact hn.trans_eq (by ring)
    · rw [min_eq_right hle]
      exact Nat.le_mul_of_pos_right n (Nat.two_pow_pos k)

/-- An odd number is its own inverse modulo 8. -/
theorem odd_mul_self {q : Nat} (hodd : q % 2 = 1) : (q : Int) * q ≡ 1 [ZMOD 2 ^ 3] := by
  have hres : (q : Int) % 8 = 1 ∨ (q : Int) % 8 = 3 ∨ (q : Int) % 8 = 5 ∨ (q : Int) % 8 = 7 := by omega
  unfold Int.ModEq
  rw [Int.mul_emod]
  obtain h | h | h | h := hres
  all_goals
    norm_num
    rw [h]
    rfl

/-- The constant −q⁻¹ that QSET derives (R221). -/
theorem negated_inverse {n q : Nat} (k : Nat) (hodd : q % 2 = 1) (hn : n ≤ 3 * 2 ^ k) :
    ((2 ^ n - invPow2 n q k q) % 2 ^ n * q + 1) % 2 ^ n = 0 := by
  have hinv := mul_invPow2 k hn (odd_mul_self hodd)
  have hneg := complement_modEq n (invPow2 n q k q)
  rw [Nat.mod_eq_of_lt (invPow2_lt n q k q)] at hneg
  have hzero : ((((2 ^ n - invPow2 n q k q) % 2 ^ n * q + 1 : Nat)) : Int) ≡ 0 [ZMOD 2 ^ n] := by
    rw [Nat.cast_add, Nat.cast_mul, Int.natCast_mod, Nat.cast_pow]
    calc ((2 ^ n - invPow2 n q k q : Nat) : Int) % 2 ^ n * q + (1 : Nat)
        ≡ -(invPow2 n q k q) * q + 1 [ZMOD 2 ^ n] := (((Int.mod_modEq _ _).trans hneg).mul_right _).add_right _
      _ = 1 - q * invPow2 n q k q := by ring
      _ ≡ 1 - 1 [ZMOD 2 ^ n] := hinv.sub_left 1
  exact_mod_cast hzero

/-! ### Modulus registers -/

theorem getElem_putQ (l : Lve) {i j : Nat} (v : BitVec 24) (hj : j < 4) :
    (putQ l i v).q.toArray.getD j none = if j = i then some (modulusOf v) else l.q.toArray.getD j none := by
  unfold putQ
  simp [Array.getD, hj, Vector.size_toArray]

theorem getQ_putQ (l : Lve) {i j : Nat} (v : BitVec 24) (hj : j < 4) :
    getQ (putQ l i v) j = if j = i then some v else getQ l j := by
  rw [getQ, getElem_putQ l v hj]
  split <;> rfl

theorem q_modulusOf (v : BitVec 24) : (modulusOf v).q = v := rfl

/-- The derived constants of an odd modulus (R221). -/
theorem modulusOf_spec {v : BitVec 24} {q : Nat} (hq : q = v.toNat) (hodd : q % 2 = 1) :
    (modulusOf v).quo24 = 2 ^ 24 / q ∧ (modulusOf v).quo48 = 2 ^ 48 / q ∧ (modulusOf v).rem24 = 2 ^ 24 % q ∧
      (modulusOf v).rem48 = 2 ^ 48 % q ∧ (modulusOf v).inv12 < 2 ^ 12 ∧ ((modulusOf v).inv12 * q + 1) % 2 ^ 12 = 0 ∧
      (modulusOf v).inv24 < 2 ^ 24 ∧ ((modulusOf v).inv24 * q + 1) % 2 ^ 24 = 0 := by
  subst hq
  exact ⟨rfl, rfl, rfl, rfl, Nat.mod_lt _ (by decide), negated_inverse 2 hodd (by decide), Nat.mod_lt _ (by decide),
    negated_inverse 3 hodd (by decide)⟩

/-! ### SLD and its faults (R237, R238) -/

theorem sld_word {e : Fin 32} {f : FmtS} {s : State} {c : Cmd} {l : Lve} (h : lveReady s e (.sld e f) = some (c, l))
    (halign : scalarAddr l f % 4 = 0) (hin : scalarAddr l f + 4 ≤ lveFrame c) :
    LveCompletes e (.sld e f) s c c.frame 0 fun l' =>
      ScalarLaw l l' f.sd.val (BitVec.ofNat 32 (leVal (memRead 0 c.frame (scalarAddr l f) 4))) :=
  completes_putS rfl h (if_pos (elemOk_iff.mpr ⟨halign, hin⟩)) f.sd.isLt

theorem sld_faults {e : Fin 32} {f : FmtS} {s : State} {c : Cmd} {l : Lve} (h : lveReady s e (.sld e f) = some (c, l))
    (hbad : ¬(scalarAddr l f % 4 = 0 ∧ scalarAddr l f + 4 ≤ lveFrame c)) :
    exec (.sld e f) s = .next (lveFault s e c (putS l f.sd.val 0) c.frame 0 (scalarAddr l f)) :=
  exec_of_fault rfl h (if_neg (mt elemOk_iff.mp hbad))

/-! ### Modular instructions without a modulus (R237, R238) -/

/-- An instruction that answers a fault at element 0 with its destinations zero. -/
theorem faultsZero_of_faultV {e : Fin 32} {i : Instr} {s : State} {l : Lve} {rs : List Nat} {k : Cmd → Lve → Nat → LveRes}
    (hl : Map.get? s.eng.lves e.val = some l) (hexec : exec i s = .next (lveStep s e i k))
    (hk : ∀ c, k c l s.free = faultV c l 0 0 rs) : FaultsZero e i s rs := by
  intro c l' h
  obtain rfl : l = l' := Option.some.inj (hl.symm.trans (lves_of_ready h))
  exact exec_of_fault hexec h (hk c)

theorem vnorm_unset {e : Fin 32} {f : FmtA} {s : State} {c : Cmd} {l : Lve} (h : lveReady s e (.vnorm e f) = some (c, l))
    (hq : modulus l f = none) : exec (.vnorm e f) s = .next (lveFault s e c (putP l f.vd.val 0) c.frame 0 0) := by
  obtain ⟨hvd, -⟩ := fieldsA_of_ready h rfl rfl
  refine exec_of_fault rfl h ?_
  rw [hq, Nat.mod_eq_of_lt (show f.vd.val < 8 from hvd)]

end Sys2Proof.Machine

namespace Sys2Proof.Proofs

open Sys2Proof.Machine Sys2Proof.Claims

/-- Settles O9: each instruction writes one scalar, or one modulus register with the constants of its modulus. -/
theorem scalarInstructions : Obligations.ScalarInstructions := by
  unfold Obligations.ScalarInstructions
  refine fun e a f s c l =>
    ⟨fun h => lveCompletes_of_ok rfl h rfl ?_,
     fun h => completes_putS rfl h rfl f.sd.isLt,
     fun h => completes_putS rfl h rfl f.sd.isLt,
     sld_word,
     fun h hbad => ⟨_, sld_faults h hbad, scalarLaw_putS l 0 f.sd.isLt⟩⟩
  obtain ⟨-, -, -, himm, hrange⟩ := fieldsA_of_ready h rfl rfl
  simp only [aRange, Bool.and_eq_true, beq_iff_eq] at hrange
  obtain ⟨hodd, -⟩ := hrange
  refine ⟨rfl, hodd, fun j hj => getQ_putQ l _ hj, fun m q hm hq => ?_⟩
  rw [getElem_putQ l _ a.qm.isLt, if_pos rfl] at hm
  obtain rfl := Option.some.inj hm
  rw [q_modulusOf] at hq
  refine modulusOf_spec hq ?_
  rw [hq, BitVec.toNat_ofNat, Nat.mod_mod_of_dvd _ (by decide), hodd]

/-- Settles O12: the modulus is looked up first, so that nothing else can fail. -/
theorem unsetModulusFaults : Obligations.UnsetModulusFaults := by
  unfold Obligations.UnsetModulusFaults
  intro e f s l hl hq
  have hnone : ∀ {bad : Nat → Bool} q, modulus l f = some q → bad q = true := fun q h => nomatch hq.symm.trans h
  have hgad := fun c inB outB op => gad1_unset c (l := l) (f := f) inB outB op hq
  refine
    ⟨faultsZero_of_faultV hl rfl fun c => linMod_unset c _ hq,
     faultsZero_of_faultV hl rfl fun c => linMod_unset c _ hq,
     faultsZero_of_faultV hl rfl fun c => hgad c ..,
     faultsZero_of_faultV hl rfl fun c => hgad c ..,
     faultsZero_of_faultV hl rfl fun c => withTable_unset c _ _ hq,
     faultsZero_of_faultV hl rfl fun c => withTable_unset c _ _ hq,
     faultsZero_of_faultV hl rfl fun c => withTable_unset c _ _ hq,
     faultsZero_of_faultV hl rfl fun c => hgad c ..,
     faultsZero_of_faultV hl rfl fun c => hgad c ..,
     faultsZero_of_faultV hl rfl fun c => gad2_unset c _ hnone,
     faultsZero_of_faultV hl rfl fun c => gad2_unset c _ hnone,
     faultsZero_of_faultV hl rfl fun c => hgad c ..,
     faultsZero_of_faultV hl rfl fun c => hgad c ..,
     fun himm => ?_,
     fun c h => vnorm_unset h hq⟩
  have hfalse : ¬f.imm.getLsbD 0 = true := by rw [himm]; decide
  exact ⟨faultsZero_of_faultV hl rfl fun c => (if_neg hfalse).trans (hgad c ..),
    faultsZero_of_faultV hl rfl fun c => (if_neg hfalse).trans (by rw [hq])⟩

end Sys2Proof.Proofs
end

section
/-!
PROOFS. Loads (Table 75, R231 to R234, R237, R238; O10): the registers VD to VD + NF − 1, each from memory as it was, and the precise
faults.
-/

namespace Sys2Proof.Machine

open Sys2Proof.Claims

/-! ### Fields of a memory instruction (R236) -/

theorem fieldsM_of_ready {s : State} {e : Fin 32} {i : Instr} {c : Cmd} {l : Lve} {code : Nat} {f : FmtM}
    (h : lveReady s e i = some (c, l)) (hx : lveForm i = some (.m code f)) : f.vd.val + f.nf.val ≤ 31 := by
  have hvalid : mValid code f l.masked (lveFrame c) c.body.length = true := lveValid_of_ready h hx
  unfold mValid at hvalid
  simp only [Bool.and_eq_true, decide_eq_true_eq] at hvalid
  obtain ⟨⟨⟨⟨-, hfields⟩, -⟩, -⟩, -⟩ := hvalid
  exact hfields

theorem planeBad_of_le {l : Lve} {f : FmtM} (h : f.pl.val ≤ l.d) : planeBad l f = false := decide_eq_false (not_lt.mpr h)

theorem planeBad_of_lt {l : Lve} {f : FmtM} (h : l.d < f.pl.val) : planeBad l f = true := decide_eq_true h

/-! ### Consecutive registers -/

/-- Registers `vd` to `vd + n − 1` put one after another. -/
def putFields (l : Lve) (vd : Nat) (reg : Nat → VReg) (n : Nat) : Lve :=
  (List.range n).foldl (fun a k => putV a (vd + k) (reg k)) l

theorem putFields_succ (l : Lve) (vd : Nat) (reg : Nat → VReg) (n : Nat) :
    putFields l vd reg (n + 1) = putV (putFields l vd reg n) (vd + n) (reg n) := by
  simp [putFields, List.range_succ]

theorem keepsBut_putFields (l : Lve) (vd : Nat) (reg : Nat → VReg) (n : Nat) :
    KeepsBut l (putFields l vd reg n) ((List.range n).map (vd + ·)) := by
  induction n with
  | zero => exact ⟨rfl, fun _ _ _ => rfl⟩
  | succ n ih =>
    obtain ⟨hkeeps, hothers⟩ := ih
    refine ⟨by rw [putFields_succ]; exact hkeeps, fun j hj hmem => ?_⟩
    rw [List.range_succ, List.map_append, List.mem_append, not_or] at hmem
    obtain ⟨hbelow, hlast⟩ := hmem
    rw [putFields_succ, getV_putV_ne _ _ (by simpa using hlast), hothers j hj hbelow]

theorem getV_putFields (l : Lve) {vd n k : Nat} (reg : Nat → VReg) (hk : k < n) (hlt : vd + k < 32) :
    getV (putFields l vd reg n) (vd + k) = reg k := by
  induction n with
  | zero => exact absurd hk (Nat.not_lt_zero k)
  | succ n ih =>
    rw [putFields_succ]
    obtain hlast | rfl := Nat.lt_succ_iff_lt_or_eq.mp hk
    · rw [getV_putV_ne _ _ (by omega), ih hlast]
    · exact getV_putV_self _ _ _ hlt

/-! ### Loaded registers -/

/-- A register with plane PL loaded (R231, R232). -/
def loadedReg (l : Lve) (f : FmtM) (old : VReg) (n : Nat → Nat) : VReg :=
  destReg f.w (active l f.pg.val) f.pz old (onlyPlane f.pl.val 0 n) (onlyPlane f.pl.val 1 n) (onlyPlane f.pl.val 2 n)

theorem loadLaw_loadedReg (l : Lve) (f : FmtM) (old : VReg) {n r : Nat → Nat} (hr : ∀ e, n e % 2 ^ ew f.w = r e % 2 ^ ew f.w) :
    LoadLaw f l old (loadedReg l f old n) r := by
  intro k e hk he
  refine (laneOf_destReg f.w (active l f.pg.val) f.pz old (fun k => onlyPlane f.pl.val k n) k e hk he).trans ?_
  by_cases h : k = f.pl.val
  · simp [onlyPlane, h, hr]
  · simp [onlyPlane, h, Ne.symm h]

theorem elemAddr_contiguous (l : Lve) (f : FmtM) (e k : Nat) :
    elemAddr l f false e k = baseAddr l f.sb.val f.disp.toNat + (e * (f.nf.val + 1) + k) * elemBytes f.w := rfl

theorem elemAddr_indexed (l : Lve) (f : FmtM) (e k : Nat) :
    elemAddr l f true e k =
      baseAddr l f.sb.val f.disp.toNat + (laneOf f.w (getV l f.vi.val).p0 e * (f.nf.val + 1) + k) * elemBytes f.w := rfl

/-- Field `k` of the elements as VLD and VGTH take them from memory. -/
def fieldRead (c : Cmd) (l : Lve) (f : FmtM) (indexed : Bool) (k e : Nat) : Nat :=
  readSpace c f.sp (elemAddr l f indexed e k) (elemBytes f.w)

theorem loadM_ok {c : Cmd} {l : Lve} {f : FmtM} {indexed : Bool} (h : AccessOk l f indexed (spaceSize c f.sp)) :
    loadM c l f indexed = .ok (putFields l f.vd.val
      (fun k => loadedReg l f (getV l (f.vd.val + k)) fun e => fieldRead c l f indexed k e % 2 ^ ew f.w) (f.nf.val + 1)) c.frame 0 := by
  obtain ⟨hpl, haccess⟩ := h
  have hfirst := firstFault_none (nf := f.nf.val + 1) fun e k he hact hk => haccess e k he hact (Nat.le_of_lt_succ hk)
  unfold loadM
  dsimp only
  rw [planeBad_of_le hpl, hfirst]
  rfl

theorem loadM_planeBad (c : Cmd) {l : Lve} {f : FmtM} (indexed : Bool) (h : l.d < f.pl.val) :
    loadM c l f indexed = faultV c l 0 0 (fieldRegs f) := if_pos (planeBad_of_lt h)

/-- The first element with an access that fails is the one that the fault names. -/
theorem firstFault_of_firstFails {l : Lve} {f : FmtM} {indexed : Bool} {limit i : Nat} (h : FirstFails l f indexed limit i) :
    firstFault (laneCount f.w) (active l f.pg.val) limit (elemBytes f.w) (f.nf.val + 1) (elemAddr l f indexed) =
      some (i, elemAddr l f indexed i 0) := by
  obtain ⟨hi, hact, ⟨k, hk, hbad⟩, hbelow⟩ := h
  exact firstFault_some hi hact ⟨k, Nat.lt_succ_of_le hk, hbad⟩ fun e k he hact hk => hbelow e k he hact (Nat.le_of_lt_succ hk)

theorem loadM_fails {c : Cmd} {l : Lve} {f : FmtM} {indexed : Bool} {i : Nat} (hpl : f.pl.val ≤ l.d)
    (h : FirstFails l f indexed (spaceSize c f.sp) i) : loadM c l f indexed = faultV c l i (elemAddr l f indexed i 0) (fieldRegs f) := by
  unfold loadM
  dsimp only
  rw [planeBad_of_le hpl, firstFault_of_firstFails h]
  rfl

theorem loadPacked_ok {c : Cmd} {l : Lve} {f : FmtM} (hpl : f.pl.val ≤ l.d)
    (h : baseAddr l f.sb.val f.disp.toNat + laneCount f.w * (f.vi.val + 1) / 8 ≤ spaceSize c f.sp) :
    loadPacked c l f = .ok (putV l f.vd.val (loadedReg l f (getV l f.vd.val) fun e =>
      bits (readSpace c f.sp (baseAddr l f.sb.val f.disp.toNat) (packedBytes f)) (e * (f.vi.val + 1)) (f.vi.val + 1))) c.frame 0 := by
  unfold loadPacked
  dsimp only
  rw [planeBad_of_le hpl]
  exact (if_neg (by decide)).trans (if_neg (not_lt.mpr h))

theorem loadPacked_planeBad (c : Cmd) {l : Lve} {f : FmtM} (h : l.d < f.pl.val) : loadPacked c l f = faultV c l 0 0 [f.vd.val] :=
  if_pos (planeBad_of_lt h)

theorem loadPacked_outside {c : Cmd} {l : Lve} {f : FmtM} (hpl : f.pl.val ≤ l.d)
    (h : spaceSize c f.sp < baseAddr l f.sb.val f.disp.toNat + laneCount f.w * (f.vi.val + 1) / 8) :
    loadPacked c l f = faultV c l 0 (baseAddr l f.sb.val f.disp.toNat) [f.vd.val] := by
  unfold loadPacked
  dsimp only
  rw [planeBad_of_le hpl]
  exact (if_neg (by decide)).trans (if_pos h)

theorem completes_loadM {e : Fin 32} {i : Instr} {s : State} {c : Cmd} {l : Lve} {code : Nat} {f : FmtM} {indexed : Bool}
    {addr : Nat → Nat → Nat} (hexec : exec i s = .next (lveStep s e i fun c l _ => loadM c l f indexed))
    (hform : lveForm i = some (.m code f)) (h : lveReady s e i = some (c, l)) (haccess : AccessOk l f indexed (spaceSize c f.sp))
    (haddr : ∀ j k, elemAddr l f indexed j k = addr k j) :
    LveCompletes e i s c c.frame 0 fun l' => KeepsBut l l' ((List.range (f.nf.val + 1)).map (f.vd.val + ·)) ∧
      ∀ k, k ≤ f.nf.val → LoadLaw f l (getV l (f.vd.val + k)) (getV l' (f.vd.val + k)) fun j =>
        readSpace c f.sp (addr k j) (elemBytes f.w) := by
  have hfields := fieldsM_of_ready h hform
  refine lveCompletes_of_ok hexec h (loadM_ok haccess) ⟨keepsBut_putFields .., fun k hk => ?_⟩
  rw [getV_putFields l _ (Nat.lt_succ_of_le hk) (by omega)]
  refine loadLaw_loadedReg l f _ fun j => ?_
  rw [fieldRead, haddr, Nat.mod_mod]

end Sys2Proof.Machine

namespace Sys2Proof.Proofs

open Sys2Proof.Machine Sys2Proof.Claims

/-- Settles O10: each destination is loaded from memory as it was; the first access that fails is the one that is reported. -/
theorem vectorLoads : Obligations.VectorLoads := by
  unfold Obligations.VectorLoads
  refine fun e f s c l =>
    ⟨fun h haccess => completes_loadM rfl rfl h haccess (elemAddr_contiguous l f),
     fun h haccess => completes_loadM rfl rfl h haccess (elemAddr_indexed l f),
     fun h hpl hin => lveCompletes_of_ok rfl h (loadPacked_ok hpl hin) ⟨keepsBut_putV .., ?_⟩,
     fun i hpl h hfails => exec_of_fault rfl h (loadM_fails hpl hfails),
     fun i hpl h hfails => exec_of_fault rfl h (loadM_fails hpl hfails),
     fun h hpl hout => exec_of_fault rfl h (loadPacked_outside hpl hout),
     fun hbad =>
      ⟨fun h => exec_of_fault rfl h (loadM_planeBad c false hbad),
       fun h => exec_of_fault rfl h (loadM_planeBad c true hbad),
       fun h => exec_of_fault rfl h (loadPacked_planeBad c hbad)⟩⟩
  rw [getV_putV_self l f.vd.val _ f.vd.isLt]
  exact loadLaw_loadedReg l f _ fun _ => rfl

end Sys2Proof.Proofs
end

section
/-!
PROOFS. Stores (Table 75, R231 to R234, R237, R238; O11): elements whose index or field differ lie apart, so what is written last at an
element stays, and bytes outside the elements stay.
-/

namespace Sys2Proof.Machine

open Sys2Proof.Claims

/-! ### Bytes outside a write -/

theorem memGet_memWrite_outside (d : Byte) (m : List Host.Cell) {a x : Nat} {bs : Bytes} (h : x < a ∨ a + bs.length ≤ x) :
    memGet d (memWrite d m a bs) x = memGet d m x := by
  rw [memGet_memWrite, if_neg (by omega)]

theorem memRead_congr {d : Byte} {m m' : List Host.Cell} {a n : Nat} (h : ∀ x, a ≤ x → x < a + n → memGet d m x = memGet d m' x) :
    memRead d m a n = memRead d m' a n := by
  refine List.map_congr_left fun i hi => h _ (Nat.le_add_right a i) ?_
  have := List.mem_range.mp hi
  omega

theorem memRead_memWrite_of_length (d : Byte) (m : List Host.Cell) (a : Nat) {n : Nat} {bs : Bytes} (h : bs.length = n) :
    memRead d (memWrite d m a bs) a n = bs := h ▸ memRead_memWrite d m a bs

/-! ### Elements lie apart (R232) -/

/-- The index of an element: its lane, or the index vector's entry. -/
def elemIndex (l : Lve) (f : FmtM) (indexed : Bool) (e : Nat) : Nat := if indexed then laneOf f.w (getV l f.vi.val).p0 e else e

theorem elemAddr_eq (l : Lve) (f : FmtM) (indexed : Bool) (e k : Nat) : elemAddr l f indexed e k =
    baseAddr l f.sb.val f.disp.toNat + (elemIndex l f indexed e * (f.nf.val + 1) + k) * elemBytes f.w := by
  cases indexed
  · exact elemAddr_contiguous l f e k
  · exact elemAddr_indexed l f e k

/-- Cells of one size at different places of a row lie apart. -/
theorem cells_apart {A E x y : Nat} (h : x ≠ y) : A + x * E + E ≤ A + y * E ∨ A + y * E + E ≤ A + x * E := by
  obtain hlt | hlt := Nat.lt_or_gt_of_ne h
  · have := Nat.mul_le_mul_right E hlt
    rw [Nat.succ_mul] at this
    omega
  · have := Nat.mul_le_mul_right E hlt
    rw [Nat.succ_mul] at this
    omega

theorem elemAddr_apart {l : Lve} {f : FmtM} {indexed : Bool} {e e' k k' : Nat} (hk : k ≤ f.nf.val) (hk' : k' ≤ f.nf.val)
    (h : elemIndex l f indexed e ≠ elemIndex l f indexed e' ∨ k ≠ k') :
    elemAddr l f indexed e k + elemBytes f.w ≤ elemAddr l f indexed e' k' ∨
      elemAddr l f indexed e' k' + elemBytes f.w ≤ elemAddr l f indexed e k := by
  rw [elemAddr_eq, elemAddr_eq]
  refine cells_apart fun heq => ?_
  have hmod := congrArg (· % (f.nf.val + 1)) heq
  have hdiv := congrArg (· / (f.nf.val + 1)) heq
  simp only [Nat.mul_add_mod_of_lt (Nat.lt_succ_of_le hk), Nat.mul_add_mod_of_lt (Nat.lt_succ_of_le hk')] at hmod
  simp only [Nat.mul_comm _ (f.nf.val + 1), Nat.mul_add_div (Nat.succ_pos _), Nat.div_eq_of_lt (Nat.lt_succ_of_le hk),
    Nat.div_eq_of_lt (Nat.lt_succ_of_le hk'), Nat.add_zero] at hdiv
  exact h.elim (absurd hdiv) (absurd hmod)

/-! ### The fields of an element -/

/-- What a store writes of field `k` of element `e`. -/
def storedLane (l : Lve) (f : FmtM) (e k : Nat) : Nat := laneOf f.w ((getV l (f.vd.val + k)).plane f.pl.val) e

theorem two_pow_ew_le (w : Bool) : 2 ^ ew w ≤ 256 ^ elemBytes w := by cases w <;> decide

theorem leVal_storedLane (l : Lve) (f : FmtM) (e k : Nat) :
    leVal (leBytes (elemBytes f.w) (storedLane l f e k)) = storedLane l f e k := by
  rw [leVal_leBytes]
  exact Nat.mod_eq_of_lt ((laneOf_lt ..).trans_le (two_pow_ew_le f.w))

/-- The first `n` fields of an element stored one after another. -/
def storeFields (l : Lve) (f : FmtM) (indexed : Bool) (e : Nat) (m : List Host.Cell) (n : Nat) : List Host.Cell :=
  (List.range n).foldl (fun m k => memWrite 0 m (elemAddr l f indexed e k) (leBytes (elemBytes f.w) (storedLane l f e k))) m

theorem storeFields_succ (l : Lve) (f : FmtM) (indexed : Bool) (e : Nat) (m : List Host.Cell) (n : Nat) :
    storeFields l f indexed e m (n + 1) = memWrite 0 (storeFields l f indexed e m n) (elemAddr l f indexed e n)
      (leBytes (elemBytes f.w) (storedLane l f e n)) := by
  simp [storeFields, List.range_succ]

theorem storeFields_outside {l : Lve} {f : FmtM} {indexed : Bool} {e n a : Nat} (m : List Host.Cell)
    (h : ∀ k, k < n → a < elemAddr l f indexed e k ∨ elemAddr l f indexed e k + elemBytes f.w ≤ a) :
    memGet 0 (storeFields l f indexed e m n) a = memGet 0 m a := by
  induction n with
  | zero => rfl
  | succ n ih =>
    rw [storeFields_succ, memGet_memWrite_outside _ _ (by rw [leBytes_length]; exact h n (Nat.lt_succ_self n)),
      ih fun k hk => h k (Nat.lt_succ_of_lt hk)]

theorem storeFields_reads {l : Lve} {f : FmtM} {indexed : Bool} {e n k : Nat} (m : List Host.Cell) (hk : k < n) (hn : n ≤ f.nf.val + 1) :
    memRead 0 (storeFields l f indexed e m n) (elemAddr l f indexed e k) (elemBytes f.w) =
      leBytes (elemBytes f.w) (storedLane l f e k) := by
  induction n with
  | zero => exact absurd hk (Nat.not_lt_zero k)
  | succ n ih =>
    rw [storeFields_succ]
    obtain hlt | rfl := Nat.lt_succ_iff_lt_or_eq.mp hk
    · rw [← ih hlt (by omega)]
      have hapart := elemAddr_apart (l := l) (f := f) (indexed := indexed) (e := e) (e' := e) (k := k) (k' := n) (by omega) (by omega)
        (.inr hlt.ne)
      exact memRead_congr fun x hx hx' => memGet_memWrite_outside _ _ (by rw [leBytes_length]; omega)
    · exact memRead_memWrite_of_length _ _ _ (leBytes_length ..)

/-! ### The elements below a bound (R233, R238) -/

theorem storeElems_succ (l : Lve) (f : FmtM) (indexed : Bool) (frame : List Host.Cell) (n : Nat) :
    storeElems l f indexed frame (n + 1) =
      if active l f.pg.val n then storeFields l f indexed n (storeElems l f indexed frame n) (f.nf.val + 1)
      else storeElems l f indexed frame n := by
  rw [storeElems, List.range_succ (n := n), List.foldl_append]
  rfl

/-- Bytes outside the stored elements stay. -/
theorem storeElems_outside {l : Lve} {f : FmtM} {indexed : Bool} {n a : Nat} (frame : List Host.Cell)
    (h : ∀ j k, j < n → active l f.pg.val j = true → k ≤ f.nf.val →
      a < elemAddr l f indexed j k ∨ elemAddr l f indexed j k + elemBytes f.w ≤ a) :
    memGet 0 (storeElems l f indexed frame n) a = memGet 0 frame a := by
  induction n with
  | zero => rfl
  | succ n ih =>
    have hbelow := ih fun j k hj => h j k (Nat.lt_succ_of_lt hj)
    rw [storeElems_succ]
    split
    · rename_i hact
      rw [storeFields_outside _ fun k hk => h n k (Nat.lt_succ_self n) hact (Nat.le_of_lt_succ hk), hbelow]
    · exact hbelow

/-- An element whose index no higher active one has reads as it was stored. -/
theorem storeElems_reads {l : Lve} {f : FmtM} {indexed : Bool} {n i k : Nat} (frame : List Host.Cell) (hi : i < n)
    (hact : active l f.pg.val i = true) (hk : k ≤ f.nf.val)
    (hlast : ∀ j, i < j → j < n → active l f.pg.val j = true → elemIndex l f indexed j ≠ elemIndex l f indexed i) :
    leVal (memRead 0 (storeElems l f indexed frame n) (elemAddr l f indexed i k) (elemBytes f.w)) = storedLane l f i k := by
  induction n with
  | zero => exact absurd hi (Nat.not_lt_zero i)
  | succ n ih =>
    rw [storeElems_succ]
    obtain hlt | rfl := Nat.lt_succ_iff_lt_or_eq.mp hi
    · have hbelow := ih hlt fun j hij hj => hlast j hij (Nat.lt_succ_of_lt hj)
      split
      · rename_i hact'
        rw [← hbelow]
        refine congrArg leVal (memRead_congr fun x hx hx' => storeFields_outside _ fun k' hk' => ?_)
        have hapart := elemAddr_apart hk (Nat.le_of_lt_succ hk') (.inl (hlast n hlt (Nat.lt_succ_self n) hact').symm)
        omega
      · exact hbelow
    · rw [if_pos hact, storeFields_reads _ (Nat.lt_succ_of_le hk) le_rfl, leVal_storedLane]

/-! ### VST and VSCT -/

theorem storeM_ok {c : Cmd} {l : Lve} {f : FmtM} {indexed : Bool} (h : AccessOk l f indexed (lveFrame c)) :
    storeM c l f indexed = .ok l (storeElems l f indexed c.frame (laneCount f.w)) 0 := by
  obtain ⟨hpl, haccess⟩ := h
  have hfirst := firstFault_none (nf := f.nf.val + 1) fun e k he hact hk => haccess e k he hact (Nat.le_of_lt_succ hk)
  rw [storeM, planeBad_of_le hpl, hfirst]
  rfl

theorem storeM_fails {c : Cmd} {l : Lve} {f : FmtM} {indexed : Bool} {i : Nat} (hpl : f.pl.val ≤ l.d)
    (h : FirstFails l f indexed (lveFrame c) i) :
    storeM c l f indexed = .fault i (elemAddr l f indexed i 0) l (storeElems l f indexed c.frame i) := by
  rw [storeM, planeBad_of_le hpl, firstFault_of_firstFails h]
  rfl

theorem storeM_planeBad (c : Cmd) {l : Lve} {f : FmtM} (indexed : Bool) (h : l.d < f.pl.val) :
    storeM c l f indexed = .fault 0 0 l c.frame := if_pos (planeBad_of_lt h)

/-! ### VSTP (R234) -/

/-- The packed string that VSTP writes. -/
def packedLanes (l : Lve) (f : FmtM) : Nat :=
  digitSum (f.vi.val + 1) (laneOf f.w ((getV l f.vd.val).plane f.pl.val)) (laneCount f.w)

theorem packedLanes_lt (l : Lve) (f : FmtM) : packedLanes l f < 256 ^ packedBytes f := by
  have hbits : 8 * packedBytes f = (f.vi.val + 1) * laneCount f.w := by
    unfold packedBytes laneCount
    split <;> omega
  calc packedLanes l f < 2 ^ ((f.vi.val + 1) * laneCount f.w) := digitSum_lt ..
    _ = 256 ^ packedBytes f := by rw [show 256 = 2 ^ 8 from rfl, ← pow_mul, hbits]

theorem bits_packedLanes (l : Lve) (f : FmtM) {e : Nat} (he : e < laneCount f.w) :
    bits (packedLanes l f) (e * (f.vi.val + 1)) (f.vi.val + 1) =
      laneOf f.w ((getV l f.vd.val).plane f.pl.val) e % 2 ^ (f.vi.val + 1) := by
  rw [bits, Nat.mul_comm e]
  exact digitSum_digit _ _ _ _ he

/-- The frame with the packed string at its address. -/
def packedFrame (c : Cmd) (l : Lve) (f : FmtM) : List Host.Cell :=
  memWrite 0 c.frame (baseAddr l f.sb.val f.disp.toNat) (leBytes (packedBytes f) (packedLanes l f))

theorem storePacked_ok {c : Cmd} {l : Lve} {f : FmtM} (hpl : f.pl.val ≤ l.d)
    (h : baseAddr l f.sb.val f.disp.toNat + laneCount f.w * (f.vi.val + 1) / 8 ≤ lveFrame c) :
    storePacked c l f = .ok l (packedFrame c l f) 0 := by
  have hin : ¬lveFrame c < baseAddr l f.sb.val f.disp.toNat + packedBytes f := not_lt.mpr h
  rw [packedFrame, packedLanes, digitSum]
  unfold storePacked
  dsimp only
  rw [planeBad_of_le hpl, if_neg Bool.false_ne_true, if_neg hin]
  simp only [Nat.mul_comm (f.vi.val + 1)]

theorem storePacked_planeBad (c : Cmd) {l : Lve} {f : FmtM} (h : l.d < f.pl.val) : storePacked c l f = .fault 0 0 l c.frame :=
  if_pos (planeBad_of_lt h)

theorem storePacked_outside {c : Cmd} {l : Lve} {f : FmtM} (hpl : f.pl.val ≤ l.d)
    (h : lveFrame c < baseAddr l f.sb.val f.disp.toNat + laneCount f.w * (f.vi.val + 1) / 8) :
    storePacked c l f = .fault 0 (baseAddr l f.sb.val f.disp.toNat) l c.frame := by
  have hout : lveFrame c < baseAddr l f.sb.val f.disp.toNat + packedBytes f := h
  unfold storePacked
  dsimp only
  rw [planeBad_of_le hpl, if_neg Bool.false_ne_true, if_pos hout]

theorem leVal_packedFrame (c : Cmd) (l : Lve) (f : FmtM) :
    leVal (memRead 0 (packedFrame c l f) (baseAddr l f.sb.val f.disp.toNat) (packedBytes f)) = packedLanes l f := by
  rw [packedFrame, memRead_memWrite_of_length _ _ _ (leBytes_length ..), leVal_leBytes]
  exact Nat.mod_eq_of_lt (packedLanes_lt l f)

theorem packedFrame_outside (c : Cmd) (l : Lve) (f : FmtM) {a : Nat}
    (h : a < baseAddr l f.sb.val f.disp.toNat ∨ baseAddr l f.sb.val f.disp.toNat + packedBytes f ≤ a) :
    memGet 0 (packedFrame c l f) a = memGet 0 c.frame a :=
  memGet_memWrite_outside _ _ (by rwa [leBytes_length])

/-! ### SST -/

/-- The frame with a scalar at its word. -/
def scalarFrame (c : Cmd) (l : Lve) (f : FmtS) : List Host.Cell :=
  memWrite 0 c.frame (scalarAddr l f) (leBytes 4 (getS l f.sd.val).toNat)

theorem memRead_scalarFrame (c : Cmd) (l : Lve) (f : FmtS) :
    memRead 0 (scalarFrame c l f) (scalarAddr l f) 4 = leBytes 4 (getS l f.sd.val).toNat :=
  memRead_memWrite_of_length _ _ _ (leBytes_length ..)

theorem scalarFrame_outside (c : Cmd) (l : Lve) (f : FmtS) {a : Nat} (h : a < scalarAddr l f ∨ scalarAddr l f + 4 ≤ a) :
    memGet 0 (scalarFrame c l f) a = memGet 0 c.frame a :=
  memGet_memWrite_outside _ _ (by rwa [leBytes_length])

end Sys2Proof.Machine

namespace Sys2Proof.Proofs

open Sys2Proof.Machine Sys2Proof.Claims

/-- Settles O11: what an element's last store wrote stays, and so does every byte outside the elements. -/
theorem vectorStores : Obligations.VectorStores := by
  unfold Obligations.VectorStores
  refine fun e f g s c l =>
    ⟨fun h haccess => ⟨_, lveCompletes_of_ok rfl h (storeM_ok haccess) rfl, fun i k hi hact hk => ?_,
      fun a => storeElems_outside c.frame⟩,
     fun h haccess => ⟨_, lveCompletes_of_ok rfl h (storeM_ok haccess) rfl,
      fun i k hi hact hk => storeElems_reads (indexed := true) c.frame hi hact hk, fun a => storeElems_outside c.frame⟩,
     fun h hpl hin => ⟨_, lveCompletes_of_ok rfl h (storePacked_ok hpl hin) rfl, fun i hi => ?_, fun a => packedFrame_outside c l f⟩,
     fun h halign hin => ⟨_, lveCompletes_of_ok rfl h (if_pos (elemOk_iff.mpr ⟨halign, hin⟩)) rfl, memRead_scalarFrame c l g,
      fun a => scalarFrame_outside c l g⟩,
     fun n hpl h hfails => ⟨_, exec_of_fault rfl h (storeM_fails hpl hfails), fun i k hi hact hk => ?_,
      fun a => storeElems_outside c.frame⟩,
     fun n hpl h hfails => ⟨_, exec_of_fault rfl h (storeM_fails hpl hfails),
      fun i k hi hact hk => storeElems_reads (indexed := true) c.frame hi hact hk, fun a => storeElems_outside c.frame⟩,
     fun h hpl hout => ⟨_, exec_of_fault rfl h (storePacked_outside hpl hout), rfl⟩,
     fun h hbad => ⟨_, exec_of_fault rfl h (if_neg (mt elemOk_iff.mp hbad)), rfl⟩,
     fun hbad =>
      ⟨fun h => ⟨_, exec_of_fault rfl h (storeM_planeBad c false hbad), rfl⟩,
       fun h => ⟨_, exec_of_fault rfl h (storeM_planeBad c true hbad), rfl⟩,
       fun h => ⟨_, exec_of_fault rfl h (storePacked_planeBad c hbad), rfl⟩⟩⟩
  · exact storeElems_reads c.frame hi hact hk fun j hij _ _ => hij.ne'
  · exact (congrArg (bits · _ _) (leVal_packedFrame c l f)).trans (bits_packedLanes l f hi)
  · exact storeElems_reads c.frame hi hact hk fun j hij _ _ => hij.ne'

end Sys2Proof.Proofs
end
